-- ==== Sys2Proof/Word.lean ====
section
/-! DEFINITION. The word types of the device: a byte, a 32-bit register or token, a 64-bit register, a 128-bit ring
word (spec/00_scope.md, section on notation; spec/07, R234). -/
namespace Sys2Proof

/-- A byte. -/
abbrev Byte := BitVec 8

/-- A 32-bit word: a register (R91), a token identifier, an FP32 value as it is stored. -/
abbrev W32 := BitVec 32

/-- A 64-bit word: a wide register (R91), a device time stamp. -/
abbrev W64 := BitVec 64

/-- A 128-bit ring word (R234). -/
abbrev W128 := BitVec 128

end Sys2Proof
end

