-- ==== Sys2Proof/Syntax.lean ====
section
/-! DEFINITION. The commands the block takes: one constructor of `Instr` per row of spec/opcode_table.json. An operand
is what the outside (host software, a peer, a sensor, a mechanism whose result the spec leaves to its inputs) supplies
with the event: ring words as read, the bytes a DMA read returned or its failure, a sensor reading, a choice the spec
leaves to the device. Everything else comes from State. A ring word is the number that its 16 bytes of host memory spell, a
prompt token the number of its 4: little-endian (R5). -/
namespace Sys2Proof

/-- A requester of the register network (spec/03, section Ordering). -/
inductive Requester where
  | pf0
  | vf (t : Nat)
  | heartwood
  | jtag
  | smbus
  deriving DecidableEq, Repr

/-- A memory range a register access addresses (spec/03, Table 03.1). -/
inductive Bar where
  | pfBar0
  | pfBar2
  | vfBar0 (t : Nat)
  deriving DecidableEq, Repr

/-- What the device learns of a step program when it reads and checks the program section of a package
(spec/11, R382; spec/05, R159; spec/04, R137; spec/15, R527). -/
structure ProgInfo where
  workTable : Bool
  breaksR137 : Bool
  tileBoundNs : Nat
  boundaryAcc : Nat
  liveSram : Nat
  shards : Nat
  /-- The number of the first vocabulary shard it computes: 0 unless another part of the group holds shards before it. -/
  firstShard : Nat
  /-- The first token of each of its shards, ascending, and the token after its last (R344). -/
  bounds : List Nat
  regFile : Nat
  scratch : Nat
  accum : Nat
  /-- The work table's (X, Y, Z) of each work class 0 to 7, FP32 (spec/15, R527). -/
  work : List (W32 × W32 × W32)
  deriving DecidableEq, Repr

/-- A number format of spec/04, Table 04.2. -/
inductive Format where
  | fp32 | bf16 | fp16 | e4m3 | e5m2 | e3m2 | e2m3 | e2m1
  deriving DecidableEq, Repr

/-- A function of the vector unit (spec/04, R147); `copy` converts between formats. -/
inductive VecFn where
  | copy | add | mul | fma | exp | log | recip | rsqrt | tanh
  deriving DecidableEq, Repr

/-- Where a cluster finds or puts values (spec/04, R123, R136): FP32 words of its register file or accumulator storage
from a word on, or a tensor in its scratch SRAM or in the partition's memory: format, start of the element array and, for
an MX format, of the scale array. -/
inductive Place where
  | reg (word : Nat)
  | acc (word : Nat)
  | scratch (fmt : Format) (elems scales : Nat)
  | mem (fmt : Format) (elems scales : Nat)
  deriving DecidableEq, Repr

/-- An instruction of a task, by its effect (spec/04, section Clusters): `n` products added to an accumulator word by the
MAC array, a vector function over `n` elements (with the tensor that a memory destination is written in, by ID and place
of its first element; spec/20, R680), the program's own bytes written to memory, `n` bytes of memory sent to a partition address
of a member of the replica group, as a KVXFER (`kv`) or a COLL (spec/14, Table 14.3), a tile boundary. -/
inductive ClusterOp where
  | mac (acc : Nat) (a b : Place) (n : Nat)
  | vec (f : VecFn) (dst : Place) (srcs : List Place) (n : Nat) (tensor : Option (Nat × Nat))
  | put (addr : Nat) (bytes : List Byte)
  | send (kv : Bool) (node src n dst : Nat)
  | tile
  deriving DecidableEq, Repr

/-- A task of a step program, as the grove sequencer takes it from the plan (spec/05, section Tasks and tiles), with the
instructions it has still to execute. -/
structure Task where
  id : Nat
  tiled : Bool
  tileBoundNs : Nat
  boundaryAcc : Nat
  liveSram : Nat
  ops : List ClusterOp
  deriving DecidableEq, Repr

/-- What the engine hands the groves of a step: the tasks of its program, in program order, and the tokens of each prefill
chunk as its second read returns them, by the request's entry (spec/02, R66; spec/07, R255). -/
structure PlanTasks where
  tasks : List Task
  prompts : List (Nat × List W32)
  deriving DecidableEq, Repr

/-- The model's logits of one vocabulary shard at one sampled position: of which request, at which position of its
item, of the draft's pass or the target's (spec/10, R349 to R351). -/
structure PosLogits where
  req : Nat
  pos : Nat
  draft : Bool
  logits : List (Nat × W32)
  deriving DecidableEq, Repr

/-- A candidate list with its partial log-sum-exp for one sampled position, as it crosses X04 or Cezlink
(spec/10, R351; spec/14, Table 14.7). -/
structure CandList where
  req : Nat
  pos : Nat
  draft : Bool
  shard : Nat
  cands : List (Nat × W32)
  m : W32
  s : W32
  nonfinite : Bool
  deriving DecidableEq, Repr

/-- Which part of MSI-X is unmasked (spec/16, R572). -/
inductive MsixPart where
  | vector (v : Nat)
  | function
  | enable
  deriving DecidableEq, Repr

/-- The erroneous 8-bit symbols that a read of a 32-byte DRAM word meets, and that its one retry meets (spec/06, R203 to
R205). -/
structure EccRead where
  first : Nat
  retry : Nat
  deriving DecidableEq, Repr

/-- A device pin the block drives (spec/22). -/
inductive Pin where
  | faultN
  | thermtripN
  | spiRstN
  | spiCsN
  deriving DecidableEq, Repr

/-- What a PLAN names of one group sequence (spec/14, R502 to R504): its index in the leader's Request Table, its first
staged position and their number, whether its last position is sampled, and the sampling fields its shards need. -/
structure PlanSeq where
  idx : Nat
  first : Nat
  n : Nat
  sampled : Bool
  temp : Nat
  topK : Nat
  repPen : Nat
  presPen : Nat
  freqPen : Nat
  deriving DecidableEq, Repr

/-- A CAND position record (spec/14, Table 14.7): the sampled position's index in the plan, whether a NaN or infinite
logit was met, (m, S) of each of the device's shards in ascending order, and its merged candidates. -/
structure CandPos where
  pos : Nat
  nonfinite : Bool
  shards : List (W32 × W32)
  cands : List (Nat × W32)
  deriving DecidableEq, Repr

/-- What a COMMIT names of one sequence (spec/14, R507): the tokens emitted and the positions committed. -/
structure CommitSeq where
  idx : Nat
  tokens : List Nat
  positions : Nat
  deriving DecidableEq, Repr

/-- A RAMP message (spec/14, R515; spec/15, section Ramp-domain exchange). -/
structure RampMsg where
  dom : Nat
  period : Nat
  power : Nat
  next : Nat
  raise : Nat
  flags : Nat
  deriving DecidableEq, Repr

/-- What a FORM_ACK answers (spec/14, R501). -/
structure FormInfo where
  handle : Nat
  layers : Nat
  pLog2 : Nat
  firstShard : Nat
  shards : Nat
  free : Nat
  /-- The part's concurrency cap (spec/11, R401). -/
  concCap : Nat
  deriving DecidableEq, Repr

/-- Where a message came in: port, source node and message number (spec/14, Table 14.2; spec/20, Table 20.5). -/
structure LinkHdr where
  port : Nat
  src : Nat
  msg : Nat
  deriving DecidableEq, Repr

/-- The tensor bytes of a step's collective: its step tag, and each byte by partition address (spec/14, R510). -/
structure Tensor where
  tag : Nat
  bytes : List (Nat × Byte)
  deriving DecidableEq, Repr

/-- Bus Master Enable and Memory Space Enable of a function's Command register (spec/16, R563). -/
structure PciCommand where
  bme : Bool
  mse : Bool
  deriving DecidableEq, Repr

/-- 10-bit Tag Requester Enable, and the code of Max Read Request Size (128 bytes times 2 to it), of a function's Device
Control registers (spec/16, R569). -/
structure DeviceControl where
  tag10 : Bool
  mrrs : Nat
  deriving DecidableEq, Repr

/-- The content of a message (spec/14, Table 14.3). -/
inductive LinkMsg where
  | trainExch (node port width stepping : Nat)
  | form (gid modelId index : Nat)
  | formAck (gid : Nat) (info : FormInfo)
  | heartbeat (gid : Nat) (answer : Bool)
  | leave (gid : Nat)
  | modelRequest (handle : Nat)
  | plan (gid tag : Nat) (seqs : List PlanSeq)
  | planAck (gid tag free : Nat) (short : Bool)
  | cand (gid tag : Nat) (lists : List CandPos)
  | commit (gid tag : Nat) (seqs : List CommitSeq)
  | abandon (gid tag : Nat)
  | abandonAck (gid tag : Nat)
  | release (gid : Nat) (idxs : List Nat)
  | ramp (r : RampMsg)
  | stamp (time : Nat)
  /-- Tensor bytes and KV bytes, by partition address of the receiver. -/
  | coll (gid tag : Nat) (bytes : List (Nat × Byte))
  | kvxfer (gid tag : Nat) (bytes : List (Nat × Byte))
  /-- Bytes `first` to `first + len − 1` of the package of resident model `handle` (R514). -/
  | modelXfer (handle first len : Nat)
  | sampPage (gid idx : Nat) (mask : List Byte) (bias : List (Nat × W32))
  deriving DecidableEq, Repr

/-- What a unit reports to the fault collector (spec/13, Table 13.2): the faults that no other command of the table
brings with it. `corrected` marks a single-bit error. -/
inductive FaultSrc where
  /-- A cluster's SRAM or accumulator: grove, logical cluster. -/
  | clusterEcc (g l : Nat) (corrected : Bool)
  /-- The translator refused an access of a context (global number). -/
  | translator (ctx : Nat)
  /-- A read of the DRAM word at a physical address. -/
  | dram (addr : Nat) (ecc : EccRead)
  /-- A grove sequencer's plan buffer. -/
  | planBuffer (g : Nat)
  /-- A crossing, and which of its copies: grove, channel or port. -/
  | crossing (num unit : Nat) (corrected : Bool)
  /-- The state of a composer lane. -/
  | lane (p : Nat)
  /-- Regulator, binding or accounting state of a partition. -/
  | partState (p : Nat) (corrected : Bool)
  /-- Queues, counts, tables and model-cache state of the Request Engine; `device` marks device-wide PRT state. -/
  | requestEngine (device corrected : Bool)
  /-- The sampler's buffers and tables. -/
  | sampler (corrected : Bool)
  /-- The L2 line that set `set` of grove `g`'s slice holds in way `way`. -/
  | l2 (g set way : Nat)
  /-- The image store: the running slot's copy, or the profile's. -/
  | imageStore (profile : Bool)
  /-- The trace FIFO of a partition, and the partial state of one of its watch slots (R691): no faults. -/
  | traceFifo (p : Nat)
  | assay (p slot : Nat)
  /-- The collector's own state. -/
  | collector (corrected : Bool)
  deriving DecidableEq, Repr

/-- What one poll of a shelf device reads (spec/15, R538): STATUS_WORD, the battery word, READ_VIN, READ_IIN, READ_PIN,
READ_POUT and READ_TEMPERATURE_1 as read; `retried` are the transactions, by place in the poll, whose attempt was NACKed and
whose repeat was not; `failed` is the one that was NACKed twice, after which the device is not read on. -/
structure ShelfRead where
  status : Nat
  batt : Nat
  vin : Nat
  iin : Nat
  pin : Nat
  pout : Nat
  temp : Nat
  retried : List Nat
  failed : Option Nat
  deriving DecidableEq, Repr

/-- What a device read that failed was for (spec/16, Table 16.7). -/
inductive DmaRead where
  /-- Words of a submission ring. -/
  | ring (t s : Nat)
  /-- The prompt array or the extension block of the item at the head of a ring, with its words. -/
  | item (t s : Nat) (words : List W128)
  /-- A prompt array during prefill: the cohort. -/
  | prefill (cohort : Nat)
  /-- A mask or an extension block at admission: the request's entry. -/
  | admission (idx : Nat)
  /-- A park slot during an unpark, or the flush read of a park: partition, the request's entry. -/
  | park (p idx : Nat)
  /-- The header or program section that a LOAD_MODEL reads. -/
  | package
  /-- The body of the model in a slot. -/
  | model (n : Nat)
  deriving DecidableEq, Repr

/-- How a device read failed (spec/16, HST_DMA_LAST_ERR KIND). -/
inductive DmaKind where
  | timeout | ur | ca | poisoned | ecrc
  deriving DecidableEq, Repr

/-- How the reads of a region of the attached flash went (spec/17, R592, R608): clean, repeated once with success, or
failed twice for the header or for the payload. -/
inductive RegionRead where
  | clean | retried | headerBad | payloadBad
  deriving DecidableEq, Repr

/-- What the attached flash's SFDP gives (spec/17, R585): density in Mbit, whether the properties of Table 17.2 hold, and
the highest 8D-8D-8D and 1-4-4 clock it advertises, in MHz. -/
structure Sfdp where
  densityMbit : Nat
  fit : Bool
  octalMhz : Option Nat
  quadMhz : Nat
  deriving DecidableEq, Repr

/-- A part of the on-chip NVM whose newest record fails its CRC on both reads (spec/18, R622). -/
inductive NvmPart where
  | bankA | bankB | owner48 | owner49 | life | map
  deriving DecidableEq, Repr

/-- A settings record (spec/18, R614): tag, format version, RETAINED, data. -/
structure SetRec where
  tag : Nat
  ver : Nat
  retained : Bool
  data : List Byte
  deriving DecidableEq, Repr

/-- The commands of the block (spec/opcode_table.json). -/
inductive Instr where
  /-- SQ_DOORBELL: a write of `v` to RQI_SQ_DB_s of tenant `t`, through PF0 BAR2 (`viaPf`) or the VF. -/
  | sqDoorbell (t s : Nat) (viaPf : Bool) (v : Nat)
  /-- CQ_DOORBELL: a write of `v` to RQI_CQ_DB_c. -/
  | cqDoorbell (t c : Nat) (viaPf : Bool) (v : Nat)
  /-- SUBMIT: the ring words read at the head, the prompt array and the extension block as read (none: the read
  failed); a new request takes the first free Request Table entry from `pick` on. -/
  | submit (t s : Nat) (words : List W128) (prompt : Option (List W32)) (ext : Option (List Byte)) (pick : Nat)
  /-- COHORT: the ring words read at the head. -/
  | cohort (t s : Nat) (words : List W128)
  /-- CANCEL: the ring words read at the head. -/
  | cancel (t s : Nat) (words : List W128)
  /-- FENCE: the ring words read at the head. -/
  | fence (t s : Nat) (words : List W128)
  /-- FENCE_PASS on ring `s`. -/
  | fencePass (t s : Nat)
  /-- ITEM_REREAD: the words the second read returns. -/
  | itemReread (t s : Nat) (words : List W128)
  /-- FLUSH: a write of FLUSH to RQI_SQ_CTL_s. -/
  | flush (t s : Nat)
  /-- FLUSH_DONE. -/
  | flushDone (t s : Nat)
  /-- SQ_ENABLE: a write of RQI_SQ_CFG_s that carries ENABLE 1. -/
  | sqEnable (t s : Nat) (cfg : W32)
  /-- SQ_DISABLE: a write of RQI_SQ_CFG_s that carries ENABLE 0. -/
  | sqDisable (t s : Nat) (cfg : W32)
  /-- CQ_ENABLE: a write of RQI_CQ_CFG_c that carries ENABLE 1. -/
  | cqEnable (t c : Nat) (cfg : W32)
  /-- CQ_DISABLE: a write of RQI_CQ_CFG_c that carries ENABLE 0. -/
  | cqDisable (t c : Nat) (cfg : W32)
  /-- COMPLETION_RECORD_WRITE on completion ring `c`. -/
  | completionRecordWrite (t c : Nat)
  /-- COALESCE_TIMEOUT of completion ring `c`. -/
  | coalesceTimeout (t c : Nat)
  /-- MSIX_UNMASK of function `fn` (0 is PF0, n is VF n): a vector, the function mask, or MSI-X Enable. -/
  | msixUnmask (fn : Nat) (what : MsixPart)
  /-- RESERVED_ITEM_TYPE: the ring words read at the head. -/
  | reservedItemType (t s : Nat) (words : List W128)
  /-- ADMISSION_EVALUATE of the head of the queue of tenant `t`, class `c`. -/
  | admissionEvaluate (t c : Nat)
  /-- BUDGET_REFILL. -/
  | budgetRefill
  /-- QUEUE_DEADLINE_SCAN. -/
  | queueDeadlineScan
  /-- MASK_COPY_DONE for the request in entry `idx`: the mask bytes and the extension block as read (none: failed). -/
  | maskCopyDone (idx : Nat) (mask : Option (List Byte)) (ext : Option (List Byte))
  /-- DEADLINE_CHECK. -/
  | deadlineCheck
  /-- HOLDER_SELECT in partition `p`. -/
  | holderSelect (p : Nat)
  /-- STEP_COMPOSE in partition `p`. -/
  | stepCompose (p : Nat)
  /-- POWER_WAIT_RETRY in partition `p`. -/
  | powerWaitRetry (p : Nat)
  /-- STEP_EXECUTE in partition `p`: the plan as the groves get it. -/
  | stepExecute (p : Nat) (plan : PlanTasks)
  /-- TASK_COMPLETE in partition `p`: logical cluster `l` of grove `g` ends task `task`, with the step tag its completion
  carries over the grove's X04 (R67). -/
  | taskComplete (p g l tag task : Nat)
  /-- TASK_WATCHDOG on cluster `cl`. -/
  | taskWatchdog (p cl : Nat)
  /-- CANDIDATE_ARRIVE: the logits of one shard for the sampled positions of the step of tag `tag`. -/
  | candidateArrive (p tag shard : Nat) (positions : List PosLogits)
  /-- STEP_COMMIT in partition `p`. -/
  | stepCommit (p : Nat)
  /-- STEP_DEADLINE of the step of context `ctx` (local number) in partition `p`. -/
  | stepDeadline (p ctx : Nat)
  /-- GROVE_ABANDON_ACK from grove `g`. -/
  | groveAbandonAck (p g : Nat)
  /-- COMPOSE_TIMEOUT of lane `p`. -/
  | composeTimeout (p : Nat)
  /-- PREEMPT_RAISE in partition `p`. -/
  | preemptRaise (p : Nat)
  /-- CLUSTER_TILE_STOP of cluster `cl`. -/
  | clusterTileStop (p cl : Nat)
  /-- PREEMPT_ESCALATE in partition `p`. -/
  | preemptEscalate (p : Nat)
  /-- PREEMPT_SAVE_DONE in partition `p`. -/
  | preemptSaveDone (p : Nat)
  /-- RESTORE_DONE in partition `p`; `bad` is the physical address of a word of the save area that a lasting
  uncorrectable read met. -/
  | restoreDone (p : Nat) (bad : Option Nat)
  /-- IMODE_STOP_TIMEOUT of cluster `cl`. -/
  | imodeStopTimeout (p cl : Nat)
  /-- SAVE_WRITE_TIMEOUT in partition `p`. -/
  | saveWriteTimeout (p : Nat)
  /-- DEBUG_HALT of partition `p`. -/
  | debugHalt (p : Nat)
  /-- DEBUG_HALT_RELEASE of partition `p`. -/
  | debugHaltRelease (p : Nat)
  /-- PARK_START in partition `p`. -/
  | parkStart (p : Nat)
  /-- PARK_COMPLETE of the request in entry `idx`; `ok` false when the DMA failed. -/
  | parkComplete (p idx : Nat) (ok : Bool)
  /-- UNPARK_START in partition `p`. -/
  | unparkStart (p : Nat)
  /-- UNPARK_COMPLETE of the request in entry `idx`: the bytes of its slots, in order; `ok` false when the DMA failed. -/
  | unparkComplete (p idx : Nat) (ok : Bool) (data : List (List Byte))
  /-- SCRUB_READ of the 32-byte word at physical address `addr`: what ECC found there. -/
  | scrubRead (addr : Nat) (ecc : EccRead)
  /-- MAILBOX_GO: a write of GO to MGT_MBX_CTL. -/
  | mailboxGo
  /-- SMBUS_MCTP_REQUEST: the request's OPCODE, TAG, LENGTH and payload. -/
  | smbusMctpRequest (opcode tag len : Nat) (payload : List Byte)
  /-- SMBUS_SCL_TIMEOUT. -/
  | smbusSclTimeout
  /-- LOAD_COST_TABLE: the mailbox command that runs. -/
  | loadCostTable
  /-- CLEAR_COST_TABLE: the mailbox command that runs. -/
  | clearCostTable
  /-- LOAD_MODEL: the mailbox command that runs; the header as read with what the program section declares (none: that
  read failed). -/
  | loadModel (src : Option (List Byte × ProgInfo))
  /-- ADD_CONTEXT: the mailbox command that runs. -/
  | addContext
  /-- EVICT_MODEL with FORCE 0: the mailbox command that runs. -/
  | evictModel
  /-- EVICT_MODEL with FORCE 1: the mailbox command that runs. -/
  | evictModelForce
  /-- PIN_MODEL with bit 0 set: the mailbox command that runs. -/
  | pinModel
  /-- PIN_MODEL with bit 0 clear: the mailbox command that runs. -/
  | unpinModel
  /-- PAIR_DRAFT with a draft handle: the mailbox command that runs. -/
  | pairDraft
  /-- PAIR_DRAFT with draft handle 0: the mailbox command that runs. -/
  | unpairDraft
  /-- MODEL_TRANSFER_DONE of slot `n`: the CRC-32C of the body received, and the bytes it wrote by partition address. -/
  | modelTransferDone (n : Nat) (crc : W32) (bytes : List (Nat × Byte))
  /-- MODEL_TRANSFER_FAILED of slot `n`. -/
  | modelTransferFailed (n : Nat)
  /-- MODEL_DRAIN_EVICT of slot `n`. -/
  | modelDrainEvict (n : Nat)
  /-- DRAIN_PARTITION: the mailbox command that runs. -/
  | drainPartition
  /-- DRAIN_DONE of partition `p`. -/
  | drainDone (p : Nat)
  /-- RESUME_PARTITION: the mailbox command that runs. -/
  | resumePartition
  /-- RECONFIGURE: the mailbox command that runs. -/
  | reconfigure
  /-- MIGRATE_TENANT: the mailbox command that runs. -/
  | migrateTenant
  /-- MIGRATE_DONE of tenant `t`. -/
  | migrateDone (t : Nat)
  /-- FAULT_REPORT. -/
  | faultReport (src : FaultSrc)
  /-- PARTITION_RESET_COMPLETE of partition `p`. -/
  | partitionResetComplete (p : Nat)
  /-- FAULTN_CLEAR: a write of `v` to FLT_FAULTN. -/
  | faultnClear (v : W32)
  /-- PLL_LOSS_OF_LOCK of the domain with bit `b` of HST_CLK_STATUS LOCK. -/
  | pllLossOfLock (b : Nat)
  /-- WATCHDOG_KICK. -/
  | watchdogKick
  /-- WATCHDOG_EXPIRY. -/
  | watchdogExpiry
  /-- TEARDOWN_CONTEXT: the mailbox command that runs. -/
  | teardownContext
  /-- RESET_PARTITION: the mailbox command that runs. -/
  | resetPartition
  /-- RESET_TENANT: the mailbox command that runs. -/
  | resetTenant
  /-- READ_FAULT_LOG: the mailbox command that runs. -/
  | readFaultLog
  /-- CLEAR_FAULT_LOG: the mailbox command that runs. -/
  | clearFaultLog
  /-- LINK_TRAIN_STAGE_DONE on port `n`: the margins measured (EQUALIZE; 4 bits a lane) and the lanes aligned (ALIGN). -/
  | linkTrainStageDone (n margins aligned : Nat)
  /-- LINK_TRAIN_TIMEOUT on port `n`, with the lanes aligned by then. -/
  | linkTrainTimeout (n aligned : Nat)
  /-- TRAIN_EXCH received on port `n`: the peer's node ID, port, width and stepping. -/
  | trainExch (n node port width stepping : Nat)
  /-- DATA_FLIT_RECEIVE on port `n`: the 256 bytes as received. -/
  | dataFlitReceive (n : Nat) (bytes : List Byte)
  /-- CONTROL_FLIT_RECEIVE on port `n`: whether its CRC is right, the LSEQ acknowledged last, the LSEQ named in a NAK, and
  the credits returned so far per class. -/
  | controlFlitReceive (n : Nat) (crcOk : Bool) (ack nak : Option Nat) (credits : List Nat)
  /-- LINK_DEGRADE_DONE on port `n`, with the lanes aligned. -/
  | linkDegradeDone (n aligned : Nat)
  /-- MSG_REASSEMBLY_TIMEOUT of message `msg` from node `src`. -/
  | msgReassemblyTimeout (src msg : Nat)
  /-- RETRAIN_PORT: the mailbox command that runs. -/
  | retrainPort
  /-- SET_ROUTES: the mailbox command that runs. -/
  | setRoutes
  /-- DEFINE_GROUP: the mailbox command that runs. -/
  | defineGroup
  /-- MGMT_FORM: the group ID, the MODEL_ID and the device index. -/
  | mgmtForm (h : LinkHdr) (gid modelId index : Nat)
  /-- MGMT_FORM_ACK: the group ID and what the follower answers. -/
  | mgmtFormAck (h : LinkHdr) (gid : Nat) (info : FormInfo)
  /-- FORM_RESEND of model slot `n`. -/
  | formResend (n : Nat)
  /-- MGMT_HEARTBEAT: the group ID; `answer` marks a follower's answer. -/
  | mgmtHeartbeat (h : LinkHdr) (gid : Nat) (answer : Bool)
  /-- HEARTBEAT_SEND of model slot `n`. -/
  | heartbeatSend (n : Nat)
  /-- PEER_LOSS of the member `node` of the group of model slot `n`. -/
  | peerLoss (n node : Nat)
  /-- MGMT_LEAVE. -/
  | mgmtLeave (h : LinkHdr) (gid : Nat)
  /-- MGMT_PEER_MODEL_REQUEST: the handle asked for. -/
  | mgmtPeerModelRequest (h : LinkHdr) (handle : Nat)
  /-- PLAN: the group ID, the step tag and the sequences planned. -/
  | plan (h : LinkHdr) (gid tag : Nat) (seqs : List PlanSeq)
  /-- PLAN_ACK: the follower's FREE pages; `short` when it could not take the plan's. -/
  | planAck (h : LinkHdr) (gid tag free : Nat) (short : Bool)
  /-- CAND: the position records. -/
  | cand (h : LinkHdr) (gid tag : Nat) (lists : List CandPos)
  /-- COMMIT: per sequence the tokens emitted and the positions committed. -/
  | commit (h : LinkHdr) (gid tag : Nat) (seqs : List CommitSeq)
  /-- ABANDON. -/
  | abandon (h : LinkHdr) (gid tag : Nat)
  /-- ABANDON_ACK. -/
  | abandonAck (h : LinkHdr) (gid tag : Nat)
  /-- RELEASE: the table indices of ended requests. -/
  | release (h : LinkHdr) (gid : Nat) (idxs : List Nat)
  /-- RELEASE_SEND of model slot `n`. -/
  | releaseSend (n : Nat)
  /-- SAMPPAGE: a request's table index, its mask and its bias entries. -/
  | samppage (h : LinkHdr) (gid idx : Nat) (mask : List Byte) (bias : List (Nat × W32))
  /-- COLL: the tensor bytes of a step. -/
  | coll (h : LinkHdr) (gid : Nat) (x : Tensor)
  /-- KVXFER: the bytes, by partition address of this device's partition. -/
  | kvxfer (h : LinkHdr) (gid tag : Nat) (bytes : List (Nat × Byte))
  /-- MODELXFER for the load in model slot `n`: the bytes, by partition address. -/
  | modelxfer (h : LinkHdr) (n : Nat) (bytes : List (Nat × Byte))
  /-- PLANISHER_PERIOD: the rail power monitor's average over the ended period in mW (none: no update), and the die sensors
  that updated, in 1/8 °C (sensors 2g and 2g + 1 are grove g's). -/
  | planisherPeriod (meas : Option Nat) (sensors : List (Nat × Int))
  /-- CCLK_SWITCH. -/
  | cclkSwitch
  /-- HANDOVER_HOLD_EXPIRY of partition `p`. -/
  | handoverHoldExpiry (p : Nat)
  /-- BATTERY_MODE_BEGIN: whether BBU_N has been low for 1 ms. -/
  | batteryModeBegin (bbuLow : Bool)
  /-- BATTERY_MODE_END: BBU_N has been high for 1 s. -/
  | batteryModeEnd
  /-- PMBUS_POLL: what each shelf device answers; a device not named fails at its first transaction. -/
  | pmbusPoll (reads : List (Nat × ShelfRead))
  /-- SHELF_RETRY of device `d`: the STATUS_WORD read, and whether by the repeat (none: it failed twice). -/
  | shelfRetry (d : Nat) (status : Option (Nat × Bool))
  /-- THERMAL_EMERGENCY_BEGIN: whether COOL_ALERT_N has been low for 1 ms. -/
  | thermalEmergencyBegin (alertLow : Bool)
  /-- THERMAL_EMERGENCY_END: COOL_ALERT_N has been high for 100 ms. -/
  | thermalEmergencyEnd
  /-- RAMP: a RAMP message of node `src`. -/
  | ramp (src : Nat) (r : RampMsg)
  /-- RAMP_SEND. -/
  | rampSend
  /-- STAMP: a STAMP message, with the device time it carries. -/
  | stamp (h : LinkHdr) (time : Nat)
  /-- STAMP_SEND. -/
  | stampSend
  /-- REGULATOR_REFILL. -/
  | regulatorRefill
  /-- DOE_DISCOVERY: the request's payload. -/
  | doeDiscovery (req : List Byte)
  /-- GET_VERSION: the SPDM request. -/
  | getVersion (req : List Byte)
  /-- GET_CAPABILITIES: the SPDM request. -/
  | getCapabilities (req : List Byte)
  /-- NEGOTIATE_ALGORITHMS: the SPDM request. -/
  | negotiateAlgorithms (req : List Byte)
  /-- GET_DIGESTS: the SPDM request. -/
  | getDigests (req : List Byte)
  /-- GET_CERTIFICATE: the SPDM request. -/
  | getCertificate (req : List Byte)
  /-- CHALLENGE: the SPDM request. -/
  | challenge (req : List Byte)
  /-- GET_MEASUREMENTS: the SPDM request. -/
  | getMeasurements (req : List Byte)
  /-- SPDM_UNSUPPORTED_REQUEST: the SPDM request. -/
  | spdmUnsupportedRequest (req : List Byte)
  /-- DOE_ABORT. -/
  | doeAbort
  /-- VF_FLR of the virtual function of tenant `t`. -/
  | vfFlr (t : Nat)
  /-- PF0_FLR. -/
  | pf0Flr
  /-- VF_ENABLE_SET with the NumVFs in force. -/
  | vfEnableSet (numVfs : Nat)
  /-- VF_ENABLE_CLEAR. -/
  | vfEnableClear
  /-- BUS_MASTER_ENABLE: a write of function `fn`'s Command and Device Control registers. -/
  | busMasterEnable (fn : Nat) (cmd : PciCommand) (ctl : DeviceControl)
  /-- D3HOT_ENTRY: function `fn` enters D3hot, or leaves it. -/
  | d3hotEntry (fn : Nat) (enter : Bool)
  /-- LINK_SPEED_CHANGE: the link is in L0 at SPEED code `speed` (1 to 6) with `width` lanes. -/
  | linkSpeedChange (speed width : Nat) (flit : Bool)
  /-- PCIE_LINK_DOWN. -/
  | pcieLinkDown
  /-- PCIE_FATAL_ERROR. -/
  | pcieFatalError
  /-- DMA_READ_FAILED: what the read was for, how it failed, and the start address of the failing request. -/
  | dmaReadFailed (what : DmaRead) (kind : DmaKind) (addr : Nat)
  /-- UNEXPECTED_COMPLETION for function `fn`. -/
  | unexpectedCompletion (fn : Nat)
  /-- MALFORMED_READ of `len` bytes at offset `o`. -/
  | malformedRead (who : Requester) (bar : Bar) (o len : Nat)
  /-- DB_ROUTE_WRITE: a write of `v` to HST_DB_ROUTE_LO (`h` 0) or HI (`h` 1). -/
  | dbRouteWrite (h : Nat) (v : W32)
  /-- REGISTER_WRITE of `len` bytes at offset `o`; `hw`: the flags of the register that hardware sets in that cycle. -/
  | registerWrite (who : Requester) (bar : Bar) (o len : Nat) (v : W64) (hw : Nat)
  /-- REGISTER_READ of `len` bytes at offset `o`. -/
  | registerRead (who : Requester) (bar : Bar) (o len : Nat)
  /-- DEVTIME_READ of HST_DEVTIME or its VF copy: 8 bytes, or 4 at its lower (`hi` false) or upper half. -/
  | devtimeRead (who : Requester) (bar : Bar) (len : Nat) (hi : Bool)
  /-- FLT_LAST_READ of `len` bytes (4 or 8) from word `k`. -/
  | fltLastRead (who : Requester) (k len : Nat)
  /-- DBGWIN_CTL_WRITE. -/
  | dbgwinCtlWrite (v : W32)
  /-- DEBUG_WINDOW_ACCESS through PF0 BAR4: a read of `len` bytes at offset `o`, or a write of bytes. -/
  | debugWindowAccess (o len : Nat) (data : Option (List Byte))
  /-- SELECT_PROFILE: the mailbox command that runs. -/
  | selectProfile
  /-- LOAD_VOLATILE_CONFIG BEGIN: the mailbox command that runs. -/
  | loadVolatileBegin
  /-- LOAD_VOLATILE_CONFIG CHUNK: the mailbox command that runs. -/
  | loadVolatileChunk
  /-- LOAD_VOLATILE_CONFIG END: the mailbox command that runs. -/
  | loadVolatileEnd
  /-- LOAD_VOLATILE_CONFIG CANCEL: the mailbox command that runs. -/
  | loadVolatileCancel
  /-- GET_CONFIG_STATUS: the mailbox command that runs. -/
  | getConfigStatus
  /-- FLASH_INFO: the mailbox command that runs. -/
  | flashInfo
  /-- FLASH_READ: the mailbox command that runs; `ok` false when the flash does not complete it. -/
  | flashRead (ok : Bool)
  /-- FLASH_ERASE: the mailbox command that runs; `ok` false when the flash does not complete it. -/
  | flashErase (ok : Bool)
  /-- FLASH_PROGRAM: the mailbox command that runs; `ok` false when the flash does not complete it. -/
  | flashProgram (ok : Bool)
  /-- SETTINGS_LOAD: records whose first read failed its CRC, and the parts whose newest record failed both reads. -/
  | settingsLoad (transient : Nat) (lost : List NvmPart)
  /-- STORE_SETTINGS: the mailbox command that runs; `ok` false when a unit does not read back. -/
  | storeSettings (ok : Bool)
  /-- DISCARD_SETTINGS: the mailbox command that runs. -/
  | discardSettings
  /-- READ_SETTING: the mailbox command that runs. -/
  | readSetting
  /-- WRITE_SETTING: the mailbox command that runs. -/
  | writeSetting
  /-- READ_LIFETIME: the mailbox command that runs. -/
  | readLifetime
  /-- GET_OWNER_NONCE: the mailbox command that runs. -/
  | getOwnerNonce
  /-- SET_OWNER_STATE: the mailbox command that runs; `ok` false when the owner copy does not read back. -/
  | setOwnerState (ok : Bool)
  /-- INSTALL_OWNER_KEY: the mailbox command that runs; `ok` false when the owner copy does not read back. -/
  | installOwnerKey (ok : Bool)
  /-- AUTOMATIC_STORE; `ok` false when a unit does not read back. -/
  | automaticStore (ok : Bool)
  /-- LIFETIME_SNAPSHOT. -/
  | lifetimeSnapshot
  /-- UPDATE_BEGIN: the mailbox command that runs. -/
  | updateBegin
  /-- UPDATE_CHUNK: the mailbox command that runs; `ok` false when the flash does not complete an erase or a program. -/
  | updateChunk (ok : Bool)
  /-- UPDATE_COMMIT with MODE RESET: the mailbox command that runs; how the read of the image went; `ok` false when the
  write of the root loader does not read back. -/
  | updateCommit (reads : RegionRead) (ok : Bool)
  /-- UPDATE_COMMIT with MODE LIVE, with the same operands. -/
  | updateCommitLive (reads : RegionRead) (ok : Bool)
  /-- UPDATE_CONFIRM: the mailbox command that runs. -/
  | updateConfirm
  /-- UPDATE_ABORT that closes a session: the mailbox command that runs. -/
  | updateAbort
  /-- UPDATE_ABORT that rejects the trial: the mailbox command that runs. -/
  | updateRejectTrial
  /-- SESSION_IDLE_TIMEOUT. -/
  | sessionIdleTimeout
  /-- CONFIRM_WINDOW_EXPIRY. -/
  | confirmWindowExpiry
  /-- HEARTWOOD_HANDOFF: the records that the new firmware converts at its first start (R623). -/
  | heartwoodHandoff (conv : List SetRec)
  /-- LOAD_MICROCODE: the mailbox command that runs. -/
  | loadMicrocode
  /-- REPAIR_CLUSTERS: the mailbox command that runs; the physical clusters that fail the self-test, by grove. -/
  | repairClusters (fails : List (Nat × Nat))
  /-- TRACE_ENABLE: a write of `v` with EN 1 to TRC_TCTL_p. -/
  | traceEnable (p : Nat) (v : W32)
  /-- TRACE_DISABLE: a write of `v` with EN 0 to TRC_TCTL_p. -/
  | traceDisable (p : Nat) (v : W32)
  /-- TRACE_RECORD_WRITE in partition `p`. -/
  | traceRecordWrite (p : Nat)
  /-- MARK_BEGIN with its immediate ID, on global logical cluster `cl`. -/
  | markBegin (p cl id : Nat)
  /-- MARK_END. -/
  | markEnd (p cl id : Nat)
  /-- POR_ASSERT. -/
  | porAssert
  /-- POR_DEASSERT: the levels of PROFSEL1 and PROFSEL0 and of SMB_ADDR1 and SMB_ADDR0 as numbers; whether RST_BTN_N is
  low. -/
  | porDeassert (profsel smbAddr : Nat) (btnLow : Bool)
  /-- TCLK_LOCK. -/
  | tclkLock
  /-- ROOT_LOADER_CHECK: how the reads of the root-loader region went. -/
  | rootLoaderCheck (reads : RegionRead)
  /-- FLASH_MODE_SELECT: what SFDP gives (none: no answer). -/
  | flashModeSelect (sfdp : Option Sfdp)
  /-- IMAGE_CHECK: how the reads of each region went: 0 and 1 the directory and its mirror, 2 and 3 the slots, 4 to 7 the
  profiles; a region not named was read cleanly. -/
  | imageCheck (reads : List (Nat × RegionRead))
  /-- BOOT_HANDOFF: the records that the slot's firmware converts at its first start (R623). -/
  | bootHandoff (conv : List SetRec)
  /-- CHANNEL_TRAINING_DONE: the channels that failed once, and those that failed twice. -/
  | channelTrainingDone (first second : Nat)
  /-- GROVE_SELF_TEST: the physical clusters that fail, by grove. -/
  | groveSelfTest (fails : List (Nat × Nat))
  /-- LAYOUT_COMPLETE. -/
  | layoutComplete
  /-- CEZLINK_PORTS_SETTLED. -/
  | cezlinkPortsSettled
  /-- SERVICE_ENTRY. -/
  | serviceEntry
  /-- WARM_CHIP_RESET. -/
  | warmChipReset
  /-- BALLAST_RUNDOWN_DONE. -/
  | ballastRundownDone
  /-- UNDERVOLTAGE. -/
  | undervoltage
  /-- UNDERVOLTAGE_END, with what POR_DEASSERT samples. -/
  | undervoltageEnd (profsel smbAddr : Nat) (btnLow : Bool)
  /-- VAON_LOSS: the NVM sectors whose erase the loss interrupts between its intent record and its header. -/
  | vaonLoss (torn : List Nat)
  /-- THERMTRIP. -/
  | thermtrip
  /-- PERST_ASSERT. -/
  | perstAssert
  /-- PERST_DEASSERT. -/
  | perstDeassert
  /-- HOT_RESET. -/
  | hotReset
  /-- BUTTON_LOW_STABLE. -/
  | buttonLowStable
  /-- BUTTON_PRESS. -/
  | buttonPress
  /-- BUTTON_STUCK. -/
  | buttonStuck
  /-- BUTTON_HONOURED. -/
  | buttonHonoured
  /-- HEARTWOOD_RESUME. -/
  | heartwoodResume
  /-- F4_HOLD_EXPIRY. -/
  | f4HoldExpiry
  /-- RESET_CHIP: the mailbox command that runs. -/
  | resetChip
  /-- BYPASS. -/
  | bypass
  /-- IDCODE. -/
  | idcode
  /-- SAMPLE_PRELOAD: the pin levels captured, and the boundary register loaded. -/
  | samplePreload (pins load : Nat)
  /-- EXTEST: the pin levels captured and the boundary register loaded, when a scan follows. -/
  | extest (scan : Option (Nat × Nat))
  /-- CLAMP. -/
  | clamp
  /-- HIGHZ. -/
  | highz
  /-- TEST_LOGIC_RESET. -/
  | testLogicReset
  /-- JTAG_DEBUG_ACCESS: `len` bytes at offset `o` of PF0 BAR0; `data` is a write: its value, and the flags that hardware
  sets in its cycle (R102). -/
  | jtagDebugAccess (o len : Nat) (data : Option (W64 × Nat))
  deriving DecidableEq, Repr

end Sys2Proof
end

