-- ==== Sys2Proof/Config.lean ====
section
/-! DEFINITION. What the spec leaves to the device: functions whose results it bounds and does not give (exp and log,
R147, R739), values it names without a value (nonces, signatures, digests, identities), the grey points of timing
across clock domains (R61). Each is an opaque constant: no proof can see a value of it. Where a fresh value is needed
each time, the argument is `State.free`, a counter that the step advances. -/
namespace Sys2Proof.Config

/-- The results of the vector unit's functions before their bound is applied, for one FP32 argument (R147, R739). -/
opaque vecFn : VecFn → W32 → W32

/-- The word a cluster's storage holds where its task has written nothing (R164 calls it dead): by the task's placement,
the storage (0 register file, 1 accumulators, 2 scratch) and the index. -/
opaque deadWord : (placement store index : Nat) → W32

/-- The way an L2 miss takes among those it may take (R223). -/
opaque l2Way : (free : Nat) → Nat

/-- exp and log of the merge stage before their bound is applied, for the release of the sampler tables (R739). -/
opaque tabExp : W64 → W32 → W32
opaque tabLog : W64 → W32 → W32

/-- Lag in ticks of a domain's copy of device time behind device time, before its bound is applied (R61, R64, R65): QCLK,
FCLK, LCLK, CCLK, MCLK, PCLK, ACLK and SCLK. -/
opaque lagQ : Nat → Nat
opaque lagF : Nat → Nat
opaque lagL : Nat → Nat
opaque lagC : Nat → Nat
opaque lagM : Nat → Nat
opaque lagP : Nat → Nat
opaque lagA : Nat → Nat
opaque lagS : Nat → Nat

/-- A fresh byte string (a nonce, contents no rule gives) of the length asked for. -/
opaque freshByte : (free index : Nat) → Byte
def freshBytes (free len : Nat) : List Byte := (List.range len).map (freshByte free)

/-- SHA-384 of bytes, 48 bytes; the ECDSA P-384 check of a signature over a digest under a public key (R573, R592,
R628). -/
opaque sha384Byte : (message : List Byte) → (index : Nat) → Byte
def sha384 (message : List Byte) : List Byte := (List.range 48).map (sha384Byte message)
opaque ecdsaOk : (key digest sig : List Byte) → Bool

/-- The device's signature with its own key over SPDM messages, each time anew, 96 bytes (R573). -/
opaque spdmSignByte : (free : Nat) → (messages : List Byte) → (index : Nat) → Byte
def spdmSign (free : Nat) (messages : List Byte) : List Byte := (List.range 96).map (spdmSignByte free messages)

/-- The boot ROM's keys, the device's identity and its certificate chain (spec/16, spec/19; no value is given). -/
opaque releaseKey : List Byte
opaque certChain : List Byte

/-- What a work-table value stands for that is negative, infinite or a NaN, by its bits (spec/15, R528 gives none). -/
opaque workValue : Nat → Nat

/-- A value the spec does not state, of a width the caller takes it at. -/
opaque freeNat : Nat → Nat

/-- The payload bytes of a message whose layout the spec does not give, and the 16 bytes in which a group message carries
its group ID and step tag (spec/14, R501 to R509). -/
opaque payload : LinkMsg → List Byte
opaque groupHeader : (gid tag : Nat) → W128

/-- exp(−HORIZON_MS / TAU_DIE_MS) in units of 2^−32 (spec/15, R542): a function the spec names and does not give. -/
opaque decay : (horizon tau : Nat) → Nat

/-- The attached flash and the root loader as delivered (spec/17, spec/18). -/
opaque flashInit : Nat → Byte
opaque factoryRoot : List Byte

end Sys2Proof.Config
end

