-- ==== Sys2Proof/Machine/RegMap.lean ====
section
/-! DEFINITION. The register cards of the spec (Table 03.2 and the cards at the end of each chapter): each card's
place in PF0 BAR0, its copies, its reset value and its fields with their access types (R6) and legal encodings (R97);
and one name for every field. VF BAR0 offsets are mapped onto these keys (Ops.lean), so each register has one home. -/
namespace Sys2Proof.Machine

/-- The access types of R6. A bit no field names is RSV. -/
inductive Acc where
  | ro | rw | w1c | rc | wo
  deriving DecidableEq, Repr

/-- One field of a card: its bits, its access type and, for an RW field, the encodings the spec does not reserve. -/
structure CardField where
  lo : Nat
  w : Nat
  acc : Acc
  vmin : Nat
  vmax : Nat
  deriving DecidableEq, Repr

/-- A register card: base offset in PF0 BAR0 (copy 0), copies as (count, stride) from the largest stride down,
64-bit or not (R91), reset value, fields. -/
structure Card where
  base : Nat
  dims : List (Nat × Nat)
  wide : Bool
  reset : Nat
  fields : List CardField
  deriving DecidableEq, Repr

/-- A field by name: the offset of its register's copy, its lowest bit and its width. -/
structure Fld where
  key : Nat
  lo : Nat
  w : Nat
  deriving DecidableEq, Repr

/-- The cards of block HST. -/
def cardsHST : List Card := [
  /- HST_ID -/ ⟨0, [], false, 0x1A21280, [⟨0, 16, .ro, 0, 0xFFFF⟩, ⟨16, 8, .ro, 0, 0xFF⟩, ⟨24, 8, .ro, 0, 0xFF⟩]⟩,
  /- HST_FW_VER -/ ⟨4, [], false, 0, [⟨0, 16, .ro, 0, 0xFFFF⟩, ⟨16, 8, .ro, 0, 0xFF⟩, ⟨24, 8, .ro, 0, 0xFF⟩]⟩,
  /- HST_RL_VER -/ ⟨8, [], false, 0, [⟨0, 16, .ro, 0, 0xFFFF⟩, ⟨16, 8, .ro, 0, 0xFF⟩, ⟨24, 8, .ro, 0, 0xFF⟩]⟩,
  /- HST_CAPS -/ ⟨0xC, [], false, 0x400C10, [⟨0, 5, .ro, 0, 0x1F⟩, ⟨8, 4, .ro, 0, 0xF⟩, ⟨16, 8, .ro, 0, 0xFF⟩]⟩,
  /- HST_SCRATCH -/ ⟨0x10, [], false, 0, [⟨0, 32, .rw, 0, 0xFFFFFFFF⟩]⟩,
  /- HST_STATUS -/ ⟨0x20, [], false, 3, [⟨0, 2, .ro, 0, 3⟩, ⟨2, 1, .ro, 0, 1⟩, ⟨3, 1, .ro, 0, 1⟩]⟩,
  /- HST_DEVTIME -/ ⟨0x200, [], true, 0, [⟨0, 64, .ro, 0, 0xFFFFFFFFFFFFFFFF⟩]⟩,
  /- HST_CLK_STATUS -/ ⟨0x210, [], false, 0x100, [⟨0, 9, .ro, 0, 0x1FF⟩, ⟨16, 1, .w1c, 0, 1⟩, ⟨24, 8, .ro, 0, 0xFF⟩]⟩,
  /- HST_CLK_INT_EN -/ ⟨0x214, [], false, 0, [⟨16, 1, .rw, 0, 1⟩]⟩,
  /- HST_CLK_FREQ -/ ⟨0x218, [], false, 0, [⟨0, 12, .ro, 0, 0xFFF⟩]⟩,
  /- HST_ERR_STATUS -/ ⟨0x220, [], false, 0, [⟨0, 1, .w1c, 0, 1⟩, ⟨1, 1, .w1c, 0, 1⟩, ⟨2, 1, .w1c, 0, 1⟩, ⟨3, 1, .w1c, 0, 1⟩, ⟨4, 1, .w1c, 0, 1⟩, ⟨5, 1, .w1c, 0, 1⟩, ⟨8, 8, .rc, 0, 0xFF⟩, ⟨24, 8, .ro, 0, 0xFF⟩]⟩,
  /- HST_ERR_INT_EN -/ ⟨0x224, [], false, 0, [⟨0, 6, .rw, 0, 0x3F⟩]⟩,
  /- HST_DB_ROUTE -/ ⟨0x300, [(2, 4)], false, 0, [⟨0, 32, .rw, 0, 0xFFFFFFFF⟩]⟩,
  /- HST_DBGWIN_CTL -/ ⟨0x400, [], false, 0, [⟨0, 1, .rw, 0, 1⟩, ⟨4, 4, .rw, 0, 0xF⟩]⟩,
  /- HST_PCIE_LINK -/ ⟨0x500, [], false, 0, [⟨0, 3, .ro, 0, 7⟩, ⟨3, 5, .ro, 0, 0x1F⟩, ⟨8, 1, .ro, 0, 1⟩, ⟨16, 7, .ro, 0, 0x7F⟩]⟩,
  /- HST_PCIE_STATUS -/ ⟨0x510, [], false, 0, [⟨0, 1, .w1c, 0, 1⟩, ⟨1, 1, .w1c, 0, 1⟩, ⟨2, 1, .w1c, 0, 1⟩, ⟨3, 1, .w1c, 0, 1⟩, ⟨4, 1, .w1c, 0, 1⟩, ⟨24, 8, .ro, 0, 0xFF⟩]⟩] ++ [
  /- HST_PCIE_INT_EN -/ ⟨0x514, [], false, 0, [⟨0, 5, .rw, 0, 0x1F⟩]⟩,
  /- HST_DMA_ERR_CNT -/ ⟨0x520, [], false, 0, [⟨0, 16, .rc, 0, 0xFFFF⟩, ⟨16, 16, .rc, 0, 0xFFFF⟩]⟩,
  /- HST_DMA_LAST_ERR -/ ⟨0x528, [], true, 0, [⟨0, 7, .ro, 0, 0x7F⟩, ⟨8, 4, .ro, 0, 0xF⟩, ⟨12, 4, .ro, 0, 0xF⟩]⟩,
  /- HST_DMA_LAST_ADDR -/ ⟨0x530, [], true, 0, [⟨0, 57, .ro, 0, 0x1FFFFFFFFFFFFFF⟩]⟩,
  /- HST_STRAPS -/ ⟨0x600, [], false, 0x1500, [⟨0, 2, .ro, 0, 3⟩, ⟨2, 2, .ro, 0, 3⟩, ⟨8, 6, .ro, 0, 0x3F⟩, ⟨16, 7, .ro, 0, 0x7F⟩]⟩]

/-- The cards of block MGT. -/
def cardsMGT : List Card := [
  /- MGT_STATUS -/ ⟨0x100000, [], false, 0, [⟨0, 4, .ro, 0, 0xF⟩, ⟨4, 2, .ro, 0, 3⟩, ⟨6, 1, .ro, 0, 1⟩, ⟨8, 2, .ro, 0, 3⟩]⟩,
  /- MGT_MBX_CTL -/ ⟨0x100010, [], false, 0, [⟨0, 1, .wo, 0, 1⟩]⟩,
  /- MGT_MBX_STATUS -/ ⟨0x100014, [], false, 0, [⟨0, 1, .w1c, 0, 1⟩, ⟨1, 1, .w1c, 0, 1⟩, ⟨2, 1, .w1c, 0, 1⟩, ⟨3, 1, .w1c, 0, 1⟩, ⟨4, 1, .w1c, 0, 1⟩, ⟨16, 1, .ro, 0, 1⟩, ⟨17, 1, .ro, 0, 1⟩, ⟨24, 8, .ro, 0, 0xFF⟩]⟩,
  /- MGT_MBX_INT_EN -/ ⟨0x100018, [], false, 0, [⟨0, 5, .rw, 0, 0x1F⟩]⟩,
  /- MGT_UPD_STATE -/ ⟨0x100030, [], false, 0, [⟨0, 2, .ro, 0, 3⟩, ⟨2, 1, .ro, 0, 1⟩, ⟨3, 1, .ro, 0, 1⟩, ⟨4, 2, .ro, 0, 3⟩, ⟨6, 1, .ro, 0, 1⟩, ⟨16, 12, .ro, 0, 0xFFF⟩]⟩,
  /- MGT_UPD_OFFSET -/ ⟨0x100034, [], false, 0, [⟨0, 25, .ro, 0, 0x1FFFFFF⟩]⟩,
  /- MGT_UPD_LAST -/ ⟨0x100038, [], false, 0, [⟨0, 16, .ro, 0, 0xFFFF⟩, ⟨16, 16, .ro, 0, 0xFFFF⟩]⟩,
  /- MGT_UPD_STATUS -/ ⟨0x100040, [], false, 0, [⟨0, 1, .w1c, 0, 1⟩, ⟨1, 1, .w1c, 0, 1⟩, ⟨2, 1, .w1c, 0, 1⟩, ⟨3, 1, .w1c, 0, 1⟩, ⟨4, 1, .w1c, 0, 1⟩, ⟨5, 1, .w1c, 0, 1⟩, ⟨6, 1, .w1c, 0, 1⟩, ⟨24, 8, .ro, 0, 0xFF⟩]⟩,
  /- MGT_BOOT_INFO -/ ⟨0x100080, [], false, 0, [⟨0, 3, .ro, 0, 7⟩, ⟨3, 1, .ro, 0, 1⟩, ⟨4, 1, .ro, 0, 1⟩, ⟨5, 1, .ro, 0, 1⟩, ⟨16, 16, .ro, 0, 0xFFFF⟩]⟩,
  /- MGT_BOOT_T -/ ⟨0x100090, [(7, 8)], true, 0xFFFFFFFFFFFFFFFF, [⟨0, 64, .ro, 0, 0xFFFFFFFFFFFFFFFF⟩]⟩,
  /- MGT_MBX_AREA -/ ⟨0x101000, [(1024, 4)], false, 0, [⟨0, 32, .rw, 0, 0xFFFFFFFF⟩]⟩]

/-- The cards of block CFG. -/
def cardsCFG : List Card := [
  /- CFG_STATUS -/ ⟨0x200000, [], false, 0x20000, [⟨0, 16, .ro, 0, 0xFFFF⟩, ⟨16, 2, .ro, 0, 3⟩, ⟨18, 1, .ro, 0, 1⟩, ⟨20, 2, .ro, 0, 3⟩, ⟨22, 1, .ro, 0, 1⟩, ⟨23, 1, .ro, 0, 1⟩, ⟨24, 2, .ro, 0, 3⟩, ⟨26, 2, .ro, 0, 3⟩]⟩,
  /- CFG_DETAIL -/ ⟨0x200004, [], false, 0, [⟨0, 21, .ro, 0, 0x1FFFFF⟩]⟩,
  /- CFG_FLASH -/ ⟨0x200010, [], false, 0, [⟨0, 12, .ro, 0, 0xFFF⟩, ⟨12, 2, .ro, 0, 3⟩, ⟨14, 1, .ro, 0, 1⟩, ⟨15, 1, .ro, 0, 1⟩, ⟨16, 8, .ro, 0, 0xFF⟩]⟩,
  /- CFG_RESULT -/ ⟨0x200020, [(6, 4)], false, 0, [⟨0, 16, .ro, 0, 0xFFFF⟩, ⟨16, 1, .ro, 0, 1⟩]⟩,
  /- CFG_EVT_STATUS -/ ⟨0x200040, [], false, 0, [⟨0, 1, .w1c, 0, 1⟩, ⟨1, 1, .w1c, 0, 1⟩, ⟨2, 1, .w1c, 0, 1⟩, ⟨24, 8, .ro, 0, 0xFF⟩]⟩]

/-- The cards of block NVS. -/
def cardsNVS : List Card := [
  /- NVS_STATUS -/ ⟨0x300000, [], false, 0, [⟨0, 1, .w1c, 0, 1⟩, ⟨1, 1, .w1c, 0, 1⟩, ⟨2, 1, .w1c, 0, 1⟩, ⟨3, 1, .w1c, 0, 1⟩, ⟨4, 1, .w1c, 0, 1⟩, ⟨5, 1, .w1c, 0, 1⟩, ⟨6, 1, .w1c, 0, 1⟩, ⟨7, 1, .w1c, 0, 1⟩, ⟨24, 8, .ro, 0, 0xFF⟩]⟩,
  /- NVS_STATE -/ ⟨0x300010, [], false, 0, [⟨0, 1, .ro, 0, 1⟩, ⟨1, 1, .ro, 0, 1⟩, ⟨2, 1, .ro, 0, 1⟩, ⟨3, 1, .ro, 0, 1⟩]⟩,
  /- NVS_GENERATION -/ ⟨0x300014, [], false, 0, [⟨0, 32, .ro, 0, 0xFFFFFFFF⟩]⟩,
  /- NVS_WEAR -/ ⟨0x300020, [(2, 4)], false, 0, [⟨0, 17, .ro, 0, 0x1FFFF⟩]⟩]

/-- The cards of block RQI. -/
def cardsRQI : List Card := [
  /- RQI_SQ_BASE -/ ⟨0x400000, [(64, 0x1000), (4, 0x40)], true, 0, [⟨12, 52, .rw, 0, 0xFFFFFFFFFFFFF⟩]⟩,
  /- RQI_SQ_CFG -/ ⟨0x400008, [(64, 0x1000), (4, 0x40)], false, 6, [⟨0, 5, .rw, 6, 0x10⟩, ⟨8, 1, .rw, 0, 1⟩]⟩,
  /- RQI_SQ_HEAD -/ ⟨0x40000C, [(64, 0x1000), (4, 0x40)], false, 0, [⟨0, 16, .ro, 0, 0xFFFF⟩, ⟨16, 1, .ro, 0, 1⟩, ⟨20, 4, .ro, 0, 0xF⟩, ⟨24, 1, .ro, 0, 1⟩]⟩,
  /- RQI_SQ_STATUS -/ ⟨0x400010, [(64, 0x1000), (4, 0x40)], false, 0, [⟨0, 1, .w1c, 0, 1⟩, ⟨1, 1, .w1c, 0, 1⟩, ⟨2, 1, .w1c, 0, 1⟩, ⟨3, 1, .w1c, 0, 1⟩, ⟨4, 1, .w1c, 0, 1⟩, ⟨5, 1, .w1c, 0, 1⟩, ⟨24, 8, .ro, 0, 0xFF⟩]⟩,
  /- RQI_SQ_INT_EN -/ ⟨0x400014, [(64, 0x1000), (4, 0x40)], false, 0, [⟨0, 6, .rw, 0, 0x3F⟩]⟩,
  /- RQI_SQ_CTL -/ ⟨0x400018, [(64, 0x1000), (4, 0x40)], false, 0, [⟨0, 1, .wo, 0, 1⟩]⟩,
  /- RQI_SQ_CNT -/ ⟨0x40001C, [(64, 0x1000), (4, 0x40)], false, 0, [⟨0, 16, .rc, 0, 0xFFFF⟩, ⟨16, 16, .rc, 0, 0xFFFF⟩]⟩,
  /- RQI_SQ_TAIL -/ ⟨0x400020, [(64, 0x1000), (4, 0x40)], false, 0, [⟨0, 16, .ro, 0, 0xFFFF⟩]⟩,
  /- RQI_CQ_BASE -/ ⟨0x400200, [(64, 0x1000), (4, 0x40)], true, 0, [⟨12, 52, .rw, 0, 0xFFFFFFFFFFFFF⟩]⟩,
  /- RQI_CQ_CFG -/ ⟨0x400208, [(64, 0x1000), (4, 0x40)], false, 0x10006, [⟨0, 5, .rw, 6, 0x10⟩, ⟨8, 1, .rw, 0, 1⟩, ⟨9, 1, .rw, 0, 1⟩, ⟨16, 8, .rw, 1, 0xFF⟩]⟩,
  /- RQI_CQ_COAL -/ ⟨0x40020C, [(64, 0x1000), (4, 0x40)], false, 0x10, [⟨0, 10, .rw, 1, 0x3FF⟩]⟩,
  /- RQI_CQ_TAIL -/ ⟨0x400210, [(64, 0x1000), (4, 0x40)], false, 0, [⟨0, 16, .ro, 0, 0xFFFF⟩, ⟨16, 1, .ro, 0, 1⟩]⟩,
  /- RQI_CQ_STATUS -/ ⟨0x400218, [(64, 0x1000), (4, 0x40)], false, 0, [⟨0, 1, .w1c, 0, 1⟩, ⟨1, 1, .w1c, 0, 1⟩, ⟨2, 1, .w1c, 0, 1⟩, ⟨3, 1, .w1c, 0, 1⟩, ⟨24, 8, .ro, 0, 0xFF⟩]⟩,
  /- RQI_CQ_INT_EN -/ ⟨0x40021C, [(64, 0x1000), (4, 0x40)], false, 0, [⟨0, 4, .rw, 0, 0xF⟩]⟩]

/-- The cards of block ADM. -/
def cardsADM : List Card := [
  /- ADM_STATUS -/ ⟨0x500000, [], false, 0, [⟨0, 1, .w1c, 0, 1⟩, ⟨1, 1, .w1c, 0, 1⟩, ⟨2, 1, .w1c, 0, 1⟩, ⟨24, 8, .ro, 0, 0xFF⟩]⟩,
  /- ADM_INT_EN -/ ⟨0x500004, [], false, 0, [⟨0, 3, .rw, 0, 7⟩]⟩,
  /- ADM_ADMITTED -/ ⟨0x500010, [], false, 0, [⟨0, 18, .ro, 0, 0x3FFFF⟩]⟩,
  /- ADM_COST_USED -/ ⟨0x500014, [], false, 0, [⟨0, 7, .ro, 0, 0x7F⟩]⟩,
  /- ADM_TEN_CTL -/ ⟨0x501000, [(64, 0x80)], false, 0x10041E, [⟨0, 1, .rw, 0, 1⟩, ⟨1, 1, .rw, 0, 1⟩, ⟨2, 1, .rw, 0, 1⟩, ⟨3, 1, .rw, 0, 1⟩, ⟨4, 1, .rw, 0, 1⟩, ⟨8, 8, .rw, 0, 0xFF⟩, ⟨16, 8, .rw, 0, 0xFF⟩, ⟨24, 8, .rw, 0, 0xFF⟩]⟩,
  /- ADM_TEN_RATE -/ ⟨0x501004, [(64, 0x80)], false, 0, [⟨0, 32, .rw, 0, 0xFFFFFFFF⟩]⟩,
  /- ADM_TEN_BURST -/ ⟨0x501008, [(64, 0x80)], false, 0, [⟨0, 32, .rw, 0, 0xFFFFFFFF⟩]⟩,
  /- ADM_TEN_CONC -/ ⟨0x50100C, [(64, 0x80)], false, 0, [⟨0, 18, .rw, 0, 0x3C000⟩]⟩,
  /- ADM_TEN_KVQ -/ ⟨0x501010, [(64, 0x80)], false, 0, [⟨0, 24, .rw, 0, 0xFFFFFF⟩]⟩,
  /- ADM_TEN_QDEPTH -/ ⟨0x501014, [(64, 0x80)], false, 0x100, [⟨0, 13, .rw, 1, 0x1000⟩]⟩,
  /- ADM_TEN_FLOOR -/ ⟨0x501018, [(64, 0x80)], false, 0x8400, [⟨0, 4, .rw, 0, 0xF⟩, ⟨4, 4, .rw, 0, 0xF⟩, ⟨8, 4, .rw, 0, 0xF⟩, ⟨12, 4, .rw, 0, 0xF⟩]⟩,
  /- ADM_TEN_LEVEL -/ ⟨0x501020, [(64, 0x80)], true, 0, [⟨0, 64, .ro, 0, 0xFFFFFFFFFFFFFFFF⟩]⟩,
  /- ADM_TEN_RESERVED -/ ⟨0x501028, [(64, 0x80)], true, 0, [⟨0, 40, .ro, 0, 0xFFFFFFFFFF⟩]⟩,
  /- ADM_TEN_LIVE -/ ⟨0x501030, [(64, 0x80)], false, 0, [⟨0, 18, .ro, 0, 0x3FFFF⟩]⟩,
  /- ADM_TEN_KVUSE -/ ⟨0x501034, [(64, 0x80)], false, 0, [⟨0, 24, .ro, 0, 0xFFFFFF⟩]⟩,
  /- ADM_TEN_KVRSV -/ ⟨0x501038, [(64, 0x80)], false, 0, [⟨0, 24, .ro, 0, 0xFFFFFF⟩]⟩,
  /- ADM_TEN_QUEUED -/ ⟨0x50103C, [(64, 0x80)], false, 0, [⟨0, 13, .ro, 0, 0x1FFF⟩]⟩,
  /- ADM_TEN_WAIT -/ ⟨0x501040, [(64, 0x80)], false, 0, [⟨0, 2, .ro, 0, 3⟩, ⟨2, 2, .ro, 0, 3⟩, ⟨4, 2, .ro, 0, 3⟩, ⟨6, 2, .ro, 0, 3⟩]⟩] ++ [
  /- ADM_CTX -/ ⟨0x508000, [(512, 4)], false, 0, [⟨0, 8, .ro, 0, 0xFF⟩, ⟨8, 24, .ro, 0, 0xFFFFFF⟩]⟩]

/-- The cards of block CMP. -/
def cardsCMP : List Card := [
  /- CMP_LANE_CTL -/ ⟨0x600000, [(16, 0x10000)], false, 1, [⟨0, 1, .rw, 0, 1⟩, ⟨1, 1, .rw, 0, 1⟩]⟩,
  /- CMP_PARK_LOW -/ ⟨0x600004, [(16, 0x10000)], false, 0x400, [⟨0, 20, .rw, 0, 0xFFFFF⟩]⟩,
  /- CMP_PARK_HIGH -/ ⟨0x600008, [(16, 0x10000)], false, 0x800, [⟨0, 20, .rw, 0, 0xFFFFF⟩]⟩,
  /- CMP_STATUS -/ ⟨0x600010, [(16, 0x10000)], false, 0, [⟨0, 1, .w1c, 0, 1⟩, ⟨1, 1, .w1c, 0, 1⟩, ⟨2, 1, .w1c, 0, 1⟩, ⟨3, 1, .w1c, 0, 1⟩, ⟨4, 1, .w1c, 0, 1⟩, ⟨24, 8, .ro, 0, 0xFF⟩]⟩,
  /- CMP_INT_EN -/ ⟨0x600014, [(16, 0x10000)], false, 0, [⟨0, 5, .rw, 0, 0x1F⟩]⟩,
  /- CMP_LANE_STEPS -/ ⟨0x600020, [(16, 0x10000)], true, 0, [⟨0, 64, .ro, 0, 0xFFFFFFFFFFFFFFFF⟩]⟩,
  /- CMP_LANE_CNT -/ ⟨0x600028, [(16, 0x10000)], false, 0, [⟨0, 16, .rc, 0, 0xFFFF⟩, ⟨16, 16, .rc, 0, 0xFFFF⟩]⟩,
  /- CMP_LANE_PARKS -/ ⟨0x60002C, [(16, 0x10000)], false, 0, [⟨0, 16, .rc, 0, 0xFFFF⟩, ⟨16, 16, .rc, 0, 0xFFFF⟩]⟩,
  /- CMP_SWITCH_CTL -/ ⟨0x600040, [(16, 0x10000)], false, 0x3201, [⟨0, 1, .rw, 0, 1⟩, ⟨1, 1, .rw, 0, 1⟩, ⟨8, 8, .rw, 1, 0xFF⟩]⟩,
  /- CMP_PREEMPT_STATUS -/ ⟨0x600050, [(16, 0x10000)], false, 0, [⟨0, 1, .w1c, 0, 1⟩, ⟨1, 1, .w1c, 0, 1⟩, ⟨2, 1, .w1c, 0, 1⟩, ⟨3, 1, .w1c, 0, 1⟩, ⟨4, 1, .w1c, 0, 1⟩, ⟨24, 8, .ro, 0, 0xFF⟩]⟩,
  /- CMP_PREEMPT_INT_EN -/ ⟨0x600054, [(16, 0x10000)], false, 0, [⟨0, 5, .rw, 0, 0x1F⟩]⟩,
  /- CMP_PREEMPT_CNT -/ ⟨0x600060, [(16, 0x10000)], false, 0, [⟨0, 16, .rc, 0, 0xFFFF⟩, ⟨16, 16, .rc, 0, 0xFFFF⟩]⟩,
  /- CMP_SWITCH_TIME -/ ⟨0x600064, [(16, 0x10000)], false, 0, [⟨0, 16, .ro, 0, 0xFFFF⟩, ⟨16, 16, .ro, 0, 0xFFFF⟩]⟩,
  /- CMP_WAIT_TIME -/ ⟨0x600068, [(16, 0x10000)], false, 0, [⟨0, 17, .ro, 0, 0x1FFFF⟩]⟩,
  /- CMP_CTX_CFG -/ ⟨0x600100, [(16, 0x10000), (32, 4)], false, 0, [⟨0, 1, .ro, 0, 1⟩, ⟨1, 2, .rw, 0, 3⟩, ⟨3, 1, .ro, 0, 1⟩, ⟨8, 5, .ro, 0, 0x1F⟩, ⟨16, 16, .ro, 0, 0xFFFF⟩]⟩,
  /- CMP_CTX_STATE -/ ⟨0x600180, [(16, 0x10000), (32, 4)], false, 0, [⟨0, 3, .ro, 0, 7⟩, ⟨3, 1, .ro, 0, 1⟩, ⟨16, 16, .ro, 0, 0xFFFF⟩]⟩] ++ [
  /- CMP_CTX_LIMIT -/ ⟨0x600200, [(16, 0x10000), (32, 4)], false, 0, [⟨0, 18, .rw, 0, 0x3FFFF⟩]⟩,
  /- CMP_CTX_BUDGET -/ ⟨0x600280, [(16, 0x10000), (32, 4)], false, 0, [⟨0, 15, .rw, 1, 0x4000⟩, ⟨16, 14, .rw, 1, 0x2000⟩]⟩,
  /- CMP_CTX_CHUNK -/ ⟨0x600300, [(16, 0x10000), (32, 4)], false, 0, [⟨0, 4, .rw, 8, 0xE⟩, ⟨16, 15, .rw, 0, 0x7FFF⟩]⟩,
  /- CMP_CTX_TEST -/ ⟨0x600380, [(16, 0x10000), (32, 4)], false, 0, [⟨0, 32, .ro, 0, 0xFFFFFFFF⟩]⟩,
  /- CMP_CTX_ABN -/ ⟨0x600400, [(16, 0x10000), (32, 4)], false, 0, [⟨0, 32, .ro, 0, 0xFFFFFFFF⟩]⟩,
  /- CMP_ABN_LOG -/ ⟨0x600800, [(16, 0x10000), (16, 8)], true, 0, [⟨0, 16, .ro, 0, 0xFFFF⟩, ⟨16, 5, .ro, 0, 0x1F⟩, ⟨21, 2, .ro, 0, 3⟩, ⟨23, 16, .ro, 0, 0xFFFF⟩, ⟨39, 25, .ro, 0, 0x1FFFFFF⟩]⟩,
  /- CMP_ABN_PTR -/ ⟨0x600880, [(16, 0x10000)], false, 0, [⟨0, 4, .ro, 0, 0xF⟩]⟩]

/-- The cards of block SMP. -/
def cardsSMP : List Card := [
  /- SMP_STATUS -/ ⟨0x700000, [], false, 0, [⟨0, 1, .w1c, 0, 1⟩, ⟨1, 1, .w1c, 0, 1⟩, ⟨2, 1, .w1c, 0, 1⟩, ⟨3, 1, .w1c, 0, 1⟩, ⟨4, 1, .w1c, 0, 1⟩, ⟨24, 8, .ro, 0, 0xFF⟩]⟩,
  /- SMP_INT_EN -/ ⟨0x700004, [], false, 0, [⟨0, 5, .rw, 0, 0x1F⟩]⟩,
  /- SMP_TABLE_VER -/ ⟨0x700008, [], false, 0, [⟨0, 16, .ro, 0, 0xFFFF⟩, ⟨16, 8, .ro, 0, 0xFF⟩, ⟨24, 8, .ro, 0, 0xFF⟩]⟩,
  /- SMP_POSITIONS -/ ⟨0x700010, [], true, 0, [⟨0, 64, .ro, 0, 0xFFFFFFFFFFFFFFFF⟩]⟩,
  /- SMP_DRAFT_PROPOSED -/ ⟨0x700018, [], true, 0, [⟨0, 64, .ro, 0, 0xFFFFFFFFFFFFFFFF⟩]⟩,
  /- SMP_DRAFT_ACCEPTED -/ ⟨0x700020, [], true, 0, [⟨0, 64, .ro, 0, 0xFFFFFFFFFFFFFFFF⟩]⟩,
  /- SMP_EVT_CNT -/ ⟨0x700028, [], false, 0, [⟨0, 16, .rc, 0, 0xFFFF⟩, ⟨16, 16, .rc, 0, 0xFFFF⟩]⟩,
  /- SMP_EVT_CNT2 -/ ⟨0x70002C, [], false, 0, [⟨0, 16, .rc, 0, 0xFFFF⟩, ⟨16, 16, .rc, 0, 0xFFFF⟩]⟩,
  /- SMP_STOP_CNT -/ ⟨0x700030, [], false, 0, [⟨0, 32, .ro, 0, 0xFFFFFFFF⟩]⟩,
  /- SMP_TIME -/ ⟨0x700040, [], false, 0, [⟨0, 16, .ro, 0, 0xFFFF⟩, ⟨16, 16, .rc, 0, 0xFFFF⟩]⟩]

/-- The cards of block MDL. -/
def cardsMDL : List Card := [
  /- MDL_STATUS -/ ⟨0x800000, [], false, 0, [⟨0, 1, .w1c, 0, 1⟩, ⟨1, 1, .w1c, 0, 1⟩, ⟨2, 1, .w1c, 0, 1⟩, ⟨3, 1, .w1c, 0, 1⟩, ⟨24, 8, .ro, 0, 0xFF⟩]⟩,
  /- MDL_INT_EN -/ ⟨0x800004, [], false, 0, [⟨0, 4, .rw, 0, 0xF⟩]⟩,
  /- MDL_SLOT -/ ⟨0x800100, [(32, 0x20)], false, 0, [⟨0, 16, .ro, 0, 0xFFFF⟩, ⟨16, 3, .ro, 0, 7⟩, ⟨19, 1, .ro, 0, 1⟩, ⟨20, 4, .ro, 0, 0xF⟩, ⟨24, 1, .ro, 0, 1⟩, ⟨25, 1, .ro, 0, 1⟩, ⟨26, 1, .ro, 0, 1⟩]⟩,
  /- MDL_SLOT_LOAD -/ ⟨0x800104, [(32, 0x20)], false, 0, [⟨0, 16, .ro, 0, 0xFFFF⟩, ⟨16, 6, .ro, 0, 0x3F⟩]⟩,
  /- MDL_SLOT_PAGES -/ ⟨0x800108, [(32, 0x20)], false, 0, [⟨0, 20, .ro, 0, 0xFFFFF⟩]⟩,
  /- MDL_SLOT_KV_RSV -/ ⟨0x80010C, [(32, 0x20)], false, 0, [⟨0, 24, .ro, 0, 0xFFFFFF⟩]⟩,
  /- MDL_SLOT_CONC -/ ⟨0x800110, [(32, 0x20)], false, 0, [⟨0, 18, .ro, 0, 0x3FFFF⟩]⟩,
  /- MDL_SLOT_LIVE -/ ⟨0x800114, [(32, 0x20)], false, 0, [⟨0, 18, .ro, 0, 0x3FFFF⟩]⟩,
  /- MDL_SLOT_LAST -/ ⟨0x800118, [(32, 0x20)], true, 0, [⟨0, 64, .ro, 0, 0xFFFFFFFFFFFFFFFF⟩]⟩,
  /- MDL_CTX_SVC -/ ⟨0x800800, [(512, 4)], false, 0, [⟨0, 4, .ro, 0, 0xF⟩]⟩]

/-- The cards of block PRT. -/
def cardsPRT : List Card := [
  /- PRT_MODE -/ ⟨0x900000, [], false, 0, [⟨0, 1, .ro, 0, 1⟩, ⟨4, 5, .ro, 0, 0x1F⟩, ⟨16, 16, .ro, 0, 0xFFFF⟩]⟩,
  /- PRT_STATUS -/ ⟨0x900010, [], false, 0, [⟨0, 1, .w1c, 0, 1⟩, ⟨1, 1, .w1c, 0, 1⟩, ⟨2, 1, .w1c, 0, 1⟩, ⟨3, 1, .w1c, 0, 1⟩, ⟨4, 1, .w1c, 0, 1⟩, ⟨24, 8, .ro, 0, 0xFF⟩]⟩,
  /- PRT_INT_EN -/ ⟨0x900014, [], false, 0, [⟨0, 5, .rw, 0, 0x1F⟩]⟩,
  /- PRT_PART_CFG -/ ⟨0x901000, [(16, 0x20)], false, 0, [⟨0, 1, .ro, 0, 1⟩, ⟨1, 4, .ro, 0, 0xF⟩, ⟨5, 5, .ro, 0, 0x1F⟩]⟩,
  /- PRT_PART_ACCT -/ ⟨0x901004, [(16, 0x20)], false, 0, [⟨0, 1, .rw, 0, 1⟩]⟩,
  /- PRT_PART_STATE -/ ⟨0x901008, [(16, 0x20)], false, 0, [⟨0, 3, .ro, 0, 7⟩]⟩,
  /- PRT_PART_TENANTS -/ ⟨0x901010, [(16, 0x20)], true, 0, [⟨0, 64, .ro, 0, 0xFFFFFFFFFFFFFFFF⟩]⟩,
  /- PRT_REG_CTL -/ ⟨0x902000, [(16, 0x40), (3, 0x10)], false, 0, [⟨0, 1, .rw, 0, 1⟩, ⟨8, 24, .rw, 0, 0xFFFFFF⟩]⟩,
  /- PRT_REG_BURST -/ ⟨0x902004, [(16, 0x40), (3, 0x10)], false, 0, [⟨0, 24, .rw, 0, 0xFFFFFF⟩]⟩,
  /- PRT_REG_LEVEL -/ ⟨0x902008, [(16, 0x40), (4, 0x10)], false, 0, [⟨0, 32, .ro, 0, 0xFFFFFFFF⟩]⟩,
  /- PRT_REG_HELD -/ ⟨0x90200C, [(16, 0x40), (4, 0x10)], false, 0, [⟨0, 32, .ro, 0, 0xFFFFFFFF⟩]⟩,
  /- PRT_REG3_CTL -/ ⟨0x902030, [(16, 0x40)], false, 0x21, [⟨0, 1, .ro, 0, 1⟩, ⟨1, 6, .rw, 1, 0x20⟩, ⟨8, 24, .ro, 0, 0xFFFFFF⟩]⟩,
  /- PRT_REG3_BURST -/ ⟨0x902034, [(16, 0x40)], false, 0x10000, [⟨0, 24, .rw, 0, 0xFFFFFF⟩]⟩,
  /- PRT_TEN -/ ⟨0x904000, [(64, 0x10)], false, 0, [⟨0, 4, .ro, 0, 0xF⟩, ⟨4, 1, .ro, 0, 1⟩, ⟨5, 1, .ro, 0, 1⟩, ⟨8, 4, .rw, 0, 0xF⟩]⟩,
  /- PRT_ACCT_JOBS -/ ⟨0x908000, [(64, 0x200)], true, 0, [⟨0, 64, .ro, 0, 0xFFFFFFFFFFFFFFFF⟩]⟩,
  /- PRT_ACCT_IN -/ ⟨0x908008, [(64, 0x200)], true, 0, [⟨0, 64, .ro, 0, 0xFFFFFFFFFFFFFFFF⟩]⟩] ++ [
  /- PRT_ACCT_OUT -/ ⟨0x908010, [(64, 0x200)], true, 0, [⟨0, 64, .ro, 0, 0xFFFFFFFFFFFFFFFF⟩]⟩,
  /- PRT_ACCT_PREEMPTED -/ ⟨0x908018, [(64, 0x200)], false, 0, [⟨0, 32, .ro, 0, 0xFFFFFFFF⟩]⟩,
  /- PRT_ACCT_REJ -/ ⟨0x908020, [(64, 0x200), (11, 4)], false, 0, [⟨0, 32, .ro, 0, 0xFFFFFFFF⟩]⟩,
  /- PRT_ACCT_WAIT -/ ⟨0x908100, [(64, 0x200), (4, 0x40), (16, 4)], false, 0, [⟨0, 32, .ro, 0, 0xFFFFFFFF⟩]⟩]

/-- The cards of block MEM. -/
def cardsMEM : List Card := [
  /- MEM_CH_STATUS -/ ⟨0xA00000, [], true, 0, [⟨0, 32, .ro, 0, 0xFFFFFFFF⟩, ⟨32, 32, .ro, 0, 0xFFFFFFFF⟩]⟩,
  /- MEM_EVT_STATUS -/ ⟨0xA00010, [], false, 0, [⟨0, 1, .w1c, 0, 1⟩, ⟨1, 1, .w1c, 0, 1⟩, ⟨2, 1, .w1c, 0, 1⟩, ⟨3, 1, .w1c, 0, 1⟩, ⟨4, 1, .w1c, 0, 1⟩, ⟨5, 1, .w1c, 0, 1⟩, ⟨24, 8, .ro, 0, 0xFF⟩]⟩,
  /- MEM_EVT_INT_EN -/ ⟨0xA00014, [], false, 0, [⟨0, 6, .rw, 0, 0x3F⟩]⟩,
  /- MEM_ERR_ADDR -/ ⟨0xA00020, [], true, 0, [⟨0, 36, .ro, 0, 0xFFFFFFFFF⟩]⟩,
  /- MEM_SCRUB_CTL -/ ⟨0xA00030, [], false, 0x18, [⟨0, 8, .rw, 1, 0xFF⟩]⟩,
  /- MEM_ECC_CNT -/ ⟨0xA00100, [(32, 4)], false, 0, [⟨0, 16, .rc, 0, 0xFFFF⟩, ⟨16, 16, .rc, 0, 0xFFFF⟩]⟩,
  /- MEM_L2_MASK -/ ⟨0xA00200, [(16, 4)], false, 0x1FFFE, [⟨0, 16, .rw, 1, 0xFFFF⟩, ⟨16, 16, .rw, 1, 0xFFFF⟩]⟩,
  /- MEM_PART_ARENA -/ ⟨0xA01000, [(16, 0x10)], false, 0, [⟨0, 20, .ro, 0, 0xFFFFF⟩, ⟨20, 12, .ro, 0, 0xFFF⟩]⟩,
  /- MEM_PART_POOL -/ ⟨0xA01004, [(16, 0x10)], false, 0, [⟨0, 20, .ro, 0, 0xFFFFF⟩]⟩,
  /- MEM_PART_POOL2 -/ ⟨0xA01008, [(16, 0x10)], false, 0, [⟨0, 16, .ro, 0, 0xFFFF⟩, ⟨16, 16, .ro, 0, 0xFFFF⟩]⟩,
  /- MEM_PART_SAVE -/ ⟨0xA0100C, [(16, 0x10)], false, 0, [⟨0, 20, .ro, 0, 0xFFFFF⟩]⟩,
  /- MEM_PARK_BASE -/ ⟨0xA02000, [(64, 0x10)], true, 0, [⟨16, 48, .rw, 0, 0xFFFFFFFFFFFF⟩]⟩,
  /- MEM_PARK_SLOTS -/ ⟨0xA02008, [(64, 0x10)], false, 0, [⟨0, 24, .rw, 0, 0xFFFFFF⟩]⟩,
  /- MEM_PARK_CNT -/ ⟨0xA0200C, [(64, 0x10)], false, 0, [⟨0, 16, .ro, 0, 0xFFFF⟩, ⟨16, 16, .ro, 0, 0xFFFF⟩]⟩]

/-- The cards of block CZL. -/
def cardsCZL : List Card := [
  /- CZL_NODE -/ ⟨0xB00000, [], false, 0x10400, [⟨0, 6, .rw, 0, 0x3F⟩, ⟨8, 3, .rw, 1, 7⟩, ⟨16, 8, .rw, 0, 0xFF⟩]⟩,
  /- CZL_STATUS -/ ⟨0xB00010, [], false, 0, [⟨0, 1, .w1c, 0, 1⟩, ⟨1, 1, .w1c, 0, 1⟩, ⟨2, 1, .w1c, 0, 1⟩, ⟨3, 1, .w1c, 0, 1⟩, ⟨4, 1, .w1c, 0, 1⟩, ⟨5, 1, .w1c, 0, 1⟩, ⟨24, 8, .ro, 0, 0xFF⟩]⟩,
  /- CZL_INT_EN -/ ⟨0xB00014, [], false, 0, [⟨0, 6, .rw, 0, 0x3F⟩]⟩,
  /- CZL_DROP -/ ⟨0xB00020, [], false, 0, [⟨0, 16, .rc, 0, 0xFFFF⟩, ⟨16, 16, .rc, 0, 0xFFFF⟩]⟩,
  /- CZL_DROP2 -/ ⟨0xB00024, [], false, 0, [⟨0, 16, .rc, 0, 0xFFFF⟩, ⟨16, 16, .rc, 0, 0xFFFF⟩]⟩,
  /- CZL_PORT -/ ⟨0xB00100, [(12, 0x40)], false, 0, [⟨0, 3, .ro, 0, 7⟩, ⟨3, 1, .ro, 0, 1⟩, ⟨8, 6, .ro, 0, 0x3F⟩, ⟨16, 4, .ro, 0, 0xF⟩, ⟨20, 1, .ro, 0, 1⟩]⟩,
  /- CZL_PORT_CTL -/ ⟨0xB00104, [(12, 0x40)], false, 0, [⟨0, 1, .rw, 0, 1⟩, ⟨1, 1, .rw, 0, 1⟩, ⟨2, 1, .wo, 0, 1⟩]⟩,
  /- CZL_PORT_ERR -/ ⟨0xB00108, [(12, 0x40)], false, 0, [⟨0, 16, .rc, 0, 0xFFFF⟩, ⟨16, 8, .rc, 0, 0xFF⟩, ⟨24, 8, .rc, 0, 0xFF⟩]⟩,
  /- CZL_PORT_TX -/ ⟨0xB00110, [(12, 0x40)], true, 0, [⟨0, 64, .ro, 0, 0xFFFFFFFFFFFFFFFF⟩]⟩,
  /- CZL_PORT_RX -/ ⟨0xB00118, [(12, 0x40)], true, 0, [⟨0, 64, .ro, 0, 0xFFFFFFFFFFFFFFFF⟩]⟩,
  /- CZL_PORT_MARGIN -/ ⟨0xB00120, [(12, 0x40)], false, 0, [⟨0, 32, .ro, 0, 0xFFFFFFFF⟩]⟩,
  /- CZL_ROUTE -/ ⟨0xB01000, [(64, 4)], false, 0xFF, [⟨0, 4, .ro, 0, 0xF⟩, ⟨4, 4, .ro, 0, 0xF⟩]⟩,
  /- CZL_GROUP -/ ⟨0xB02000, [(32, 0x20)], false, 0, [⟨0, 3, .ro, 0, 7⟩, ⟨3, 1, .ro, 0, 1⟩, ⟨4, 5, .ro, 0, 0x1F⟩, ⟨16, 11, .ro, 0, 0x7FF⟩]⟩,
  /- CZL_GROUP_NODES -/ ⟨0xB02004, [(32, 0x20), (4, 4)], false, 0, [⟨0, 32, .ro, 0, 0xFFFFFFFF⟩]⟩,
  /- CZL_GROUP_SHORT -/ ⟨0xB02018, [(32, 0x20)], false, 0, [⟨0, 16, .ro, 0, 0xFFFF⟩]⟩]

/-- The cards of block PWR. -/
def cardsPWR : List Card := [
  /- PWR_STATUS -/ ⟨0xC00000, [], false, 0, [⟨0, 1, .w1c, 0, 1⟩, ⟨1, 1, .w1c, 0, 1⟩, ⟨2, 1, .w1c, 0, 1⟩, ⟨3, 1, .w1c, 0, 1⟩, ⟨4, 1, .w1c, 0, 1⟩, ⟨5, 1, .w1c, 0, 1⟩, ⟨6, 1, .w1c, 0, 1⟩, ⟨24, 8, .ro, 0, 0xFF⟩]⟩,
  /- PWR_INT_EN -/ ⟨0xC00004, [], false, 0, [⟨0, 7, .rw, 0, 0x7F⟩]⟩,
  /- PWR_STATE -/ ⟨0xC00010, [], false, 0, [⟨0, 1, .ro, 0, 1⟩, ⟨1, 1, .ro, 0, 1⟩, ⟨2, 1, .ro, 0, 1⟩, ⟨3, 1, .ro, 0, 1⟩, ⟨4, 4, .ro, 0, 0xF⟩, ⟨8, 1, .ro, 0, 1⟩]⟩,
  /- PWR_CAP -/ ⟨0xC00020, [], false, 0x960096, [⟨0, 9, .rw, 0x96, 0x12C⟩, ⟨16, 9, .ro, 0, 0x1FF⟩]⟩,
  /- PWR_SLEW -/ ⟨0xC00024, [], false, 0x641414, [⟨0, 8, .rw, 1, 0x64⟩, ⟨8, 8, .rw, 1, 0x64⟩, ⟨16, 8, .rw, 1, 0xFF⟩]⟩,
  /- PWR_LIMITS -/ ⟨0xC00028, [], false, 0xC800B4, [⟨0, 9, .rw, 0x64, 0x12C⟩, ⟨16, 9, .rw, 0x64, 0x12C⟩]⟩,
  /- PWR_BALLAST -/ ⟨0xC0002C, [], false, 0x7801, [⟨0, 1, .rw, 0, 1⟩, ⟨8, 7, .rw, 0, 0x78⟩]⟩,
  /- PWR_DVFS -/ ⟨0xC00030, [], false, 0x81, [⟨0, 1, .rw, 0, 1⟩, ⟨4, 4, .rw, 0, 0xA⟩, ⟨8, 4, .rw, 0, 0xA⟩]⟩,
  /- PWR_TARGET -/ ⟨0xC00040, [], false, 0, [⟨0, 32, .ro, 0, 0xFFFFFFFF⟩]⟩,
  /- PWR_CEILING -/ ⟨0xC00044, [], false, 0, [⟨0, 32, .ro, 0, 0xFFFFFFFF⟩]⟩,
  /- PWR_FLOOR -/ ⟨0xC00048, [], false, 0, [⟨0, 32, .ro, 0, 0xFFFFFFFF⟩]⟩,
  /- PWR_BALLAST_MW -/ ⟨0xC0004C, [], false, 0, [⟨0, 32, .ro, 0, 0xFFFFFFFF⟩]⟩,
  /- PWR_PRED -/ ⟨0xC00050, [], false, 0, [⟨0, 32, .ro, 0, 0xFFFFFFFF⟩]⟩,
  /- PWR_MEAS -/ ⟨0xC00054, [], false, 0, [⟨0, 32, .ro, 0, 0xFFFFFFFF⟩]⟩,
  /- PWR_GAIN -/ ⟨0xC00058, [], false, 0, [⟨0, 12, .ro, 0, 0xFFF⟩]⟩,
  /- PWR_THERM_CAP -/ ⟨0xC0005C, [], false, 0, [⟨0, 32, .ro, 0, 0xFFFFFFFF⟩]⟩] ++ [
  /- PWR_THERM -/ ⟨0xC00060, [], false, 0, [⟨0, 16, .ro, 0, 0xFFFF⟩, ⟨16, 16, .ro, 0, 0xFFFF⟩]⟩,
  /- PWR_THERM1 -/ ⟨0xC00064, [], false, 0x69, [⟨0, 8, .ro, 0, 0xFF⟩, ⟨8, 8, .ro, 0, 0xFF⟩, ⟨16, 16, .ro, 0, 0xFFFF⟩]⟩,
  /- PWR_THERM2 -/ ⟨0xC00068, [], false, 0, [⟨0, 16, .ro, 0, 0xFFFF⟩, ⟨16, 16, .ro, 0, 0xFFFF⟩]⟩,
  /- PWR_THERM3 -/ ⟨0xC0006C, [], false, 0, [⟨0, 16, .ro, 0, 0xFFFF⟩, ⟨16, 16, .ro, 0, 0xFFFF⟩]⟩,
  /- PWR_COEF -/ ⟨0xC00100, [(8, 4)], false, 0, [⟨0, 16, .ro, 0, 0xFFFF⟩]⟩,
  /- PWR_DOM -/ ⟨0xC00200, [], false, 0, [⟨0, 1, .ro, 0, 1⟩, ⟨8, 8, .ro, 0, 0xFF⟩]⟩,
  /- PWR_DOM_SLEW -/ ⟨0xC00204, [], false, 0, [⟨0, 16, .ro, 0, 0xFFFF⟩, ⟨16, 16, .ro, 0, 0xFFFF⟩]⟩,
  /- PWR_DOM_MEMBERS -/ ⟨0xC00208, [], true, 0, [⟨0, 64, .ro, 0, 0xFFFFFFFFFFFFFFFF⟩]⟩,
  /- PWR_DOM_RISE -/ ⟨0xC00210, [], false, 0, [⟨0, 32, .ro, 0, 0xFFFFFFFF⟩]⟩,
  /- PWR_DOM_FALL -/ ⟨0xC00214, [], false, 0, [⟨0, 32, .ro, 0, 0xFFFFFFFF⟩]⟩,
  /- PWR_DOM_SILENT -/ ⟨0xC00218, [], true, 0, [⟨0, 64, .ro, 0, 0xFFFFFFFFFFFFFFFF⟩]⟩,
  /- PWR_DOM_MISSED -/ ⟨0xC00220, [], false, 0, [⟨0, 16, .rc, 0, 0xFFFF⟩]⟩,
  /- PWR_SHELF -/ ⟨0xC00300, [(8, 0x10)], false, 0, [⟨0, 7, .ro, 0, 0x7F⟩, ⟨8, 1, .ro, 0, 1⟩, ⟨9, 1, .ro, 0, 1⟩, ⟨10, 1, .ro, 0, 1⟩, ⟨11, 1, .ro, 0, 1⟩, ⟨16, 16, .ro, 0, 0xFFFF⟩]⟩,
  /- PWR_SHELF_PIN -/ ⟨0xC00304, [(8, 0x10)], false, 0, [⟨0, 32, .ro, 0, 0xFFFFFFFF⟩]⟩,
  /- PWR_SHELF_POUT -/ ⟨0xC00308, [(8, 0x10)], false, 0, [⟨0, 32, .ro, 0, 0xFFFFFFFF⟩]⟩,
  /- PWR_CNT -/ ⟨0xC00400, [(3, 4)], false, 0, [⟨0, 16, .rc, 0, 0xFFFF⟩, ⟨16, 16, .rc, 0, 0xFFFF⟩]⟩] ++ [
  /- PWR_PART_MW -/ ⟨0xC00500, [(16, 4)], false, 0, [⟨0, 32, .ro, 0, 0xFFFFFFFF⟩]⟩]

/-- The cards of block TRC. -/
def cardsTRC : List Card := [
  /- TRC_STATUS -/ ⟨0xD00000, [], false, 0, [⟨0, 1, .w1c, 0, 1⟩, ⟨1, 1, .w1c, 0, 1⟩, ⟨2, 1, .w1c, 0, 1⟩, ⟨3, 1, .w1c, 0, 1⟩, ⟨24, 8, .ro, 0, 0xFF⟩]⟩,
  /- TRC_INT_EN -/ ⟨0xD00004, [], false, 0, [⟨0, 4, .rw, 0, 0xF⟩]⟩,
  /- TRC_WIN_CTL -/ ⟨0xD00010, [], false, 0, [⟨0, 4, .rw, 0, 0xF⟩, ⟨8, 13, .rw, 0, 0x1FFF⟩]⟩,
  /- TRC_RE -/ ⟨0xD00100, [(6, 8)], true, 0, [⟨0, 64, .ro, 0, 0xFFFFFFFFFFFFFFFF⟩]⟩,
  /- TRC_GROVE -/ ⟨0xD01000, [(16, 0x100), (4, 8)], true, 0, [⟨0, 64, .ro, 0, 0xFFFFFFFFFFFFFFFF⟩]⟩,
  /- TRC_PART -/ ⟨0xD04000, [(16, 0x100), (7, 8)], true, 0, [⟨0, 64, .ro, 0, 0xFFFFFFFFFFFFFFFF⟩]⟩,
  /- TRC_TCTL -/ ⟨0xD08000, [(16, 0x40)], false, 0x7E, [⟨0, 1, .rw, 0, 1⟩, ⟨1, 6, .rw, 0, 0x3F⟩, ⟨7, 1, .rw, 0, 1⟩, ⟨8, 1, .ro, 0, 1⟩]⟩,
  /- TRC_WAIT_MIN -/ ⟨0xD08004, [(16, 0x40)], false, 0x100, [⟨0, 16, .rw, 1, 0xFFFF⟩]⟩,
  /- TRC_WPTR -/ ⟨0xD08008, [(16, 0x40)], false, 0, [⟨0, 32, .ro, 0, 0xFFFFFFFF⟩]⟩,
  /- TRC_WRAPS -/ ⟨0xD0800C, [(16, 0x40)], false, 0, [⟨0, 32, .ro, 0, 0xFFFFFFFF⟩]⟩,
  /- TRC_TEN -/ ⟨0xD10000, [(64, 0x100), (12, 8)], true, 0, [⟨0, 64, .ro, 0, 0xFFFFFFFFFFFFFFFF⟩]⟩,
  /- TRC_CL -/ ⟨0xD20000, [(1280, 0x10), (2, 8)], true, 0, [⟨0, 64, .ro, 0, 0xFFFFFFFFFFFFFFFF⟩]⟩,
  /- TRC_WINDOW -/ ⟨0xD80000, [(131072, 4)], false, 0, [⟨0, 32, .ro, 0, 0xFFFFFFFF⟩]⟩,
  /- TRC_ASSAY_CTL -/ ⟨0xD60000, [(16, 0x800), (16, 0x80)], false, 0, [⟨0, 1, .rw, 0, 1⟩, ⟨1, 1, .rw, 0, 1⟩, ⟨3, 5, .rw, 0, 0x1F⟩, ⟨16, 16, .rw, 1, 0xFFFF⟩]⟩,
  /- TRC_ASSAY_TENSOR -/ ⟨0xD60004, [(16, 0x800), (16, 0x80)], false, 0, [⟨0, 32, .rw, 0, 0xFFFFFFFF⟩]⟩,
  /- TRC_ASSAY_Q -/ ⟨0xD60008, [(16, 0x800), (16, 0x80), (9, 8)], true, 0, [⟨0, 64, .ro, 0, 0xFFFFFFFFFFFFFFFF⟩]⟩] ++ [
  /- TRC_ASSAY_TAG -/ ⟨0xD60050, [(16, 0x800), (16, 0x80)], false, 0, [⟨0, 16, .ro, 0, 0xFFFF⟩]⟩]

/-- The cards of block FLT. -/
def cardsFLT : List Card := [
  /- FLT_STATUS -/ ⟨0xE00000, [], false, 0, [⟨0, 1, .w1c, 0, 1⟩, ⟨1, 1, .w1c, 0, 1⟩, ⟨2, 1, .w1c, 0, 1⟩, ⟨3, 1, .w1c, 0, 1⟩, ⟨4, 1, .w1c, 0, 1⟩, ⟨5, 1, .w1c, 0, 1⟩, ⟨6, 1, .w1c, 0, 1⟩, ⟨24, 8, .ro, 0, 0xFF⟩]⟩,
  /- FLT_INT_EN -/ ⟨0xE00004, [], false, 0, [⟨0, 7, .rw, 0, 0x7F⟩]⟩,
  /- FLT_STATE -/ ⟨0xE00010, [], false, 0, [⟨0, 1, .ro, 0, 1⟩, ⟨1, 5, .ro, 0, 0x1F⟩, ⟨16, 16, .ro, 0, 0xFFFF⟩]⟩,
  /- FLT_FAULTN -/ ⟨0xE00020, [], false, 0, [⟨0, 7, .w1c, 0, 0x7F⟩]⟩,
  /- FLT_CTL -/ ⟨0xE00024, [], false, 0x3E8, [⟨0, 16, .rw, 0, 0x2710⟩, ⟨16, 2, .rw, 0, 3⟩]⟩,
  /- FLT_CNT -/ ⟨0xE00040, [(5, 4)], false, 0, [⟨0, 32, .ro, 0, 0xFFFFFFFF⟩]⟩,
  /- FLT_LAST -/ ⟨0xE00080, [(4, 4)], false, 0, [⟨0, 32, .ro, 0, 0xFFFFFFFF⟩]⟩,
  /- FLT_BTN -/ ⟨0xE000A0, [], false, 0, [⟨0, 1, .ro, 0, 1⟩, ⟨1, 2, .ro, 0, 3⟩, ⟨8, 8, .ro, 0, 0xFF⟩]⟩]

/-- The cards of block GRV. -/
def cardsGRV : List Card := [
  /- GRV_STATUS -/ ⟨0x1000000, [(16, 0x40000)], false, 0, [⟨0, 4, .ro, 0, 0xF⟩, ⟨4, 1, .ro, 0, 1⟩, ⟨5, 3, .ro, 0, 7⟩, ⟨8, 7, .ro, 0, 0x7F⟩, ⟨16, 3, .ro, 0, 7⟩]⟩,
  /- GRV_MAP -/ ⟨0x1000100, [(16, 0x40000), (20, 4)], false, 0, [⟨0, 32, .ro, 0, 0xFFFFFFFF⟩]⟩,
  /- GRV_RETIRED_0 and _1 -/ ⟨0x1000180, [(16, 0x40000), (2, 4)], false, 0, [⟨0, 32, .ro, 0, 0xFFFFFFFF⟩]⟩,
  /- GRV_RETIRED_2 -/ ⟨0x1000188, [(16, 0x40000)], false, 0, [⟨0, 20, .ro, 0, 0xFFFFF⟩]⟩,
  /- GRV_EVT_STATUS -/ ⟨0x1000200, [(16, 0x40000)], false, 0, [⟨0, 1, .w1c, 0, 1⟩, ⟨1, 1, .w1c, 0, 1⟩, ⟨2, 1, .w1c, 0, 1⟩, ⟨3, 1, .w1c, 0, 1⟩, ⟨4, 1, .w1c, 0, 1⟩, ⟨24, 8, .ro, 0, 0xFF⟩]⟩,
  /- GRV_EVT_INT_EN -/ ⟨0x1000204, [(16, 0x40000)], false, 0, [⟨0, 5, .rw, 0, 0x1F⟩]⟩,
  /- GRV_ECC_CNT -/ ⟨0x1000210, [(16, 0x40000)], false, 0, [⟨0, 16, .rc, 0, 0xFFFF⟩]⟩,
  /- GRV_DISPATCHED -/ ⟨0x1000300, [(16, 0x40000)], true, 0, [⟨0, 64, .ro, 0, 0xFFFFFFFFFFFFFFFF⟩]⟩,
  /- GRV_UCODE_VER -/ ⟨0x1000400, [(16, 0x40000)], false, 0, [⟨0, 16, .ro, 0, 0xFFFF⟩, ⟨16, 8, .ro, 0, 0xFF⟩, ⟨24, 8, .ro, 0, 0xFF⟩]⟩]

/-- The cards of the block a PF0 BAR0 offset lies in (Table 03.2); no block, no card. -/
def cardsOf (key : Nat) : List Card :=
  match key / 0x100000 with
  | 0 => cardsHST
  | 1 => cardsMGT
  | 2 => cardsCFG
  | 3 => cardsNVS
  | 4 => cardsRQI
  | 5 => cardsADM
  | 6 => cardsCMP
  | 7 => cardsSMP
  | 8 => cardsMDL
  | 9 => cardsPRT
  | 10 => cardsMEM
  | 11 => cardsCZL
  | 12 => cardsPWR
  | 13 => cardsTRC
  | 14 => cardsFLT
  | 16 => cardsGRV
  | 17 => cardsGRV
  | 18 => cardsGRV
  | 19 => cardsGRV
  | _ => []

/-- Does offset `r` past a card's base fall on one of its copies? -/
def dimsHit : List (Nat × Nat) → Nat → Bool
  | [], r => r == 0
  | (count, stride) :: ds, r => r / stride < count && dimsHit ds (r % stride)

/-- The card of the register whose copy lies at `key`, if the spec puts one there. -/
def cardAt (key : Nat) : Option Card :=
  (cardsOf key).find? fun c => c.base ≤ key && dimsHit c.dims (key - c.base)

/-- The reset value of the register at `key` (0 where the spec puts none, R95). -/
def resetVal (key : Nat) : BitVec 64 :=
  match cardAt key with
  | some c => BitVec.ofNat 64 c.reset
  | none => 0#64

end Sys2Proof.Machine

namespace Sys2Proof.Machine.Reg

/-! ## Names. A number past a family's last copy counts from its first again, so that no name of one register is another's. -/

/-- HST_ID: its offset. -/
abbrev HST_ID : Nat := 0
def HST_ID_PART : Fld := ⟨HST_ID, 0, 16⟩
def HST_ID_STEPPING : Fld := ⟨HST_ID, 16, 8⟩
def HST_ID_FAMILY : Fld := ⟨HST_ID, 24, 8⟩
/-- HST_FW_VER: its offset. -/
abbrev HST_FW_VER : Nat := 4
def HST_FW_VER_PATCH : Fld := ⟨HST_FW_VER, 0, 16⟩
def HST_FW_VER_MINOR : Fld := ⟨HST_FW_VER, 16, 8⟩
def HST_FW_VER_MAJOR : Fld := ⟨HST_FW_VER, 24, 8⟩
/-- HST_RL_VER: its offset. -/
abbrev HST_RL_VER : Nat := 8
def HST_RL_VER_PATCH : Fld := ⟨HST_RL_VER, 0, 16⟩
def HST_RL_VER_MINOR : Fld := ⟨HST_RL_VER, 16, 8⟩
def HST_RL_VER_MAJOR : Fld := ⟨HST_RL_VER, 24, 8⟩
/-- HST_CAPS: its offset. -/
abbrev HST_CAPS : Nat := 0xC
def HST_CAPS_GROVES : Fld := ⟨HST_CAPS, 0, 5⟩
def HST_CAPS_CZL_PORTS : Fld := ⟨HST_CAPS, 8, 4⟩
def HST_CAPS_DRAM_GIB : Fld := ⟨HST_CAPS, 16, 8⟩
/-- HST_SCRATCH: its offset. -/
abbrev HST_SCRATCH : Nat := 0x10
def HST_SCRATCH_VALUE : Fld := ⟨HST_SCRATCH, 0, 32⟩
/-- HST_STATUS: its offset. -/
abbrev HST_STATUS : Nat := 0x20
def HST_STATUS_HWD_STATE : Fld := ⟨HST_STATUS, 0, 2⟩
def HST_STATUS_FAULT : Fld := ⟨HST_STATUS, 2, 1⟩
def HST_STATUS_THERMTRIP : Fld := ⟨HST_STATUS, 3, 1⟩
/-- HST_DEVTIME: its offset. -/
abbrev HST_DEVTIME : Nat := 0x200
def HST_DEVTIME_TICKS : Fld := ⟨HST_DEVTIME, 0, 64⟩
/-- HST_CLK_STATUS: its offset. -/
abbrev HST_CLK_STATUS : Nat := 0x210
def HST_CLK_STATUS_LOCK : Fld := ⟨HST_CLK_STATUS, 0, 9⟩
def HST_CLK_STATUS_REG_DOMAIN_DOWN : Fld := ⟨HST_CLK_STATUS, 16, 1⟩
def HST_CLK_STATUS_OVERLAP : Fld := ⟨HST_CLK_STATUS, 24, 8⟩
/-- HST_CLK_INT_EN: its offset. -/
abbrev HST_CLK_INT_EN : Nat := 0x214
def HST_CLK_INT_EN_EN : Fld := ⟨HST_CLK_INT_EN, 16, 1⟩
/-- HST_CLK_FREQ: its offset. -/
abbrev HST_CLK_FREQ : Nat := 0x218
def HST_CLK_FREQ_CCLK_MHZ : Fld := ⟨HST_CLK_FREQ, 0, 12⟩
/-- HST_ERR_STATUS: its offset. -/
abbrev HST_ERR_STATUS : Nat := 0x220
def HST_ERR_STATUS_BAD_SIZE : Fld := ⟨HST_ERR_STATUS, 0, 1⟩
def HST_ERR_STATUS_UNMAPPED : Fld := ⟨HST_ERR_STATUS, 1, 1⟩
def HST_ERR_STATUS_RSV_NONZERO : Fld := ⟨HST_ERR_STATUS, 2, 1⟩
def HST_ERR_STATUS_BAD_VALUE : Fld := ⟨HST_ERR_STATUS, 3, 1⟩
def HST_ERR_STATUS_DBGWIN_REFUSED : Fld := ⟨HST_ERR_STATUS, 4, 1⟩
def HST_ERR_STATUS_PART_IN_RESET : Fld := ⟨HST_ERR_STATUS, 5, 1⟩
def HST_ERR_STATUS_DB_MISROUTED : Fld := ⟨HST_ERR_STATUS, 8, 8⟩
def HST_ERR_STATUS_OVERLAP : Fld := ⟨HST_ERR_STATUS, 24, 8⟩
/-- HST_ERR_INT_EN: its offset. -/
abbrev HST_ERR_INT_EN : Nat := 0x224
def HST_ERR_INT_EN_EN : Fld := ⟨HST_ERR_INT_EN, 0, 6⟩
/-- HST_DB_ROUTE: its offset. -/
abbrev HST_DB_ROUTE (h : Nat) : Nat := 0x300 + h % 2 * 4
def HST_DB_ROUTE_PF_ROUTE (h : Nat) : Fld := ⟨HST_DB_ROUTE h, 0, 32⟩
/-- HST_DBGWIN_CTL: its offset. -/
abbrev HST_DBGWIN_CTL : Nat := 0x400
def HST_DBGWIN_CTL_ENABLE : Fld := ⟨HST_DBGWIN_CTL, 0, 1⟩
def HST_DBGWIN_CTL_BASE : Fld := ⟨HST_DBGWIN_CTL, 4, 4⟩
/-- HST_PCIE_LINK: its offset. -/
abbrev HST_PCIE_LINK : Nat := 0x500
def HST_PCIE_LINK_SPEED : Fld := ⟨HST_PCIE_LINK, 0, 3⟩
def HST_PCIE_LINK_WIDTH : Fld := ⟨HST_PCIE_LINK, 3, 5⟩
def HST_PCIE_LINK_FLIT : Fld := ⟨HST_PCIE_LINK, 8, 1⟩
def HST_PCIE_LINK_NUM_VFS : Fld := ⟨HST_PCIE_LINK, 16, 7⟩
/-- HST_PCIE_STATUS: its offset. -/
abbrev HST_PCIE_STATUS : Nat := 0x510
def HST_PCIE_STATUS_LINK_BELOW_MIN : Fld := ⟨HST_PCIE_STATUS, 0, 1⟩
def HST_PCIE_STATUS_SPEED_CHANGE : Fld := ⟨HST_PCIE_STATUS, 1, 1⟩
def HST_PCIE_STATUS_ROUTE_LOCKED : Fld := ⟨HST_PCIE_STATUS, 2, 1⟩
def HST_PCIE_STATUS_DMA_READ_ERR : Fld := ⟨HST_PCIE_STATUS, 3, 1⟩
def HST_PCIE_STATUS_UNEXPECTED_CPL : Fld := ⟨HST_PCIE_STATUS, 4, 1⟩
def HST_PCIE_STATUS_OVERLAP : Fld := ⟨HST_PCIE_STATUS, 24, 8⟩
/-- HST_PCIE_INT_EN: its offset. -/
abbrev HST_PCIE_INT_EN : Nat := 0x514
def HST_PCIE_INT_EN_EN : Fld := ⟨HST_PCIE_INT_EN, 0, 5⟩
/-- HST_DMA_ERR_CNT: its offset. -/
abbrev HST_DMA_ERR_CNT : Nat := 0x520
def HST_DMA_ERR_CNT_TIMEOUT : Fld := ⟨HST_DMA_ERR_CNT, 0, 16⟩
def HST_DMA_ERR_CNT_OTHER : Fld := ⟨HST_DMA_ERR_CNT, 16, 16⟩
/-- HST_DMA_LAST_ERR: its offset. -/
abbrev HST_DMA_LAST_ERR : Nat := 0x528
def HST_DMA_LAST_ERR_FUNCTION : Fld := ⟨HST_DMA_LAST_ERR, 0, 7⟩
def HST_DMA_LAST_ERR_KIND : Fld := ⟨HST_DMA_LAST_ERR, 8, 4⟩
def HST_DMA_LAST_ERR_STRUCT : Fld := ⟨HST_DMA_LAST_ERR, 12, 4⟩
/-- HST_DMA_LAST_ADDR: its offset. -/
abbrev HST_DMA_LAST_ADDR : Nat := 0x530
def HST_DMA_LAST_ADDR_ADDR : Fld := ⟨HST_DMA_LAST_ADDR, 0, 57⟩
/-- HST_STRAPS: its offset. -/
abbrev HST_STRAPS : Nat := 0x600
def HST_STRAPS_PROFSEL : Fld := ⟨HST_STRAPS, 0, 2⟩
def HST_STRAPS_SMB_ADDR : Fld := ⟨HST_STRAPS, 2, 2⟩
def HST_STRAPS_VID : Fld := ⟨HST_STRAPS, 8, 6⟩
def HST_STRAPS_SMB_ADDR7 : Fld := ⟨HST_STRAPS, 16, 7⟩
/-- MGT_STATUS: its offset. -/
abbrev MGT_STATUS : Nat := 0x100000
def MGT_STATUS_STAGE : Fld := ⟨MGT_STATUS, 0, 4⟩
def MGT_STATUS_OWNER : Fld := ⟨MGT_STATUS, 4, 2⟩
def MGT_STATUS_SLOT : Fld := ⟨MGT_STATUS, 6, 1⟩
def MGT_STATUS_PROFILE : Fld := ⟨MGT_STATUS, 8, 2⟩
/-- MGT_MBX_CTL: its offset. -/
abbrev MGT_MBX_CTL : Nat := 0x100010
def MGT_MBX_CTL_GO : Fld := ⟨MGT_MBX_CTL, 0, 1⟩
/-- MGT_MBX_STATUS: its offset. -/
abbrev MGT_MBX_STATUS : Nat := 0x100014
def MGT_MBX_STATUS_DONE : Fld := ⟨MGT_MBX_STATUS, 0, 1⟩
def MGT_MBX_STATUS_AREA_LOCKED : Fld := ⟨MGT_MBX_STATUS, 1, 1⟩
def MGT_MBX_STATUS_GO_WHILE_BUSY : Fld := ⟨MGT_MBX_STATUS, 2, 1⟩
def MGT_MBX_STATUS_REFUSED_NOT_READY : Fld := ⟨MGT_MBX_STATUS, 3, 1⟩
def MGT_MBX_STATUS_BAD_OPCODE : Fld := ⟨MGT_MBX_STATUS, 4, 1⟩
def MGT_MBX_STATUS_BUSY : Fld := ⟨MGT_MBX_STATUS, 16, 1⟩
def MGT_MBX_STATUS_READY : Fld := ⟨MGT_MBX_STATUS, 17, 1⟩
def MGT_MBX_STATUS_OVERLAP : Fld := ⟨MGT_MBX_STATUS, 24, 8⟩
/-- MGT_MBX_INT_EN: its offset. -/
abbrev MGT_MBX_INT_EN : Nat := 0x100018
def MGT_MBX_INT_EN_EN : Fld := ⟨MGT_MBX_INT_EN, 0, 5⟩
/-- MGT_UPD_STATE: its offset. -/
abbrev MGT_UPD_STATE : Nat := 0x100030
def MGT_UPD_STATE_SESSION : Fld := ⟨MGT_UPD_STATE, 0, 2⟩
def MGT_UPD_STATE_REQUESTER : Fld := ⟨MGT_UPD_STATE, 2, 1⟩
def MGT_UPD_STATE_TRIAL_SLOT : Fld := ⟨MGT_UPD_STATE, 3, 1⟩
def MGT_UPD_STATE_TRIAL_STATE : Fld := ⟨MGT_UPD_STATE, 4, 2⟩
def MGT_UPD_STATE_LIVE : Fld := ⟨MGT_UPD_STATE, 6, 1⟩
def MGT_UPD_STATE_WINDOW_LEFT_S : Fld := ⟨MGT_UPD_STATE, 16, 12⟩
/-- MGT_UPD_OFFSET: its offset. -/
abbrev MGT_UPD_OFFSET : Nat := 0x100034
def MGT_UPD_OFFSET_OFFSET : Fld := ⟨MGT_UPD_OFFSET, 0, 25⟩
/-- MGT_UPD_LAST: its offset. -/
abbrev MGT_UPD_LAST : Nat := 0x100038
def MGT_UPD_LAST_CODE : Fld := ⟨MGT_UPD_LAST, 0, 16⟩
def MGT_UPD_LAST_DETAIL : Fld := ⟨MGT_UPD_LAST, 16, 16⟩
/-- MGT_UPD_STATUS: its offset. -/
abbrev MGT_UPD_STATUS : Nat := 0x100040
def MGT_UPD_STATUS_COMMITTED : Fld := ⟨MGT_UPD_STATUS, 0, 1⟩
def MGT_UPD_STATUS_TRIAL_STARTED : Fld := ⟨MGT_UPD_STATUS, 1, 1⟩
def MGT_UPD_STATUS_CONFIRMED : Fld := ⟨MGT_UPD_STATUS, 2, 1⟩
def MGT_UPD_STATUS_FALLBACK : Fld := ⟨MGT_UPD_STATUS, 3, 1⟩
def MGT_UPD_STATUS_SESSION_EXPIRED : Fld := ⟨MGT_UPD_STATUS, 4, 1⟩
def MGT_UPD_STATUS_FLASH_FAILED : Fld := ⟨MGT_UPD_STATUS, 5, 1⟩
def MGT_UPD_STATUS_RL_WRITTEN : Fld := ⟨MGT_UPD_STATUS, 6, 1⟩
def MGT_UPD_STATUS_OVERLAP : Fld := ⟨MGT_UPD_STATUS, 24, 8⟩
/-- MGT_BOOT_INFO: its offset. -/
abbrev MGT_BOOT_INFO : Nat := 0x100080
def MGT_BOOT_INFO_KIND : Fld := ⟨MGT_BOOT_INFO, 0, 3⟩
def MGT_BOOT_INFO_TRAIN_RETRY : Fld := ⟨MGT_BOOT_INFO, 3, 1⟩
def MGT_BOOT_INFO_RESTARTED : Fld := ⟨MGT_BOOT_INFO, 4, 1⟩
def MGT_BOOT_INFO_FLASH_READ : Fld := ⟨MGT_BOOT_INFO, 5, 1⟩
def MGT_BOOT_INFO_WARM_COUNT : Fld := ⟨MGT_BOOT_INFO, 16, 16⟩
/-- MGT_BOOT_T: its offset. -/
abbrev MGT_BOOT_T (k : Nat) : Nat := 0x100090 + k % 7 * 8
def MGT_BOOT_T_TIME (k : Nat) : Fld := ⟨MGT_BOOT_T k, 0, 64⟩
/-- MGT_MBX_AREA: its offset. -/
abbrev MGT_MBX_AREA (i : Nat) : Nat := 0x101000 + i % 1024 * 4
def MGT_MBX_AREA_WORD (i : Nat) : Fld := ⟨MGT_MBX_AREA i, 0, 32⟩
/-- CFG_STATUS: its offset. -/
abbrev CFG_STATUS : Nat := 0x200000
def CFG_STATUS_CAUSE : Fld := ⟨CFG_STATUS, 0, 16⟩
def CFG_STATUS_SOURCE : Fld := ⟨CFG_STATUS, 16, 2⟩
def CFG_STATUS_RECOVERY : Fld := ⟨CFG_STATUS, 18, 1⟩
def CFG_STATUS_PINS : Fld := ⟨CFG_STATUS, 20, 2⟩
def CFG_STATUS_OVERRIDE_VALID : Fld := ⟨CFG_STATUS, 22, 1⟩
def CFG_STATUS_PENDING_VALID : Fld := ⟨CFG_STATUS, 23, 1⟩
def CFG_STATUS_OVERRIDE : Fld := ⟨CFG_STATUS, 24, 2⟩
def CFG_STATUS_PENDING : Fld := ⟨CFG_STATUS, 26, 2⟩
/-- CFG_DETAIL: its offset. -/
abbrev CFG_DETAIL : Nat := 0x200004
def CFG_DETAIL_OFFSET : Fld := ⟨CFG_DETAIL, 0, 21⟩
/-- CFG_FLASH: its offset. -/
abbrev CFG_FLASH : Nat := 0x200010
def CFG_FLASH_DENSITY_MBIT : Fld := ⟨CFG_FLASH, 0, 12⟩
def CFG_FLASH_MODE : Fld := ⟨CFG_FLASH, 12, 2⟩
def CFG_FLASH_MIRROR_USED : Fld := ⟨CFG_FLASH, 14, 1⟩
def CFG_FLASH_SLOT_FALLBACK : Fld := ⟨CFG_FLASH, 15, 1⟩
def CFG_FLASH_MHZ : Fld := ⟨CFG_FLASH, 16, 8⟩
/-- CFG_RESULT: its offset. -/
abbrev CFG_RESULT (n : Nat) : Nat := 0x200020 + n % 6 * 4
def CFG_RESULT_CODE (n : Nat) : Fld := ⟨CFG_RESULT n, 0, 16⟩
def CFG_RESULT_CHECKED (n : Nat) : Fld := ⟨CFG_RESULT n, 16, 1⟩
/-- CFG_EVT_STATUS: its offset. -/
abbrev CFG_EVT_STATUS : Nat := 0x200040
def CFG_EVT_STATUS_READ_TRANSIENT : Fld := ⟨CFG_EVT_STATUS, 0, 1⟩
def CFG_EVT_STATUS_READ_LASTING : Fld := ⟨CFG_EVT_STATUS, 1, 1⟩
def CFG_EVT_STATUS_STORE_ECC : Fld := ⟨CFG_EVT_STATUS, 2, 1⟩
def CFG_EVT_STATUS_OVERLAP : Fld := ⟨CFG_EVT_STATUS, 24, 8⟩
/-- NVS_STATUS: its offset. -/
abbrev NVS_STATUS : Nat := 0x300000
def NVS_STATUS_STORE_DONE : Fld := ⟨NVS_STATUS, 0, 1⟩
def NVS_STATUS_STORE_FAILED : Fld := ⟨NVS_STATUS, 1, 1⟩
def NVS_STATUS_HALF_ERASED : Fld := ⟨NVS_STATUS, 2, 1⟩
def NVS_STATUS_READ_TRANSIENT : Fld := ⟨NVS_STATUS, 3, 1⟩
def NVS_STATUS_READ_LASTING : Fld := ⟨NVS_STATUS, 4, 1⟩
def NVS_STATUS_OWNER_LOST : Fld := ⟨NVS_STATUS, 5, 1⟩
def NVS_STATUS_ARB_LOST : Fld := ⟨NVS_STATUS, 6, 1⟩
def NVS_STATUS_NO_BANK : Fld := ⟨NVS_STATUS, 7, 1⟩
def NVS_STATUS_OVERLAP : Fld := ⟨NVS_STATUS, 24, 8⟩
/-- NVS_STATE: its offset. -/
abbrev NVS_STATE : Nat := 0x300010
def NVS_STATE_BANK : Fld := ⟨NVS_STATE, 0, 1⟩
def NVS_STATE_DIRTY : Fld := ⟨NVS_STATE, 1, 1⟩
def NVS_STATE_MIGRATION : Fld := ⟨NVS_STATE, 2, 1⟩
def NVS_STATE_KEY_PRESENT : Fld := ⟨NVS_STATE, 3, 1⟩
/-- NVS_GENERATION: its offset. -/
abbrev NVS_GENERATION : Nat := 0x300014
def NVS_GENERATION_GENERATION : Fld := ⟨NVS_GENERATION, 0, 32⟩
/-- NVS_WEAR: its offset. -/
abbrev NVS_WEAR (b : Nat) : Nat := 0x300020 + b % 2 * 4
def NVS_WEAR_CYCLES (b : Nat) : Fld := ⟨NVS_WEAR b, 0, 17⟩
/-- RQI_SQ_BASE: its offset. -/
abbrev RQI_SQ_BASE (t s : Nat) : Nat := 0x400000 + t % 64 * 0x1000 + s % 4 * 0x40
def RQI_SQ_BASE_ADDR (t s : Nat) : Fld := ⟨RQI_SQ_BASE t s, 12, 52⟩
/-- RQI_SQ_CFG: its offset. -/
abbrev RQI_SQ_CFG (t s : Nat) : Nat := 0x400008 + t % 64 * 0x1000 + s % 4 * 0x40
def RQI_SQ_CFG_SIZE_LOG2 (t s : Nat) : Fld := ⟨RQI_SQ_CFG t s, 0, 5⟩
def RQI_SQ_CFG_ENABLE (t s : Nat) : Fld := ⟨RQI_SQ_CFG t s, 8, 1⟩
/-- RQI_SQ_HEAD: its offset. -/
abbrev RQI_SQ_HEAD (t s : Nat) : Nat := 0x40000C + t % 64 * 0x1000 + s % 4 * 0x40
def RQI_SQ_HEAD_HEAD (t s : Nat) : Fld := ⟨RQI_SQ_HEAD t s, 0, 16⟩
def RQI_SQ_HEAD_PHASE (t s : Nat) : Fld := ⟨RQI_SQ_HEAD t s, 16, 1⟩
def RQI_SQ_HEAD_EPOCH (t s : Nat) : Fld := ⟨RQI_SQ_HEAD t s, 20, 4⟩
def RQI_SQ_HEAD_COHORT_OPEN (t s : Nat) : Fld := ⟨RQI_SQ_HEAD t s, 24, 1⟩
/-- RQI_SQ_STATUS: its offset. -/
abbrev RQI_SQ_STATUS (t s : Nat) : Nat := 0x400010 + t % 64 * 0x1000 + s % 4 * 0x40
def RQI_SQ_STATUS_FLUSH_DONE (t s : Nat) : Fld := ⟨RQI_SQ_STATUS t s, 0, 1⟩
def RQI_SQ_STATUS_DB_BAD (t s : Nat) : Fld := ⟨RQI_SQ_STATUS t s, 1, 1⟩
def RQI_SQ_STATUS_DB_DURING_FLUSH (t s : Nat) : Fld := ⟨RQI_SQ_STATUS t s, 2, 1⟩
def RQI_SQ_STATUS_READ_FAILED (t s : Nat) : Fld := ⟨RQI_SQ_STATUS t s, 3, 1⟩
def RQI_SQ_STATUS_CQ_WAIT (t s : Nat) : Fld := ⟨RQI_SQ_STATUS t s, 4, 1⟩
def RQI_SQ_STATUS_CFG_LOCKED (t s : Nat) : Fld := ⟨RQI_SQ_STATUS t s, 5, 1⟩
def RQI_SQ_STATUS_OVERLAP (t s : Nat) : Fld := ⟨RQI_SQ_STATUS t s, 24, 8⟩
/-- RQI_SQ_INT_EN: its offset. -/
abbrev RQI_SQ_INT_EN (t s : Nat) : Nat := 0x400014 + t % 64 * 0x1000 + s % 4 * 0x40
def RQI_SQ_INT_EN_EN (t s : Nat) : Fld := ⟨RQI_SQ_INT_EN t s, 0, 6⟩
/-- RQI_SQ_CTL: its offset. -/
abbrev RQI_SQ_CTL (t s : Nat) : Nat := 0x400018 + t % 64 * 0x1000 + s % 4 * 0x40
def RQI_SQ_CTL_FLUSH (t s : Nat) : Fld := ⟨RQI_SQ_CTL t s, 0, 1⟩
/-- RQI_SQ_CNT: its offset. -/
abbrev RQI_SQ_CNT (t s : Nat) : Nat := 0x40001C + t % 64 * 0x1000 + s % 4 * 0x40
def RQI_SQ_CNT_STALE (t s : Nat) : Fld := ⟨RQI_SQ_CNT t s, 0, 16⟩
def RQI_SQ_CNT_REFUSED (t s : Nat) : Fld := ⟨RQI_SQ_CNT t s, 16, 16⟩
/-- RQI_SQ_TAIL: its offset. -/
abbrev RQI_SQ_TAIL (t s : Nat) : Nat := 0x400020 + t % 64 * 0x1000 + s % 4 * 0x40
def RQI_SQ_TAIL_TAIL (t s : Nat) : Fld := ⟨RQI_SQ_TAIL t s, 0, 16⟩
/-- RQI_CQ_BASE: its offset. -/
abbrev RQI_CQ_BASE (t c : Nat) : Nat := 0x400200 + t % 64 * 0x1000 + c % 4 * 0x40
def RQI_CQ_BASE_ADDR (t c : Nat) : Fld := ⟨RQI_CQ_BASE t c, 12, 52⟩
/-- RQI_CQ_CFG: its offset. -/
abbrev RQI_CQ_CFG (t c : Nat) : Nat := 0x400208 + t % 64 * 0x1000 + c % 4 * 0x40
def RQI_CQ_CFG_SIZE_LOG2 (t c : Nat) : Fld := ⟨RQI_CQ_CFG t c, 0, 5⟩
def RQI_CQ_CFG_ENABLE (t c : Nat) : Fld := ⟨RQI_CQ_CFG t c, 8, 1⟩
def RQI_CQ_CFG_FIRST_NOW (t c : Nat) : Fld := ⟨RQI_CQ_CFG t c, 9, 1⟩
def RQI_CQ_CFG_COAL_COUNT (t c : Nat) : Fld := ⟨RQI_CQ_CFG t c, 16, 8⟩
/-- RQI_CQ_COAL: its offset. -/
abbrev RQI_CQ_COAL (t c : Nat) : Nat := 0x40020C + t % 64 * 0x1000 + c % 4 * 0x40
def RQI_CQ_COAL_COAL_US (t c : Nat) : Fld := ⟨RQI_CQ_COAL t c, 0, 10⟩
/-- RQI_CQ_TAIL: its offset. -/
abbrev RQI_CQ_TAIL (t c : Nat) : Nat := 0x400210 + t % 64 * 0x1000 + c % 4 * 0x40
def RQI_CQ_TAIL_TAIL (t c : Nat) : Fld := ⟨RQI_CQ_TAIL t c, 0, 16⟩
def RQI_CQ_TAIL_PHASE (t c : Nat) : Fld := ⟨RQI_CQ_TAIL t c, 16, 1⟩
/-- RQI_CQ_STATUS: its offset. -/
abbrev RQI_CQ_STATUS (t c : Nat) : Nat := 0x400218 + t % 64 * 0x1000 + c % 4 * 0x40
def RQI_CQ_STATUS_CQ_DB_BAD (t c : Nat) : Fld := ⟨RQI_CQ_STATUS t c, 0, 1⟩
def RQI_CQ_STATUS_CQ_BUSY (t c : Nat) : Fld := ⟨RQI_CQ_STATUS t c, 1, 1⟩
def RQI_CQ_STATUS_CQ_FULL (t c : Nat) : Fld := ⟨RQI_CQ_STATUS t c, 2, 1⟩
def RQI_CQ_STATUS_CFG_LOCKED (t c : Nat) : Fld := ⟨RQI_CQ_STATUS t c, 3, 1⟩
def RQI_CQ_STATUS_OVERLAP (t c : Nat) : Fld := ⟨RQI_CQ_STATUS t c, 24, 8⟩
/-- RQI_CQ_INT_EN: its offset. -/
abbrev RQI_CQ_INT_EN (t c : Nat) : Nat := 0x40021C + t % 64 * 0x1000 + c % 4 * 0x40
def RQI_CQ_INT_EN_EN (t c : Nat) : Fld := ⟨RQI_CQ_INT_EN t c, 0, 4⟩
/-- ADM_STATUS: its offset. -/
abbrev ADM_STATUS : Nat := 0x500000
def ADM_STATUS_TABLE_FULL : Fld := ⟨ADM_STATUS, 0, 1⟩
def ADM_STATUS_COST_MISS : Fld := ⟨ADM_STATUS, 1, 1⟩
def ADM_STATUS_MASK_FAIL : Fld := ⟨ADM_STATUS, 2, 1⟩
def ADM_STATUS_OVERLAP : Fld := ⟨ADM_STATUS, 24, 8⟩
/-- ADM_INT_EN: its offset. -/
abbrev ADM_INT_EN : Nat := 0x500004
def ADM_INT_EN_EN : Fld := ⟨ADM_INT_EN, 0, 3⟩
/-- ADM_ADMITTED: its offset; a read computes it. -/
abbrev ADM_ADMITTED : Nat := 0x500010
/-- ADM_COST_USED: its offset; a read computes it. -/
abbrev ADM_COST_USED : Nat := 0x500014
/-- ADM_TEN_CTL: its offset. -/
abbrev ADM_TEN_CTL (t : Nat) : Nat := 0x501000 + t % 64 * 0x80
def ADM_TEN_CTL_OPEN (t : Nat) : Fld := ⟨ADM_TEN_CTL t, 0, 1⟩
def ADM_TEN_CTL_BUDGET_EN (t : Nat) : Fld := ⟨ADM_TEN_CTL t, 1, 1⟩
def ADM_TEN_CTL_CONC_EN (t : Nat) : Fld := ⟨ADM_TEN_CTL t, 2, 1⟩
def ADM_TEN_CTL_KVQ_EN (t : Nat) : Fld := ⟨ADM_TEN_CTL t, 3, 1⟩
def ADM_TEN_CTL_FEAS_EN (t : Nat) : Fld := ⟨ADM_TEN_CTL t, 4, 1⟩
def ADM_TEN_CTL_W_PF (t : Nat) : Fld := ⟨ADM_TEN_CTL t, 8, 8⟩
def ADM_TEN_CTL_W_DEC (t : Nat) : Fld := ⟨ADM_TEN_CTL t, 16, 8⟩
def ADM_TEN_CTL_QWAIT_10MS (t : Nat) : Fld := ⟨ADM_TEN_CTL t, 24, 8⟩
/-- ADM_TEN_RATE: its offset. -/
abbrev ADM_TEN_RATE (t : Nat) : Nat := 0x501004 + t % 64 * 0x80
def ADM_TEN_RATE_RATE (t : Nat) : Fld := ⟨ADM_TEN_RATE t, 0, 32⟩
/-- ADM_TEN_BURST: its offset. -/
abbrev ADM_TEN_BURST (t : Nat) : Nat := 0x501008 + t % 64 * 0x80
def ADM_TEN_BURST_BURST (t : Nat) : Fld := ⟨ADM_TEN_BURST t, 0, 32⟩
/-- ADM_TEN_CONC: its offset. -/
abbrev ADM_TEN_CONC (t : Nat) : Nat := 0x50100C + t % 64 * 0x80
def ADM_TEN_CONC_CONC_CAP (t : Nat) : Fld := ⟨ADM_TEN_CONC t, 0, 18⟩
/-- ADM_TEN_KVQ: its offset. -/
abbrev ADM_TEN_KVQ (t : Nat) : Nat := 0x501010 + t % 64 * 0x80
def ADM_TEN_KVQ_KVQ_PAGES (t : Nat) : Fld := ⟨ADM_TEN_KVQ t, 0, 24⟩
/-- ADM_TEN_QDEPTH: its offset. -/
abbrev ADM_TEN_QDEPTH (t : Nat) : Nat := 0x501014 + t % 64 * 0x80
def ADM_TEN_QDEPTH_QDEPTH (t : Nat) : Fld := ⟨ADM_TEN_QDEPTH t, 0, 13⟩
/-- ADM_TEN_FLOOR: its offset. -/
abbrev ADM_TEN_FLOOR (t : Nat) : Nat := 0x501018 + t % 64 * 0x80
def ADM_TEN_FLOOR_FLOOR_0 (t : Nat) : Fld := ⟨ADM_TEN_FLOOR t, 0, 4⟩
def ADM_TEN_FLOOR_FLOOR_1 (t : Nat) : Fld := ⟨ADM_TEN_FLOOR t, 4, 4⟩
def ADM_TEN_FLOOR_FLOOR_2 (t : Nat) : Fld := ⟨ADM_TEN_FLOOR t, 8, 4⟩
def ADM_TEN_FLOOR_FLOOR_3 (t : Nat) : Fld := ⟨ADM_TEN_FLOOR t, 12, 4⟩
/-- ADM_TEN_LEVEL: its offset. -/
abbrev ADM_TEN_LEVEL (t : Nat) : Nat := 0x501020 + t % 64 * 0x80
def ADM_TEN_LEVEL_LEVEL (t : Nat) : Fld := ⟨ADM_TEN_LEVEL t, 0, 64⟩
/-- ADM_TEN_RESERVED: its offset. -/
abbrev ADM_TEN_RESERVED (t : Nat) : Nat := 0x501028 + t % 64 * 0x80
def ADM_TEN_RESERVED_RESERVED (t : Nat) : Fld := ⟨ADM_TEN_RESERVED t, 0, 40⟩
/-- ADM_TEN_LIVE: its offset. -/
abbrev ADM_TEN_LIVE (t : Nat) : Nat := 0x501030 + t % 64 * 0x80
def ADM_TEN_LIVE_LIVE (t : Nat) : Fld := ⟨ADM_TEN_LIVE t, 0, 18⟩
/-- ADM_TEN_KVUSE: its offset. -/
abbrev ADM_TEN_KVUSE (t : Nat) : Nat := 0x501034 + t % 64 * 0x80
def ADM_TEN_KVUSE_KVUSE (t : Nat) : Fld := ⟨ADM_TEN_KVUSE t, 0, 24⟩
/-- ADM_TEN_KVRSV: its offset. -/
abbrev ADM_TEN_KVRSV (t : Nat) : Nat := 0x501038 + t % 64 * 0x80
def ADM_TEN_KVRSV_KVRSV (t : Nat) : Fld := ⟨ADM_TEN_KVRSV t, 0, 24⟩
/-- ADM_TEN_QUEUED: its offset. -/
abbrev ADM_TEN_QUEUED (t : Nat) : Nat := 0x50103C + t % 64 * 0x80
def ADM_TEN_QUEUED_QUEUED (t : Nat) : Fld := ⟨ADM_TEN_QUEUED t, 0, 13⟩
/-- ADM_TEN_WAIT: its offset. -/
abbrev ADM_TEN_WAIT (t : Nat) : Nat := 0x501040 + t % 64 * 0x80
def ADM_TEN_WAIT_CLASS0 (t : Nat) : Fld := ⟨ADM_TEN_WAIT t, 0, 2⟩
def ADM_TEN_WAIT_CLASS1 (t : Nat) : Fld := ⟨ADM_TEN_WAIT t, 2, 2⟩
def ADM_TEN_WAIT_CLASS2 (t : Nat) : Fld := ⟨ADM_TEN_WAIT t, 4, 2⟩
def ADM_TEN_WAIT_CLASS3 (t : Nat) : Fld := ⟨ADM_TEN_WAIT t, 6, 2⟩
/-- ADM_CTX: its offset. -/
abbrev ADM_CTX (n : Nat) : Nat := 0x508000 + n % 512 * 4
def ADM_CTX_DSHARE (n : Nat) : Fld := ⟨ADM_CTX n, 0, 8⟩
def ADM_CTX_BACKLOG_US (n : Nat) : Fld := ⟨ADM_CTX n, 8, 24⟩
/-- CMP_LANE_CTL: its offset. -/
abbrev CMP_LANE_CTL (p : Nat) : Nat := 0x600000 + p % 16 * 0x10000
def CMP_LANE_CTL_PARK_EN (p : Nat) : Fld := ⟨CMP_LANE_CTL p, 0, 1⟩
def CMP_LANE_CTL_BACKOFF_EN (p : Nat) : Fld := ⟨CMP_LANE_CTL p, 1, 1⟩
/-- CMP_PARK_LOW: its offset. -/
abbrev CMP_PARK_LOW (p : Nat) : Nat := 0x600004 + p % 16 * 0x10000
def CMP_PARK_LOW_PARK_LOW (p : Nat) : Fld := ⟨CMP_PARK_LOW p, 0, 20⟩
/-- CMP_PARK_HIGH: its offset. -/
abbrev CMP_PARK_HIGH (p : Nat) : Nat := 0x600008 + p % 16 * 0x10000
def CMP_PARK_HIGH_PARK_HIGH (p : Nat) : Fld := ⟨CMP_PARK_HIGH p, 0, 20⟩
/-- CMP_STATUS: its offset. -/
abbrev CMP_STATUS (p : Nat) : Nat := 0x600010 + p % 16 * 0x10000
def CMP_STATUS_TRIMMED (p : Nat) : Fld := ⟨CMP_STATUS p, 0, 1⟩
def CMP_STATUS_POWER_WAIT (p : Nat) : Fld := ⟨CMP_STATUS p, 1, 1⟩
def CMP_STATUS_PAGE_STALL (p : Nat) : Fld := ⟨CMP_STATUS p, 2, 1⟩
def CMP_STATUS_CQ_STALL (p : Nat) : Fld := ⟨CMP_STATUS p, 3, 1⟩
def CMP_STATUS_ABANDONED (p : Nat) : Fld := ⟨CMP_STATUS p, 4, 1⟩
def CMP_STATUS_OVERLAP (p : Nat) : Fld := ⟨CMP_STATUS p, 24, 8⟩
/-- CMP_INT_EN: its offset. -/
abbrev CMP_INT_EN (p : Nat) : Nat := 0x600014 + p % 16 * 0x10000
def CMP_INT_EN_EN (p : Nat) : Fld := ⟨CMP_INT_EN p, 0, 5⟩
/-- CMP_LANE_STEPS: its offset. -/
abbrev CMP_LANE_STEPS (p : Nat) : Nat := 0x600020 + p % 16 * 0x10000
def CMP_LANE_STEPS_STEPS (p : Nat) : Fld := ⟨CMP_LANE_STEPS p, 0, 64⟩
/-- CMP_LANE_CNT: its offset. -/
abbrev CMP_LANE_CNT (p : Nat) : Nat := 0x600028 + p % 16 * 0x10000
def CMP_LANE_CNT_TRIMMED (p : Nat) : Fld := ⟨CMP_LANE_CNT p, 0, 16⟩
def CMP_LANE_CNT_POWER_WAITS (p : Nat) : Fld := ⟨CMP_LANE_CNT p, 16, 16⟩
/-- CMP_LANE_PARKS: its offset. -/
abbrev CMP_LANE_PARKS (p : Nat) : Nat := 0x60002C + p % 16 * 0x10000
def CMP_LANE_PARKS_PARKS (p : Nat) : Fld := ⟨CMP_LANE_PARKS p, 0, 16⟩
def CMP_LANE_PARKS_UNPARKS (p : Nat) : Fld := ⟨CMP_LANE_PARKS p, 16, 16⟩
/-- CMP_SWITCH_CTL: its offset. -/
abbrev CMP_SWITCH_CTL (p : Nat) : Nat := 0x600040 + p % 16 * 0x10000
def CMP_SWITCH_CTL_PREEMPT_EN (p : Nat) : Fld := ⟨CMP_SWITCH_CTL p, 0, 1⟩
def CMP_SWITCH_CTL_FORCE_I (p : Nat) : Fld := ⟨CMP_SWITCH_CTL p, 1, 1⟩
def CMP_SWITCH_CTL_AGE_MS (p : Nat) : Fld := ⟨CMP_SWITCH_CTL p, 8, 8⟩
/-- CMP_PREEMPT_STATUS: its offset. -/
abbrev CMP_PREEMPT_STATUS (p : Nat) : Nat := 0x600050 + p % 16 * 0x10000
def CMP_PREEMPT_STATUS_ESCALATED (p : Nat) : Fld := ⟨CMP_PREEMPT_STATUS p, 0, 1⟩
def CMP_PREEMPT_STATUS_ABANDON_WAIT (p : Nat) : Fld := ⟨CMP_PREEMPT_STATUS p, 1, 1⟩
def CMP_PREEMPT_STATUS_ABANDON_SAVE (p : Nat) : Fld := ⟨CMP_PREEMPT_STATUS p, 2, 1⟩
def CMP_PREEMPT_STATUS_ABANDON_PREEMPTED (p : Nat) : Fld := ⟨CMP_PREEMPT_STATUS p, 3, 1⟩
def CMP_PREEMPT_STATUS_ABANDON_RESTORE (p : Nat) : Fld := ⟨CMP_PREEMPT_STATUS p, 4, 1⟩
def CMP_PREEMPT_STATUS_OVERLAP (p : Nat) : Fld := ⟨CMP_PREEMPT_STATUS p, 24, 8⟩
/-- CMP_PREEMPT_INT_EN: its offset. -/
abbrev CMP_PREEMPT_INT_EN (p : Nat) : Nat := 0x600054 + p % 16 * 0x10000
def CMP_PREEMPT_INT_EN_EN (p : Nat) : Fld := ⟨CMP_PREEMPT_INT_EN p, 0, 5⟩
/-- CMP_PREEMPT_CNT: its offset. -/
abbrev CMP_PREEMPT_CNT (p : Nat) : Nat := 0x600060 + p % 16 * 0x10000
def CMP_PREEMPT_CNT_T_SAVES (p : Nat) : Fld := ⟨CMP_PREEMPT_CNT p, 0, 16⟩
def CMP_PREEMPT_CNT_I_SAVES (p : Nat) : Fld := ⟨CMP_PREEMPT_CNT p, 16, 16⟩
/-- CMP_SWITCH_TIME: its offset. -/
abbrev CMP_SWITCH_TIME (p : Nat) : Nat := 0x600064 + p % 16 * 0x10000
def CMP_SWITCH_TIME_SAVE (p : Nat) : Fld := ⟨CMP_SWITCH_TIME p, 0, 16⟩
def CMP_SWITCH_TIME_RESTORE (p : Nat) : Fld := ⟨CMP_SWITCH_TIME p, 16, 16⟩
/-- CMP_WAIT_TIME: its offset. -/
abbrev CMP_WAIT_TIME (p : Nat) : Nat := 0x600068 + p % 16 * 0x10000
def CMP_WAIT_TIME_WAIT (p : Nat) : Fld := ⟨CMP_WAIT_TIME p, 0, 17⟩
/-- CMP_CTX_CFG: its offset. -/
abbrev CMP_CTX_CFG (p n : Nat) : Nat := 0x600100 + p % 16 * 0x10000 + n % 32 * 4
def CMP_CTX_CFG_VALID (p n : Nat) : Fld := ⟨CMP_CTX_CFG p n, 0, 1⟩
def CMP_CTX_CFG_CLASS (p n : Nat) : Fld := ⟨CMP_CTX_CFG p n, 1, 2⟩
def CMP_CTX_CFG_DRAFT (p n : Nat) : Fld := ⟨CMP_CTX_CFG p n, 3, 1⟩
def CMP_CTX_CFG_PAIR (p n : Nat) : Fld := ⟨CMP_CTX_CFG p n, 8, 5⟩
def CMP_CTX_CFG_MODEL (p n : Nat) : Fld := ⟨CMP_CTX_CFG p n, 16, 16⟩
/-- CMP_CTX_STATE: its offset. -/
abbrev CMP_CTX_STATE (p n : Nat) : Nat := 0x600180 + p % 16 * 0x10000 + n % 32 * 4
def CMP_CTX_STATE_STATE (p n : Nat) : Fld := ⟨CMP_CTX_STATE p n, 0, 3⟩
def CMP_CTX_STATE_MODE (p n : Nat) : Fld := ⟨CMP_CTX_STATE p n, 3, 1⟩
def CMP_CTX_STATE_SAVE_64K (p n : Nat) : Fld := ⟨CMP_CTX_STATE p n, 16, 16⟩
/-- CMP_CTX_LIMIT: its offset. -/
abbrev CMP_CTX_LIMIT (p n : Nat) : Nat := 0x600200 + p % 16 * 0x10000 + n % 32 * 4
def CMP_CTX_LIMIT_LIMIT_US (p n : Nat) : Fld := ⟨CMP_CTX_LIMIT p n, 0, 18⟩
/-- CMP_CTX_BUDGET: its offset. -/
abbrev CMP_CTX_BUDGET (p n : Nat) : Nat := 0x600280 + p % 16 * 0x10000 + n % 32 * 4
def CMP_CTX_BUDGET_TOKEN_BUDGET (p n : Nat) : Fld := ⟨CMP_CTX_BUDGET p n, 0, 15⟩
def CMP_CTX_BUDGET_SEQ_CAP (p n : Nat) : Fld := ⟨CMP_CTX_BUDGET p n, 16, 14⟩
/-- CMP_CTX_CHUNK: its offset. -/
abbrev CMP_CTX_CHUNK (p n : Nat) : Nat := 0x600300 + p % 16 * 0x10000 + n % 32 * 4
def CMP_CTX_CHUNK_CHUNK_LOG2 (p n : Nat) : Fld := ⟨CMP_CTX_CHUNK p n, 0, 4⟩
def CMP_CTX_CHUNK_PF_RSV (p n : Nat) : Fld := ⟨CMP_CTX_CHUNK p n, 16, 15⟩
/-- CMP_CTX_TEST: its offset. -/
abbrev CMP_CTX_TEST (p n : Nat) : Nat := 0x600380 + p % 16 * 0x10000 + n % 32 * 4
def CMP_CTX_TEST_T_EST (p n : Nat) : Fld := ⟨CMP_CTX_TEST p n, 0, 32⟩
/-- CMP_CTX_ABN: its offset. -/
abbrev CMP_CTX_ABN (p n : Nat) : Nat := 0x600400 + p % 16 * 0x10000 + n % 32 * 4
def CMP_CTX_ABN_ABANDONED (p n : Nat) : Fld := ⟨CMP_CTX_ABN p n, 0, 32⟩
/-- CMP_ABN_LOG: its offset. -/
abbrev CMP_ABN_LOG (p k : Nat) : Nat := 0x600800 + p % 16 * 0x10000 + k % 16 * 8
def CMP_ABN_LOG_CODE (p k : Nat) : Fld := ⟨CMP_ABN_LOG p k, 0, 16⟩
def CMP_ABN_LOG_CTX (p k : Nat) : Fld := ⟨CMP_ABN_LOG p k, 16, 5⟩
def CMP_ABN_LOG_STATE (p k : Nat) : Fld := ⟨CMP_ABN_LOG p k, 21, 2⟩
def CMP_ABN_LOG_TAG (p k : Nat) : Fld := ⟨CMP_ABN_LOG p k, 23, 16⟩
def CMP_ABN_LOG_TIME_US (p k : Nat) : Fld := ⟨CMP_ABN_LOG p k, 39, 25⟩
/-- CMP_ABN_PTR: its offset. -/
abbrev CMP_ABN_PTR (p : Nat) : Nat := 0x600880 + p % 16 * 0x10000
def CMP_ABN_PTR_NEXT (p : Nat) : Fld := ⟨CMP_ABN_PTR p, 0, 4⟩
/-- SMP_STATUS: its offset. -/
abbrev SMP_STATUS : Nat := 0x700000
def SMP_STATUS_NONFINITE : Fld := ⟨SMP_STATUS, 0, 1⟩
def SMP_STATUS_NO_CANDIDATE : Fld := ⟨SMP_STATUS, 1, 1⟩
def SMP_STATUS_RESIDUAL_EMPTY : Fld := ⟨SMP_STATUS, 2, 1⟩
def SMP_STATUS_LATE_CANDIDATE : Fld := ⟨SMP_STATUS, 3, 1⟩
def SMP_STATUS_ECC_CORR : Fld := ⟨SMP_STATUS, 4, 1⟩
def SMP_STATUS_OVERLAP : Fld := ⟨SMP_STATUS, 24, 8⟩
/-- SMP_INT_EN: its offset. -/
abbrev SMP_INT_EN : Nat := 0x700004
def SMP_INT_EN_EN : Fld := ⟨SMP_INT_EN, 0, 5⟩
/-- SMP_TABLE_VER: its offset. -/
abbrev SMP_TABLE_VER : Nat := 0x700008
def SMP_TABLE_VER_PATCH : Fld := ⟨SMP_TABLE_VER, 0, 16⟩
def SMP_TABLE_VER_MINOR : Fld := ⟨SMP_TABLE_VER, 16, 8⟩
def SMP_TABLE_VER_MAJOR : Fld := ⟨SMP_TABLE_VER, 24, 8⟩
/-- SMP_POSITIONS: its offset. -/
abbrev SMP_POSITIONS : Nat := 0x700010
def SMP_POSITIONS_POSITIONS : Fld := ⟨SMP_POSITIONS, 0, 64⟩
/-- SMP_DRAFT_PROPOSED: its offset. -/
abbrev SMP_DRAFT_PROPOSED : Nat := 0x700018
def SMP_DRAFT_PROPOSED_PROPOSED : Fld := ⟨SMP_DRAFT_PROPOSED, 0, 64⟩
/-- SMP_DRAFT_ACCEPTED: its offset. -/
abbrev SMP_DRAFT_ACCEPTED : Nat := 0x700020
def SMP_DRAFT_ACCEPTED_ACCEPTED : Fld := ⟨SMP_DRAFT_ACCEPTED, 0, 64⟩
/-- SMP_EVT_CNT: its offset. -/
abbrev SMP_EVT_CNT : Nat := 0x700028
def SMP_EVT_CNT_NONFINITE : Fld := ⟨SMP_EVT_CNT, 0, 16⟩
def SMP_EVT_CNT_NO_CANDIDATE : Fld := ⟨SMP_EVT_CNT, 16, 16⟩
/-- SMP_EVT_CNT2: its offset. -/
abbrev SMP_EVT_CNT2 : Nat := 0x70002C
def SMP_EVT_CNT2_RESIDUAL_EMPTY : Fld := ⟨SMP_EVT_CNT2, 0, 16⟩
def SMP_EVT_CNT2_LATE_CANDIDATE : Fld := ⟨SMP_EVT_CNT2, 16, 16⟩
/-- SMP_STOP_CNT: its offset. -/
abbrev SMP_STOP_CNT : Nat := 0x700030
def SMP_STOP_CNT_MATCHES : Fld := ⟨SMP_STOP_CNT, 0, 32⟩
/-- SMP_TIME: its offset. -/
abbrev SMP_TIME : Nat := 0x700040
def SMP_TIME_LAST : Fld := ⟨SMP_TIME, 0, 16⟩
def SMP_TIME_MAX : Fld := ⟨SMP_TIME, 16, 16⟩
/-- MDL_STATUS: its offset. -/
abbrev MDL_STATUS : Nat := 0x800000
def MDL_STATUS_LOAD_DONE : Fld := ⟨MDL_STATUS, 0, 1⟩
def MDL_STATUS_LOAD_FAILED : Fld := ⟨MDL_STATUS, 1, 1⟩
def MDL_STATUS_EVICTED : Fld := ⟨MDL_STATUS, 2, 1⟩
def MDL_STATUS_TIGHT : Fld := ⟨MDL_STATUS, 3, 1⟩
def MDL_STATUS_OVERLAP : Fld := ⟨MDL_STATUS, 24, 8⟩
/-- MDL_INT_EN: its offset. -/
abbrev MDL_INT_EN : Nat := 0x800004
def MDL_INT_EN_EN : Fld := ⟨MDL_INT_EN, 0, 4⟩
/-- MDL_SLOT: its offset. -/
abbrev MDL_SLOT (n : Nat) : Nat := 0x800100 + n % 32 * 0x20
def MDL_SLOT_HANDLE (n : Nat) : Fld := ⟨MDL_SLOT n, 0, 16⟩
def MDL_SLOT_STATE (n : Nat) : Fld := ⟨MDL_SLOT n, 16, 3⟩
def MDL_SLOT_PINNED (n : Nat) : Fld := ⟨MDL_SLOT n, 19, 1⟩
def MDL_SLOT_PARTITION (n : Nat) : Fld := ⟨MDL_SLOT n, 20, 4⟩
def MDL_SLOT_TIGHT (n : Nat) : Fld := ⟨MDL_SLOT n, 24, 1⟩
def MDL_SLOT_DRAFT (n : Nat) : Fld := ⟨MDL_SLOT n, 25, 1⟩
def MDL_SLOT_GROUP (n : Nat) : Fld := ⟨MDL_SLOT n, 26, 1⟩
/-- MDL_SLOT_LOAD: its offset. -/
abbrev MDL_SLOT_LOAD (n : Nat) : Nat := 0x800104 + n % 32 * 0x20
def MDL_SLOT_LOAD_LOAD_CODE (n : Nat) : Fld := ⟨MDL_SLOT_LOAD n, 0, 16⟩
def MDL_SLOT_LOAD_CONTEXTS (n : Nat) : Fld := ⟨MDL_SLOT_LOAD n, 16, 6⟩
/-- MDL_SLOT_PAGES: its offset. -/
abbrev MDL_SLOT_PAGES (n : Nat) : Nat := 0x800108 + n % 32 * 0x20
def MDL_SLOT_PAGES_MODEL_PAGES (n : Nat) : Fld := ⟨MDL_SLOT_PAGES n, 0, 20⟩
/-- MDL_SLOT_KV_RSV: its offset. -/
abbrev MDL_SLOT_KV_RSV (n : Nat) : Nat := 0x80010C + n % 32 * 0x20
def MDL_SLOT_KV_RSV_KV_RSV (n : Nat) : Fld := ⟨MDL_SLOT_KV_RSV n, 0, 24⟩
/-- MDL_SLOT_CONC: its offset. -/
abbrev MDL_SLOT_CONC (n : Nat) : Nat := 0x800110 + n % 32 * 0x20
def MDL_SLOT_CONC_CONC_CAP (n : Nat) : Fld := ⟨MDL_SLOT_CONC n, 0, 18⟩
/-- MDL_SLOT_LIVE: its offset. -/
abbrev MDL_SLOT_LIVE (n : Nat) : Nat := 0x800114 + n % 32 * 0x20
def MDL_SLOT_LIVE_LIVE (n : Nat) : Fld := ⟨MDL_SLOT_LIVE n, 0, 18⟩
/-- MDL_SLOT_LAST: its offset. -/
abbrev MDL_SLOT_LAST (n : Nat) : Nat := 0x800118 + n % 32 * 0x20
def MDL_SLOT_LAST_LAST_STEP (n : Nat) : Fld := ⟨MDL_SLOT_LAST n, 0, 64⟩
/-- MDL_CTX_SVC: its offset. -/
abbrev MDL_CTX_SVC (n : Nat) : Nat := 0x800800 + n % 512 * 4
def MDL_CTX_SVC_SVC_MASK (n : Nat) : Fld := ⟨MDL_CTX_SVC n, 0, 4⟩
/-- PRT_MODE: its offset. -/
abbrev PRT_MODE : Nat := 0x900000
def PRT_MODE_MODE : Fld := ⟨PRT_MODE, 0, 1⟩
def PRT_MODE_PARTS : Fld := ⟨PRT_MODE, 4, 5⟩
def PRT_MODE_UNASSIGNED : Fld := ⟨PRT_MODE, 16, 16⟩
/-- PRT_STATUS: its offset. -/
abbrev PRT_STATUS : Nat := 0x900010
def PRT_STATUS_DRAIN_DONE : Fld := ⟨PRT_STATUS, 0, 1⟩
def PRT_STATUS_RECONF_DONE : Fld := ⟨PRT_STATUS, 1, 1⟩
def PRT_STATUS_MIGRATE_DONE : Fld := ⟨PRT_STATUS, 2, 1⟩
def PRT_STATUS_OPEN_HELD : Fld := ⟨PRT_STATUS, 3, 1⟩
def PRT_STATUS_REG_ECC : Fld := ⟨PRT_STATUS, 4, 1⟩
def PRT_STATUS_OVERLAP : Fld := ⟨PRT_STATUS, 24, 8⟩
/-- PRT_INT_EN: its offset. -/
abbrev PRT_INT_EN : Nat := 0x900014
def PRT_INT_EN_EN : Fld := ⟨PRT_INT_EN, 0, 5⟩
/-- PRT_PART_CFG: its offset. -/
abbrev PRT_PART_CFG (p : Nat) : Nat := 0x901000 + p % 16 * 0x20
def PRT_PART_CFG_VALID (p : Nat) : Fld := ⟨PRT_PART_CFG p, 0, 1⟩
def PRT_PART_CFG_FIRST_GROVE (p : Nat) : Fld := ⟨PRT_PART_CFG p, 1, 4⟩
def PRT_PART_CFG_GROVES (p : Nat) : Fld := ⟨PRT_PART_CFG p, 5, 5⟩
/-- PRT_PART_ACCT: its offset. -/
abbrev PRT_PART_ACCT (p : Nat) : Nat := 0x901004 + p % 16 * 0x20
def PRT_PART_ACCT_ACCT_FULL (p : Nat) : Fld := ⟨PRT_PART_ACCT p, 0, 1⟩
/-- PRT_PART_STATE: its offset. -/
abbrev PRT_PART_STATE (p : Nat) : Nat := 0x901008 + p % 16 * 0x20
def PRT_PART_STATE_STATE (p : Nat) : Fld := ⟨PRT_PART_STATE p, 0, 3⟩
/-- PRT_PART_TENANTS: its offset. -/
abbrev PRT_PART_TENANTS (p : Nat) : Nat := 0x901010 + p % 16 * 0x20
def PRT_PART_TENANTS_TENANTS (p : Nat) : Fld := ⟨PRT_PART_TENANTS p, 0, 64⟩
/-- PRT_REG_CTL: its offset. -/
abbrev PRT_REG_CTL (p k : Nat) : Nat := 0x902000 + p % 16 * 0x40 + k % 3 * 0x10
def PRT_REG_CTL_EN (p k : Nat) : Fld := ⟨PRT_REG_CTL p k, 0, 1⟩
def PRT_REG_CTL_RATE (p k : Nat) : Fld := ⟨PRT_REG_CTL p k, 8, 24⟩
/-- PRT_REG_BURST: its offset. -/
abbrev PRT_REG_BURST (p k : Nat) : Nat := 0x902004 + p % 16 * 0x40 + k % 3 * 0x10
def PRT_REG_BURST_BURST (p k : Nat) : Fld := ⟨PRT_REG_BURST p k, 0, 24⟩
/-- PRT_REG_LEVEL: its offset. -/
abbrev PRT_REG_LEVEL (p k : Nat) : Nat := 0x902008 + p % 16 * 0x40 + k % 4 * 0x10
def PRT_REG_LEVEL_LEVEL (p k : Nat) : Fld := ⟨PRT_REG_LEVEL p k, 0, 32⟩
/-- PRT_REG_HELD: its offset. -/
abbrev PRT_REG_HELD (p k : Nat) : Nat := 0x90200C + p % 16 * 0x40 + k % 4 * 0x10
def PRT_REG_HELD_HELD (p k : Nat) : Fld := ⟨PRT_REG_HELD p k, 0, 32⟩
/-- PRT_REG3_CTL: its offset. -/
abbrev PRT_REG3_CTL (p : Nat) : Nat := 0x902030 + p % 16 * 0x40
def PRT_REG3_CTL_EN (p : Nat) : Fld := ⟨PRT_REG3_CTL p, 0, 1⟩
def PRT_REG3_CTL_SHARE (p : Nat) : Fld := ⟨PRT_REG3_CTL p, 1, 6⟩
def PRT_REG3_CTL_RATE (p : Nat) : Fld := ⟨PRT_REG3_CTL p, 8, 24⟩
/-- PRT_REG3_BURST: its offset. -/
abbrev PRT_REG3_BURST (p : Nat) : Nat := 0x902034 + p % 16 * 0x40
def PRT_REG3_BURST_BURST (p : Nat) : Fld := ⟨PRT_REG3_BURST p, 0, 24⟩
/-- PRT_TEN: its offset. -/
abbrev PRT_TEN (t : Nat) : Nat := 0x904000 + t % 64 * 0x10
def PRT_TEN_PARTITION (t : Nat) : Fld := ⟨PRT_TEN t, 0, 4⟩
def PRT_TEN_BOUND (t : Nat) : Fld := ⟨PRT_TEN t, 4, 1⟩
def PRT_TEN_MIGRATING (t : Nat) : Fld := ⟨PRT_TEN t, 5, 1⟩
def PRT_TEN_BGROUP (t : Nat) : Fld := ⟨PRT_TEN t, 8, 4⟩
/-- PRT_ACCT_JOBS: its offset. -/
abbrev PRT_ACCT_JOBS (t : Nat) : Nat := 0x908000 + t % 64 * 0x200
def PRT_ACCT_JOBS_JOBS (t : Nat) : Fld := ⟨PRT_ACCT_JOBS t, 0, 64⟩
/-- PRT_ACCT_IN: its offset. -/
abbrev PRT_ACCT_IN (t : Nat) : Nat := 0x908008 + t % 64 * 0x200
def PRT_ACCT_IN_TOKENS_IN (t : Nat) : Fld := ⟨PRT_ACCT_IN t, 0, 64⟩
/-- PRT_ACCT_OUT: its offset. -/
abbrev PRT_ACCT_OUT (t : Nat) : Nat := 0x908010 + t % 64 * 0x200
def PRT_ACCT_OUT_TOKENS_OUT (t : Nat) : Fld := ⟨PRT_ACCT_OUT t, 0, 64⟩
/-- PRT_ACCT_PREEMPTED: its offset. -/
abbrev PRT_ACCT_PREEMPTED (t : Nat) : Nat := 0x908018 + t % 64 * 0x200
def PRT_ACCT_PREEMPTED_PREEMPTED (t : Nat) : Fld := ⟨PRT_ACCT_PREEMPTED t, 0, 32⟩
/-- PRT_ACCT_REJ: its offset. -/
abbrev PRT_ACCT_REJ (t c : Nat) : Nat := 0x908020 + t % 64 * 0x200 + c % 11 * 4
def PRT_ACCT_REJ_REJ (t c : Nat) : Fld := ⟨PRT_ACCT_REJ t c, 0, 32⟩
/-- PRT_ACCT_WAIT: its offset. -/
abbrev PRT_ACCT_WAIT (t s k : Nat) : Nat := 0x908100 + t % 64 * 0x200 + s % 4 * 0x40 + k % 16 * 4
def PRT_ACCT_WAIT_WAIT (t s k : Nat) : Fld := ⟨PRT_ACCT_WAIT t s k, 0, 32⟩
/-- MEM_CH_STATUS: its offset. -/
abbrev MEM_CH_STATUS : Nat := 0xA00000
def MEM_CH_STATUS_TRAINED : Fld := ⟨MEM_CH_STATUS, 0, 32⟩
def MEM_CH_STATUS_TRAIN_FAIL : Fld := ⟨MEM_CH_STATUS, 32, 32⟩
/-- MEM_EVT_STATUS: its offset. -/
abbrev MEM_EVT_STATUS : Nat := 0xA00010
def MEM_EVT_STATUS_UNCORR_TRANSIENT : Fld := ⟨MEM_EVT_STATUS, 0, 1⟩
def MEM_EVT_STATUS_UNCORR_LASTING : Fld := ⟨MEM_EVT_STATUS, 1, 1⟩
def MEM_EVT_STATUS_PAGE_RETIRED : Fld := ⟨MEM_EVT_STATUS, 2, 1⟩
def MEM_EVT_STATUS_RETIRE_LIST_FULL : Fld := ⟨MEM_EVT_STATUS, 3, 1⟩
def MEM_EVT_STATUS_XLATE_REFUSED : Fld := ⟨MEM_EVT_STATUS, 4, 1⟩
def MEM_EVT_STATUS_PARK_BUSY : Fld := ⟨MEM_EVT_STATUS, 5, 1⟩
def MEM_EVT_STATUS_OVERLAP : Fld := ⟨MEM_EVT_STATUS, 24, 8⟩
/-- MEM_EVT_INT_EN: its offset. -/
abbrev MEM_EVT_INT_EN : Nat := 0xA00014
def MEM_EVT_INT_EN_EN : Fld := ⟨MEM_EVT_INT_EN, 0, 6⟩
/-- MEM_ERR_ADDR: its offset. -/
abbrev MEM_ERR_ADDR : Nat := 0xA00020
def MEM_ERR_ADDR_PHYS : Fld := ⟨MEM_ERR_ADDR, 0, 36⟩
/-- MEM_SCRUB_CTL: its offset. -/
abbrev MEM_SCRUB_CTL : Nat := 0xA00030
def MEM_SCRUB_CTL_SCRUB_HOURS : Fld := ⟨MEM_SCRUB_CTL, 0, 8⟩
/-- MEM_ECC_CNT: its offset. -/
abbrev MEM_ECC_CNT (c : Nat) : Nat := 0xA00100 + c % 32 * 4
def MEM_ECC_CNT_CORRECTED (c : Nat) : Fld := ⟨MEM_ECC_CNT c, 0, 16⟩
def MEM_ECC_CNT_TRANSIENT (c : Nat) : Fld := ⟨MEM_ECC_CNT c, 16, 16⟩
/-- MEM_L2_MASK: its offset. -/
abbrev MEM_L2_MASK (g : Nat) : Nat := 0xA00200 + g % 16 * 4
def MEM_L2_MASK_PART_WAYS (g : Nat) : Fld := ⟨MEM_L2_MASK g, 0, 16⟩
def MEM_L2_MASK_SYS_WAYS (g : Nat) : Fld := ⟨MEM_L2_MASK g, 16, 16⟩
/-- MEM_PART_ARENA: its offset. -/
abbrev MEM_PART_ARENA (p : Nat) : Nat := 0xA01000 + p % 16 * 0x10
def MEM_PART_ARENA_PAGES (p : Nat) : Fld := ⟨MEM_PART_ARENA p, 0, 20⟩
def MEM_PART_ARENA_TRACE_MIB (p : Nat) : Fld := ⟨MEM_PART_ARENA p, 20, 12⟩
/-- MEM_PART_POOL: its offset. -/
abbrev MEM_PART_POOL (p : Nat) : Nat := 0xA01004 + p % 16 * 0x10
def MEM_PART_POOL_FREE (p : Nat) : Fld := ⟨MEM_PART_POOL p, 0, 20⟩
/-- MEM_PART_POOL2: its offset. -/
abbrev MEM_PART_POOL2 (p : Nat) : Nat := 0xA01008 + p % 16 * 0x10
def MEM_PART_POOL2_STAGED (p : Nat) : Fld := ⟨MEM_PART_POOL2 p, 0, 16⟩
def MEM_PART_POOL2_RETIRED (p : Nat) : Fld := ⟨MEM_PART_POOL2 p, 16, 16⟩
/-- MEM_PART_SAVE: its offset. -/
abbrev MEM_PART_SAVE (p : Nat) : Nat := 0xA0100C + p % 16 * 0x10
def MEM_PART_SAVE_SAVE_64K (p : Nat) : Fld := ⟨MEM_PART_SAVE p, 0, 20⟩
/-- MEM_PARK_BASE: its offset. -/
abbrev MEM_PARK_BASE (t : Nat) : Nat := 0xA02000 + t % 64 * 0x10
def MEM_PARK_BASE_ADDR (t : Nat) : Fld := ⟨MEM_PARK_BASE t, 16, 48⟩
/-- MEM_PARK_SLOTS: its offset. -/
abbrev MEM_PARK_SLOTS (t : Nat) : Nat := 0xA02008 + t % 64 * 0x10
def MEM_PARK_SLOTS_SLOTS (t : Nat) : Fld := ⟨MEM_PARK_SLOTS t, 0, 24⟩
/-- MEM_PARK_CNT: its offset. -/
abbrev MEM_PARK_CNT (t : Nat) : Nat := 0xA0200C + t % 64 * 0x10
def MEM_PARK_CNT_IN_USE (t : Nat) : Fld := ⟨MEM_PARK_CNT t, 0, 16⟩
def MEM_PARK_CNT_PARK_NO_SLOT (t : Nat) : Fld := ⟨MEM_PARK_CNT t, 16, 16⟩
/-- CZL_NODE: its offset. -/
abbrev CZL_NODE : Nat := 0xB00000
def CZL_NODE_NODE_ID : Fld := ⟨CZL_NODE, 0, 6⟩
def CZL_NODE_MAX_HOPS : Fld := ⟨CZL_NODE, 8, 3⟩
def CZL_NODE_STAMP_MS : Fld := ⟨CZL_NODE, 16, 8⟩
/-- CZL_STATUS: its offset. -/
abbrev CZL_STATUS : Nat := 0xB00010
def CZL_STATUS_DEGRADED : Fld := ⟨CZL_STATUS, 0, 1⟩
def CZL_STATUS_PORT_DOWN : Fld := ⟨CZL_STATUS, 1, 1⟩
def CZL_STATUS_NODE_CONFLICT : Fld := ⟨CZL_STATUS, 2, 1⟩
def CZL_STATUS_GROUP_LOST : Fld := ⟨CZL_STATUS, 3, 1⟩
def CZL_STATUS_DROPPED : Fld := ⟨CZL_STATUS, 4, 1⟩
def CZL_STATUS_NODE_LOCKED : Fld := ⟨CZL_STATUS, 5, 1⟩
def CZL_STATUS_OVERLAP : Fld := ⟨CZL_STATUS, 24, 8⟩
/-- CZL_INT_EN: its offset. -/
abbrev CZL_INT_EN : Nat := 0xB00014
def CZL_INT_EN_EN : Fld := ⟨CZL_INT_EN, 0, 6⟩
/-- CZL_DROP: its offset. -/
abbrev CZL_DROP : Nat := 0xB00020
def CZL_DROP_TTL_DROP : Fld := ⟨CZL_DROP, 0, 16⟩
def CZL_DROP_NO_ROUTE : Fld := ⟨CZL_DROP, 16, 16⟩
/-- CZL_DROP2: its offset. -/
abbrev CZL_DROP2 : Nat := 0xB00024
def CZL_DROP2_DOWN_DROP : Fld := ⟨CZL_DROP2, 0, 16⟩
def CZL_DROP2_MSG_TIMEOUT : Fld := ⟨CZL_DROP2, 16, 16⟩
/-- CZL_PORT: its offset. -/
abbrev CZL_PORT (n : Nat) : Nat := 0xB00100 + n % 12 * 0x40
def CZL_PORT_STATE (n : Nat) : Fld := ⟨CZL_PORT n, 0, 3⟩
def CZL_PORT_HALF (n : Nat) : Fld := ⟨CZL_PORT n, 3, 1⟩
def CZL_PORT_PEER_NODE (n : Nat) : Fld := ⟨CZL_PORT n, 8, 6⟩
def CZL_PORT_PEER_PORT (n : Nat) : Fld := ⟨CZL_PORT n, 16, 4⟩
def CZL_PORT_PEER_VALID (n : Nat) : Fld := ⟨CZL_PORT n, 20, 1⟩
/-- CZL_PORT_CTL: its offset. -/
abbrev CZL_PORT_CTL (n : Nat) : Nat := 0xB00104 + n % 12 * 0x40
def CZL_PORT_CTL_EXPECTED (n : Nat) : Fld := ⟨CZL_PORT_CTL n, 0, 1⟩
def CZL_PORT_CTL_DISABLE (n : Nat) : Fld := ⟨CZL_PORT_CTL n, 1, 1⟩
def CZL_PORT_CTL_RETRAIN (n : Nat) : Fld := ⟨CZL_PORT_CTL n, 2, 1⟩
/-- CZL_PORT_ERR: its offset. -/
abbrev CZL_PORT_ERR (n : Nat) : Nat := 0xB00108 + n % 12 * 0x40
def CZL_PORT_ERR_TRANSIENT (n : Nat) : Fld := ⟨CZL_PORT_ERR n, 0, 16⟩
def CZL_PORT_ERR_LASTING (n : Nat) : Fld := ⟨CZL_PORT_ERR n, 16, 8⟩
def CZL_PORT_ERR_CTRL_ERR (n : Nat) : Fld := ⟨CZL_PORT_ERR n, 24, 8⟩
/-- CZL_PORT_TX: its offset. -/
abbrev CZL_PORT_TX (n : Nat) : Nat := 0xB00110 + n % 12 * 0x40
def CZL_PORT_TX_FLITS (n : Nat) : Fld := ⟨CZL_PORT_TX n, 0, 64⟩
/-- CZL_PORT_RX: its offset. -/
abbrev CZL_PORT_RX (n : Nat) : Nat := 0xB00118 + n % 12 * 0x40
def CZL_PORT_RX_FLITS (n : Nat) : Fld := ⟨CZL_PORT_RX n, 0, 64⟩
/-- CZL_PORT_MARGIN: its offset. -/
abbrev CZL_PORT_MARGIN (n : Nat) : Nat := 0xB00120 + n % 12 * 0x40
def CZL_PORT_MARGIN_LANES (n : Nat) : Fld := ⟨CZL_PORT_MARGIN n, 0, 32⟩
/-- CZL_ROUTE: its offset. -/
abbrev CZL_ROUTE (d : Nat) : Nat := 0xB01000 + d % 64 * 4
def CZL_ROUTE_PRIMARY (d : Nat) : Fld := ⟨CZL_ROUTE d, 0, 4⟩
def CZL_ROUTE_ALTERNATE (d : Nat) : Fld := ⟨CZL_ROUTE d, 4, 4⟩
/-- CZL_GROUP: its offset. -/
abbrev CZL_GROUP (s : Nat) : Nat := 0xB02000 + s % 32 * 0x20
def CZL_GROUP_STATE (s : Nat) : Fld := ⟨CZL_GROUP s, 0, 3⟩
def CZL_GROUP_ROLE (s : Nat) : Fld := ⟨CZL_GROUP s, 3, 1⟩
def CZL_GROUP_MEMBERS (s : Nat) : Fld := ⟨CZL_GROUP s, 4, 5⟩
def CZL_GROUP_GROUP_ID (s : Nat) : Fld := ⟨CZL_GROUP s, 16, 11⟩
/-- CZL_GROUP_NODES: its offset. -/
abbrev CZL_GROUP_NODES (s j : Nat) : Nat := 0xB02004 + s % 32 * 0x20 + j % 4 * 4
def CZL_GROUP_NODES_NODES (s j : Nat) : Fld := ⟨CZL_GROUP_NODES s j, 0, 32⟩
/-- CZL_GROUP_SHORT: its offset. -/
abbrev CZL_GROUP_SHORT (s : Nat) : Nat := 0xB02018 + s % 32 * 0x20
def CZL_GROUP_SHORT_PLAN_SHORT (s : Nat) : Fld := ⟨CZL_GROUP_SHORT s, 0, 16⟩
/-- PWR_STATUS: its offset. -/
abbrev PWR_STATUS : Nat := 0xC00000
def PWR_STATUS_CAP_ENFORCED : Fld := ⟨PWR_STATUS, 0, 1⟩
def PWR_STATUS_DROP_UNSHAPED : Fld := ⟨PWR_STATUS, 1, 1⟩
def PWR_STATUS_THERM_EMERG : Fld := ⟨PWR_STATUS, 2, 1⟩
def PWR_STATUS_ON_BATTERY : Fld := ⟨PWR_STATUS, 3, 1⟩
def PWR_STATUS_SHELF_UNREACH : Fld := ⟨PWR_STATUS, 4, 1⟩
def PWR_STATUS_PEER_SILENT : Fld := ⟨PWR_STATUS, 5, 1⟩
def PWR_STATUS_MON_FAIL : Fld := ⟨PWR_STATUS, 6, 1⟩
def PWR_STATUS_OVERLAP : Fld := ⟨PWR_STATUS, 24, 8⟩
/-- PWR_INT_EN: its offset. -/
abbrev PWR_INT_EN : Nat := 0xC00004
def PWR_INT_EN_EN : Fld := ⟨PWR_INT_EN, 0, 7⟩
/-- PWR_STATE: its offset. -/
abbrev PWR_STATE : Nat := 0xC00010
def PWR_STATE_BATTERY : Fld := ⟨PWR_STATE, 0, 1⟩
def PWR_STATE_EMERGENCY : Fld := ⟨PWR_STATE, 1, 1⟩
def PWR_STATE_FALLBACK : Fld := ⟨PWR_STATE, 2, 1⟩
def PWR_STATE_BOOST_OK : Fld := ⟨PWR_STATE, 3, 1⟩
def PWR_STATE_STEP : Fld := ⟨PWR_STATE, 4, 4⟩
def PWR_STATE_DOMAIN : Fld := ⟨PWR_STATE, 8, 1⟩
/-- PWR_CAP: its offset. -/
abbrev PWR_CAP : Nat := 0xC00020
def PWR_CAP_CAP_W : Fld := ⟨PWR_CAP, 0, 9⟩
def PWR_CAP_CAP_MAX_W : Fld := ⟨PWR_CAP, 16, 9⟩
/-- PWR_SLEW: its offset. -/
abbrev PWR_SLEW : Nat := 0xC00024
def PWR_SLEW_UP_W_MS : Fld := ⟨PWR_SLEW, 0, 8⟩
def PWR_SLEW_DOWN_W_MS : Fld := ⟨PWR_SLEW, 8, 8⟩
def PWR_SLEW_LIMIT_SLEW : Fld := ⟨PWR_SLEW, 16, 8⟩
/-- PWR_LIMITS: its offset. -/
abbrev PWR_LIMITS : Nat := 0xC00028
def PWR_LIMITS_BATT_CAP_W : Fld := ⟨PWR_LIMITS, 0, 9⟩
def PWR_LIMITS_FALLBACK_W : Fld := ⟨PWR_LIMITS, 16, 9⟩
/-- PWR_BALLAST: its offset. -/
abbrev PWR_BALLAST : Nat := 0xC0002C
def PWR_BALLAST_BALLAST_EN : Fld := ⟨PWR_BALLAST, 0, 1⟩
def PWR_BALLAST_BALLAST_MAX : Fld := ⟨PWR_BALLAST, 8, 7⟩
/-- PWR_DVFS: its offset. -/
abbrev PWR_DVFS : Nat := 0xC00030
def PWR_DVFS_BOOST_EN : Fld := ⟨PWR_DVFS, 0, 1⟩
def PWR_DVFS_STEP_MAX : Fld := ⟨PWR_DVFS, 4, 4⟩
def PWR_DVFS_STEP_MIN : Fld := ⟨PWR_DVFS, 8, 4⟩
/-- PWR_TARGET: its offset. -/
abbrev PWR_TARGET : Nat := 0xC00040
def PWR_TARGET_MW : Fld := ⟨PWR_TARGET, 0, 32⟩
/-- PWR_CEILING: its offset. -/
abbrev PWR_CEILING : Nat := 0xC00044
def PWR_CEILING_MW : Fld := ⟨PWR_CEILING, 0, 32⟩
/-- PWR_FLOOR: its offset. -/
abbrev PWR_FLOOR : Nat := 0xC00048
def PWR_FLOOR_MW : Fld := ⟨PWR_FLOOR, 0, 32⟩
/-- PWR_BALLAST_MW: its offset. -/
abbrev PWR_BALLAST_MW : Nat := 0xC0004C
def PWR_BALLAST_MW_MW : Fld := ⟨PWR_BALLAST_MW, 0, 32⟩
/-- PWR_PRED: its offset. -/
abbrev PWR_PRED : Nat := 0xC00050
def PWR_PRED_MW : Fld := ⟨PWR_PRED, 0, 32⟩
/-- PWR_MEAS: its offset. -/
abbrev PWR_MEAS : Nat := 0xC00054
def PWR_MEAS_MW : Fld := ⟨PWR_MEAS, 0, 32⟩
/-- PWR_GAIN: its offset. -/
abbrev PWR_GAIN : Nat := 0xC00058
def PWR_GAIN_GAIN : Fld := ⟨PWR_GAIN, 0, 12⟩
/-- PWR_THERM_CAP: its offset. -/
abbrev PWR_THERM_CAP : Nat := 0xC0005C
def PWR_THERM_CAP_MW : Fld := ⟨PWR_THERM_CAP, 0, 32⟩
/-- PWR_THERM: its offset. -/
abbrev PWR_THERM : Nat := 0xC00060
def PWR_THERM_T_D : Fld := ⟨PWR_THERM, 0, 16⟩
def PWR_THERM_T_C : Fld := ⟨PWR_THERM, 16, 16⟩
/-- PWR_THERM1: its offset. -/
abbrev PWR_THERM1 : Nat := 0xC00064
def PWR_THERM1_T_LIMIT : Fld := ⟨PWR_THERM1, 0, 8⟩
def PWR_THERM1_T_IN : Fld := ⟨PWR_THERM1, 8, 8⟩
def PWR_THERM1_RJC : Fld := ⟨PWR_THERM1, 16, 16⟩
/-- PWR_THERM2: its offset. -/
abbrev PWR_THERM2 : Nat := 0xC00068
def PWR_THERM2_TAU_DIE_MS : Fld := ⟨PWR_THERM2, 0, 16⟩
def PWR_THERM2_HORIZON_MS : Fld := ⟨PWR_THERM2, 16, 16⟩
/-- PWR_THERM3: its offset. -/
abbrev PWR_THERM3 : Nat := 0xC0006C
def PWR_THERM3_RCL : Fld := ⟨PWR_THERM3, 0, 16⟩
def PWR_THERM3_TAU_COOL_S : Fld := ⟨PWR_THERM3, 16, 16⟩
/-- PWR_COEF: its offset. -/
abbrev PWR_COEF (w : Nat) : Nat := 0xC00100 + w % 8 * 4
def PWR_COEF_E (w : Nat) : Fld := ⟨PWR_COEF w, 0, 16⟩
/-- PWR_DOM: its offset. -/
abbrev PWR_DOM : Nat := 0xC00200
def PWR_DOM_DOM_EN : Fld := ⟨PWR_DOM, 0, 1⟩
def PWR_DOM_DOM_ID : Fld := ⟨PWR_DOM, 8, 8⟩
/-- PWR_DOM_SLEW: its offset. -/
abbrev PWR_DOM_SLEW : Nat := 0xC00204
def PWR_DOM_SLEW_DOM_UP : Fld := ⟨PWR_DOM_SLEW, 0, 16⟩
def PWR_DOM_SLEW_DOM_DOWN : Fld := ⟨PWR_DOM_SLEW, 16, 16⟩
/-- PWR_DOM_MEMBERS: its offset. -/
abbrev PWR_DOM_MEMBERS : Nat := 0xC00208
def PWR_DOM_MEMBERS_MEMBERS : Fld := ⟨PWR_DOM_MEMBERS, 0, 64⟩
/-- PWR_DOM_RISE: its offset. -/
abbrev PWR_DOM_RISE : Nat := 0xC00210
def PWR_DOM_RISE_GRANT : Fld := ⟨PWR_DOM_RISE, 0, 32⟩
/-- PWR_DOM_FALL: its offset. -/
abbrev PWR_DOM_FALL : Nat := 0xC00214
def PWR_DOM_FALL_GRANT : Fld := ⟨PWR_DOM_FALL, 0, 32⟩
/-- PWR_DOM_SILENT: its offset. -/
abbrev PWR_DOM_SILENT : Nat := 0xC00218
def PWR_DOM_SILENT_SILENT : Fld := ⟨PWR_DOM_SILENT, 0, 64⟩
/-- PWR_DOM_MISSED: its offset. -/
abbrev PWR_DOM_MISSED : Nat := 0xC00220
def PWR_DOM_MISSED_MISSED : Fld := ⟨PWR_DOM_MISSED, 0, 16⟩
/-- PWR_SHELF: its offset. -/
abbrev PWR_SHELF (d : Nat) : Nat := 0xC00300 + d % 8 * 0x10
def PWR_SHELF_ADDR (d : Nat) : Fld := ⟨PWR_SHELF d, 0, 7⟩
def PWR_SHELF_VALID (d : Nat) : Fld := ⟨PWR_SHELF d, 8, 1⟩
def PWR_SHELF_REACHABLE (d : Nat) : Fld := ⟨PWR_SHELF d, 9, 1⟩
def PWR_SHELF_BATT (d : Nat) : Fld := ⟨PWR_SHELF d, 10, 1⟩
def PWR_SHELF_OVERLOAD (d : Nat) : Fld := ⟨PWR_SHELF d, 11, 1⟩
def PWR_SHELF_STATUS_WORD (d : Nat) : Fld := ⟨PWR_SHELF d, 16, 16⟩
/-- PWR_SHELF_PIN: its offset. -/
abbrev PWR_SHELF_PIN (d : Nat) : Nat := 0xC00304 + d % 8 * 0x10
def PWR_SHELF_PIN_MW (d : Nat) : Fld := ⟨PWR_SHELF_PIN d, 0, 32⟩
/-- PWR_SHELF_POUT: its offset. -/
abbrev PWR_SHELF_POUT (d : Nat) : Nat := 0xC00308 + d % 8 * 0x10
def PWR_SHELF_POUT_MW (d : Nat) : Fld := ⟨PWR_SHELF_POUT d, 0, 32⟩
/-- PWR_CNT: its offset. -/
abbrev PWR_CNT (k : Nat) : Nat := 0xC00400 + k % 3 * 4
def PWR_CNT_LOW (k : Nat) : Fld := ⟨PWR_CNT k, 0, 16⟩
def PWR_CNT_HIGH (k : Nat) : Fld := ⟨PWR_CNT k, 16, 16⟩
/-- PWR_PART_MW: its offset. -/
abbrev PWR_PART_MW (p : Nat) : Nat := 0xC00500 + p % 16 * 4
def PWR_PART_MW_MW (p : Nat) : Fld := ⟨PWR_PART_MW p, 0, 32⟩
/-- TRC_STATUS: its offset. -/
abbrev TRC_STATUS : Nat := 0xD00000
def TRC_STATUS_RECORD_LOST : Fld := ⟨TRC_STATUS, 0, 1⟩
def TRC_STATUS_STOPPED : Fld := ⟨TRC_STATUS, 1, 1⟩
def TRC_STATUS_NONFINITE : Fld := ⟨TRC_STATUS, 2, 1⟩
def TRC_STATUS_RING_PAGE_LOST : Fld := ⟨TRC_STATUS, 3, 1⟩
def TRC_STATUS_OVERLAP : Fld := ⟨TRC_STATUS, 24, 8⟩
/-- TRC_INT_EN: its offset. -/
abbrev TRC_INT_EN : Nat := 0xD00004
def TRC_INT_EN_EN : Fld := ⟨TRC_INT_EN, 0, 4⟩
/-- TRC_WIN_CTL: its offset. -/
abbrev TRC_WIN_CTL : Nat := 0xD00010
def TRC_WIN_CTL_PART : Fld := ⟨TRC_WIN_CTL, 0, 4⟩
def TRC_WIN_CTL_BASE : Fld := ⟨TRC_WIN_CTL, 8, 13⟩
/-- TRC_RE: its offset. -/
abbrev TRC_RE (k : Nat) : Nat := 0xD00100 + k % 6 * 8
def TRC_RE_COUNT (k : Nat) : Fld := ⟨TRC_RE k, 0, 64⟩
/-- TRC_GROVE: its offset. -/
abbrev TRC_GROVE (g k : Nat) : Nat := 0xD01000 + g % 16 * 0x100 + k % 4 * 8
def TRC_GROVE_COUNT (g k : Nat) : Fld := ⟨TRC_GROVE g k, 0, 64⟩
/-- TRC_PART: its offset. -/
abbrev TRC_PART (p k : Nat) : Nat := 0xD04000 + p % 16 * 0x100 + k % 7 * 8
def TRC_PART_COUNT (p k : Nat) : Fld := ⟨TRC_PART p k, 0, 64⟩
/-- TRC_TCTL: its offset. -/
abbrev TRC_TCTL (p : Nat) : Nat := 0xD08000 + p % 16 * 0x40
def TRC_TCTL_EN (p : Nat) : Fld := ⟨TRC_TCTL p, 0, 1⟩
def TRC_TCTL_KIND_MASK (p : Nat) : Fld := ⟨TRC_TCTL p, 1, 6⟩
def TRC_TCTL_MODE (p : Nat) : Fld := ⟨TRC_TCTL p, 7, 1⟩
def TRC_TCTL_STOPPED_P (p : Nat) : Fld := ⟨TRC_TCTL p, 8, 1⟩
/-- TRC_WAIT_MIN: its offset. -/
abbrev TRC_WAIT_MIN (p : Nat) : Nat := 0xD08004 + p % 16 * 0x40
def TRC_WAIT_MIN_WAIT_MIN (p : Nat) : Fld := ⟨TRC_WAIT_MIN p, 0, 16⟩
/-- TRC_WPTR: its offset. -/
abbrev TRC_WPTR (p : Nat) : Nat := 0xD08008 + p % 16 * 0x40
def TRC_WPTR_WPTR (p : Nat) : Fld := ⟨TRC_WPTR p, 0, 32⟩
/-- TRC_WRAPS: its offset. -/
abbrev TRC_WRAPS (p : Nat) : Nat := 0xD0800C + p % 16 * 0x40
def TRC_WRAPS_WRAPS (p : Nat) : Fld := ⟨TRC_WRAPS p, 0, 32⟩
/-- TRC_TEN: its offset. -/
abbrev TRC_TEN (t k : Nat) : Nat := 0xD10000 + t % 64 * 0x100 + k % 12 * 8
def TRC_TEN_COUNT (t k : Nat) : Fld := ⟨TRC_TEN t k, 0, 64⟩
/-- TRC_CL: its offset. -/
abbrev TRC_CL (n k : Nat) : Nat := 0xD20000 + n % 1280 * 0x10 + k % 2 * 8
def TRC_CL_COUNT (n k : Nat) : Fld := ⟨TRC_CL n k, 0, 64⟩
/-- TRC_WINDOW: its offset. -/
abbrev TRC_WINDOW (i : Nat) : Nat := 0xD80000 + i % 131072 * 4
def TRC_WINDOW_WORD (i : Nat) : Fld := ⟨TRC_WINDOW i, 0, 32⟩
/-- TRC_ASSAY_CTL: its offset. -/
abbrev TRC_ASSAY_CTL (p s : Nat) : Nat := 0xD60000 + p % 16 * 0x800 + s % 16 * 0x80
def TRC_ASSAY_CTL_EN (p s : Nat) : Fld := ⟨TRC_ASSAY_CTL p s, 0, 1⟩
def TRC_ASSAY_CTL_RECORD (p s : Nat) : Fld := ⟨TRC_ASSAY_CTL p s, 1, 1⟩
def TRC_ASSAY_CTL_CTX (p s : Nat) : Fld := ⟨TRC_ASSAY_CTL p s, 3, 5⟩
def TRC_ASSAY_CTL_EVERY (p s : Nat) : Fld := ⟨TRC_ASSAY_CTL p s, 16, 16⟩
/-- TRC_ASSAY_TENSOR: its offset. -/
abbrev TRC_ASSAY_TENSOR (p s : Nat) : Nat := 0xD60004 + p % 16 * 0x800 + s % 16 * 0x80
def TRC_ASSAY_TENSOR_TENSOR_ID (p s : Nat) : Fld := ⟨TRC_ASSAY_TENSOR p s, 0, 32⟩
/-- TRC_ASSAY_Q: its offset. -/
abbrev TRC_ASSAY_Q (p s k : Nat) : Nat := 0xD60008 + p % 16 * 0x800 + s % 16 * 0x80 + k % 9 * 8
def TRC_ASSAY_Q_VALUE (p s k : Nat) : Fld := ⟨TRC_ASSAY_Q p s k, 0, 64⟩
/-- TRC_ASSAY_TAG: its offset. -/
abbrev TRC_ASSAY_TAG (p s : Nat) : Nat := 0xD60050 + p % 16 * 0x800 + s % 16 * 0x80
def TRC_ASSAY_TAG_TAG (p s : Nat) : Fld := ⟨TRC_ASSAY_TAG p s, 0, 16⟩
/-- FLT_STATUS: its offset. -/
abbrev FLT_STATUS : Nat := 0xE00000
def FLT_STATUS_F2_SEEN : Fld := ⟨FLT_STATUS, 0, 1⟩
def FLT_STATUS_F3_SEEN : Fld := ⟨FLT_STATUS, 1, 1⟩
def FLT_STATUS_F4_SEEN : Fld := ⟨FLT_STATUS, 2, 1⟩
def FLT_STATUS_LASTING_SEEN : Fld := ⟨FLT_STATUS, 3, 1⟩
def FLT_STATUS_GROUP_SEEN : Fld := ⟨FLT_STATUS, 4, 1⟩
def FLT_STATUS_BTN_STUCK : Fld := ⟨FLT_STATUS, 5, 1⟩
def FLT_STATUS_LOG_DROPPED : Fld := ⟨FLT_STATUS, 6, 1⟩
def FLT_STATUS_OVERLAP : Fld := ⟨FLT_STATUS, 24, 8⟩
/-- FLT_INT_EN: its offset. -/
abbrev FLT_INT_EN : Nat := 0xE00004
def FLT_INT_EN_EN : Fld := ⟨FLT_INT_EN, 0, 7⟩
/-- FLT_STATE: its offset. -/
abbrev FLT_STATE : Nat := 0xE00010
def FLT_STATE_CHIP_FAULTED : Fld := ⟨FLT_STATE, 0, 1⟩
def FLT_STATE_QUEUED : Fld := ⟨FLT_STATE, 1, 5⟩
def FLT_STATE_PARTS_RESETTING : Fld := ⟨FLT_STATE, 16, 16⟩
/-- FLT_FAULTN: its offset. -/
abbrev FLT_FAULTN : Nat := 0xE00020
def FLT_FAULTN_CAUSE : Fld := ⟨FLT_FAULTN, 0, 7⟩
/-- FLT_CTL: its offset. -/
abbrev FLT_CTL : Nat := 0xE00024
def FLT_CTL_F4_HOLD_MS : Fld := ⟨FLT_CTL, 0, 16⟩
def FLT_CTL_FAULTN_EN : Fld := ⟨FLT_CTL, 16, 2⟩
/-- FLT_CNT: its offset. -/
abbrev FLT_CNT (n : Nat) : Nat := 0xE00040 + n % 5 * 4
def FLT_CNT_COUNT (n : Nat) : Fld := ⟨FLT_CNT n, 0, 32⟩
/-- FLT_LAST: its offset. -/
abbrev FLT_LAST (i : Nat) : Nat := 0xE00080 + i % 4 * 4
def FLT_LAST_RECORD (i : Nat) : Fld := ⟨FLT_LAST i, 0, 32⟩
/-- FLT_BTN: its offset. -/
abbrev FLT_BTN : Nat := 0xE000A0
def FLT_BTN_LEVEL : Fld := ⟨FLT_BTN, 0, 1⟩
def FLT_BTN_STATE : Fld := ⟨FLT_BTN, 1, 2⟩
def FLT_BTN_PRESSES : Fld := ⟨FLT_BTN, 8, 8⟩
/-- GRV_STATUS: its offset. -/
abbrev GRV_STATUS (g : Nat) : Nat := 0x1000000 + g % 16 * 0x40000
def GRV_STATUS_PARTITION (g : Nat) : Fld := ⟨GRV_STATUS g, 0, 4⟩
def GRV_STATUS_ASSIGNED (g : Nat) : Fld := ⟨GRV_STATUS g, 4, 1⟩
def GRV_STATUS_STATE (g : Nat) : Fld := ⟨GRV_STATUS g, 5, 3⟩
def GRV_STATUS_ACTIVE (g : Nat) : Fld := ⟨GRV_STATUS g, 8, 7⟩
def GRV_STATUS_SPARES_FREE (g : Nat) : Fld := ⟨GRV_STATUS g, 16, 3⟩
/-- GRV_MAP: its offset. -/
abbrev GRV_MAP (g n : Nat) : Nat := 0x1000100 + g % 16 * 0x40000 + n % 20 * 4
def GRV_MAP_MAP (g n : Nat) : Fld := ⟨GRV_MAP g n, 0, 32⟩
/-- GRV_RETIRED: its offset. -/
abbrev GRV_RETIRED (g n : Nat) : Nat := 0x1000180 + g % 16 * 0x40000 + n % 3 * 4
def GRV_RETIRED_RETIRED (g n : Nat) : Fld := ⟨GRV_RETIRED g n, 0, 32⟩
/-- GRV_EVT_STATUS: its offset. -/
abbrev GRV_EVT_STATUS (g : Nat) : Nat := 0x1000200 + g % 16 * 0x40000
def GRV_EVT_STATUS_NAN_GEN (g : Nat) : Fld := ⟨GRV_EVT_STATUS g, 0, 1⟩
def GRV_EVT_STATUS_SAT (g : Nat) : Fld := ⟨GRV_EVT_STATUS g, 1, 1⟩
def GRV_EVT_STATUS_SCALE_NAN (g : Nat) : Fld := ⟨GRV_EVT_STATUS g, 2, 1⟩
def GRV_EVT_STATUS_ECC_CORR (g : Nat) : Fld := ⟨GRV_EVT_STATUS g, 3, 1⟩
def GRV_EVT_STATUS_ECC_UNCORR (g : Nat) : Fld := ⟨GRV_EVT_STATUS g, 4, 1⟩
def GRV_EVT_STATUS_OVERLAP (g : Nat) : Fld := ⟨GRV_EVT_STATUS g, 24, 8⟩
/-- GRV_EVT_INT_EN: its offset. -/
abbrev GRV_EVT_INT_EN (g : Nat) : Nat := 0x1000204 + g % 16 * 0x40000
def GRV_EVT_INT_EN_EN (g : Nat) : Fld := ⟨GRV_EVT_INT_EN g, 0, 5⟩
/-- GRV_ECC_CNT: its offset. -/
abbrev GRV_ECC_CNT (g : Nat) : Nat := 0x1000210 + g % 16 * 0x40000
def GRV_ECC_CNT_CORRECTED (g : Nat) : Fld := ⟨GRV_ECC_CNT g, 0, 16⟩
/-- GRV_DISPATCHED: its offset. -/
abbrev GRV_DISPATCHED (g : Nat) : Nat := 0x1000300 + g % 16 * 0x40000
def GRV_DISPATCHED_TASKS (g : Nat) : Fld := ⟨GRV_DISPATCHED g, 0, 64⟩
/-- GRV_UCODE_VER: its offset. -/
abbrev GRV_UCODE_VER (g : Nat) : Nat := 0x1000400 + g % 16 * 0x40000
def GRV_UCODE_VER_PATCH (g : Nat) : Fld := ⟨GRV_UCODE_VER g, 0, 16⟩
def GRV_UCODE_VER_MINOR (g : Nat) : Fld := ⟨GRV_UCODE_VER g, 16, 8⟩
def GRV_UCODE_VER_MAJOR (g : Nat) : Fld := ⟨GRV_UCODE_VER g, 24, 8⟩

end Sys2Proof.Machine.Reg
end

