-- ==== Sys2Proof/Machine/Sparse.lean ====
section
/-! DEFINITION. Sparse data by key: a list of (key, value) pairs in one canonical form (keys strictly rising, no value
equal to what an unlisted key reads as), so that equal contents are equal data. Registers, DRAM, and every family of
like records (lanes, tenants, slots, requests) are kept so. -/
namespace Sys2Proof.Machine

/-- The value at key `k`; `d k` where the list does not name it. -/
def spGet {α : Type} (d : Nat → α) : List (Nat × α) → Nat → α
  | [], k => d k
  | (k', v) :: rest, k => if k = k' then v else if k < k' then d k else spGet d rest k

/-- Insert or replace at key `k`, in order. -/
def spIns {α : Type} (k : Nat) (v : α) : List (Nat × α) → List (Nat × α)
  | [] => [(k, v)]
  | (k', v') :: rest =>
    if k < k' then (k, v) :: (k', v') :: rest
    else if k = k' then (k, v) :: rest
    else (k', v') :: spIns k v rest

/-- Leave out the leading keys up to `k`: none on a list whose keys rise above `k`. -/
def spSkip {α : Type} (k : Nat) : List (Nat × α) → List (Nat × α)
  | [] => []
  | (k', v') :: rest => if k' ≤ k then spSkip k rest else (k', v') :: rest

/-- Drop key `k`. -/
def spDel {α : Type} (k : Nat) : List (Nat × α) → List (Nat × α)
  | [] => []
  | (k', v') :: rest =>
    if k < k' then (k', v') :: rest
    else if k = k' then spSkip k rest
    else (k', v') :: spDel k rest

/-- Write `v` at key `k`: listed, or dropped where `v` is what an unlisted key reads as. -/
def spPut {α : Type} [DecidableEq α] (d : Nat → α) (k : Nat) (v : α) (l : List (Nat × α)) : List (Nat × α) :=
  if v = d k then spDel k l else spIns k v l

/-- Leave out the keys that satisfy `p`, from key `b` on: what a list that does not rise hides behind a greater key stays hidden. -/
def spDropFrom {α : Type} (p : Nat → Bool) : Nat → List (Nat × α) → List (Nat × α)
  | _, [] => []
  | b, (k, v) :: rest =>
    if k < b then spDropFrom p b rest
    else if p k then spDropFrom p (k + 1) rest
    else (k, v) :: spDropFrom p (k + 1) rest
def spDrop {α : Type} (p : Nat → Bool) (l : List (Nat × α)) : List (Nat × α) := spDropFrom p 0 l

/-- Every listed key lies above `b`, in rising order, with a value that is not the unlisted one. -/
def spWfFrom {α : Type} [DecidableEq α] (d : Nat → α) : Nat → List (Nat × α) → Bool
  | _, [] => true
  | b, (k, v) :: rest => decide (b ≤ k) && decide (v ≠ d k) && spWfFrom d (k + 1) rest

/-- The canonical form. -/
def spWf {α : Type} [DecidableEq α] (d : Nat → α) (l : List (Nat × α)) : Bool :=
  spWfFrom d 0 l

end Sys2Proof.Machine
end

