-- ==== Sys2Proof/Machine/State.lean ====
section
/-! DEFINITION. The state of the block: every register, queue, table, counter, mode and pin the spec gives the device,
as plain data; the reasons a command can stop; the state after reset (before POR_N is deasserted). Registers live in
`regs` under their PF0 BAR0 offsets; what no register holds lives in the named fields. -/
namespace Sys2Proof.Machine

/-- Why the block stops. No command of the table does: the type has one member so that a model change has a place. -/
inductive Fault where
  /-- Raised by nobody: the spec gives every event of the table an outcome in state. Safe. -/
  | none
  deriving DecidableEq, Repr

/-- Why a command has no meaning here. -/
inductive Refusal where
  /-- The command has no meaning in this model yet. Raised by Dispatch only. Safe. -/
  | notModelled (mnemonic : String)
  deriving DecidableEq, Repr

/-- The request states of Table 01.1 (spec/01, R11). -/
inductive ReqState where
  | arrived | admitted | prefill | decode | parked | done | expired | cancelled | rejected | failed
  deriving DecidableEq, Repr

/-- The fields of a SUBMIT item (spec/07, Table 07.3), an absent word's fields at the table's values. -/
structure SubmitF where
  model : Nat
  promptLen : Nat
  draftN : Nat
  cq : Nat
  member : Bool
  token : Nat
  promptAddr : Nat
  seed : Nat
  maxNew : Nat
  ttftUs : Nat
  bttUs : Nat
  totalMs : Nat
  /-- TEMP, TOP_P, MIN_P and the penalties as FP16 words. -/
  temp : Nat
  topP : Nat
  minP : Nat
  topK : Nat
  repPen : Nat
  presPen : Nat
  freqPen : Nat
  extAddr : Nat
  biasN : Nat
  stopN : Nat
  maskAddr : Nat
  deriving DecidableEq, Repr

/-- A Request Table entry (spec/01; spec/07; spec/10, R347). -/
structure Req where
  gen : Nat
  tenant : Nat
  /-- The service class: the submission ring's number. -/
  cls : Nat
  sub : SubmitF
  bias : List (Nat × W32)
  stops : List (List Nat)
  /-- Model slot and global context number that serve it; set at admission to the context of that moment. -/
  slot : Nat
  ctx : Nat
  st : ReqState
  arrival : Nat
  bucket : Nat
  /-- The cohort's number and the member's index in it. -/
  cohort : Nat
  member : Nat
  emitted : Nat
  /-- KV append pointers of the target and the draft context (R210, R326). -/
  append : Nat
  dAppend : Nat
  lastCommit : Nat
  /-- Penalty history (token, count, last output index) and stop tail (R347, R365, R366). -/
  hist : List (Nat × Nat × Nat)
  tail : List Nat
  /-- The arena page of the sampler page, once taken (R298, R347), and the mask as copied. -/
  maskPage : Option Nat
  mask : List Byte
  maskReady : Bool
  /-- Its context was paired when its cohort was admitted (R400). -/
  paired : Bool
  /-- Pages of the KV reservation it has used (R292). -/
  kvUsed : Nat
  /-- Park slots it holds, in page order, and whether a park or an unpark of it is in progress (R218, R219). -/
  slots : List Nat
  parking : Bool
  unparking : Bool
  /-- The SUBMIT's word-7 mask was already charged (R214, R216). -/
  charged : Bool
  deriving DecidableEq, Repr

/-- Where a cohort stands in admission (spec/08). -/
inductive CohortState where
  | queued | copying | admitted
  deriving DecidableEq, Repr

/-- A complete cohort (spec/01, section Cohorts; spec/08). -/
structure Cohort where
  tenant : Nat
  cls : Nat
  model : Nat
  bucket : Nat
  arrival : Nat
  members : List Nat
  st : CohortState
  evaluated : Bool
  /-- Holding cause: 0 none, 1 budget, 2 concurrency (ADM_TEN_WAIT), and since when it waits. -/
  hold : Nat
  waitSince : Nat
  /-- W_PF at acceptance: the weight its reserved credits were counted with (R289). -/
  wPf : Nat
  /-- Positions committed per remaining member (R16). -/
  committed : Nat
  /-- Prefill pages of its KV reservation that are not yet used up (R292). -/
  kvLeft : Nat
  deriving DecidableEq, Repr

/-- An item whose cohort is still open on a ring (spec/07, R260, R261). -/
structure Member where
  sub : SubmitF
  bias : List (Nat × W32)
  stops : List (List Nat)
  echo : List Byte
  /-- The refusal code of its own validation; 0 when it is valid. -/
  code : Nat
  deriving DecidableEq, Repr

/-- A cohort that a COHORT item opened and that is not complete (spec/07, R260). -/
structure OpenCohort where
  members : Nat
  model : Nat
  bucket : Nat
  echo : List Byte
  consumed : List Member
  deriving DecidableEq, Repr

/-- A fence that holds its ring (spec/07, R267): words of each other ring still before its snapshot. -/
structure FenceWait where
  left : List (Nat × Nat)
  cq : Nat
  notify : Bool
  echo : List Byte
  deriving DecidableEq, Repr

/-- A submission ring beyond its registers (spec/07). -/
structure Sq where
  /-- The time of the last read that found the next item not ready (R252). -/
  lastRead : Option Nat
  /-- Positions already counted stale in this epoch (R252). -/
  stale : List Nat
  /-- A failed ring read stopped the ring (R283). -/
  stopped : Bool
  flushing : Bool
  /-- The flush disables the ring when it is done (R242). -/
  disabling : Bool
  /-- The host reads of the item at the head were in flight when the flush was written (R275). -/
  inflight : Bool
  /-- The completion slots of an item that was found consumable and waits for them, or for its turn (R256, R257). -/
  waitFor : Option (List Nat)
  cohort : Option OpenCohort
  fence : Option FenceWait
  deriving DecidableEq, Repr

/-- A completion record without its PHASE bit (spec/07, Table 07.6). -/
structure Rec where
  handle : W32
  status : Nat
  flags : Nat
  count : Nat
  /-- Bytes 12 to 31. -/
  body : List Byte
  deriving DecidableEq, Repr

/-- A completion ring beyond its registers (spec/07). -/
structure Cq where
  /-- The position host software last reported (R273). -/
  head : Nat
  waiting : List Rec
  /-- Pending count, timer start, and the COAL_COUNT and COAL_US read at the first record (R274). -/
  pend : Nat
  timer : Nat
  coalCount : Nat
  coalUs : Nat
  deriving DecidableEq, Repr

/-- The intake's arbiter (spec/07, R256): the tenant it served last, and per tenant the ring it serves with the items
that ring may still have in this turn of the weights. -/
structure IntakeArb where
  tenant : Nat
  rings : List (Nat × (Nat × Nat))
  deriving DecidableEq, Repr

/-- The admission controller's scan (spec/08, R299, R301): the queue 4t + c it looks at next, and the queues whose waiting
heads are due to be evaluated again. -/
structure AdmScan where
  next : Nat
  due : List Nat
  deriving DecidableEq, Repr

/-- The storage of a cluster while a task holds it (spec/04, R123): which placement it belongs to, FP32 words of its register
file and of its accumulators, and bytes of its scratch SRAM, where the task has written them. -/
structure Cluster where
  placement : Nat
  regs : List (Nat × W32)
  acc : List (Nat × W32)
  scratch : List Host.Cell
  deriving DecidableEq, Repr

/-- A line that an L2 slice holds (spec/06, R222): its way, and whether it was written since it was read. -/
structure L2Line where
  way : Nat
  dirty : Bool
  deriving DecidableEq, Repr

/-- The patrol scrubber (spec/06, R206): the 32-byte word it reads next in this pass (2^31 when the pass is over), and when
the pass began. -/
structure Scrub where
  next : Nat
  since : Nat
  deriving DecidableEq, Repr

/-- What the bytes that wait at a bandwidth regulator are for (spec/12, Table 12.5): the park, unpark or mask copy of a
request's entry, the copy of its page to a park slot, the load of a model slot, the memory traffic of a task on a cluster,
bytes from Cezlink for the memory of a partition, a numbered message of a model slot to a node. -/
inductive HeldFor where
  | park (i : Nat)
  | copy (i page slot : Nat)
  | unpark (i : Nat)
  | mask (i : Nat)
  | load (n : Nat)
  | task (cl : Nat)
  | store (p : Nat) (bytes : List (Nat × Byte))
  | msg (slot node no : Nat) (m : LinkMsg)
  deriving DecidableEq, Repr

/-- The held requests of a regulator, oldest first, with their bytes still to issue; and whether one was held back in this
interval (spec/12, R421, R422). -/
structure Held where
  waits : List (HeldFor × Nat)
  late : Bool
  deriving DecidableEq, Repr

/-- The use of an arena page (spec/06, R198): its state and what it holds. `draft` marks the draft context's pages. -/
inductive PageUse where
  | free
  | model (slot : Nat)
  | kv (req layer k : Nat) (draft : Bool)
  | staged (req layer k : Nat) (draft : Bool)
  | mask (req : Nat)
  | parking (req layer k : Nat) (draft : Bool)
  | retired
  deriving DecidableEq, Repr

/-- The owner of a page (spec/06, R202). -/
inductive PageOwner where
  | none
  | ctx (g : Nat)
  | tenant (t : Nat)
  /-- A leader's requests of a group whose follower context is `g`: their sampler-page copies (spec/14, R512). -/
  | group (g : Nat)
  deriving DecidableEq, Repr

/-- One arena page. -/
structure Page where
  use : PageUse
  owner : PageOwner
  deriving DecidableEq, Repr

/-- An item of a step plan (spec/09, R316): sequences with their positions. A decode item has one sequence. -/
structure PlanItem where
  prefill : Bool
  cohort : Nat
  seqs : List Nat
  /-- Positions per sequence. -/
  n : Nat
  /-- drafts(s) of a decode item (R324). -/
  d : Nat
  /-- The chunk finishes the prompt. -/
  last : Bool
  /-- Completion slots held: (completion ring, slots). -/
  cqs : List (Nat × Nat)
  deriving DecidableEq, Repr

/-- The states of a step that has left COMPOSE (spec/01, Table 01.2; spec/05). -/
inductive StepState where
  | issue | execute | sample
  deriving DecidableEq, Repr

/-- What one task wrote of a watched tensor (spec/20, R680 to R683). -/
structure AssayPiece where
  slot : Nat
  tensor : Nat
  fmt : Format
  first : Nat
  count : Nat
  nan : Nat
  inf : Nat
  zero : Nat
  /-- FP64 words: the least and the greatest non-NaN value, the sums of the finite values and of their squares. -/
  min : Nat
  max : Nat
  sum : Nat
  sumsq : Nat
  bytes : List Byte
  scales : List Byte
  deriving DecidableEq, Repr

/-- What the merge stage decided for one decode item or finished prompt: the tokens to emit, the drafts accepted and
verified, and the target's sampled positions (spec/10, R352 to R363). -/
structure Draw where
  req : Nat
  toks : List Nat
  acc : Nat
  d : Nat
  n : Nat
  deriving DecidableEq, Repr

/-- A step from its plan to its commit (spec/01, spec/09). -/
structure Step where
  ctx : Nat
  tag : Nat
  st : StepState
  issueAt : Nat
  deadline : Nat
  composeAt : Nat
  plan : List PlanItem
  /-- Draft tokens drawn so far, per request, in order (R359), with the draft's kept sets they were drawn from
  (token, weight). -/
  drafts : List (Nat × List (Nat × List (Nat × W32)))
  /-- Items whose drafting stopped for want of a candidate (R359), and what the merge decided, once it has. -/
  draftStop : List Nat
  drawn : List Draw
  /-- Candidate lists received. -/
  cands : List CandList
  /-- Shards of the target program whose lists are still to come; of the draft's, those whose lists for the drafts'
  next position have come. -/
  shardsLeft : List Nat
  draftShards : List Nat
  sampleAt : Nat
  /-- Tasks not yet placed, and the tasks on clusters with the time of their start. -/
  held : List Task
  running : List (Nat × Task × Nat)
  /-- Clusters stopped for a preemption, and the storage of each that its save keeps. -/
  stopped : List (Nat × Task)
  kept : List (Nat × Cluster)
  /-- Nodes whose PLAN_ACK without SHORT is outstanding (R503). -/
  ackWait : List Nat
  /-- Ticks spent preempted, and since when. -/
  lost : Nat
  preAt : Nat
  /-- Bytes saved per cluster and the mode of the save (true: I). -/
  saved : List Nat
  modeI : Bool
  /-- It has been preempted (Table 12.6). -/
  preempted : Bool
  /-- The draft context of a paired step (R323), and the prompt tokens of its chunks as read again, by entry (R255). -/
  draft : Option Nat
  tokens : List (Nat × List Nat)
  /-- Predicted dynamic power in mW (spec/15, R529). -/
  power : Nat
  /-- When the raise of a running preemption was (R670), and the assay pieces written so far: watch slot, tensor, and
  the pieces in order of completion (spec/20, R680). -/
  raisedAt : Nat
  /-- The context that preempts it (none: a debug halt). -/
  preBy : Option Nat
  assay : List AssayPiece
  /-- Watch slots with the tensor each watches in this step, as set when EXECUTE began (Table 20.9). -/
  watch : List (Nat × Nat)
  /-- Local slot of the replica group whose step it is (R503), and whether this device is a follower of it. -/
  group : Option Nat
  follower : Bool
  /-- Nodes whose CAND is outstanding (R506), and what a follower's plan names (R503). -/
  candWait : List Nat
  fplan : List PlanSeq
  deriving DecidableEq, Repr

/-- A preemption in progress (spec/05). -/
structure Preempt where
  modeI : Bool
  raisedAt : Nat
  /-- The save has begun, at this time. -/
  saveAt : Option Nat
  waitTicks : Nat
  debug : Bool
  deriving DecidableEq, Repr

/-- A work item (spec/09, section Model): its sequences by handle, what orders it (R315), and its batch set. -/
structure WorkItem where
  prefill : Bool
  cohort : Nat
  seqs : List Nat
  slack : Int
  cls : Nat
  arrival : Nat
  index : Nat
  set : Nat
  deriving DecidableEq, Repr

/-- A context whose step is being composed, with what holds from the entry to COMPOSE on (spec/09, R316, R320, Table 09.5):
the time, the energy allowance in fJ, the eligible items in order, the token budget (halved after an abandon, R331),
SEQ_CAP, PF_RSV, CHUNK_LOG2, the paired draft context, and the reported heads of the completion rings (4t + c). -/
structure Composing where
  ctx : Nat
  since : Nat
  allow : Nat
  work : List WorkItem
  budget : Nat
  seqCap : Nat
  pfRsv : Nat
  chunkLog2 : Nat
  draft : Option Nat
  heads : List (Nat × Nat)
  deriving DecidableEq, Repr

/-- A composer lane and the groves of its partition (spec/05, spec/09). -/
structure Lane where
  /-- The context chosen and not yet composed (R166, R316). -/
  composing : Option Composing
  /-- A composed step that waits to issue (R72, R170). -/
  nextStep : Option Step
  /-- The step that holds the groves. -/
  cur : Option Step
  /-- Preempted steps, the most recent first (R182). -/
  pre : List Step
  preempt : Option Preempt
  /-- A restore in progress since this time. -/
  restoreAt : Option Nat
  /-- Groves whose ABANDON acknowledge is outstanding (R71, R72), and nodes whose ABANDON_ACK is (R509): since when. -/
  acks : List Nat
  /-- The context whose step ABANDON stops, while acknowledges are outstanding (Table 04.6). -/
  abandoned : Option Nat
  nodeAcks : List Nat
  ackSince : Nat
  /-- Model slot and step tag of the ABANDON_ACK a follower owes its leader (R509). -/
  ackTo : Option (Nat × Nat)
  /-- Local number of the last context that held the groves; 31 before the first, so that the search starts at 0 (R166). -/
  lastHolder : Nat
  /-- Contexts with work passed over at a boundary, with the first such boundary (R166). -/
  passed : List (Nat × Nat)
  /-- Contexts with work whose composition found no page or slot since the last boundary: they have no step to compose
  (spec/05, section Switching at step boundaries). -/
  stalled : List Nat
  /-- Time of the failed composition of a power wait (R322). -/
  powerWait : Option Nat
  /-- The last composition of any context skipped an item for want of pages (R335). -/
  pageSkip : Bool
  halted : Bool
  /-- The partition's share of P_pred in mW, and when the last step left (the hand-over hold, spec/15, R529). -/
  power : Nat
  leftAt : Nat
  deriving DecidableEq, Repr

/-- A context beyond its registers (spec/05). -/
structure Ctx where
  slot : Nat
  /-- The context the model's load created. -/
  first : Bool
  /-- First unit and size of its save area, in 64 KiB units (R183, R184). -/
  saveBase : Nat
  saveUnits : Nat
  /-- The next step's tag (R67). -/
  tag : Nat
  lastAbandoned : Bool
  /-- No further step composes: an eviction, a teardown or a loss has been accepted (Table 09.5). -/
  barred : Bool
  /-- Local number of the paired context, when a pair exists (R399; the PAIR field of CMP_CTX_CFG_n shows it), and
  whether the pair ends when the step in progress has left (Table 09.5). -/
  pair : Option Nat
  unpair : Bool
  deriving DecidableEq, Repr

/-- The package header of a resident model (spec/11, Table 11.2). -/
structure Pkg where
  modelId : Nat
  tokenizerId : Nat
  weightBytes : Nat
  actBytes : Nat
  kvRsv : Nat
  concCap : Nat
  vocab : Nat
  layers : Nat
  shards : Nat
  kvBytes : Nat
  pLog2 : Nat
  batchInvariant : Bool
  groupPart : Bool
  minGroves : Nat
  groupDevices : Nat
  deviceIndex : Nat
  limitUs : Nat
  tokenBudget : Nat
  seqCap : Nat
  chunkLog2 : Nat
  cls : Nat
  programLen : Nat
  bodyCrc : Nat
  deriving DecidableEq, Repr

/-- A resident model beyond its MDL_SLOT registers (spec/11). -/
structure Slot where
  pkg : Pkg
  prog : ProgInfo
  /-- Byte offset of the body transfer's progress, its source (host address, or peer node and handle). -/
  fromPeer : Option (Nat × Nat)
  hostAddr : Nat
  pinOnLoad : Bool
  /-- Save area and local context number kept for the first context while the load runs (R184, R384). -/
  saveBase : Nat
  ctxNo : Nat
  /-- A forced eviction waits for its contexts' steps (R397). -/
  force : Bool
  /-- Numbers of the MODELXFER messages sent from it (R393, R514). -/
  peerReads : List Nat
  deriving DecidableEq, Repr

/-- A cost record (spec/08, Table 08.3): its entries in order k = 0 to 4. -/
structure CostEntry where
  aNs : Nat
  qPs : Nat
  tStepUs : Nat
  chunkLog2 : Nat
  deriving DecidableEq, Repr

structure CostRec where
  modelId : Nat
  marginUs : Nat
  entries : List CostEntry
  deriving DecidableEq, Repr
/-- The state of a replica group's sequence on a follower (spec/14, R502, R507, R512): its append pointer, its copy of
the penalty history, and its sampler-page copy. -/
structure FSeq where
  append : Nat
  hist : List (Nat × Nat × Nat)
  emitted : Nat
  page : Option Nat
  mask : List Byte
  bias : List (Nat × W32)
  deriving DecidableEq, Repr

/-- A member of a group as another member keeps it (spec/14, R501, R502, R513). -/
structure Peer where
  node : Nat
  info : FormInfo
  /-- The leader's count of its FREE pages. -/
  pages : Nat
  answered : Bool
  heard : Nat
  deriving DecidableEq, Repr

/-- A replica group beyond its CZL_GROUP registers (spec/14): on the leader its followers by device index, on a follower
the leader alone. `ended` are table indices, with the positions committed and whether there was a sampler page, to be named
in a RELEASE; `seqs` is a follower's page table. -/
structure Group where
  peers : List Peer
  formAt : Nat
  beatAt : Nat
  ended : List (Nat × Nat × Bool)
  seqs : List (Nat × FSeq)
  deriving DecidableEq, Repr

/-- A flit a port sends (spec/14, R477, R485, R487): a data flit's 256 bytes, or a control flit with the LSEQ acknowledged
last, the LSEQ it names in a NAK, and the credits returned so far per class. -/
inductive FlitOut where
  | data (bytes : List Byte)
  | control (ack : Nat) (nak : Option Nat) (credits : List Nat)
  deriving DecidableEq, Repr
/-- A fault record (spec/13, Table 13.5). -/
structure FaultRec where
  time : Nat
  id : Nat
  cls : Nat
  part : Nat
  ctx : Nat
  detail : Nat
  deriving DecidableEq, Repr

/-- A mailbox command that has started and is not done (spec/03, R110 to R114). -/
structure MbxCmd where
  smbus : Bool
  opcode : Nat
  tag : Nat
  /-- LENGTH as the request gives it (R107), and the payload's bytes, at most 4,032. -/
  len : Nat
  payload : List Byte
  /-- Its work has begun and is not done (a reset, a retrain). -/
  started : Bool
  deriving DecidableEq, Repr

/-- A bus transaction, message or pin edge of the device (the model's own record of what leaves it). -/
inductive Tx where
  /-- A memory write to host memory under a function (0 PF0, n VF n), with Relaxed Ordering 0 (R567): address and bytes. -/
  | dma (fn addr : Nat) (bytes : List Byte)
  /-- A page copied to a park slot, with Relaxed Ordering 1 (R567): host address and the nonzero bytes by offset (spec/06,
  R218). -/
  | pageOut (fn addr : Nat) (bytes : List Host.Cell)
  /-- The flush read of a park: 4 bytes of host memory (R568). -/
  | flushRead (fn addr : Nat)
  /-- An MSI-X message of a function's vector, with Relaxed Ordering 0 (spec/16, R567, R570 to R572). -/
  | msix (fn vector : Nat)
  /-- The value a register read returns to its requester. -/
  | readData (who : Requester) (value : Nat)
  /-- A read completed with Completer Abort (spec/03, R92). -/
  | completerAbort (who : Requester)
  /-- A request to a BAR that is closed, completed with Unsupported Request (R564). -/
  | unsupportedRequest (who : Requester)
  /-- A mailbox response over SMBus: result code and payload, or a PLDM completion code alone (spec/03, R745). -/
  | smbusResponse (tag result : Nat) (payload : List Byte)
  | smbusPldm (code : Nat)
  /-- A management message to a node over Cezlink (spec/14). -/
  | link (node : Nat) (msg : LinkMsg)
  /-- A control flit of a port (spec/14). -/
  | flit (port : Nat) (f : FlitOut)
  /-- A TRAIN_EXCH frame on a port in EXCHANGE (spec/14, Table 14.6). -/
  | exch (port : Nat) (m : LinkMsg)
  /-- A DOE object returned by PF0 (spec/16). -/
  | doe (bytes : List Byte)
  /-- A PMBus command to a shelf device (spec/15). -/
  | pmbus (dev : Nat) (cmd : Nat)
  /-- The code on VID5 to VID0 (spec/22, R718). -/
  | vid (code : Nat)
  /-- A pin of the device driven to a level (spec/22). -/
  | pin (name : Pin) (level : Bool)
  /-- Bits shifted out of a JTAG data register (spec/22, R728). -/
  | jtag (bits : Nat)
  /-- The output pins follow this boundary register; none: high impedance (R729). -/
  | boundary (v : Option Nat)
  deriving DecidableEq, Repr
/-- What a tenant has beyond its registers (spec/12, R414): the OPEN bit a hold recorded, while OPEN is held. -/
structure Tenant where
  hold : Option Bool
  /-- The partition it is migrating to; 255 unbinds (R439). -/
  migrateTo : Nat
  deriving DecidableEq, Repr

/-- What a partition has beyond its registers (spec/12, spec/13): its STATE before a reset (R454), TRACE_MIB in MiB, and the
completion records its reset owes. -/
structure Part where
  before : Nat
  traceMib : Nat
  /-- FINAL records due once a reset in progress is done, with their completion rings' keys (R52). -/
  owed : List (Nat × Rec)
  deriving DecidableEq, Repr

/-- What a function's Status register and AER capability log (spec/16, Table 16.6). -/
inductive PcieErr where
  | receivedMasterAbort | receivedTargetAbort | completionTimeout | poisonedTlp | ecrc | unexpectedCompletion | fatal
  | unsupportedRequest |
    completerAbort
  deriving DecidableEq, Repr

/-- One function's PCIe state (spec/16). Function 0 is PF0. -/
structure Fn where
  bme : Bool
  mse : Bool
  d3 : Bool
  msixEn : Bool
  fnMask : Bool
  /-- PF0's VF Enable (R561); 10-bit Tag Requester Enable and the code of Max Read Request Size (R569). -/
  vfEn : Bool
  tag10 : Bool
  mrrs : Nat
  errs : List PcieErr
  deriving DecidableEq, Repr

/-- One MSI-X vector: address, data, mask and pending bit (spec/16, R572; R741). -/
structure Vec where
  addr : Nat
  data : Nat
  masked : Bool
  pend : Bool
  deriving DecidableEq, Repr
/-- A data flit without its link sequence number and CRC (spec/14, Table 14.2). -/
structure Flit where
  ftype : Nat
  tc : Nat
  first : Bool
  last : Bool
  hops : Nat
  dest : Nat
  src : Nat
  msg : Nat
  idx : Nat
  payload : List Byte
  deriving DecidableEq, Repr

/-- A Cezlink port beyond its registers (spec/14, R483 to R491). -/
structure Port where
  /-- When the present training stage began, whether a degrade retrain runs, and whether it is in EXCHANGE (R488). -/
  since : Nat
  degrading : Bool
  exch : Bool
  /-- The lanes aligned give half the width (R483). -/
  narrow : Bool
  /-- Link sequence numbers: next sent and next expected. -/
  txSeq : Nat
  rxSeq : Nat
  /-- Flits sent and not acknowledged, oldest first (R485), and flits that wait, with their ingress port (12: local). -/
  replay : List (Nat × Flit)
  queue : List (Nat × Flit)
  /-- Per class: flits sent, credits the peer has returned, credits returned to it (R490), the message being sent and the
  ingress port served last (R491). -/
  sent : List Nat
  returned : List Nat
  freed : List Nat
  busy : List (Option (Nat × Nat × Nat))
  served : List Nat
  /-- Data slots since the last TC3 flit (R491), up to 7, and the time up to which they are counted (R478). -/
  gap : Nat
  slotAt : Nat
  /-- LSEQs of flits discarded once for a CRC error (R486). -/
  failed : List Nat
  deriving DecidableEq, Repr

/-- A message whose FIRST flit has come and whose LAST has not (R498). -/
structure Reasm where
  src : Nat
  msg : Nat
  ftype : Nat
  since : Nat
  /-- Discarded: later flits of it are dropped without a count. -/
  dead : Bool
  deriving DecidableEq, Repr

/-- The newest RAMP message of a ramp-domain member (spec/15, R533 to R535): its request pair, whether it is new since
the last boundary, and for how many periods the member has been missed. -/
structure RampPeer where
  power : Nat
  next : Nat
  raise : Nat
  fresh : Bool
  missed : Nat
  deriving DecidableEq, Repr

/-- A die sensor: its last reading in 1/8 °C and the periods since it updated (spec/15, R541, R552). -/
structure Sensor where
  t8 : Int
  stale : Nat
  deriving DecidableEq, Repr

/-- The Planisher beyond its registers (spec/15). -/
structure Power where
  /-- Periods begun, and those since SERVICE entry. -/
  period : Nat
  count : Nat
  /-- Rise and fall allowances of this period, and the limit in force as it falls, in mW (R530). -/
  gUp : Nat
  gDown : Nat
  kNow : Nat
  /-- A composition of this period was trimmed, or waited for power; the last ten periods, the newest first. -/
  trimmed : Bool
  waited : Bool
  hist : List (Bool × Bool)
  /-- Consecutive periods whose P_meas exceeded CAP_W, and whether the excursion rule is being enforced (R537). -/
  overBy : Nat
  capping : Bool
  /-- Time of the last step change; a step up under way (its start, the step) and a step down that waits for it. -/
  lastChange : Nat
  rising : Option (Nat × Nat)
  fallTo : Option Nat
  /-- Coolant estimate in 2^−32 °C (R541). -/
  tC : Int
  sensors : List (Nat × Sensor)
  /-- Predicted and measured dynamic energy over the running 100 periods, in mW · ticks (R540). -/
  sumPred : Nat
  sumMeas : Int
  /-- Periods since the rail power monitor updated (R553). -/
  monStale : Nat
  /-- Own request pair sent at the previous boundary, and those of the members by node (R534). -/
  sent : Option RampPeer
  peers : List (Nat × Option RampPeer)
  /-- BBU_N or COOL_ALERT_N as last debounced: low. -/
  bbuLow : Bool
  coolLow : Bool
  /-- BATT_CMD and BATT_MASK of the profile (R538). -/
  battCmd : Nat
  battMask : Nat
  /-- Shelf devices first contacted (PMBUS_REVISION read since). -/
  contacted : List Nat
  /-- Ballast runs down for a warm reset that waits for it (R548). -/
  rundown : Bool
  /-- When `sumPred` was last brought up to date (R540); since when T_d has stayed low enough to end a thermal emergency
  (R543); when a shelf device last reported battery state (R536). -/
  accAt : Nat
  calmAt : Option Nat
  battAt : Nat
  /-- Time and number of the PMBus polls, and of the last try of each unreachable device (R538, R539). -/
  polledAt : Nat
  polls : Nat
  tried : List (Nat × Nat)
  deriving DecidableEq, Repr
/-- A settings bank of the NVM (spec/18, R616, R618): its records and its COMMIT (GENERATION, record count, RELEASE). -/
structure Bank where
  recs : List SetRec
  commit : Option (Nat × Nat × Nat)
  deriving DecidableEq, Repr

/-- An owner copy (spec/18, R627); an empty key is KEY_PRESENT 0. -/
structure OwnerCopy where
  state : Nat
  gen : Nat
  arb : Nat
  key : List Byte
  deriving DecidableEq, Repr

/-- The lifetime counters (spec/18, R632), in a snapshot's order. -/
structure Life where
  secs : Nat
  cold : Nat
  warm : Nat
  f1 : Nat
  f2 : Nat
  f3 : Nat
  f4 : Nat
  group : Nat
  request : Nat
  selfTest : Nat
  pages : Nat
  stores : Nat
  eraseA : Nat
  eraseB : Nat
  /-- Highest T_d in 1/8 °C, as its 16-bit word. -/
  maxTd : Nat
  deriving DecidableEq, Repr

/-- A repair-map copy (spec/18, R633): GENERATION and 96 bytes per grove. -/
structure MapCopy where
  gen : Nat
  bytes : List Byte
  deriving DecidableEq, Repr

/-- The on-chip NVM (spec/18, Table 18.1) by its contents: what each region's sectors hold, the SEQ of each sector's valid
header, and the intent records (journal 0 or 1, sector, SEQ), oldest first. -/
structure Nvm where
  /-- The root loader as programmed by an update; none: as delivered. -/
  root : Option (List Byte)
  bankA : Bank
  bankB : Bank
  headers : List (Nat × Nat)
  intents : List (Nat × Nat × Nat)
  owner48 : List OwnerCopy
  owner49 : List OwnerCopy
  life50 : List Life
  life54 : List Life
  map58 : List MapCopy
  map60 : List MapCopy
  deriving DecidableEq, Repr

/-- A nonce issued and not used (spec/18, R628). -/
structure Nonce where
  bytes : List Byte
  at_ : Nat
  deriving DecidableEq, Repr

/-- Heartwood's settings (spec/18): the shadow in its two parts, the stored host part, the next erase sequence, the
lifetime counters and the time of the last snapshot in SERVICE, and when a device-owned record changed. -/
structure Settings where
  host : List SetRec
  dev : List SetRec
  stored : List SetRec
  seq : Nat
  life : Life
  /-- Power-on seconds before this power-on. -/
  secs0 : Nat
  snapAt : Nat
  dueAt : Option Nat
  nonce : Option Nonce
  deriving DecidableEq, Repr

/-- A region's content: its header and payload (spec/17, R587). -/
structure Region where
  header : List Byte
  payload : List Byte
  deriving DecidableEq, Repr

/-- A volatile profile in staging (spec/17, R602). -/
structure Staging where
  smbus : Bool
  total : Nat
  bytes : List Byte
  deriving DecidableEq, Repr

/-- The image store (spec/17): the running slot's region, the active profile's, whether a copy is marked bad (R609), the
staging, the profile a boot has chosen (volatile, number, region), a volatile profile that became active since the cold
reset, the pending selection, and the regions the boot has read. -/
structure Images where
  slot : Option Region
  profile : Option Region
  slotBad : Bool
  profileBad : Bool
  staging : Option Staging
  chosen : Option (Bool × Nat × Region)
  /-- The directory's entries as last read: OFFSET, EXTENT, PRESENT (R588). -/
  dir : List (Nat × Nat × Bool)
  volatile : Option Region
  deriving DecidableEq, Repr

/-- An update session (spec/19): target 0 slot A, 1 slot B, 2 root loader; its requester, total length, next offset, time
of the last command, flash sectors erased, and the root loader's staged bytes. -/
structure Upd where
  target : Nat
  smbus : Bool
  total : Nat
  next : Nat
  at_ : Nat
  erased : List Nat
  staged : List Byte
  deriving DecidableEq, Repr

/-- Boot and resets (spec/13, spec/21). -/
structure Boot where
  /-- POR_N asserted; VAON below valid; an undervoltage held (R463, R695, R735). -/
  por : Bool
  vaonLost : Bool
  underV : Bool
  /-- PERST_N asserted. -/
  perst : Bool
  /-- The TCLK PLL has locked since POR_N was deasserted (R85). -/
  tclkOnce : Bool
  /-- When SPI_RST_N rose; none while it is low (R725). -/
  spiAt : Option Nat
  /-- This cold boot has reached SERVICE or HOLD. -/
  up : Bool
  /-- Root loader checked; image chosen; channels trained; self-test done. -/
  rootOk : Bool
  imageOk : Bool
  trained : Bool
  tested : Bool
  /-- S5 is done. -/
  settled : Bool
  /-- Time of the F4 that stopped the chip; the fault ID of the F4 that restarted a cold boot; stopped until POR_N. -/
  f4At : Option Nat
  f4Id : Nat
  stopped : Bool
  /-- A warm chip reset is due, or under way, by cause 1 to 4 (MGT_BOOT_INFO KIND). -/
  warm : Option Nat
  /-- Step 1 of that reset is done, and steps 2 and 3 (R702). -/
  begun : Bool
  restored : Bool
  deriving DecidableEq, Repr

/-- The watchdog and hand-offs of Heartwood (spec/02, R82; spec/19, R651): last kick, start of the restart under way, and
the last expiry; the slot, with its region, whose Heartwood takes over (R651, R705). -/
structure Hwd where
  kickAt : Nat
  restartAt : Option Nat
  lastExpiry : Option Nat
  handoff : Option (Nat × Region)
  deriving DecidableEq, Repr

/-- The SPDM responder (spec/16, R573 to R575): how far negotiation has come, the messages of negotiation, those of the
certificate requests, those of the measurements not yet signed, and the DOE requests (kind, bytes) that wait for READY. -/
structure Spdm where
  stage : Nat
  vca : List Byte
  certs : List Byte
  meas : List Byte
  waiting : List (Nat × List Byte)
  deriving DecidableEq, Repr

/-- JTAG instructions that act on the pins (spec/22, R729). -/
inductive TapInstr where
  | bypass | idcode | sample | extest | clamp | highz | debug
  deriving DecidableEq, Repr

/-- The TAP: current instruction and boundary register. -/
structure Tap where
  instr : TapInstr
  boundary : Nat
  deriving DecidableEq, Repr

/-- A partition's trace unit beyond its registers (spec/20): the FIFO, records lost since the last LOSS record and the
time of the first, and the 64 KiB pages removed from the ring (R675, R691). -/
structure Trace where
  fifo : List (List Byte)
  lost : Nat
  lostAt : Nat
  skip : List Nat
  deriving DecidableEq, Repr

/-- The state of the block. -/
structure State where
  /-- Commands that wait, first in, first out (the model's own). -/
  pending : List Instr
  /-- What the device has emitted, oldest first (the model's own). -/
  out : List Tx
  /-- Draws taken from the free values (the model's own). -/
  free : Nat
  /-- Device time in ticks, its copies in QCLK, FCLK, LCLK, CCLK, MCLK and PCLK, and its last snapshots in ACLK and SCLK
  (R63 to R66). -/
  time : Nat
  qTime : Nat
  fTime : Nat
  lTime : Nat
  cTime : Nat
  mTime : Nat
  pTime : Nat
  aTime : Nat
  sTime : Nat
  /-- The register file: PF0 BAR0 offset and value, where it differs from the reset value. -/
  regs : List (Nat × BitVec 64)
  /-- Stacked DRAM by physical byte address (spec/06, R193); unlisted bytes read 0 (R232). -/
  dram : List Host.Cell
  /-- The lines the L2 slices hold, by their number (physical address / 128; R222); erroneous symbols that stand in a 32-byte
  DRAM word, by its number (R203); the patrol scrubber. -/
  l2 : List (Nat × Option L2Line)
  ecc : List (Nat × Nat)
  scrub : Scrub
  /-- Storage of the clusters that hold a task, by global logical number (R123, R164). -/
  clusters : List (Nat × Cluster)
  /-- The Request Table entries in engine SRAM, the most recently used first (R69, R200). -/
  sram : List Nat
  /-- The Request Table and the generation its next handle at each index carries (spec/01, R14). -/
  reqs : List (Nat × Option Req)
  gens : List (Nat × Nat)
  /-- Per tenant: remembered (token, handle), the most recent first (R39). -/
  dedup : List (Nat × List (Nat × Nat))
  /-- Submission rings (4t + s), completion rings (4t + c), admission queues (4t + c) of cohort numbers. -/
  sqs : List (Nat × Sq)
  cqs : List (Nat × Cq)
  admQ : List (Nat × List Nat)
  cohorts : List (Nat × Option Cohort)
  nextCohort : Nat
  /-- The arbiter of the intake and the scan of the admission controller; handles of requests whose CANCEL was applied at
  the present device time while their step could still commit at it (R50). -/
  arb : IntakeArb
  scan : AdmScan
  cancels : List Nat
  /-- Refills done: of the token-rate buckets (ms) and of the regulators (µs). -/
  refills : Nat
  regRefills : Nat
  costs : List CostRec
  lanes : List (Nat × Lane)
  /-- Contexts by global number, model slots, and the generation of each slot's last handle (R379). -/
  ctxs : List (Nat × Option Ctx)
  slots : List (Nat × Option Slot)
  slotGens : List (Nat × Nat)
  /-- Arena pages: 2^20 p + index. -/
  pages : List (Nat × Page)
  /-- The retired-page list: physical addresses of words in retired pages, and of those that found it full (R208). -/
  retired : List Nat
  retiredFull : List Nat
  tens : List (Nat × Tenant)
  parts : List (Nat × Part)
  /-- Held traffic of the regulators (4p + k; R421). -/
  held : List (Nat × Held)
  trace : List (Nat × Trace)
  /-- Per watch slot (16p + s): steps that wrote its tensor since EN was set (spec/20, R680). -/
  assaySeen : List (Nat × Nat)
  /-- Replica groups by local model slot. -/
  groups : List (Nat × Option Group)
  /-- Cezlink ports, messages in reassembly, ports taken by messages being forwarded ((source, number), port; 15: none), and
  the number of the next message sent (spec/14). -/
  ports : List (Nat × Port)
  reasm : List Reasm
  fwd : List ((Nat × Nat) × Nat)
  msgNo : Nat
  /-- When the last STAMP messages were sent (R516). -/
  stampAt : Nat
  fns : List (Nat × Fn)
  vecs : List (Nat × Vec)
  power : Power
  mbx : List MbxCmd
  fltQueue : List FaultRec
  fltLog : List FaultRec
  fltLost : Nat
  /-- The attached flash by byte address (spec/17); an unlisted byte is as the part was delivered. -/
  flash : List Host.Cell
  /-- Flash extents that a closed update session left unspecified, and the free value that says which check they fail (R647). -/
  spoiled : List (Nat × Nat × Nat)
  nvm : Nvm
  set : Settings
  img : Images
  upd : Option Upd
  boot : Boot
  hwd : Hwd
  spdm : Spdm
  tap : Tap
  /-- Latched halves of HST_DEVTIME and latched words of FLT_LAST, by requester (R86, R87, R743). -/
  devLatch : List (Requester × Nat)
  fltLatch : List (Requester × List (Nat × Nat))
  /-- Firmware components that run, with release and content: grove g's microcode under g, lane p's under 16 + p, sampler
  tables 32, Heartwood 33, root loader 34 (spec/16, Table 16.5; spec/19). -/
  loaded : List (Nat × (Nat × List Byte))
  /-- CMP_LANE_CTL, CMP_PARK_LOW, CMP_PARK_HIGH and CMP_SWITCH_CTL of each lane as the active profile set them (R343). -/
  laneInit : List (Nat × BitVec 64)
  deriving DecidableEq, Repr

/-- Memory's canonical form: addresses strictly rising, no entry equal to what an unlisted address reads as. -/
abbrev Memory.wf (m : List Host.Cell) : Bool := spWf (fun _ => (0#8 : Byte)) m

/-- A tenant no hold has touched. -/
def Tenant.idle : Tenant := { hold := none, migrateTo := 0 }

/-- A partition that has not been reset. -/
def Part.idle : Part := { before := 0, traceMib := 0, owed := [] }

/-- A partition whose trace is off. -/
def Trace.idle : Trace := { fifo := [], lost := 0, lostAt := 0, skip := [] }

/-- A port that has not trained. -/
def Port.idle : Port :=
  { since := 0, degrading := false, exch := false, narrow := false, txSeq := 0, rxSeq := 0, replay := [], queue := [],
    sent := [0, 0, 0, 0], returned := [0, 0, 0, 0], freed := [0, 0, 0, 0], busy := [none, none, none, none], served := [12, 12, 12, 12],
    gap := 0, slotAt := 0, failed := [] }

/-- The Planisher before its first period. -/
def Power.idle : Power :=
  { period := 0, count := 0, gUp := 0, gDown := 0, kNow := 0, trimmed := false, waited := false, hist := [], overBy := 0,
    capping := false, lastChange := 0, rising := none, fallTo := none, tC := 0, sensors := [], sumPred := 0, sumMeas := 0,
    monStale := 0, sent := none, peers := [], bbuLow := false, coolLow := false, battCmd := 0, battMask := 0,
    contacted := [], rundown := false, accAt := 0, calmAt := none, battAt := 0, polledAt := 0, polls := 0, tried := [] }

/-- A function after reset: D0, no bus mastering, no memory space, MSI-X off (the PCIe defaults; notes/assumptions/54.md, 74.md). -/
def Fn.idle : Fn :=
  { bme := false, mse := false, d3 := false, msixEn := false, fnMask := false, vfEn := false, tag10 := false, mrrs := 2, errs := [] }

/-- An SPDM responder before GET_VERSION. -/
def Spdm.idle : Spdm := { stage := 0, vca := [], certs := [], meas := [], waiting := [] }

/-- A vector after reset: masked, nothing pending (R741). -/
def Vec.idle : Vec := { addr := 0, data := 0, masked := true, pend := false }

/-- A submission ring nothing has happened on. -/
def Sq.idle : Sq :=
  { lastRead := none, stale := [], stopped := false, flushing := false, disabling := false, inflight := false,
    waitFor := none, cohort := none, fence := none }

/-- A completion ring nothing has been written to. -/
def Cq.idle : Cq := { head := 0, waiting := [], pend := 0, timer := 0, coalCount := 0, coalUs := 0 }

/-- A lane that holds nothing (R343). -/
def Lane.idle : Lane :=
  { composing := none, nextStep := none, cur := none, pre := [], preempt := none, restoreAt := none, acks := [], abandoned := none,
    nodeAcks := [], ackSince := 0, ackTo := none, lastHolder := 31, passed := [], stalled := [],
    powerWait := none, pageSkip := false, halted := false, power := 0, leftAt := 0 }

/-- A regulator at which nothing waits. -/
def Held.idle : Held := { waits := [], late := false }

/-- A cluster without a task. -/
def Cluster.dead : Cluster := { placement := 0, regs := [], acc := [], scratch := [] }

/-- A FREE page that has had no owner. -/
def Page.fresh : Page := { use := .free, owner := .none }

/-- Counters that have counted nothing. -/
def Life.zero : Life :=
  { secs := 0, cold := 0, warm := 0, f1 := 0, f2 := 0, f3 := 0, f4 := 0, group := 0, request := 0, selfTest := 0,
    pages := 0, stores := 0, eraseA := 0, eraseB := 0, maxTd := 0 }

/-- A bank that holds nothing. -/
def Bank.blank : Bank := { recs := [], commit := none }

/-- The NVM as delivered: one owner copy, OPEN without a key; nothing stored (notes/assumptions). -/
def Nvm.delivered : Nvm :=
  { root := none, bankA := Bank.blank, bankB := Bank.blank, headers := [(48, 1)], intents := [],
    owner48 := [{ state := 0, gen := 1, arb := 0, key := [] }], owner49 := [], life50 := [], life54 := [], map58 := [],
    map60 := [] }

/-- Heartwood's settings before S2. -/
def Settings.empty : Settings :=
  { host := [], dev := [], stored := [], seq := 0, life := Life.zero, secs0 := 0, snapAt := 0, dueAt := none,
    nonce := none }

/-- An empty image store. -/
def Images.empty : Images :=
  { slot := none, profile := none, slotBad := false, profileBad := false, staging := none, chosen := none, dir := [],
    volatile := none }

/-- Before a cold boot: POR_N and PERST_N low. -/
def Boot.held : Boot :=
  { por := true, vaonLost := false, underV := false, perst := true, tclkOnce := false, spiAt := none, up := false,
    rootOk := false, imageOk := false, trained := false, tested := false, settled := false, f4At := none, f4Id := 0, stopped := false, warm := none, begun := false,
    restored := false }

/-- The state right after reset: POR_N is still asserted, every register reads its card's reset value. -/
def State.reset : State :=
  { pending := [], out := [], free := 0, time := 0, qTime := 0, fTime := 0, lTime := 0, cTime := 0, mTime := 0, pTime := 0,
    aTime := 0, sTime := 0, regs := [], dram := [], l2 := [], ecc := [], scrub := { next := 0, since := 0 }, clusters := [],
    sram := [], reqs := [], gens := [], dedup := [], sqs := [], cqs := [], admQ := [], cohorts := [], nextCohort := 0,
    arb := { tenant := 63, rings := [] }, scan := { next := 0, due := [] }, cancels := [],
    refills := 0, regRefills := 0, costs := [], lanes := [], ctxs := [], slots := [], slotGens := [], pages := [],
    retired := [], retiredFull := [], tens := [], parts := [], held := [], trace := [], assaySeen := [], groups := [],
    ports := [], reasm := [], fwd := [], msgNo := 0, stampAt := 0, fns := [], vecs := [], power := Power.idle,
    mbx := [], fltQueue := [], fltLog := [], fltLost := 0, flash := [], spoiled := [], nvm := Nvm.delivered, set := Settings.empty, img := Images.empty, upd := none, boot := Boot.held,
    hwd := { kickAt := 0, restartAt := none, lastExpiry := none, handoff := none },
    spdm := Spdm.idle, tap := { instr := .idcode, boundary := 0 }, devLatch := [],
    fltLatch := [], loaded := [], laneInit := [] }

end Sys2Proof.Machine
end

