-- ==== Sys2Proof/Machine/Ops.lean ====
section
/-! DEFINITION. The named operations over registers, messages and memory that every meaning is written with. -/
namespace Sys2Proof.Machine

/-! ## Registers -/

/-- The value of the register at `key`: as last written, else its reset value. -/
def rd (s : State) (key : Nat) : BitVec 64 := spGet resetVal s.regs key

/-- Give the register at `key` the value `v`. -/
def wr (s : State) (key : Nat) (v : BitVec 64) : State := { s with regs := spPut resetVal key v s.regs }

/-- Bits [lo + w - 1 : lo] of a word. -/
def fieldOf (v : BitVec 64) (lo w : Nat) : Nat := (v.extractLsb' lo w).toNat

/-- The word with bits [lo + w - 1 : lo] replaced by `x` (modulo 2^w). -/
def putField (v : BitVec 64) (lo w x : Nat) : BitVec 64 :=
  (v &&& ~~~(BitVec.ofNat 64 (2 ^ w - 1) <<< lo)) ||| (BitVec.ofNat 64 (x % 2 ^ w) <<< lo)

/-- A field's value. -/
def getF (s : State) (f : Fld) : Nat := fieldOf (rd s f.key) f.lo f.w

/-- A field set to `x`, the register's other bits unchanged. -/
def setF (s : State) (f : Fld) (x : Nat) : State := wr s f.key (putField (rd s f.key) f.lo f.w x)

/-- A one-bit field is 1. -/
def isSet (s : State) (f : Fld) : Bool := getF s f == 1

/-- Add to a counter that wraps (R667). -/
def bump (s : State) (f : Fld) (n : Nat) : State := setF s f (getF s f + n)

/-- Add to a counter that saturates at its largest value. -/
def bumpSat (s : State) (f : Fld) (n : Nat) : State := setF s f (min (2 ^ f.w - 1) (getF s f + n))

/-- Lower a count that a register shows; it never passes 0. -/
def lower (s : State) (f : Fld) (n : Nat) : State := setF s f (getF s f - n)

/-- A register back at its card's reset value. -/
def resetReg (s : State) (key : Nat) : State := wr s key (resetVal key)

/-- Every register whose key satisfies `p` back at its reset value. -/
def resetRegs (s : State) (p : Nat → Bool) : State := { s with regs := spDrop p s.regs }

/-! ## Families of like records -/

/-- The record of a tenant, lane, ring, page, function or vector that nothing has touched is the idle one. -/
def lane (s : State) (p : Nat) : Lane := spGet (fun _ => Lane.idle) s.lanes p
def setLane (s : State) (p : Nat) (l : Lane) : State := { s with lanes := spPut (fun _ => Lane.idle) p l s.lanes }
def sq (s : State) (t r : Nat) : Sq := spGet (fun _ => Sq.idle) s.sqs (4 * t + r)
def setSq (s : State) (t r : Nat) (q : Sq) : State := { s with sqs := spPut (fun _ => Sq.idle) (4 * t + r) q s.sqs }
def cq (s : State) (t c : Nat) : Cq := spGet (fun _ => Cq.idle) s.cqs (4 * t + c)
def setCq (s : State) (t c : Nat) (q : Cq) : State := { s with cqs := spPut (fun _ => Cq.idle) (4 * t + c) q s.cqs }
def req? (s : State) (i : Nat) : Option Req := spGet (fun _ => none) s.reqs i
def setReq (s : State) (i : Nat) (r : Option Req) : State := { s with reqs := spPut (fun _ => none) i r s.reqs }
def cohort? (s : State) (i : Nat) : Option Cohort := spGet (fun _ => none) s.cohorts i
def setCohort (s : State) (i : Nat) (c : Option Cohort) : State :=
  { s with cohorts := spPut (fun _ => none) i c s.cohorts }
def admQueue (s : State) (t c : Nat) : List Nat := spGet (fun _ => []) s.admQ (4 * t + c)
def setAdmQueue (s : State) (t c : Nat) (l : List Nat) : State :=
  { s with admQ := spPut (fun _ => []) (4 * t + c) l s.admQ }
def ctx? (s : State) (g : Nat) : Option Ctx := spGet (fun _ => none) s.ctxs g
def setCtx (s : State) (g : Nat) (c : Option Ctx) : State := { s with ctxs := spPut (fun _ => none) g c s.ctxs }
def slot? (s : State) (n : Nat) : Option Slot := spGet (fun _ => none) s.slots n
def setSlot (s : State) (n : Nat) (x : Option Slot) : State := { s with slots := spPut (fun _ => none) n x s.slots }
def page (s : State) (p i : Nat) : Page := spGet (fun _ => Page.fresh) s.pages (2 ^ 20 * p + i)
def setPage (s : State) (p i : Nat) (x : Page) : State :=
  { s with pages := spPut (fun _ => Page.fresh) (2 ^ 20 * p + i) x s.pages }
def tenant (s : State) (t : Nat) : Tenant := spGet (fun _ => Tenant.idle) s.tens t
def setTenant (s : State) (t : Nat) (x : Tenant) : State := { s with tens := spPut (fun _ => Tenant.idle) t x s.tens }
def part (s : State) (p : Nat) : Part := spGet (fun _ => Part.idle) s.parts p
def setPart (s : State) (p : Nat) (x : Part) : State := { s with parts := spPut (fun _ => Part.idle) p x s.parts }
def fn (s : State) (n : Nat) : Fn := spGet (fun _ => Fn.idle) s.fns n
def setFn (s : State) (n : Nat) (x : Fn) : State := { s with fns := spPut (fun _ => Fn.idle) n x s.fns }
def vec (s : State) (n v : Nat) : Vec := spGet (fun _ => Vec.idle) s.vecs (256 * n + v)
def setVec (s : State) (n v : Nat) (x : Vec) : State :=
  { s with vecs := spPut (fun _ => Vec.idle) (256 * n + v) x s.vecs }
def dedupOf (s : State) (t : Nat) : List (Nat × Nat) := spGet (fun _ => []) s.dedup t
def setDedup (s : State) (t : Nat) (l : List (Nat × Nat)) : State :=
  { s with dedup := spPut (fun _ => []) t l s.dedup }
def genAt (s : State) (i : Nat) : Nat := spGet (fun _ => 0) s.gens i

/-! ## What leaves the device -/

/-- Emit a transaction. -/
def emit (s : State) (x : Tx) : State := { s with out := s.out ++ [x] }

/-- EXTEST, CLAMP or HIGHZ holds the pins (R729): outputs follow the boundary register, inputs keep their last level. -/
def pinsHeld (s : State) : Bool := s.tap.instr == .extest || s.tap.instr == .clamp || s.tap.instr == .highz

/-- Drive an output pin, unless a JTAG instruction holds the pins. -/
def drive (s : State) (x : Tx) : State := if pinsHeld s then s else emit s x

/-- A command to the attached flash: SPI_CS_N is low while it is in progress (R725). -/
def flashCmd (s : State) : State := drive (drive s (.pin .spiCsN false)) (.pin .spiCsN true)

/-- The tenant's route bit: its doorbells go through PF0 BAR2 (R118, R556). -/
def routePf (s : State) (t : Nat) : Bool := (getF s (Reg.HST_DB_ROUTE_PF_ROUTE (t / 32))).testBit (t % 32)

/-- The tenant is PF-served: its VF does not exist, or its route bit is 1 (spec/16, section Model). -/
def pfServed (s : State) (t : Nat) : Bool := routePf s t || decide (getF s Reg.HST_PCIE_LINK_NUM_VFS ≤ t)

/-- The function a tenant's DMA runs under (spec/16, Table 16.3). -/
def tenantFn (s : State) (t : Nat) : Nat := if pfServed s t then 0 else t + 1

/-- A function may issue DMA requests and messages (R563). -/
def canDma (s : State) (n : Nat) : Bool := (fn s n).bme && !(fn s n).d3

/-- An MSI-X message becomes due: sent, or left pending (R563, R572). -/
def sendMsi (s : State) (n v : Nat) : State :=
  let e := vec s n v
  if e.masked || (fn s n).fnMask || !(fn s n).msixEn || !canDma s n then setVec s n v { e with pend := true }
  else emit s (.msix n v)

/-- The function and vector a status register raises (Table 16.4, R571); none for a register that raises no vector. -/
def statusVec (s : State) (key : Nat) : Option (Nat × Nat) :=
  if key = 0x220 ∨ key = 0x210 ∨ key = 0x510 then some (0, 0)
  else if key = 0x100014 then some (0, 1)
  else if key = 0xE00000 then some (0, 2)
  else if key = 0xC00000 then some (0, 3)
  else if key = 0x800000 then some (0, 4)
  else if key = 0x900010 then some (0, 5)
  else if key = 0x500000 then some (0, 6)
  else if key = 0x700000 then some (0, 7)
  else if key = 0xA00010 then some (0, 8)
  else if key = 0xB00010 then some (0, 9)
  else if key = 0xD00000 then some (0, 10)
  else if key / 0x100000 = 6 ∧ (key % 0x10000 = 0x10 ∨ key % 0x10000 = 0x50) then
    some (0, 16 + key % 0x100000 / 0x10000)
  else if 0x1000000 ≤ key ∧ key < 0x1400000 ∧ key % 0x40000 = 0x200 then some (0, 32 + (key - 0x1000000) / 0x40000)
  else if key / 0x100000 = 4 ∧ key % 0x1000 < 0x300 ∧
      (key % 0x40 = 0x10 ∧ key % 0x1000 < 0x100 ∨ key % 0x40 = 0x18 ∧ 0x200 ≤ key % 0x1000) then
    let t := (key - 0x400000) / 0x1000
    if pfServed s t then some (0, 129 + 2 * t) else some (t + 1, 4)
  else none

/-- STATUS AND INT_EN of a status register, over its flags in bits [23:0] (R105). -/
def irqLevel (s : State) (key : Nat) : Nat := fieldOf (rd s key &&& rd s (key + 4)) 0 24

/-- Send a status register's message (R105, R106). -/
def statusMsg (s : State) (key : Nat) : State :=
  match statusVec s key with
  | some (n, v) => sendMsi s n v
  | none => s

/-- Hardware sets a flag of a status register: the message goes when STATUS AND INT_EN leaves zero (R104, R105). -/
def raise (s : State) (f : Fld) : State :=
  let s' := setF s f 1
  if irqLevel s f.key = 0 ∧ irqLevel s' f.key ≠ 0 then statusMsg s' f.key else s'

/-- After a write to a status register or its enable register that leaves the level nonzero, the message goes again
(R106). -/
def reassert (s : State) (key : Nat) : State := if irqLevel s key ≠ 0 then statusMsg s key else s

/-! ## Device state at a glance -/

/-- The boot stage (MGT_STATUS): 6 is SERVICE, 7 is HOLD. -/
def stage (s : State) : Nat := getF s Reg.MGT_STATUS_STAGE

/-- A chip fault has stopped the chip (R455). -/
def chipFaulted (s : State) : Bool := isSet s Reg.FLT_STATE_CHIP_FAULTED

/-- The data path runs: SERVICE, and no chip fault (R55, R455). -/
def serving (s : State) : Bool := stage s == 6 && !chipFaulted s

/-- Shared-time mode (PRT_MODE MODE 0; R410). -/
def sharedMode (s : State) : Bool := getF s Reg.PRT_MODE_MODE == 0

/-- The tenant's partition, when it is bound. -/
def partOf (s : State) (t : Nat) : Option Nat :=
  if isSet s (Reg.PRT_TEN_BOUND t) then some (getF s (Reg.PRT_TEN_PARTITION t)) else none

/-- Partition `p` exists. -/
def partValid (s : State) (p : Nat) : Bool := isSet s (Reg.PRT_PART_CFG_VALID p)

/-- The first grove and the groves of a partition. -/
def firstGrove (s : State) (p : Nat) : Nat := getF s (Reg.PRT_PART_CFG_FIRST_GROVE p)
def grovesOf (s : State) (p : Nat) : Nat := getF s (Reg.PRT_PART_CFG_GROVES p)
def groveList (s : State) (p : Nat) : List Nat := (List.range (grovesOf s p)).map (firstGrove s p + ·)

/-- STATE of a partition: 1 SERVING, 2 DRAINING, 3 DRAINED, 4 resetting. -/
def partState (s : State) (p : Nat) : Nat := getF s (Reg.PRT_PART_STATE_STATE p)

/-- Draw a free value: the counter that names it, and the state with the counter advanced. -/
def draw (s : State) : Nat × State := (s.free, { s with free := s.free + 1 })

/-! ## Bytes -/

/-- Number the elements of a list from `i`. -/
def numbered {α : Type} (i : Nat) : List α → List (Nat × α)
  | [] => []
  | x :: xs => (i, x) :: numbered (i + 1) xs

/-- `n` bytes of `v`, little-endian. -/
def leBytes : Nat → Nat → List Byte
  | 0, _ => []
  | n + 1, v => BitVec.ofNat 8 v :: leBytes n (v / 256)

/-- The number little-endian bytes spell. -/
def leNat : List Byte → Nat
  | [] => 0
  | b :: bs => b.toNat + 256 * leNat bs

/-- The `n`-byte little-endian number at offset `o`; bytes past the end read 0. -/
def leAt (bs : List Byte) (o n : Nat) : Nat := leNat ((bs.drop o).take n)

/-- Bits [lo + w - 1 : lo] of a number. -/
def bits (v lo w : Nat) : Nat := v / 2 ^ lo % 2 ^ w

/-- ceil(a / b). -/
def ceilDiv (a b : Nat) : Nat := (a + b - 1) / b

/-- floor(log2 n), 0 for 0. -/
def log2f (n : Nat) : Nat := n.log2

/-! ## Memory -/

/-- A byte of stacked DRAM at a physical address (R193, R232). -/
def loadByte (s : State) (a : Nat) : Byte := spGet (fun _ => (0#8 : Byte)) s.dram a

/-- The erroneous symbols that stand in a 32-byte word (R203). -/
def eccAt (s : State) (w : Nat) : Nat := spGet (fun _ => 0) s.ecc w
def setEcc (s : State) (w n : Nat) : State := { s with ecc := spPut (fun _ => 0) w n s.ecc }

/-- Store a byte at a physical address. The word is read, corrected and written with its ECC anew (R203): one erroneous
symbol is gone, two stay. -/
def storeByte (s : State) (a : Nat) (b : Byte) : State :=
  { s with
    dram := spPut (fun _ => (0#8 : Byte)) a b s.dram
    ecc := if spGet (fun _ => 0) s.ecc (a / 32) = 1 then spPut (fun _ => 0) (a / 32) 0 s.ecc else s.ecc }

/-- Erase the bytes whose physical address satisfies `p` to zero, with valid ECC (R232). -/
def zeroWhere (s : State) (p : Nat → Bool) : State :=
  { s with dram := spDrop p s.dram, ecc := spDrop (fun w => p (32 * w)) s.ecc }

/-- Channels of a partition, their count (R192) and the partition's top (R194). -/
def channels (s : State) (p : Nat) : Nat := 2 * grovesOf s p
def topOf (s : State) (p : Nat) : Nat := 2032 * 2 ^ 20 * channels s p

/-- The translator (R194): a partition address to a physical address; none at or above the top (R195). -/
def translate (s : State) (p a : Nat) : Option Nat :=
  if a < topOf s p then
    let n := channels s p
    let q := a / 4096
    some (2 ^ 31 * (2 * firstGrove s p + q % n) + 4096 * (q / n) + a % 4096)
  else none

/-- Store a byte at a partition address; the flag says that the translator refused it and nothing is written (R195). -/
def storeAt (s : State) (p a : Nat) (b : Byte) : State × Bool :=
  match translate s p a with
  | some x => (storeByte s x b, false)
  | none => (s, true)

/-- Store bytes at a partition address; bytes the translator refuses are not written (R195). The flag says that one
was refused. -/
def storePart (s : State) (p : Nat) : Nat → List Byte → State × Bool
  | _, [] => (s, false)
  | a, b :: bs =>
    let r := storeAt s p a b
    let q := storePart r.1 p (a + 1) bs
    (q.1, r.2 || q.2)

/-- Read `n` bytes at a partition address; a refused access reads as zero (R195). -/
def loadPart (s : State) (p a n : Nat) : List Byte :=
  (List.range n).map fun i =>
    match translate s p (a + i) with
    | some x => loadByte s x
    | none => 0#8

/-! ## The attached flash -/

/-- A byte of the attached flash. -/
def flashByte (s : State) (a : Nat) : Byte := spGet Config.flashInit s.flash a

/-- `n` bytes at an address. -/
def flashBytes (s : State) (a n : Nat) : List Byte := (List.range n).map fun i => flashByte s (a + i)

/-- The flash's cells at an address take these bytes. A slot left unspecified (R647) that they meet holds what is written. -/
def setFlash (s : State) (a : Nat) (b : List Byte) : State :=
  { s with
    flash := (numbered a b).foldl (fun l e => spPut Config.flashInit e.1 e.2 l) s.flash
    spoiled := s.spoiled.filter fun e => decide (e.1 + e.2.1 ≤ a ∨ a + b.length ≤ e.1) }

/-- An operation that the flash does not complete leaves its range at free values. -/
def garbleFlash (s : State) (a n : Nat) : State := let d := draw s; setFlash d.2 a (Config.freshBytes d.1 n)

/-- The extent of a slot in the directory as last read. -/
def slotExtent (s : State) (n : Nat) : Nat × Nat :=
  match s.img.dir[n]? with
  | some (off, ext, true) => (off, ext)
  | _ => (0, 0)

end Sys2Proof.Machine
end

