-- ==== Sys2Proof/Machine/RegAccess.lean ====
section
/-! DEFINITION. Register accesses over the cards: what a write does to each field (R93, R96, R97, R102, R103), what a
read returns and clears (R92, R98), and which accesses do not reach their block (R76). -/
namespace Sys2Proof.Machine

/-- The bits a card names, as a mask. -/
def namedBits (c : Card) : BitVec 64 :=
  c.fields.foldl (fun a f => a ||| (BitVec.ofNat 64 (2 ^ f.w - 1) <<< f.lo)) 0#64

/-- One field of a write: the register's new value, and whether a reserved encoding was refused (R97). -/
def writeField (data mask : BitVec 64) (acc : BitVec 64 × Bool) (f : CardField) : BitVec 64 × Bool :=
  let old := acc.1
  let merged := (old &&& ~~~mask) ||| (data &&& mask)
  match f.acc with
  | .rw =>
    let v := fieldOf merged f.lo f.w
    if fieldOf mask f.lo f.w = 0 then acc
    else if f.vmin ≤ v ∧ v ≤ f.vmax then (putField old f.lo f.w v, acc.2)
    else (old, true)
  | .w1c => (putField old f.lo f.w (fieldOf (old &&& ~~~(data &&& mask)) f.lo f.w), acc.2)
  | _ => acc

/-- A write of `data` under the bit mask `mask` (the bytes written) to the register at `key`: RW fields take it, W1C
flags it names clear, reserved encodings and RSV bits are reported (R96, R97). -/
def writeFields (s : State) (key : Nat) (data mask : BitVec 64) : State :=
  match cardAt key with
  | none => s
  | some c =>
    let r := c.fields.foldl (writeField data mask) (rd s key, false)
    let s1 := wr s key r.1
    let s2 := if r.2 then raise s1 Reg.HST_ERR_STATUS_BAD_VALUE else s1
    if data &&& mask &&& ~~~(namedBits c) ≠ 0#64 then raise s2 Reg.HST_ERR_STATUS_RSV_NONZERO else s2

/-- The register has an OVERLAP count (R103). -/
def hasOverlap (key : Nat) : Bool :=
  match cardAt key with
  | some c => c.fields.any fun f => f.lo == 24 && f.w == 8
  | none => false

/-- The flags of a status register that hardware sets in the cycle of a clearing write: the set wins, and OVERLAP, where
the card has it, counts the write once when a written flag met a set (R102, R103). -/
def hwSetDuring (s : State) (key : Nat) (written hw : Nat) : State :=
  let flags := hw % 2 ^ 24
  let s1 := wr s key (rd s key ||| BitVec.ofNat 64 flags)
  if (BitVec.ofNat 64 flags &&& BitVec.ofNat 64 written) ≠ 0#64 ∧ hasOverlap key = true then
    setF s1 ⟨key, 24, 8⟩ (getF s1 ⟨key, 24, 8⟩ + 1)
  else s1

/-- Clear a register's RC fields (a read did). -/
def clearRc (s : State) (key : Nat) : State :=
  match cardAt key with
  | none => s
  | some c =>
    wr s key (c.fields.foldl (fun v f => match f.acc with | .rc => putField v f.lo f.w 0 | _ => v) (rd s key))

/-- The bit of HST_CLK_STATUS LOCK of the domain a register lies in (Tables 02.3, 02.9). -/
def domainOf (key : Nat) : Nat :=
  match key / 0x100000 with
  | 0 => 1
  | 1 => 6
  | 2 => 6
  | 3 => 6
  | 10 => 2
  | 11 => 4
  | 13 => 7
  | 14 => 8
  | n => if n < 16 then 5 else 0

/-- A domain, by its bit of LOCK, runs (R76); SCLK's blocks are in reset while Heartwood is held (R83, Note to
HST_STATUS). -/
def clockUp (s : State) (d : Nat) : Bool :=
  (getF s Reg.HST_CLK_STATUS_LOCK).testBit d && !(d == 6 && getF s Reg.HST_STATUS_HWD_STATE == 2)

/-- The domain of `key` runs (R76). -/
def domainUp (s : State) (key : Nat) : Bool := clockUp s (domainOf key)

/-- An access in the domain with bit `d` of LOCK has its effect, or none but REG_DOMAIN_DOWN (R76, R740). -/
def ifRunning (s : State) (d : Nat) (f : State → State) : State :=
  if clockUp s d then f s else raise s Reg.HST_CLK_STATUS_REG_DOMAIN_DOWN

/-- The partition whose reset makes `key` unreachable: lane p of CMP, or a GRV copy of a grove of p (Table 03.6). -/
def resettingPart (s : State) (key : Nat) : Bool :=
  let rs := getF s Reg.FLT_STATE_PARTS_RESETTING
  if key / 0x100000 = 6 then rs.testBit (key % 0x100000 / 0x10000)
  else if 0x1000000 ≤ key ∧ key < 0x1400000 then
    let g := (key - 0x1000000) / 0x40000
    isSet s (Reg.GRV_STATUS_ASSIGNED g) && rs.testBit (getF s (Reg.GRV_STATUS_PARTITION g))
  else false

/-- A write reaches its block, or has no effect and sets a flag (R76, Table 03.6). -/
def reach (s : State) (key : Nat) (f : State → Host.Outcome State Fault Refusal) : Host.Outcome State Fault Refusal :=
  if !domainUp s key then .next (raise s Reg.HST_CLK_STATUS_REG_DOMAIN_DOWN)
  else if resettingPart s key then .next (raise s Reg.HST_ERR_STATUS_PART_IN_RESET)
  else f s

/-- A write to a status register or its enable register that leaves the level nonzero sends the message again (R106). -/
def afterWrite (s : State) (key : Nat) : State :=
  if (statusVec s key).isSome then reassert s key
  else if 4 ≤ key ∧ (statusVec s (key - 4)).isSome then reassert s (key - 4)
  else s

end Sys2Proof.Machine
end

