-- ==== Sys2Proof/Machine/Cache.lean ====
section
/-! DEFINITION. The L2 slices (spec/06, R222 to R225; spec/20, Table 20.1), and the system reserve (R199). The slices hold
which lines are present, in which way, and whether they are dirty. The bytes a line holds are those of State.dram: every
access to a channel passes through its slice (R222), so no access can tell the two apart. -/
namespace Sys2Proof.Machine

/-- Who accesses memory: clusters and grove sequencers; the Request Engine, Heartwood and the debug window; DMA and the
trace writer (R223, R224). -/
inductive Agent where
  | part
  | sys
  | dma
  deriving DecidableEq, Repr

/-- The line of a slice, where it holds it. -/
def l2At (s : State) (line : Nat) : Option L2Line := spGet (fun _ => none) s.l2 line
def setL2 (s : State) (line : Nat) (x : Option L2Line) : State :=
  { s with l2 := spPut (fun _ => none) line x s.l2 }

/-- The grove whose slice caches a line, and the line's set (R222; which set, DESIGN CHOICE: notes/assumptions/66.md). -/
def lineGrove (line : Nat) : Nat := line / 2 ^ 25
def lineSet (line : Nat) : Nat := line % 2048

/-- The ways in which a miss of `who` may allocate (R223). -/
def waysOf (s : State) (who : Agent) (g : Nat) : List Nat :=
  let m := match who with
    | .part => getF s (Reg.MEM_L2_MASK_PART_WAYS g)
    | .sys => getF s (Reg.MEM_L2_MASK_SYS_WAYS g)
    | .dma => 0
  (List.range 16).filter m.testBit

/-- Counters of a grove of the sixteen (Table 20.1): 0 L2_HIT, 1 L2_MISS, 2 DRAM_RD, 3 DRAM_WR. -/
def countGrove (s : State) (g k n : Nat) : State := if n = 0 ∨ 16 ≤ g then s else bump s (Reg.TRC_GROVE_COUNT g k) n

/-- A line leaves its slice; a dirty one is written to its channel. -/
def dropLine (s : State) (line : Nat) : State :=
  match l2At s line with
  | some e => countGrove (setL2 s line none) (lineGrove line) 3 (if e.dirty then 128 else 0)
  | none => s

/-- What a slice holds in a way of the set of `line`. -/
def victims (s : State) (line way : Nat) : List Nat :=
  (s.l2.filter fun e => lineGrove e.1 == lineGrove line && lineSet e.1 == lineSet line && match e.2 with
    | some x => x.way == way
    | none => false).map (·.1)

/-- A miss takes a way its mask enables, and what that way held leaves (R223, R225). -/
def allocate (s : State) (who : Agent) (write : Bool) (line : Nat) : State :=
  match waysOf s who (lineGrove line) with
  | [] => s
  | w :: ws =>
    let k := Config.l2Way s.free % (ws.length + 1)
    let way := (((w :: ws)[k]?).getD w)
    setL2 ((victims s line way).foldl dropLine (draw s).2) line (some { way := way, dirty := write })

/-- One access to `n` bytes of a 128-byte line, through the slice of its grove (R222 to R224). -/
def touchLine (s : State) (who : Agent) (write : Bool) (line n : Nat) : State :=
  let g := lineGrove line
  match l2At s line with
  | some e =>
    let s1 := countGrove s g 0 1
    match who, write with
    | .dma, true => countGrove (dropLine s1 line) g 3 n
    | .dma, false => s1
    | _, _ => setL2 s1 line (some { e with dirty := e.dirty || write })
  | none =>
    let s1 := countGrove s g 1 1
    match who, write with
    | .dma, true => countGrove s1 g 3 n
    | .dma, false => countGrove s1 g 2 n
    | _, _ => countGrove (allocate s1 who write line) g 2 (if write && n == 128 then 0 else 128)

/-- The lines of `n` bytes from address `a`, each with how many of them lie in it. -/
def lineSpan (a n : Nat) : List (Nat × Nat) :=
  if n = 0 then []
  else (List.range ((a + n - 1) / 128 - a / 128 + 1)).map fun i =>
    let l := a / 128 + i
    (l, min (a + n) (128 * l + 128) - max a (128 * l))

/-- Access `n` bytes from a physical address. -/
def touch (s : State) (who : Agent) (write : Bool) (x n : Nat) : State :=
  (lineSpan x n).foldl (fun a e => touchLine a who write e.1 e.2) s

/-- Access `n` bytes from a partition address, as far as the translator lets it (R194, R195). -/
def touchPart (s : State) (p : Nat) (who : Agent) (write : Bool) (a n : Nat) : State :=
  (lineSpan a n).foldl (fun b e => match translate b p (128 * e.1) with
    | some x => touchLine b who write (x / 128) e.2
    | none => b) s

/-- A partition write of bytes by an agent: the bytes, and the lines they pass. -/
def writePart (s : State) (p : Nat) (who : Agent) (a : Nat) (bs : List Byte) : State × Bool :=
  let r := storePart s p a bs
  (touchPart r.1 p who true a bs.length, r.2)

/-- The slices of the groves that `f` names hold nothing, without a write back: their memory is zeroed or their content is
dead. -/
def clearL2 (s : State) (f : Nat → Bool) : State := { s with l2 := spDrop (fun k => f (lineGrove k)) s.l2 }

/-! ## The system reserve (R199, R200) -/

/-- The physical address of byte `o` of the reserve: 4 KiB interleave over the 32 stripes. -/
def reserveAddr (o : Nat) : Nat := 2 ^ 31 * (o / 4096 % 32) + 0x7F000000 + 4096 * (o / 131072) + o % 4096

/-- The structures of Table 06.2: offset in the reserve, and size. -/
def reserveTable : Nat × Nat := (0, 64 * 2 ^ 20)
def reserveDedup : Nat × Nat := (64 * 2 ^ 20, 64 * 2 ^ 20)

/-- A physical address lies in the reserve. -/
def inReserve (x : Nat) : Bool := decide (0x7F000000 ≤ x % 2 ^ 31)

/-- The Request Engine moves entry `i` of the Request Table between engine SRAM and the reserve: 256 bytes (R200). -/
def moveEntry (s : State) (write : Bool) (i : Nat) : State := touch s .sys write (reserveAddr (reserveTable.1 + 256 * i)) 256

end Sys2Proof.Machine
end

