-- ==== Sys2Proof/Machine/Pages.lean ====
section
/-! DEFINITION. Arena pages: regions of a partition, taking and freeing pages, charges (spec/06, R196 to R216). -/
namespace Sys2Proof.Machine

/-- SAVE_64K and the arena's page count of a partition (spec/06, Table 06.1). -/
def saveUnits (s : State) (p : Nat) : Nat := getF s (Reg.MEM_PART_SAVE_SAVE_64K p)
def arenaPages (s : State) (p : Nat) : Nat := getF s (Reg.MEM_PART_ARENA_PAGES p)

/-- The partition address of arena page 0: past the trace buffers and the save region (R196). -/
def arenaBase (s : State) (p : Nat) : Nat := 2 ^ 20 * (part s p).traceMib + 65536 * saveUnits s p

/-- The pages of partition `p` that the list names, with their indexes. -/
def listedPages (s : State) (p : Nat) : List (Nat × Page) :=
  (s.pages.filter fun e => e.1 / 2 ^ 20 == p).map fun e => (e.1 % 2 ^ 20, e.2)

/-- Pages of `p` whose use satisfies `f`, in ascending index. -/
def pagesWhere (s : State) (p : Nat) (f : PageUse → Bool) : List Nat :=
  ((listedPages s p).filter fun e => f e.2.use).map (·.1)

/-- FREE pages of the partition: the capacity of the fit rule (R198). -/
def freePages (s : State) (p : Nat) : Nat := arenaPages s p - (pagesWhere s p (fun u => u != .free)).length

/-- The state of a page (R198) of a use. -/
def isStaged : PageUse → Bool | .staged .. => true | _ => false
def isRetired : PageUse → Bool | .retired => true | _ => false
def isKv : PageUse → Bool | .kv .. => true | _ => false
def isParking : PageUse → Bool | .parking .. => true | _ => false

/-- The request that holds a page, if one does. -/
def useReq : PageUse → Option Nat
  | .kv r _ _ _ => some r
  | .staged r _ _ _ => some r
  | .mask r => some r
  | .parking r _ _ _ => some r
  | _ => none

/-- A follower's pages name a sequence by its index in the leader's Request Table, marked so that no handle equals it
(R502). -/
def peerSeq (idx : Nat) : Nat := 2 ^ 32 + idx
def peerUse (u : PageUse) : Bool := match useReq u with | some h => decide (2 ^ 32 ≤ h) | none => false

/-- The partition address that maps to physical address `x`, if `p` owns it outside the system reserve (R193, R194). -/
def partAddr (s : State) (p x : Nat) : Option Nat :=
  let c := x / 2 ^ 31
  let off := x % 2 ^ 31
  let n := channels s p
  if 2 * firstGrove s p ≤ c ∧ c < 2 * firstGrove s p + n ∧ off < 0x7F000000 then
    some (4096 * (off / 4096 * n + (c - 2 * firstGrove s p)) + off % 4096)
  else none

/-- Is physical address `x` in arena page `i` of `p`? -/
def inPage (s : State) (p i x : Nat) : Bool :=
  match partAddr s p x with
  | some a => arenaBase s p ≤ a && (a - arenaBase s p) / 65536 == i
  | none => false

/-- Zero an arena page (R202). -/
def zeroPage (s : State) (p i : Nat) : State := zeroWhere s (inPage s p i)

/-- A page leaves FREE for a use and an owner; zeroed first for an owner other than its last (R202). -/
def assignPage (s : State) (p i : Nat) (u : PageUse) (o : PageOwner) : State :=
  let s1 := if (page s p i).owner = o then s else zeroPage s p i
  setPage s1 p i { use := u, owner := o }

/-- Give a page another use; its owner stays (a page that becomes FREE remembers its last owner). -/
def reusePage (s : State) (p i : Nat) (u : PageUse) : State := setPage s p i { page s p i with use := u }

/-- The first `n` FREE pages from index `i` on, within `fuel` indexes (lowest first: DESIGN CHOICE, notes/assumptions). -/
def pickFree (s : State) (p : Nat) : Nat → Nat → Nat → List Nat
  | 0, _, _ => []
  | fuel + 1, i, n =>
    if n = 0 then []
    else if (page s p i).use = .free then i :: pickFree s p fuel (i + 1) (n - 1)
    else pickFree s p fuel (i + 1) n

/-- Take one FREE page for each use, or nothing when too few are FREE (R211). -/
def takePages (s : State) (p : Nat) (us : List PageUse) (o : PageOwner) : Option State :=
  if us.length ≤ freePages s p then
    some (((pickFree s p (arenaPages s p) 0 us.length).zip us).foldl (fun a e => assignPage a p e.1 e.2 o) s)
  else none

/-- Give every page of `p` whose use satisfies `f` the use `g` of it. -/
def mapPages (s : State) (p : Nat) (f : PageUse → Bool) (g : PageUse → PageUse) : State :=
  (pagesWhere s p f).foldl (fun a i => reusePage a p i (g (page a p i).use)) s

/-- Free every page of `p` whose use satisfies `f`. -/
def freeWhere (s : State) (p : Nat) (f : PageUse → Bool) : State := mapPages s p f fun _ => .free

/-- Charge and credit a tenant's KV page quota (R214). -/
def charge (s : State) (t n : Nat) : State := bump s (Reg.ADM_TEN_KVUSE_KVUSE t) n
def credit (s : State) (t n : Nat) : State := lower s (Reg.ADM_TEN_KVUSE_KVUSE t) n

/-- Park slots of a tenant in use: those its parked requests hold (R218). -/
def slotsInUse (s : State) (t : Nat) : List Nat :=
  s.reqs.flatMap fun e => match e.2 with
    | some r => if r.tenant = t then r.slots else []
    | none => []

/-- The lowest `n` free park slots of a tenant (R218). -/
def pickSlots (used : List Nat) : Nat → Nat → Nat → List Nat
  | 0, _, _ => []
  | fuel + 1, i, n =>
    if n = 0 then [] else if used.contains i then pickSlots used fuel (i + 1) n
    else i :: pickSlots used fuel (i + 1) (n - 1)

end Sys2Proof.Machine
end

