-- ==== Sys2Proof/Machine/Requests.lean ====
section
/-! DEFINITION. Requests, handles and completion records: the shared operations of spec/01 and spec/07. -/
namespace Sys2Proof.Machine

/-- A request handle: generation in bits [31:18], table index in bits [17:0] (spec/00, worked case 00.1). -/
def handleOf (i gen : Nat) : W32 := BitVec.ofNat 32 (2 ^ 18 * gen + i)

/-- The handle of the request in entry `i`, as pages and plans name it. -/
def hnat (i : Nat) (r : Req) : Nat := 2 ^ 18 * r.gen + i

/-- The request a handle names: its entry is in use with the handle's generation. -/
def reqByHandle (s : State) (h : Nat) : Option (Nat × Req) :=
  match req? s (h % 2 ^ 18) with
  | some r => if r.gen = h / 2 ^ 18 then some (h % 2 ^ 18, r) else none
  | none => none

/-- States that are not end states (R11). -/
def isLive : ReqState → Bool
  | .arrived | .admitted | .prefill | .decode | .parked => true
  | _ => false

/-- States that count in the live count (spec/08). -/
def isAdmitted : ReqState → Bool
  | .admitted | .prefill | .decode | .parked => true
  | _ => false

/-- Every entry in use, in ascending index. -/
def allReqs (s : State) : List (Nat × Req) :=
  s.reqs.filterMap fun e => e.2.map fun r => (e.1, r)

/-- Live requests that satisfy `f`. -/
def liveReqs (s : State) (f : Req → Bool) : List Nat :=
  ((allReqs s).filter fun e => isLive e.2.st && f e.2).map (·.1)

/-- A record joins its ring's queue (R272); COMPLETION_RECORD_WRITE writes it. -/
def queueRec (s : State) (t c : Nat) (r : Rec) : State :=
  let q := cq s t c
  setCq s t c { q with waiting := q.waiting ++ [r] }

/-- Twenty zero bytes: bytes 12 to 31 of a record with neither tokens nor an echo. -/
def noBody : List Byte := List.replicate 20 0#8

/-- FLAGS bits (Table 07.6). -/
def flagFirst : Nat := 1
def flagFinal : Nat := 2
def flagDup : Nat := 4
def flagSpec : Nat := 8
def flagCont : Nat := 16

/-- A record that names no request (Table 07.8). -/
def noHandle : W32 := 0xFFFFFFFF#32

/-- The echo of an item (Table 07.7). -/
def echoBytes (token pos ring epoch member : Nat) : List Byte :=
  leBytes 8 token ++ leBytes 2 pos ++ [BitVec.ofNat 8 ring, BitVec.ofNat 8 epoch, BitVec.ofNat 8 member] ++
    List.replicate 7 0#8

/-- SIZE of a completion ring, and its free slots (R272). -/
def cqSize (s : State) (t c : Nat) : Nat := 2 ^ getF s (Reg.RQI_CQ_CFG_SIZE_LOG2 t c)
def cqFree (s : State) (t c : Nat) : Nat :=
  let n := cqSize s t c
  n - 1 - (getF s (Reg.RQI_CQ_TAIL_TAIL t c) + n - (cq s t c).head) % n

/-- The steps of a partition that hold a plan: the running one, one waiting to issue, the preempted ones. -/
def stepsOf (s : State) (p : Nat) : List Step :=
  (lane s p).cur.toList ++ (lane s p).nextStep.toList ++ (lane s p).pre

/-- Slots of completion ring `c` of tenant `t` that step plans hold (R317). -/
def cqHeld (s : State) (t c : Nat) : Nat :=
  ((List.range 16).flatMap (stepsOf s ·)).foldl (fun a st =>
    st.plan.foldl (fun b it => it.cqs.foldl (fun x e => if e.1 = 4 * t + c then x + e.2 else x) b) a) 0

/-- Available slots (R272). -/
def cqAvail (s : State) (t c : Nat) : Nat := cqFree s t c - cqHeld s t c - (cq s t c).waiting.length

/-- A request is in a step plan of its partition. -/
def inPlan (s : State) (i : Nat) (r : Req) : Bool :=
  (stepsOf s (r.ctx / 32)).any fun st => st.plan.any fun it => it.seqs.contains (hnat i r)

/-! ## Engine SRAM (R69, R200) -/

/-- Entry `i` is in a step plan. -/
def entryPlanned (s : State) (i : Nat) : Bool := match req? s i with | some r => inPlan s i r | none => false

/-- Entry `i` leaves engine SRAM. -/
def dropEntry (s : State) (i : Nat) : State := { s with sram := s.sram.filter (· != i) }

/-- Room for one more of the 32,768 entries in engine SRAM: the least recently used that is in no plan is spilled. -/
def spillEntry (s : State) : State :=
  if s.sram.length < 32768 then s
  else match s.sram.reverse.find? fun j => !entryPlanned s j with
    | some j => bump (moveEntry (dropEntry s j) true j) (Reg.TRC_RE_COUNT 4) 1
    | none => s

/-- The Request Engine uses entry `i`: it is filled if it was spilled, and is now the most recently used. Which uses count
is the model's choice (notes/assumptions/66.md). -/
def useEntry (s : State) (i : Nat) : State :=
  if s.sram.contains i then { s with sram := i :: s.sram.filter (· != i) }
  else
    let s1 := spillEntry s
    let s2 := if (req? s i).isSome then bump (moveEntry s1 false i) (Reg.TRC_RE_COUNT 5) 1 else s1
    { s2 with sram := i :: s2.sram }

/-- The entries of a plan are in engine SRAM (R69). -/
def useEntries (s : State) (is : List Nat) : State := is.foldl useEntry s

/-- The package of the model that serves a request. -/
def pkgOf (s : State) (slot : Nat) : Option Pkg := (slot? s slot).map (·.pkg)

/-- Pages of one member's KV reservation: layers × ceil(B / P), and one for a mask (R291). -/
def memberPages (k : Pkg) (bucket : Nat) (hasMask : Bool) : Nat :=
  k.layers * ceilDiv bucket (2 ^ k.pLog2) + (if hasMask then 1 else 0)

/-- Pages of a request enter KV or MASK: each lowers the KV reservation until the cohort's prefill pages are used up
(R292). -/
def useReservation (s : State) (i : Nat) (n : Nat) : State :=
  match req? s i with
  | none => s
  | some r =>
    let s1 := setReq s i (some { r with kvUsed := r.kvUsed + n })
    match cohort? s1 r.cohort with
    | some c =>
      lower (setCohort s1 r.cohort (some { c with kvLeft := c.kvLeft - n })) (Reg.ADM_TEN_KVRSV_KVRSV r.tenant)
        (min n c.kvLeft)
    | none => s1

/-- The unused admission shares of a member that ends before its prefill completes go back (R292). -/
def releaseShares (s : State) (r : Req) : State :=
  match cohort? s r.cohort, pkgOf s r.slot with
  | some c, some k =>
    if r.st = .admitted ∨ r.st = .prefill ∨ (r.st = .arrived ∧ c.st = .copying) then
      let s1 := lower s (Reg.ADM_TEN_RESERVED_RESERVED r.tenant) (c.wPf * (r.bucket - c.committed))
      let share := min c.kvLeft (memberPages k r.bucket (r.sub.maskAddr != 0) - r.kvUsed)
      lower (setCohort s1 r.cohort (some { c with kvLeft := c.kvLeft - share })) (Reg.ADM_TEN_KVRSV_KVRSV r.tenant) share
    else s
  | _, _ => s

/-- The context of a model slot that serves service class `k` (R380). -/
def servingCtx (s : State) (slot k : Nat) : Option Nat :=
  (s.ctxs.find? fun e => match e.2 with
    | some c => c.slot == slot && (getF s (Reg.MDL_CTX_SVC_SVC_MASK e.1)).testBit k
    | none => false).map (·.1)

/-- A context has a draft pair (R399). -/
def ctxPaired (s : State) (g : Nat) : Bool :=
  match ctx? s g with
  | some c => c.pair.isSome && !isSet s (Reg.CMP_CTX_CFG_DRAFT (g / 32) (g % 32))
  | none => false

/-- ACCT_FULL of a tenant's partition (R428). -/
def acctFull (s : State) (t : Nat) : Bool :=
  match partOf s t with
  | some p => isSet s (Reg.PRT_PART_ACCT_ACCT_FULL p)
  | none => false

/-- The holding cause that ADM_TEN_WAIT shows for class `c`. -/
def holdFld (t c : Nat) : Fld := ⟨Reg.ADM_TEN_WAIT t, 2 * c, 2⟩

/-- The holding cause of the head of queue `l` (R288): 0 when it does not wait, or there is none. -/
def headHold (s : State) (l : List Nat) : Nat :=
  match l.head?.bind (cohort? s) with
  | some c => c.hold
  | none => 0

/-- ADM_TEN_WAIT shows the head of queue (t, c) as it stands. -/
def showHold (s : State) (t c : Nat) : State := setF s (holdFld t c) (headHold s (admQueue s t c))

/-- The end or the admission of a request makes the waiting heads of its tenant and of its model due (R301). -/
def noteDue (s : State) (t slot : Nat) : State :=
  let mine := (s.admQ.filter fun e => match e.2.head?.bind (cohort? s) with
    | some c => c.hold != 0 && (c.tenant == t || c.model % 32 == slot)
    | none => false).map (·.1)
  { s with scan := { s.scan with due := s.scan.due ++ mine.filter fun k => !s.scan.due.contains k } }

/-- The wait bucket of R429. -/
def waitBucket (w : Nat) : Nat := if w < 16 then 0 else if 262144 ≤ w then 15 else log2f w - 3

/-- Every member, ARRIVED until now, enters ADMITTED at one device time (R15, R289, R400, R429). -/
def admitCohort (s : State) (co : Nat) : State :=
  match cohort? s co with
  | none => s
  | some c =>
    let s1 := c.members.foldl (fun a i =>
      match req? a i with
      | some r =>
        if r.st ≠ .arrived then a
        else
          let g := (servingCtx a r.slot r.cls).getD r.ctx
          let a1 := setReq (useEntry a i) i (some { r with st := .admitted, ctx := g, paired := ctxPaired a g })
          let a2 := lower a1 (Reg.ADM_TEN_QUEUED_QUEUED r.tenant) 1
          if acctFull a2 r.tenant then
            bump a2 (Reg.PRT_ACCT_WAIT_WAIT r.tenant r.cls (waitBucket ((a2.qTime - r.arrival) / 500))) 1
          else a2
      | none => a) s
    noteDue (setCohort s1 co (some { c with st := .admitted })) c.tenant (c.model % 32)

/-- A cohort whose mask copies are all done is admitted (R289, R298). -/
def admitCopied (s : State) (co : Nat) : State :=
  match cohort? s co with
  | some c =>
    if c.st = .copying ∧ (c.members.all fun j => match req? s j with | some x => x.maskReady | none => true) = true then
      admitCohort s co
    else s
  | none => s

/-- The pages and slots a request holds go back (R215), with their credits (R214). Pages of a copy in flight wait for
its end (Table 06.4), and a plan's STAGED pages for the end of the step (Table 09.5). -/
def releaseReq (s : State) (i : Nat) (r : Req) : State :=
  let p := r.ctx / 32
  let mine : PageUse → Bool := fun u => useReq u == some (hnat i r) && !isStaged u && !isParking u
  let n := (pagesWhere s p mine).length
  let s1 := credit (freeWhere s p mine) r.tenant n
  if r.parking || r.unparking then s1
  else
    let s2 := credit s1 r.tenant r.slots.length
    match req? s2 i with
    | some r' => setReq s2 i (some { r' with slots := [], maskPage := none })
    | none => s2

/-- A cohort without a member left leaves its queue; ADM_TEN_WAIT then shows the next head. -/
def dropMember (s : State) (i : Nat) (r : Req) : State :=
  match cohort? s r.cohort with
  | none => s
  | some c =>
    let ms := c.members.filter (· != i)
    if ms.isEmpty then
      let s1 := setCohort s r.cohort none
      showHold (setAdmQueue s1 c.tenant c.cls ((admQueue s1 c.tenant c.cls).filter (· != r.cohort))) c.tenant c.cls
    else setCohort s r.cohort (some { c with members := ms })

/-- Counts of a request that leaves its state for an end state: queued or live counts (spec/08), ENDED. -/
def countEnd (s : State) (r : Req) : State :=
  let s1 := if r.st = .arrived then lower s (Reg.ADM_TEN_QUEUED_QUEUED r.tenant) 1 else s
  let copying := match cohort? s r.cohort with | some c => c.st == .copying | none => false
  let s2 := if isAdmitted r.st || (r.st == .arrived && copying) then
      lower (lower s1 (Reg.ADM_TEN_LIVE_LIVE r.tenant) 1) (Reg.MDL_SLOT_LIVE_LIVE r.slot) 1 else s1
  bump s2 (Reg.TRC_RE_COUNT 3) 1

/-- The tenant counter an end status or end state adds to (spec/20, Table 20.1). -/
def endCounter (st : ReqState) (code : Nat) : Option Nat :=
  match st with
  | .done => some 3
  | .expired => some (if code = 0x0301 then 4 else 5)
  | .failed => some 6
  | _ => none

/-- The leader of a group will name an ended request's entry in a RELEASE (R508). -/
def noteEnded (s : State) (i : Nat) (r : Req) : State :=
  match spGet (fun _ => none) s.groups r.slot with
  | some x =>
    let y : Group := { x with ended := x.ended ++ [(i, r.append, r.maskPage.isSome)] }
    { s with groups := spPut (fun _ => none) r.slot (some y) s.groups }
  | none => s

/-- Held traffic that `f` names is not issued any more. -/
def dropWaits (s : State) (f : HeldFor → Bool) : State :=
  { s with held := (s.held.map fun e => (e.1, { e.2 with waits := e.2.waits.filter fun w => !f w.1 })).filter fun e =>
      e.2 != Held.idle }

/-- Copies of the request in entry `i`. -/
def forReq (i : Nat) : HeldFor → Bool
  | .park j => i == j
  | .copy j _ _ => i == j
  | .unpark j => i == j
  | .mask j => i == j
  | _ => false

/-- A sequence that ends leaves a plan that has not issued: its staged pages and its slots are free, its cohort's other members
keep theirs, and an empty plan does not issue (Table 09.5). -/
def leaveNext (s : State) (p h : Nat) : State :=
  let l := lane s p
  match l.nextStep with
  | none => s
  | some st =>
    if !(st.plan.any fun it => it.seqs.contains h) then s
    else
      let cut (it : PlanItem) : PlanItem := { it with
        seqs := it.seqs.filter (· != h)
        cqs := if it.cqs.length = it.seqs.length then ((it.seqs.zip it.cqs).filter fun e => e.1 != h).map (·.2) else it.cqs }
      let plan := (st.plan.map cut).filter fun it => !it.seqs.isEmpty
      let s1 := freeWhere s p fun u => isStaged u && useReq u == some h
      if plan.isEmpty then setLane s1 p { l with nextStep := none, stalled := [] }
      else setLane s1 p { l with nextStep := some { st with plan := plan } }

/-- A live request enters an end state: shares, counts, pages and slots go back and it leaves its cohort (R14, R215,
R292); of its copies only those in flight go on (Table 06.4). `counted` counts its end for the tenant. Its entry stays
until its FINAL record is written. -/
def leaveLive (s : State) (i : Nat) (r : Req) (st : ReqState) (code : Nat) (counted : Bool) : State :=
  let s1 := countEnd (releaseShares (leaveNext (dropWaits s (forReq i)) (r.ctx / 32) (hnat i r)) r) r
  let s2 := releaseReq s1 i r
  let s3 := noteEnded (dropMember s2 i r) i r
  let s4 := match endCounter st code with
    | some k => if counted then bump s3 (Reg.TRC_TEN_COUNT r.tenant k) 1 else s3
    | none => s3
  let s5 := if st = .rejected ∧ acctFull s r.tenant ∧ 0x0201 ≤ code ∧ code ≤ 0x020B then
      bump s4 (Reg.PRT_ACCT_REJ_REJ r.tenant (code - 0x0201)) 1 else s4
  let s6 := noteDue s5 r.tenant r.slot
  match req? s6 i with
  | some r' => setReq s6 i (some { r' with st := st })
  | none => s6

/-- The entry of a request is free; its next handle's generation is one greater (R14). -/
def freeEntryOf (s : State) (i gen : Nat) : State :=
  { setReq (dropEntry s i) i none with gens := spPut (fun _ => 0) i ((gen + 1) % 16384) s.gens }

/-- The copies of an ended request are over: its pages and slots go back, and its entry once its FINAL record is written
(Table 06.4, R215). -/
def endCopies (s : State) (i : Nat) : State :=
  match req? s i with
  | none => s
  | some r =>
    let s1 := freeWhere s (r.ctx / 32) fun u => isParking u && useReq u == some (hnat i r)
    let s2 := credit (setReq s1 i (some { r with parking := false, unparking := false, slots := [], maskPage := none }))
      r.tenant r.slots.length
    let due := (List.range 4).any fun c =>
      (cq s2 r.tenant c).waiting.any fun x => x.handle == handleOf i r.gen && x.flags.testBit 1
    let owed := s2.parts.any fun e => e.2.owed.any fun x => x.2.handle == handleOf i r.gen
    if due || owed then s2 else freeEntryOf s2 i r.gen

/-- The copies of ended requests that `f` names are over. -/
def endCopiesOf (s : State) (f : Req → Bool) : State :=
  (allReqs s).foldl (fun a e =>
    if !isLive e.2.st && (e.2.parking || e.2.unparking) && f e.2 then endCopies a e.1 else a) s

/-- A live request ends and its FINAL record is queued (R27, R28); a silent end (R54) writes none and releases the entry,
or leaves that to the end of a copy in flight. -/
def endReq (s : State) (i : Nat) (st : ReqState) (code : Nat) (silent : Bool) : State :=
  match req? s i with
  | none => s
  | some r =>
    if !isLive r.st then s
    else
      let s6 := leaveLive (useEntry s i) i r st code (!silent)
      if silent then (if r.parking || r.unparking then s6 else freeEntryOf s6 i r.gen)
      else queueRec s6 r.tenant r.sub.cq
        { handle := handleOf i r.gen, status := code, flags := flagFinal, count := 0, body := noBody }

/-- A live request ends CANCELLED (R44); if its mask copy was the last one outstanding, the rest of its cohort is admitted
(Table 08.5). -/
def cancelReq (s : State) (i : Nat) : State :=
  match req? s i with
  | some r =>
    if isLive r.st then
      admitCopied (bump (endReq s i .cancelled 0x0105 false) (Reg.TRC_TEN_COUNT r.tenant 2) 1) r.cohort
    else s
  | none => s

/-- The request's step runs and may still commit at the present device time. -/
def mayCommitNow (s : State) (i : Nat) (r : Req) : Bool :=
  match (lane s (r.ctx / 32)).cur with
  | some st => st.st != .issue && st.plan.any fun it => it.seqs.contains (hnat i r)
  | none => false

/-- The CANCEL of a request has been applied at the present device time and its step may still commit first (R50). -/
def cancelDue (s : State) (h : Nat) : Bool := s.cancels.contains h

/-- A CANCEL is applied (R44, R50): at once, or, where the request's step may still commit at the same device time, after
that commit (Table 01.4; notes/assumptions). -/
def applyCancel (s : State) (i : Nat) : State :=
  match req? s i with
  | some r => if mayCommitNow s i r then { s with cancels := s.cancels ++ [hnat i r] } else cancelReq s i
  | none => s

/-- The CANCELs that let a commit of their device time go first take effect. -/
def settleCancels (s : State) : State :=
  s.cancels.foldl (fun a h => match reqByHandle a h with | some (i, _) => cancelReq a i | none => a)
    { s with cancels := [] }

/-- Hard deadlines in ticks (R248); 0 means none. -/
def ttftDeadline (r : Req) : Nat := if r.sub.ttftUs = 0 then 0 else r.arrival + 500 * r.sub.ttftUs
def totalDeadline (r : Req) : Nat := if r.sub.totalMs = 0 then 0 else r.arrival + 500000 * r.sub.totalMs

/-- A hard deadline of the request precedes time `now` (R31, R32): the TTFT deadline counts until a first token. -/
def pastDeadline (r : Req) (now : Nat) : Bool :=
  (r.emitted == 0 && ttftDeadline r != 0 && ttftDeadline r < now) ||
  (totalDeadline r != 0 && totalDeadline r < now)

/-- A member's TTFT or total deadline has passed, for a queued cohort (R302, R303). -/
def pastQueueDeadline (r : Req) (now : Nat) : Bool :=
  (ttftDeadline r != 0 && ttftDeadline r < now) || (totalDeadline r != 0 && totalDeadline r < now)

/-- The request, in no running step, ends EXPIRED with the status of the deadline that passed (Table 01.1, R34). -/
def expireOut (s : State) (i : Nat) (now : Nat) : State :=
  match req? s i with
  | some r =>
    endReq s i .expired (if r.emitted = 0 ∧ ttftDeadline r ≠ 0 ∧ ttftDeadline r < now then 0x0301 else 0x0302) false
  | none => s

/-- The request ends EXPIRED at a commit or an abandon: EXPIRED_TTFT if no token of it was emitted, else EXPIRED_TOTAL
(R32, R33). -/
def expireReq (s : State) (i : Nat) : State :=
  match req? s i with
  | some r => endReq s i .expired (if r.emitted = 0 then 0x0301 else 0x0302) false
  | none => s

end Sys2Proof.Machine
end

