-- ==== Sys2Proof/Machine/Traffic.lean ====
section
/-! DEFINITION. Bandwidth regulators (spec/12, R420 to R424) and the trace FIFO (spec/20, R669 to R679). -/
namespace Sys2Proof.Machine

/-! ## Regulators -/

/-- LEVEL of regulator `k` of partition `p`, signed (R420). -/
def regLevel (s : State) (p k : Nat) : Int := (BitVec.ofNat 32 (getF s (Reg.PRT_REG_LEVEL_LEVEL p k))).toInt

/-- Set LEVEL; it saturates at −2^31 (R420). -/
def setRegLevel (s : State) (p k : Nat) (x : Int) : State :=
  setF s (Reg.PRT_REG_LEVEL_LEVEL p k) (BitVec.ofInt 32 (max x (-(2 ^ 31)))).toNat

/-- Charged-only traffic lowers LEVEL by its bytes at once (R421). -/
def chargeOnly (s : State) (p k n : Nat) : State :=
  if partValid s p then setRegLevel s p k (regLevel s p k - n) else s

/-- The bytes of one request of regulator `k` (spec/12, section Bandwidth regulators). -/
def reqUnit (k : Nat) : Nat := if k = 0 then 128 else if k = 1 then 4096 else 256

/-- The held traffic of regulator `k` that waits, and whether this interval held a request back (R422). -/
def heldOf (s : State) (p k : Nat) : Held := spGet (fun _ => Held.idle) s.held (4 * p + k)
def setHeld (s : State) (p k : Nat) (x : Held) : State :=
  { s with held := spPut (fun _ => Held.idle) (4 * p + k) x s.held }

/-- Requests of `u` bytes issue in their order, each while the level is above 0 (R421, R424): what waits still, and the
level after. -/
def issueWaits (u : Nat) : List (HeldFor × Nat) → Int → List (HeldFor × Nat) × Int
  | [], lv => ([], lv)
  | (f, b) :: rest, lv =>
    if lv ≤ 0 then ((f, b) :: rest, lv)
    else if b ≤ u * ceilDiv lv.toNat u then
      let e := issueWaits u rest (lv - b)
      ((f, 0) :: e.1, e.2)
    else ((f, b - u * ceilDiv lv.toNat u) :: rest, lv - u * ceilDiv lv.toNat u)

/-- The copy of a page to the park slot of its request's tenant leaves the device (R218), and after the last of them the
read of the last 4 bytes of the last slot (R568). -/
def sendPage (s : State) (p i pg slot : Nat) : State :=
  match req? s i with
  | none => s
  | some r =>
    let x := arenaBase s p + 65536 * pg
    let bytes := (numbered 0 (loadPart s p x 65536)).filter fun c => c.2 != 0#8
    let host := 65536 * getF s (Reg.MEM_PARK_BASE_ADDR r.tenant) + 65536 * slot
    let s1 := emit (touchPart s p .dma false x 65536) (.pageOut (tenantFn s r.tenant) host bytes)
    if r.slots.getLast? = some slot then emit s1 (.flushRead (tenantFn s r.tenant) (host + 0xFFFC)) else s1

/-- What the issue of the last of its bytes brings: a page goes to its slot, bytes are stored. -/
def waitIssued (p : Nat) (s : State) (e : HeldFor × Nat) : State :=
  match e with
  | (.copy i pg slot, 0) => sendPage s p i pg slot
  | (.store _ bs, 0) => bs.foldl (fun a b => (writePart a p .dma b.1 [b.2]).1) s
  | _ => s

/-- Nothing is left to do for it. A message whose bytes have issued waits for its flits to be queued. -/
def waitDone : HeldFor × Nat → Bool
  | (.msg .., _) => false
  | (_, n) => n == 0

/-- Issue waiting requests: each while LEVEL is above 0, or all of them with EN 0 (R421, R422). -/
def issueHeld (s : State) (p k : Nat) : State :=
  let h := heldOf s p k
  let e := issueWaits (reqUnit k) h.waits (regLevel s p k)
  let all : List (HeldFor × Nat) × Int :=
    (h.waits.map fun w => (w.1, 0), regLevel s p k - (h.waits.foldl (fun a w => a + w.2) 0 : Nat))
  let f := if isSet s (Reg.PRT_REG_CTL_EN p k) then e else all
  let s1 := f.1.foldl (waitIssued p) (setRegLevel s p k f.2)
  setHeld s1 p k { waits := f.1.filter fun w => !waitDone w, late := h.late || e.1.any fun w => w.2 != 0 }

/-- Held traffic of `n` bytes for `f` is offered (R421). -/
def chargeHeld (s : State) (p k : Nat) (f : HeldFor) (n : Nat) : State :=
  if partValid s p then
    let h := heldOf s p k
    issueHeld (setHeld s p k { h with waits := h.waits ++ [(f, n)] }) p k
  else waitIssued p s (f, 0)

/-- Bytes for `f` wait at a regulator of partition `p`. -/
def waitsFor (s : State) (p : Nat) (f : HeldFor → Bool) : Bool :=
  (List.range 4).any fun k => (heldOf s p k).waits.any fun w => f w.1

/-- RATE of a regulator; the trace regulator's comes from SHARE (R423). -/
def regRate (s : State) (p k : Nat) : Nat :=
  if k = 3 then 409600 * channels s p * getF s (Reg.PRT_REG3_CTL_SHARE p) / 800
  else getF s (Reg.PRT_REG_CTL_RATE p k)

/-- BURST of a regulator. -/
def regBurst (s : State) (p k : Nat) : Nat :=
  if k = 3 then getF s (Reg.PRT_REG3_BURST_BURST p) else getF s (Reg.PRT_REG_BURST_BURST p k)

/-- One refill of one regulator, HELD for the interval that ends, and the requests the new LEVEL lets go
(R420, R422). -/
def refillReg (s : State) (p k : Nat) : State :=
  let h := heldOf s p k
  let s1 := if h.late then bump s (Reg.PRT_REG_HELD_HELD p k) 1 else s
  let s2 := setRegLevel s1 p k (min (regLevel s1 p k + regRate s1 p k) (regBurst s1 p k))
  issueHeld (setHeld s2 p k { h with late := false }) p k

/-- The partition of a tenant is charged for one of its transfers. -/
def chargeTenant (s : State) (t k n : Nat) : State :=
  match partOf s t with
  | some p => chargeOnly s p k n
  | none => s

/-! ## Trace -/

def traceOf (s : State) (p : Nat) : Trace := spGet (fun _ => Trace.idle) s.trace p
def setTrace (s : State) (p : Nat) (x : Trace) : State := { s with trace := spPut (fun _ => Trace.idle) p x s.trace }

/-- The trace ring of a partition, in bytes. -/
def ringBytes (s : State) (p : Nat) : Nat := 2 ^ 20 * (part s p).traceMib

/-- The header of Table 20.4. -/
def traceHeader (kind flags ctx tag time : Nat) : List Byte :=
  leBytes 1 kind ++ leBytes 1 flags ++ leBytes 2 ctx ++ leBytes 2 tag ++ [0#8, 0#8] ++ leBytes 8 time

/-- Trace of `kind` is on in partition `p` (R669). -/
def traceOn (s : State) (p kind : Nat) : Bool :=
  isSet s (Reg.TRC_TCTL_EN p) && (getF s (Reg.TRC_TCTL_KIND_MASK p)).testBit (kind - 1)

/-- Units that wait in the FIFO. -/
def fifoUnits (x : Trace) : Nat := x.fifo.foldl (fun a r => a + r.length / 32) 0

/-- Once room has returned a LOSS record joins the FIFO ahead of any later record (R675). -/
def lossRecord (s : State) (p : Nat) : State :=
  let x := traceOf s p
  if x.lost ≠ 0 ∧ traceOn s p 6 = true ∧ fifoUnits x < 512 then
    setTrace s p { x with lost := 0, fifo := x.fifo ++ [traceHeader 6 0 0xFFFF 0 s.time ++ leBytes 8 x.lost ++
      leBytes 8 x.lostAt] }
  else s

/-- A record of `p` is lost: counted and flagged; the next LOSS record tells of it (R675, R691). -/
def loseTrace (s : State) (p time : Nat) : State :=
  let x := traceOf s p
  let s1 := setTrace s p { x with lost := x.lost + 1, lostAt := if x.lost = 0 then time else x.lostAt }
  raise (bump s1 (Reg.TRC_PART_COUNT p 6) 1) Reg.TRC_STATUS_RECORD_LOST

/-- A record reaches the collector: it joins the FIFO after a LOSS record that is due, or it is lost (R675). -/
def traceRec (s : State) (p kind time : Nat) (bytes : List Byte) : State :=
  if !traceOn s p kind then s
  else
    let s1 := lossRecord s p
    let x := traceOf s1 p
    if fifoUnits x + bytes.length / 32 ≤ 512 then setTrace s1 p { x with fifo := x.fifo ++ [bytes] }
    else loseTrace s1 p time

/-- A double-bit error in the trace FIFO drops its oldest record (R691). -/
def dropTrace (s : State) (p : Nat) : State :=
  let x := traceOf s p
  match x.fifo with
  | [] => s
  | r :: rest => loseTrace (setTrace s p { x with fifo := rest }) p (leAt r 8 8)

/-- A STEP record (Table 20.5): event 0 ISSUE, 1 COMMIT, 2 ABANDON, 3 save, 4 restore. -/
def traceStep (s : State) (p g tag ev seqs pos : Nat) : State :=
  traceRec s p 3 s.qTime (traceHeader 3 0 g tag s.qTime ++ leBytes 1 ev ++ [0#8] ++ leBytes 2 seqs ++ leBytes 4 pos ++
    List.replicate 8 0#8)

/-- A WAIT record (Table 20.5), when the wait lasted WAIT_MIN ticks or more; agents are (kind, ID). -/
def traceWait (s : State) (p g tag start stop obj objId : Nat) (waiter awaited : Nat × Nat) (abandoned : Bool) : State :=
  let d := stop - start
  if d < getF s (Reg.TRC_WAIT_MIN_WAIT_MIN p) then s
  else
    let fl := (if abandoned then 16 else 0) + (if 2 ^ 32 ≤ d then 32 else 0)
    traceRec s p 1 stop (traceHeader 1 fl g tag start ++ leBytes 4 (min d (2 ^ 32 - 1)) ++ leBytes 1 obj ++
      leBytes 1 waiter.1 ++ leBytes 2 waiter.2 ++ leBytes 1 awaited.1 ++ [0#8] ++ leBytes 2 awaited.2 ++ leBytes 4 objId)

/-- A LINK record (Table 20.5). -/
def traceLink (s : State) (p g tag port ftype peer msg stamp time : Nat) (recv : Bool) : State :=
  traceRec s p 4 time (traceHeader 4 (if recv then 8 else 0) g tag time ++ leBytes 1 port ++ leBytes 1 ftype ++
    leBytes 1 peer ++ [0#8] ++ leBytes 2 msg ++ [0#8, 0#8] ++ leBytes 8 stamp)

/-- MARK_BEGIN and MARK_END (R674): a record stamped at the retirement on global logical cluster `cl`. -/
def execMark (p cl id time : Nat) (fin : Bool) (s : State) : State :=
  match (lane s p).cur with
  | some st =>
    if (st.running.any fun e => e.1 == cl) && st.st == .execute then
      traceRec s p 2 time (traceHeader 2 (if fin then 4 else 0) st.ctx st.tag time ++ leBytes 4 id ++ leBytes 2 cl ++
        List.replicate 10 0#8)
    else s
  | none => s

def execMarkBegin (p cl id : Nat) (s : State) : Host.Outcome State Fault Refusal :=
  .next (execMark p cl id s.cTime false s)

def execMarkEnd (p cl id : Nat) (s : State) : Host.Outcome State Fault Refusal :=
  .next (execMark p cl id s.cTime true s)

/-- Where the writer stands in a ring of `n` units, past removed 64 KiB pages (R691); the flag says that it passed the
ring end. -/
def ringNorm (n : Nat) (skip : List Nat) : Nat → Nat → Bool → Nat × Bool
  | 0, w, x => (w, x)
  | fuel + 1, w, x =>
    if n ≤ w then ringNorm n skip fuel 0 true
    else if skip.contains (w / 2048) then ringNorm n skip fuel (2048 * (w / 2048 + 1)) x
    else (w, x)

/-- Units from `w` to the ring end or to the next removed page. -/
def ringRoom (n : Nat) (skip : List Nat) (w : Nat) : Nat :=
  skip.foldl (fun a k => if w ≤ 2048 * k then min a (2048 * k - w) else a) (n - w)

/-- Where a record of `k` units goes from `w`: the PAD runs before it, its offset, and whether the end is passed (R671). -/
def ringPlace (n : Nat) (skip : List Nat) (k : Nat) : Nat → Nat → Bool → List (Nat × Nat) → List (Nat × Nat) × Nat × Bool
  | 0, w, x, pads => (pads, w, x)
  | fuel + 1, w, x, pads =>
    let room := ringRoom n skip w
    if k ≤ room then (pads, w, x)
    else
      let e := ringNorm n skip (skip.length + 2) (w + room) x
      ringPlace n skip k fuel e.1 e.2 (pads ++ [(w, room)])

/-- A PAD unit. -/
def padUnit (s : State) : List Byte := traceHeader 0 0 0xFFFF 0 s.time ++ List.replicate 16 0#8

/-- Store a record in the ring; TRACE_RECORDS, WPTR, WRAPS, and the regulator by its bytes (R667, R671, R675, R679). -/
def ringRecord (s : State) (p : Nat) (bytes : List Byte) : State :=
  let n := ringBytes s p / 32
  let skip := (traceOf s p).skip
  let k := bytes.length / 32
  let e := ringPlace n skip k (skip.length + 2) (getF s (Reg.TRC_WPTR_WPTR p)) false []
  let s1 := e.1.foldl (fun a r =>
    (List.range r.2).foldl (fun b i => (writePart b p .dma (32 * (r.1 + i)) (padUnit s)).1) a) s
  let s2 := (writePart s1 p .dma (32 * e.2.1) bytes).1
  let units := e.1.foldl (fun a r => a + r.2) k
  let f := ringNorm n skip (skip.length + 2) (e.2.1 + k) e.2.2
  let s3 := setF (bump s2 (Reg.TRC_PART_COUNT p 5) units) (Reg.TRC_WPTR_WPTR p) f.1
  chargeOnly (if f.2 then bump s3 (Reg.TRC_WRAPS_WRAPS p) 1 else s3) p 3 (32 * units)

/-- In STOP mode the record would overwrite the first unit written since EN was set (R676). -/
def ringFull (s : State) (p : Nat) (bytes : List Byte) : Bool :=
  let x := traceOf s p
  isSet s (Reg.TRC_TCTL_MODE p) &&
    (getF s (Reg.TRC_WRAPS_WRAPS p) != 0 ||
      (ringPlace (ringBytes s p / 32) x.skip (bytes.length / 32) (x.skip.length + 2)
        (getF s (Reg.TRC_WPTR_WPTR p)) false []).2.2)

/-- TRACE_RECORD_WRITE (R421, R675, R676): the oldest record of the FIFO goes to the ring while LEVEL is above 0, else it
waits and its interval counts in HELD; in STOP
mode a full ring stops the trace and the FIFO's rest is dropped (notes/assumptions). -/
def execTraceRecordWrite (p : Nat) (s : State) : Host.Outcome State Fault Refusal :=
  let x := traceOf s p
  match x.fifo with
  | [] => .next s
  | r :: rest =>
    if !partValid s p || ringBytes s p == 0 then .next s
    else if regLevel s p 3 ≤ 0 then .next (setHeld s p 3 { heldOf s p 3 with late := true })
    else if ringFull s p r then
      let s1 := setF (setF s (Reg.TRC_TCTL_EN p) 0) (Reg.TRC_TCTL_STOPPED_P p) 1
      .next (raise (setTrace s1 p { x with fifo := [] }) Reg.TRC_STATUS_STOPPED)
    else .next (lossRecord (ringRecord (setTrace s p { x with fifo := rest }) p r) p)

/-- TRACE_ENABLE (R690): a write of TRC_TCTL_p that sets EN. With no trace ring the write of EN has no effect
(Table 20.8). -/
def execTraceEnable (p : Nat) (v : W32) (s : State) : Host.Outcome State Fault Refusal :=
  reach s (Reg.TRC_TCTL p) fun s =>
  let key := Reg.TRC_TCTL p
  let on := isSet s (Reg.TRC_TCTL_EN p)
  let d := putField (v.setWidth 64) 0 1 (if on then 1 else 0)
  let s1 := writeFields s key d 0xFFFFFFFF#64
  if !v.getLsbD 0 || on || ringBytes s p == 0 then .next s1
  else
    let s2 := setF (setF (setF s1 (Reg.TRC_WPTR_WPTR p) 0) (Reg.TRC_WRAPS_WRAPS p) 0) (Reg.TRC_TCTL_STOPPED_P p) 0
    let x := traceOf s2 p
    let s3 := setF s2 (Reg.TRC_WPTR_WPTR p) (ringNorm (ringBytes s2 p / 32) x.skip (x.skip.length + 2) 0 false).1
    .next (setF s3 (Reg.TRC_TCTL_EN p) 1)

/-- TRACE_DISABLE (R690): a write of TRC_TCTL_p that clears EN; the FIFO drains by TRACE_RECORD_WRITE. -/
def execTraceDisable (p : Nat) (v : W32) (s : State) : Host.Outcome State Fault Refusal :=
  reach s (Reg.TRC_TCTL p) fun s =>
  if v.getLsbD 0 then .next s else .next (writeFields s (Reg.TRC_TCTL p) (v.setWidth 64) 0xFFFFFFFF#64)

end Sys2Proof.Machine
end

