-- ==== Sys2Proof/Machine/Intake.lean ====
section
/-! DEFINITION. Request intake: doorbells, items, cohorts, deduplication, fences, flushes and ring set-up
(spec/07; spec/01, R39 to R48). -/
namespace Sys2Proof.Machine

/-! ## The ring and its words -/

def sqSize (s : State) (t r : Nat) : Nat := 2 ^ getF s (Reg.RQI_SQ_CFG_SIZE_LOG2 t r)
def sqHead (s : State) (t r : Nat) : Nat := getF s (Reg.RQI_SQ_HEAD_HEAD t r)
def sqTail (s : State) (t r : Nat) : Nat := getF s (Reg.RQI_SQ_TAIL_TAIL t r)
def sqEpoch (s : State) (t r : Nat) : Nat := getF s (Reg.RQI_SQ_HEAD_EPOCH t r)

/-- Words between the head and the tail. -/
def sqWords (s : State) (t r : Nat) : Nat := (sqTail s t r + sqSize s t r - sqHead s t r) % sqSize s t r

/-- Bits of a ring word. -/
def wbits (w : W128) (lo n : Nat) : Nat := w.toNat / 2 ^ lo % 2 ^ n

/-- The expected phase of the word `i` places past the head (R234). -/
def phaseAt (s : State) (t r i : Nat) : Nat :=
  (getF s (Reg.RQI_SQ_HEAD_PHASE t r) + (sqHead s t r + i) / sqSize s t r) % 2

/-- Word `i` past the head is ready, and is stale (R236). -/
def wordReady (s : State) (t r i : Nat) (w : W128) : Bool :=
  wbits w 127 1 == phaseAt s t r i && wbits w 123 4 == sqEpoch s t r
def wordStale (s : State) (t r i : Nat) (w : W128) : Bool :=
  wbits w 127 1 == phaseAt s t r i && wbits w 123 4 != sqEpoch s t r

/-- TYPE and LEN of an item's header (R235). -/
def itemType (ws : List W128) : Nat := wbits (ws.headD 0) 0 8
def itemLen (ws : List W128) : Nat := wbits (ws.headD 0) 8 4 + 1

/-- The ring is live, nothing holds it, and words stand between its head and its tail (R55, R252, R267, R283, R563). -/
def ringLive (s : State) (t r : Nat) : Bool :=
  serving s && isSet s (Reg.RQI_SQ_CFG_ENABLE t r) && !(sq s t r).stopped &&
    (sq s t r).fence.isNone && canDma s (tenantFn s t) && sqWords s t r != 0

/-- The intake may start on the next item of the ring: no flush runs (R275). -/
def ringOpen (s : State) (t r : Nat) : Bool := ringLive s t r && !(sq s t r).flushing

/-- The words of the next item among those read: those between the head and the tail, and of an item whose header is
ready no more than its LEN (R235, R252). -/
def itemWords (s : State) (t r : Nat) (ws : List W128) : List W128 :=
  let n := if wordReady s t r 0 (ws.headD 0) then min (itemLen ws) (sqWords s t r) else sqWords s t r
  ws.take n

/-- A read found the item not ready: it is read again at the next doorbell or 50 µs later; stale words of it count, once
per position per epoch (R252). -/
def noteNotReady (s : State) (t r : Nat) (ws : List W128) : State :=
  let q := sq s t r
  let fresh := ((numbered 0 (itemWords s t r ws)).filter fun e => wordStale s t r e.1 e.2).map
    (fun e => (sqHead s t r + e.1) % sqSize s t r) |>.filter fun x => !q.stale.contains x
  bumpSat (setSq s t r { q with lastRead := some s.qTime, stale := q.stale ++ fresh })
    (Reg.RQI_SQ_CNT_STALE t r) fresh.length

/-- The words given are the item at the head, whole and ready. -/
def itemReady (s : State) (t r : Nat) (ws : List W128) : Bool :=
  ws.length == itemLen ws && ws.length ≤ sqWords s t r && (numbered 0 ws).all fun e => wordReady s t r e.1 e.2

/-- What a read of the next item finds. -/
inductive ItemRead where
  | closed
  | waiting
  | notReady
  | ready
  deriving DecidableEq, Repr

/-- Read the next item (R252). -/
def readItem (s : State) (t r : Nat) (ws : List W128) : ItemRead :=
  if !ringOpen s t r || ws.isEmpty then .closed
  else if (sq s t r).lastRead.isSome then .waiting
  else if itemReady s t r ws then .ready
  else .notReady

/-- Read the SUBMIT at the head: as any item, or, while a flush runs, the one whose host reads were in flight (R275). -/
def readSubmit (s : State) (t r : Nat) (ws : List W128) : ItemRead :=
  if (sq s t r).flushing then
    if (sq s t r).inflight && ringLive s t r && itemReady s t r ws then .ready else .closed
  else readItem s t r ws

/-- The head passes an item of `n` words; fences that wait for the ring see it; the item counts (R235, R237, R267). -/
def advanceHead (s : State) (t r n : Nat) : State :=
  let h := sqHead s t r + n
  let s1 := setF (chargeTenant s t 1 (16 * n)) (Reg.RQI_SQ_HEAD_PHASE t r) (phaseAt s t r n)
  let s2 := setF s1 (Reg.RQI_SQ_HEAD_HEAD t r) (h % sqSize s t r)
  let s3 := bump (bump s2 (Reg.TRC_RE_COUNT 0) 1) (Reg.TRC_TEN_COUNT t 0) 1
  (List.range 4).foldl (fun a o =>
    match (sq a t o).fence with
    | some f => setSq a t o { sq a t o with fence := some { f with left := f.left.map fun e =>
        if e.1 = r then (e.1, e.2 - n) else e } }
    | none => a) s3

/-- A fence need no longer wait for ring `r` (flushed or disabled, R267). -/
def releaseFences (s : State) (t r : Nat) : State :=
  (List.range 4).foldl (fun a o =>
    match (sq a t o).fence with
    | some f => setSq a t o { sq a t o with fence := some { f with left := f.left.map fun e =>
        if e.1 = r then (e.1, 0) else e } }
    | none => a) s

/-- The open cohort of a ring, and the register bit that shows one is open. -/
def setOpenCohort (s : State) (t r : Nat) (c : Option OpenCohort) : State :=
  setF (setSq s t r { sq s t r with cohort := c }) (Reg.RQI_SQ_HEAD_COHORT_OPEN t r) (if c.isSome then 1 else 0)

/-- The completion ring named is enabled and has `n` available slots (R257, R272). -/
def cqRoom (s : State) (t : Nat) (need : List Nat) : Bool :=
  (List.range 4).all fun c =>
    let n := (need.filter (· == c)).length
    n == 0 || (isSet s (Reg.RQI_CQ_CFG_ENABLE t c) && n ≤ cqAvail s t c)

/-! ## Whose turn it is (R256) -/

/-- The weight of a ring by its service class: 8, 4, 2, 1. -/
def ringWeight (r : Nat) : Nat := 8 / 2 ^ r

/-- The ring a tenant is being served on and the items it may still have in this turn. -/
def ringTurn (s : State) (t : Nat) : Nat × Nat := spGet (fun _ => (0, 8)) s.arb.rings t

/-- The next ring of a tenant among those of which `f` holds: the one being served while its weight lasts, else the next
one after it. -/
def pickRing (x : Nat × Nat) (f : Nat → Bool) : Option Nat :=
  if x.2 ≠ 0 ∧ f x.1 = true then some x.1 else ([1, 2, 3, 4].map fun k => (x.1 + k) % 4).find? f

/-- A ring has an item that is known to be consumable: found so before, with room for its records since. -/
def knownItem (s : State) (t r : Nat) : Bool :=
  match (sq s t r).waitFor with
  | some need => ringOpen s t r && cqRoom s t need
  | none => false

/-- The ring the arbiter serves next when `(t, r)` has a consumable item: tenants in round robin after the one served
last, and within the tenant its rings by their weights (R256). -/
def nextServed (s : State) (t r : Nat) : Option (Nat × Nat) :=
  (List.range 64).findSome? fun k =>
    let a := (s.arb.tenant + 1 + k) % 64
    (pickRing (ringTurn s a) fun b => (a == t && b == r) || knownItem s a b).map fun b => (a, b)

/-- It is the turn of ring `r` of tenant `t`. -/
def itsTurn (s : State) (t r : Nat) : Bool := nextServed s t r == some (t, r)

/-- Ring `r` of tenant `t` is served. -/
def takeTurn (s : State) (t r : Nat) : State :=
  let x := ringTurn s t
  let left := if x.1 = r ∧ x.2 ≠ 0 then x.2 - 1 else ringWeight r - 1
  { s with arb := { tenant := t, rings := spPut (fun _ => (0, 8)) t (r, left) s.arb.rings } }

/-- Consume the item at the head of a ring as `k` says, once its completion rings have `need` available slots and it is
the ring's turn; else it waits, with CQ_WAIT for slots (R256, R257). An item that has to wait for slots while a flush
runs is discarded by the flush (Table 07.10). -/
def consume (s : State) (t r : Nat) (need : List Nat) (k : State → State) : State :=
  let q := sq s t r
  if !cqRoom s t need then
    if q.flushing then setSq s t r { q with inflight := false }
    else raise (setSq s t r { q with waitFor := some need }) (Reg.RQI_SQ_STATUS_CQ_WAIT t r)
  else if itsTurn s t r then takeTurn (k (setSq s t r { q with waitFor := none, inflight := false })) t r
  else setSq s t r { q with waitFor := some need }

/-- The ring an item's refusal goes to: its CQ, or ring 0 when that is disabled (Table 07.8). -/
def refusalCq (s : State) (t c : Nat) : Nat := if isSet s (Reg.RQI_CQ_CFG_ENABLE t c) then c else 0

/-- A refusal record (Table 07.8). -/
def refusalRec (code : Nat) (echo : List Byte) : Rec :=
  { handle := noHandle, status := code, flags := 0, count := 0, body := echo }

/-- Refuse an item: its record and the REFUSED count. -/
def refuseItem (s : State) (t r c code : Nat) (echo : List Byte) : State :=
  bumpSat (queueRec s t c (refusalRec code echo)) (Reg.RQI_SQ_CNT_REFUSED t r) 1

/-- The echo of an item at the ring's head (Table 07.7). -/
def echoHere (s : State) (t r token member : Nat) : List Byte :=
  echoBytes token (sqHead s t r) r (sqEpoch s t r) member

/-! ## SUBMIT fields (Table 07.3) -/

/-- Word `i` of an item; an absent word is 0. -/
def wordAt (ws : List W128) (i : Nat) : W128 := (ws[i]?).getD 0

/-- The fields of a SUBMIT; a word at or beyond LEN gives the values of the column "If absent" (R245). -/
def submitFields (ws : List W128) : SubmitF :=
  let w := wordAt ws
  { model := wbits (w 0) 16 16, promptLen := wbits (w 0) 32 18, draftN := wbits (w 0) 50 4, cq := wbits (w 0) 54 2,
    member := wbits (w 0) 12 1 == 1, token := wbits (w 1) 0 64, promptAddr := wbits (w 1) 64 57,
    seed := wbits (w 2) 0 64, maxNew := wbits (w 2) 64 18, ttftUs := wbits (w 3) 0 24, bttUs := wbits (w 3) 24 20,
    totalMs := wbits (w 3) 44 24, temp := wbits (w 4) 0 16,
    topP := if 4 < ws.length then wbits (w 4) 16 16 else 0x3C00, minP := wbits (w 4) 32 16, topK := wbits (w 4) 48 9,
    repPen := if 5 < ws.length then wbits (w 5) 0 16 else 0x3C00, presPen := wbits (w 5) 16 16,
    freqPen := wbits (w 5) 32 16, extAddr := wbits (w 6) 0 57, biasN := wbits (w 6) 57 6, stopN := wbits (w 6) 63 4,
    maskAddr := wbits (w 7) 0 57 }

/-- The bits of word `i` of a SUBMIT that Table 07.3 names, and PHASE and EPOCH. -/
def submitNamed (i : Nat) : W128 :=
  let run (lo n : Nat) : W128 := BitVec.ofNat 128 (2 ^ n - 1) <<< lo
  run 123 5 ||| match i with
    | 0 => run 0 13 ||| run 16 40
    | 1 => run 0 121
    | 2 => run 0 82
    | 3 => run 0 68
    | 4 => run 0 57
    | 5 => run 0 48
    | 6 => run 0 67
    | _ => run 0 57

/-- FP16 words: finite, and zero of either sign. -/
def f16Finite (x : Nat) : Bool := bits x 10 5 != 31
def f16Zero (x : Nat) : Bool := bits x 0 15 == 0
def f16Neg (x : Nat) : Bool := bits x 15 1 == 1

/-- A sampling field is out of range (Table 07.3), or a field needs a sampler page that no mask gives (R346). -/
def paramBad (f : SubmitF) : Bool :=
  !(f16Finite f.temp && (!f16Neg f.temp || f16Zero f.temp)) ||
  !(!f16Neg f.topP && f.topP != 0 && f.topP ≤ 0x3C00) ||
  !(f16Zero f.minP || (!f16Neg f.minP && f.minP < 0x3C00)) ||
  !(f.topK ≤ 256) ||
  !(f16Finite f.repPen && !f16Neg f.repPen && !f16Zero f.repPen) ||
  !f16Finite f.presPen || !f16Finite f.freqPen || !(f.biasN ≤ 32) || !(f.stopN ≤ 8) || !(f.draftN ≤ 8) ||
  (f.extAddr == 0 && (f.biasN != 0 || f.stopN != 0)) ||
  (f.maskAddr == 0 && (f.biasN != 0 || f.stopN != 0 || f.repPen != 0x3C00 || !f16Zero f.presPen || !f16Zero f.freqPen))

/-- The bias entries and stop sequences of an extension block (Table 07.4). -/
def extBias (f : SubmitF) (b : List Byte) : List (Nat × W32) :=
  (List.range f.biasN).map fun i => (leAt b (8 * i) 4, BitVec.ofNat 32 (leAt b (8 * i + 4) 4))
def extStopLen (b : List Byte) (j : Nat) : Nat := leAt b (256 + 68 * j) 4
def extStops (f : SubmitF) (b : List Byte) : List (List Nat) :=
  (List.range f.stopN).map fun j => (List.range (extStopLen b j)).map fun i => leAt b (260 + 68 * j + 4 * i) 4

/-- The extension block breaks R246 for a vocabulary of `v` tokens. -/
def extBad (f : SubmitF) (b : List Byte) (v : Nat) : Bool :=
  (extBias f b).any (fun e => v ≤ e.1 || fieldOf (e.2.setWidth 64) 23 8 == 255) ||
  (List.range f.stopN).any fun j =>
    extStopLen b j == 0 || 16 < extStopLen b j || ((extStops f b)[j]?.getD []).any fun x => v ≤ x

/-- The READY slot a model handle names for a tenant, with the package: the model has a context in the tenant's
partition (R379, R391, R416); a follower part serves nothing through its own handle (R401). -/
def modelFor (s : State) (t h : Nat) : Option (Nat × Pkg) :=
  let n := h % 32
  match slot? s n, partOf s t with
  | some x, some p =>
    if getF s (Reg.MDL_SLOT_HANDLE n) = h ∧ getF s (Reg.MDL_SLOT_STATE n) = 3 ∧ getF s (Reg.MDL_SLOT_PARTITION n) = p ∧
        ¬(x.pkg.groupPart = true ∧ x.pkg.deviceIndex ≠ 0) then some (n, x.pkg) else none
  | _, _ => none

/-- The model a handle names for an item on ring `r`: one that has a context for the ring's class. A draft's context has
mask 0 and serves none, so that a SUBMIT naming a draft is refused as one whose model has no context (DEDUCED,
notes/assumptions/61.md). -/
def servedModel (s : State) (t r h : Nat) : Option (Nat × Pkg) :=
  (modelFor s t h).filter fun m => (servingCtx s m.1 r).isSome

/-- The lowest refusal code that applies to a SUBMIT, or 0 (Table 07.1, R244 to R246, R253, R258, R284, R346). -/
def submitCode (s : State) (t r : Nat) (ws : List W128) (prompt : Option (List W32)) (ext : Option (List Byte))
    (coh : Option OpenCohort) : Nat :=
  let f := submitFields ws
  let m := servedModel s t r f.model
  if ws.length < 4 || 8 < ws.length || (numbered 0 ws).any (fun e => e.2 &&& ~~~(submitNamed e.1) != 0) then 0x0110
  else match m with
    | none => 0x0111
    | some (slot, k) =>
      let longer := match coh with | some c => decide (c.bucket < f.promptLen) | none => false
      let badTok := match prompt with
        | some l => (l.take f.promptLen).any fun x => k.vocab ≤ x.toNat
        | none => false
      let other := match coh with | some c => decide (c.model ≠ f.model) | none => false
      let unpaired := match servingCtx s slot r with | some g => !ctxPaired s g | none => true
      let extFault := match ext with | some b => extBad f b k.vocab | none => false
      if f.promptLen = 0 || 131072 < f.promptLen || longer || badTok then 0x0112
      else if other then 0x0113
      else if f.member && coh.isNone then 0x0114
      else if !isSet s (Reg.RQI_CQ_CFG_ENABLE t f.cq) || paramBad f || (f.draftN != 0 && unpaired) ||
          (f.extAddr != 0 && extFault) then 0x0115
      else if prompt.isNone || (f.extAddr != 0 && ext.isNone) then 0x0116
      else 0

/-! ## Creating requests -/

/-- The bucket of a cohort of one: the smallest power of two at least max(256, n) (R259). -/
def bucketOf (n : Nat) : Nat := ([8, 9, 10, 11, 12, 13, 14, 15, 16].map (2 ^ ·)).find? (n ≤ ·) |>.getD 131072

/-- The first free Request Table entry from `i` on, wrapping (the device's choice is the command's operand). -/
def freeEntry (s : State) : Nat → Nat → Nat
  | 0, i => i % 2 ^ 18
  | fuel + 1, i => if (req? s (i % 2 ^ 18)).isNone then i % 2 ^ 18 else freeEntry s fuel (i + 1)

/-- The handle an equal token of the tenant's live or remembered requests carries (R39, R263); 0 never matches. -/
def dedupMatch (s : State) (t token : Nat) : Option Nat :=
  if token = 0 then none
  else match (allReqs s).find? fun e => e.2.tenant == t && e.2.sub.token == token && isLive e.2.st with
    | some e => some (handleOf e.1 e.2.gen).toNat
    | none => ((dedupOf s t).find? fun e => e.1 == token).map (·.2)

/-- A request comes to be: its entry, its token in dedup memory, its issue record, JOBS (R10, R264, R269, R428). -/
def createReq (s : State) (t r slot bucket co mi pick : Nat) (m : Member) : State × Nat :=
  let i := freeEntry s 262144 pick
  let g := genAt s i
  let q : Req :=
    { gen := g, tenant := t, cls := r, sub := m.sub, bias := m.bias, stops := m.stops, slot := slot,
      ctx := (servingCtx s slot r).getD 0, st := .arrived, arrival := s.qTime, bucket := bucket, cohort := co,
      member := mi, emitted := 0, append := 0, dAppend := 0, lastCommit := 0, hist := [], tail := [],
      maskPage := none, mask := [], maskReady := m.sub.maskAddr == 0, paired := false, kvUsed := 0, slots := [],
      parking := false, unparking := false, charged := false }
  let s1 := setReq (useEntry s i) i (some q)
  let s2 := if m.sub.token = 0 then s1
    else setDedup s1 t (((m.sub.token, (handleOf i g).toNat) :: dedupOf s1 t).take 65536)
  let s3 := bump (bump s2 (Reg.ADM_TEN_QUEUED_QUEUED t) 1) (Reg.PRT_ACCT_JOBS_JOBS t) 1
  (queueRec s3 t m.sub.cq
    { handle := handleOf i g, status := 0x0104, flags := 0, count := 0, body := m.echo }, i)

/-- The duplicate's record (R40, R265). -/
def dupRec (s : State) (t h : Nat) (m : Member) : State :=
  bump (queueRec s t m.sub.cq
    { handle := BitVec.ofNat 32 h, status := 0x0101, flags := flagDup, count := 0, body := m.echo })
    (Reg.TRC_TEN_COUNT t 1) 1

/-- Deduplicate the members in order and create the requests that do not match (R41, R261). -/
def createAll (t r slot bucket co pick : Nat) : State → List Member → Nat → List Nat → State × List Nat
  | s, [], _, acc => (s, acc.reverse)
  | s, m :: ms, mi, acc =>
    match dedupMatch s t m.sub.token with
    | some h => createAll t r slot bucket co pick (dupRec s t h m) ms (mi + 1) acc
    | none =>
      let e := createReq s t r slot bucket co mi pick m
      createAll t r slot bucket co pick e.1 ms (mi + 1) (e.2 :: acc)

/-- A complete cohort: refused whole if a member was, and with MODEL_NOT_RESIDENT every member if its model has gone since
it was opened (R261, Table 07.10); else deduplicated, created and passed to admission. The slots that its records need are
counted on the completion rings as they are enabled at this moment; the issue record of a member whose ring was disabled
after its own consumption waits on that ring (DEDUCED, notes/assumptions/61.md). -/
def completeCohort (s : State) (t r model bucket pick : Nat) (ms : List Member) : State :=
  match servedModel s t r model with
  | none => ms.foldl (fun a m => refuseItem a t r (refusalCq a t m.sub.cq) 0x0111 m.echo) s
  | some (slot, _) =>
    if ms.any fun m => m.code != 0 then
      ms.foldl (fun a m => refuseItem a t r (refusalCq a t m.sub.cq) (if m.code = 0 then 0x0113 else m.code) m.echo) s
    else
      let co := s.nextCohort
      let e := createAll t r slot bucket co pick { s with nextCohort := co + 1 } ms 0 []
      if e.2.isEmpty then e.1
      else
        let c : Cohort :=
          { tenant := t, cls := r, model := model, bucket := bucket, arrival := s.qTime, members := e.2, st := .queued,
            evaluated := false, hold := 0, waitSince := 0, wPf := 0, committed := 0, kvLeft := 0 }
        setAdmQueue (setCohort e.1 co (some c)) t r (admQueue e.1 t r ++ [co])

/-- An item that is no member breaks the open cohort: one COHORT_BROKEN record to completion ring 0 (R262). -/
def breakCohort (s : State) (t r : Nat) : State :=
  match (sq s t r).cohort with
  | none => s
  | some c => setOpenCohort (queueRec s t 0 (refusalRec 0x0114 c.echo)) t r none

/-- Completion slots that breaking the ring's open cohort needs. -/
def breakNeed (s : State) (t r : Nat) : List Nat := if (sq s t r).cohort.isSome then [0] else []

/-! ## The items -/

/-- SUBMIT (R253 to R264). -/
def execSubmit (t r : Nat) (ws : List W128) (prompt : Option (List W32)) (ext : Option (List Byte)) (pick : Nat)
    (s : State) : Host.Outcome State Fault Refusal :=
  match readSubmit s t r ws with
  | .closed => .next s
  | .waiting => .next s
  | .notReady => .next (noteNotReady s t r ws)
  | .ready =>
    if itemType ws ≠ 1 then .next s
    else
      let f := submitFields ws
      let coh := if f.member then (sq s t r).cohort else none
      let read := (if prompt.isSome then 4 * f.promptLen else 0) + (if f.extAddr = 0 then 0 else 800)
      let code := submitCode s t r ws prompt ext coh
      let bias := match ext with | some b => if f.extAddr = 0 then [] else extBias f b | none => []
      let stops := match ext with | some b => if f.extAddr = 0 then [] else extStops f b | none => []
      match coh with
      | some c =>
        let m : Member :=
          { sub := f, bias := bias, stops := stops, code := code, echo := echoHere s t r f.token c.consumed.length }
        let ms := c.consumed ++ [m]
        let full := !decide (ms.length < c.members)
        .next (consume s t r (if full then ms.map fun x => refusalCq s t x.sub.cq else []) fun a =>
          let a1 := if full then setOpenCohort (completeCohort a t r c.model c.bucket pick ms) t r none
            else setOpenCohort a t r (some { c with consumed := ms })
          chargeTenant (advanceHead a1 t r ws.length) t 1 read)
      | none =>
        let m : Member := { sub := f, bias := bias, stops := stops, code := code, echo := echoHere s t r f.token 0 }
        .next (consume s t r (breakNeed s t r ++ [refusalCq s t f.cq]) fun a =>
          let s1 := breakCohort a t r
          let s2 := if code = 0 then completeCohort s1 t r f.model (bucketOf f.promptLen) pick [m]
            else refuseItem s1 t r (refusalCq s1 t f.cq) code m.echo
          chargeTenant (advanceHead s2 t r ws.length) t 1 read)

/-- COHORT (R260). Its MODEL is not looked up here: it is checked with each member and at completion (DEDUCED,
notes/assumptions/61.md). -/
def execCohort (t r : Nat) (ws : List W128) (s : State) : Host.Outcome State Fault Refusal :=
  match readItem s t r ws with
  | .closed => .next s
  | .waiting => .next s
  | .notReady => .next (noteNotReady s t r ws)
  | .ready =>
    if itemType ws ≠ 2 then .next s
    else
      let w := wordAt ws
      let members := wbits (w 0) 12 7
      let blog := wbits (w 0) 36 4
      let echo := echoHere s t r (wbits (w 1) 0 64) 0
      let malformed := ws.length ≠ 2 ∨ wbits (w 0) 19 1 ≠ 0 ∨ wbits (w 0) 40 83 ≠ 0 ∨ wbits (w 1) 64 59 ≠ 0
      let code := if malformed then 0x0110 else if members = 0 ∨ 64 < members ∨ 9 < blog then 0x0113 else 0
      .next (consume s t r (breakNeed s t r ++ (if code = 0 then [] else [0])) fun a =>
        let s1 := breakCohort a t r
        let s2 := if code = 0 then
            setOpenCohort s1 t r (some ⟨members, wbits (w 0) 20 16, 256 * 2 ^ blog, echo, []⟩)
          else refuseItem s1 t r 0 code echo
        advanceHead s2 t r ws.length)

/-- The live request of tenant `t` that a CANCEL's handle names and that no CANCEL has ended yet (R266). -/
def cancelTarget (s : State) (t h : Nat) : Option Req :=
  match reqByHandle s h with
  | some (_, q) => if q.tenant = t ∧ isLive q.st = true ∧ cancelDue s h = false then some q else none
  | none => none

/-- CANCEL (R266, R44 to R46, R50). Its FINAL record needs a slot of the request's own completion ring (R257). -/
def execCancel (t r : Nat) (ws : List W128) (s : State) : Host.Outcome State Fault Refusal :=
  match readItem s t r ws with
  | .closed => .next s
  | .waiting => .next s
  | .notReady => .next (noteNotReady s t r ws)
  | .ready =>
    if itemType ws ≠ 3 then .next s
    else
      let w0 := wordAt ws 0
      let c := wbits w0 12 2
      let h := wbits w0 32 32
      let echo := echoHere s t r 0 0
      let malformed := ws.length ≠ 1 ∨ wbits w0 14 18 ≠ 0 ∨ wbits w0 64 59 ≠ 0
      let live := cancelTarget s t h
      let need := if malformed then [refusalCq s t c] else match live with
        | some q => [q.sub.cq]
        | none => if isSet s (Reg.RQI_CQ_CFG_ENABLE t c) then [c] else [0]
      .next (consume s t r (breakNeed s t r ++ need) fun a =>
        let s1 := breakCohort a t r
        let s2 := if malformed then refuseItem s1 t r (refusalCq s1 t c) 0x0110 echo
          else if live.isSome then applyCancel s1 (h % 2 ^ 18)
          else if isSet s (Reg.RQI_CQ_CFG_ENABLE t c) then
            queueRec s1 t c { handle := BitVec.ofNat 32 h, status := 0x0102, flags := 0, count := 0, body := echo }
          else refuseItem s1 t r 0 0x0115 echo
        advanceHead s2 t r ws.length)

/-- FENCE (R267). With NOTIFY it needs a slot for its FENCE_PASSED record (R257). -/
def execFence (t r : Nat) (ws : List W128) (s : State) : Host.Outcome State Fault Refusal :=
  match readItem s t r ws with
  | .closed => .next s
  | .waiting => .next s
  | .notReady => .next (noteNotReady s t r ws)
  | .ready =>
    if itemType ws ≠ 4 then .next s
    else
      let w0 := wordAt ws 0
      let c := wbits w0 16 2
      let notify := wbits w0 18 1 == 1
      let echo := echoHere s t r 0 0
      let malformed := ws.length ≠ 1 ∨ wbits w0 19 104 ≠ 0
      let badCq := notify && !isSet s (Reg.RQI_CQ_CFG_ENABLE t c)
      let code := if malformed then 0x0110 else if badCq then 0x0115 else 0
      let need := if code = 0 then (if notify then [c] else []) else [refusalCq s t c]
      .next (consume s t r (breakNeed s t r ++ need) fun a =>
        let s1 := breakCohort a t r
        let left := (((List.range 4).filter fun o => o != r && (wbits w0 12 4).testBit o)).map fun o =>
          (o, if isSet s (Reg.RQI_SQ_CFG_ENABLE t o) then sqWords s t o else 0)
        let s2 := if code = 0 then
            setSq s1 t r { sq s1 t r with fence := some { left := left, cq := c, notify := notify, echo := echo } }
          else refuseItem s1 t r (refusalCq s1 t c) code echo
        advanceHead s2 t r ws.length)

/-- RESERVED_ITEM_TYPE: refused with ITEM_MALFORMED; the intake skips LEN words (R243). -/
def execReservedItemType (t r : Nat) (ws : List W128) (s : State) : Host.Outcome State Fault Refusal :=
  match readItem s t r ws with
  | .closed => .next s
  | .waiting => .next s
  | .notReady => .next (noteNotReady s t r ws)
  | .ready =>
    if 1 ≤ itemType ws ∧ itemType ws ≤ 4 then .next s
    else .next (consume s t r (breakNeed s t r ++ [0]) fun a =>
      advanceHead (refuseItem (breakCohort a t r) t r 0 0x0110 (echoHere s t r 0 0)) t r ws.length)

/-- FENCE_PASS: every named ring has passed its snapshot (R267). -/
def execFencePass (t r : Nat) (s : State) : Host.Outcome State Fault Refusal :=
  match (sq s t r).fence with
  | none => .next s
  | some f =>
    if !serving s || f.left.any (fun e => e.2 != 0) then .next s
    else if f.notify then
      .next (queueRec (setSq s t r { sq s t r with fence := none }) t f.cq
        { handle := noHandle, status := 0x0106, flags := 0, count := 0, body := f.echo })
    else .next (setSq s t r { sq s t r with fence := none })

/-- ITEM_REREAD: 50 µs after the last read the item is read again (R252). -/
def execItemReread (t r : Nat) (ws : List W128) (s : State) : Host.Outcome State Fault Refusal :=
  match (sq s t r).lastRead with
  | none => .next s
  | some a =>
    if !ringOpen s t r || s.qTime < a + 25000 then .next s
    else if itemReady s t r ws then .next (setSq s t r { sq s t r with lastRead := none })
    else .next (noteNotReady s t r ws)

/-! ## Doorbells -/

/-- A doorbell through the route not selected: no effect, DB_MISROUTED counts (R118). -/
def misrouted (s : State) : State := bumpSat s Reg.HST_ERR_STATUS_DB_MISROUTED 1

/-- SQ_DOORBELL (R250, R277). -/
def execSqDoorbell (t r : Nat) (viaPf : Bool) (v : Nat) (s : State) : Host.Outcome State Fault Refusal :=
  reach s (Reg.RQI_SQ_TAIL t r) fun s =>
  if viaPf ≠ routePf s t then .next (misrouted s)
  else if (sq s t r).flushing then .next (raise s (Reg.RQI_SQ_STATUS_DB_DURING_FLUSH t r))
  else if sqSize s t r ≤ v then .next (raise s (Reg.RQI_SQ_STATUS_DB_BAD t r))
  else .next (setSq (setF s (Reg.RQI_SQ_TAIL_TAIL t r) v) t r { sq s t r with lastRead := none })

/-- CQ_DOORBELL: HEAD must lie in the records written and not yet reported (R273). -/
def execCqDoorbell (t c : Nat) (viaPf : Bool) (v : Nat) (s : State) : Host.Outcome State Fault Refusal :=
  reach s (Reg.RQI_CQ_TAIL t c) fun s =>
  let n := cqSize s t c
  let h := (cq s t c).head
  let written := (getF s (Reg.RQI_CQ_TAIL_TAIL t c) + n - h) % n
  if viaPf ≠ routePf s t then .next (misrouted s)
  else if !isSet s (Reg.RQI_CQ_CFG_ENABLE t c) || n ≤ v || written < (v + n - h) % n then
    .next (raise s (Reg.RQI_CQ_STATUS_CQ_DB_BAD t c))
  else .next (setCq s t c { cq s t c with head := v })

/-! ## Flush and ring set-up -/

/-- A flush begins (R275): no further item starts; the item at the head may have its host reads in flight, unless it was
not ready or waited for completion slots. -/
def startFlush (s : State) (t r : Nat) (disabling : Bool) : State :=
  let q := sq s t r
  let going := if q.flushing then q.inflight else ringLive s t r && q.lastRead.isNone && q.waitFor.isNone
  setSq s t r { q with flushing := true, disabling := q.disabling || disabling, inflight := going, waitFor := none }

/-- FLUSH (R275). -/
def execFlush (t r : Nat) (s : State) : Host.Outcome State Fault Refusal :=
  reach s (Reg.RQI_SQ_CTL t r) fun s => .next (startFlush s t r false)

/-- FLUSH_DONE (R275, R276): the unconsumed items and the open cohort go, the tail is set to the head, the epoch steps;
a ring being disabled is disabled (R242). -/
def execFlushDone (t r : Nat) (s : State) : Host.Outcome State Fault Refusal :=
  let q := sq s t r
  if !q.flushing then .next s
  else
    let s1 := match q.cohort with
      | some c => setOpenCohort (queueRec s t 0 (refusalRec 0x0107 c.echo)) t r none
      | none => s
    let s2 := setF s1 (Reg.RQI_SQ_TAIL_TAIL t r) (sqHead s1 t r)
    let s3 := setF s2 (Reg.RQI_SQ_HEAD_EPOCH t r) ((sqEpoch s2 t r + 1) % 16)
    let s4 := setSq s3 t r { sq s3 t r with
      flushing := false, disabling := false, inflight := false, stopped := false, lastRead := none, stale := [] }
    let s5 := if q.disabling then setF s4 (Reg.RQI_SQ_CFG_ENABLE t r) 0 else s4
    .next (raise (releaseFences s5 t r) (Reg.RQI_SQ_STATUS_FLUSH_DONE t r))

/-- A write of a ring's CFG while ENABLE is 1: a SIZE_LOG2 that would change stays, CFG_LOCKED (R240); ENABLE is
handled by the caller. The mask and the flag of the ring are given. -/
def writeCfg (s : State) (key : Nat) (locked : Bool) (flag : Fld) (cfg : W32) : State :=
  let cur := rd s key
  let d := cfg.setWidth 64
  let lock := locked && fieldOf d 0 5 != fieldOf cur 0 5
  let d1 := putField d 8 1 (fieldOf cur 8 1)
  let d2 := if lock then putField d1 0 5 (fieldOf cur 0 5) else d1
  let s1 := writeFields s key d2 0xFFFFFFFF#64
  if lock then raise s1 flag else s1

/-- SQ_ENABLE (R240, R241). -/
def execSqEnable (t r : Nat) (cfg : W32) (s : State) : Host.Outcome State Fault Refusal :=
  reach s (Reg.RQI_SQ_CFG t r) fun s =>
  let on := isSet s (Reg.RQI_SQ_CFG_ENABLE t r)
  if !cfg.getLsbD 8 then .next s
  else
    let s1 := writeCfg s (Reg.RQI_SQ_CFG t r) on (Reg.RQI_SQ_STATUS_CFG_LOCKED t r) cfg
    if on then .next s1
    else if !isSet s (Reg.RQI_CQ_CFG_ENABLE t 0) then .next (raise s1 (Reg.RQI_SQ_STATUS_CFG_LOCKED t r))
    else
      let s2 := setF (setF s1 (Reg.RQI_SQ_HEAD_HEAD t r) 0) (Reg.RQI_SQ_HEAD_PHASE t r) 1
      let s3 := setF (setF s2 (Reg.RQI_SQ_TAIL_TAIL t r) 0) (Reg.RQI_SQ_CFG_ENABLE t r) 1
      .next (setSq s3 t r { sq s3 t r with lastRead := none, stale := [], waitFor := none })

/-- SQ_DISABLE: a flush first, then ENABLE 0 (R242). -/
def execSqDisable (t r : Nat) (cfg : W32) (s : State) : Host.Outcome State Fault Refusal :=
  reach s (Reg.RQI_SQ_CFG t r) fun s =>
  let on := isSet s (Reg.RQI_SQ_CFG_ENABLE t r)
  if cfg.getLsbD 8 then .next s
  else
    let s1 := writeCfg s (Reg.RQI_SQ_CFG t r) on (Reg.RQI_SQ_STATUS_CFG_LOCKED t r) cfg
    .next (if on then startFlush s1 t r true else s1)

/-- CQ_ENABLE (R240). -/
def execCqEnable (t c : Nat) (cfg : W32) (s : State) : Host.Outcome State Fault Refusal :=
  reach s (Reg.RQI_CQ_CFG t c) fun s =>
  let on := isSet s (Reg.RQI_CQ_CFG_ENABLE t c)
  if !cfg.getLsbD 8 then .next s
  else
    let s1 := writeCfg s (Reg.RQI_CQ_CFG t c) on (Reg.RQI_CQ_STATUS_CFG_LOCKED t c) cfg
    if on then .next s1
    else
      let s2 := setF (setF s1 (Reg.RQI_CQ_TAIL_TAIL t c) 0) (Reg.RQI_CQ_TAIL_PHASE t c) 1
      .next (setCq (setF s2 (Reg.RQI_CQ_CFG_ENABLE t c) 1) t c { cq s2 t c with head := 0, pend := 0 })

/-- The completion ring is in use: a live request names it, or a record for it waits (R242). -/
def cqInUse (s : State) (t c : Nat) : Bool :=
  !(cq s t c).waiting.isEmpty || (allReqs s).any fun e => isLive e.2.st && e.2.tenant == t && e.2.sub.cq == c

/-- CQ_DISABLE (R242). -/
def execCqDisable (t c : Nat) (cfg : W32) (s : State) : Host.Outcome State Fault Refusal :=
  reach s (Reg.RQI_CQ_CFG t c) fun s =>
  let on := isSet s (Reg.RQI_CQ_CFG_ENABLE t c)
  if cfg.getLsbD 8 then .next s
  else
    let s1 := writeCfg s (Reg.RQI_CQ_CFG t c) on (Reg.RQI_CQ_STATUS_CFG_LOCKED t c) cfg
    if on && cqInUse s t c then .next (raise s1 (Reg.RQI_CQ_STATUS_CQ_BUSY t c))
    else .next (setF s1 (Reg.RQI_CQ_CFG_ENABLE t c) 0)

end Sys2Proof.Machine
end

