-- ==== Sys2Proof/Machine/Crc.lean ====
section
/-! DEFINITION. The checksums the spec names: CRC-32C (packages, flits, images, records) and CRC-64/XZ (spec/20, R683). -/
namespace Sys2Proof.Machine

/-- One bit of CRC-32C, reflected. -/
def crc32Bit (c : W32) : W32 := if c.getLsbD 0 then (c >>> 1) ^^^ 0x82F63B78#32 else c >>> 1
def crc32Byte (c : W32) (b : Byte) : W32 :=
  let x := c ^^^ b.setWidth 32
  crc32Bit (crc32Bit (crc32Bit (crc32Bit (crc32Bit (crc32Bit (crc32Bit (crc32Bit x)))))))

/-- CRC-32C of bytes. -/
def crc32c (bs : List Byte) : W32 := ~~~(bs.foldl crc32Byte 0xFFFFFFFF#32)

/-- One bit of CRC-64/XZ, reflected (R683). -/
def crc64Bit (c : W64) : W64 := if c.getLsbD 0 then (c >>> 1) ^^^ 0xC96C5795D7870F42#64 else c >>> 1
def crc64Byte (c : W64) (b : Byte) : W64 :=
  let x := c ^^^ b.setWidth 64
  crc64Bit (crc64Bit (crc64Bit (crc64Bit (crc64Bit (crc64Bit (crc64Bit (crc64Bit x)))))))

/-- CRC-64/XZ of bytes. -/
def crc64 (bs : List Byte) : W64 := ~~~(bs.foldl crc64Byte 0xFFFFFFFFFFFFFFFF#64)

end Sys2Proof.Machine
end

