-- ==== Sys2Proof/Machine/FaultLog.lean ====
section
/-! DEFINITION. Fault records, class counters and FAULT_N (spec/13, R457, R458, R466, R467). -/
namespace Sys2Proof.Machine

/-- CLASS codes of a record: 0 to 4 for F0 to F4, 5 a group fault, 6 request-scoped (Table 13.5). -/
def clsGroup : Nat := 5
def clsRequest : Nat := 6

/-- The 16 bytes of a fault record (Table 13.5). -/
def faultBytes (r : FaultRec) : List Byte :=
  leBytes 8 r.time ++ leBytes 1 r.id ++ leBytes 1 r.cls ++ leBytes 1 r.part ++ leBytes 1 r.ctx ++ leBytes 4 r.detail

/-- FAULT_N is asserted: an enabled cause is 1 (R466, Table 13.10). -/
def faultnOn (s : State) : Bool :=
  let c := getF s Reg.FLT_FAULTN_CAUSE
  let e := getF s Reg.FLT_CTL_FAULTN_EN
  c % 32 != 0 || (c.testBit 5 && e.testBit 0) || (c.testBit 6 && e.testBit 1)

/-- Change causes or their enables; the pin follows (R466, R467). -/
def withFaultn (s : State) (f : State → State) : State :=
  let s1 := f s
  if faultnOn s = faultnOn s1 then s1 else drive s1 (.pin .faultN (!faultnOn s1))

/-- Set a cause of FLT_FAULTN. -/
def setCause (s : State) (k : Nat) : State := withFaultn s fun a => setF a ⟨Reg.FLT_FAULTN, k, 1⟩ 1

/-- Place a record in the hardware queue, or drop it (R457). -/
def queueFault (s : State) (r : FaultRec) : State :=
  if 16 ≤ s.fltQueue.length then raise s Reg.FLT_STATUS_LOG_DROPPED
  else
    let s1 := { s with fltQueue := s.fltQueue ++ [r] }
    let b := faultBytes r
    let s2 := (List.range 4).foldl (fun a k => wr a (Reg.FLT_LAST k) (BitVec.ofNat 64 (leAt b (4 * k) 4))) s1
    setF s2 Reg.FLT_STATE_QUEUED s2.fltQueue.length

/-- FLT_STATUS flags of a class. -/
def flagClass (s : State) (cls : Nat) (lasting : Bool) : State :=
  let s1 := if cls = 2 then raise s Reg.FLT_STATUS_F2_SEEN
    else if cls = 3 then raise s Reg.FLT_STATUS_F3_SEEN
    else if cls = 4 then raise s Reg.FLT_STATUS_F4_SEEN
    else if cls = clsGroup then raise s Reg.FLT_STATUS_GROUP_SEEN
    else s
  if lasting then raise s1 Reg.FLT_STATUS_LASTING_SEEN else s1

/-- A fault is counted, flagged and recorded; an F0 is counted only (R457). -/
def recordFault (s : State) (id cls : Nat) (lasting promoted : Bool) (part ctx detail : Nat) : State :=
  let s1 := if cls ≤ 4 then bump s (Reg.FLT_CNT_COUNT cls) 1 else s
  if cls = 0 then s1
  else
    queueFault (flagClass s1 cls lasting)
      { time := s1.aTime, id := id, cls := cls + (if lasting then 8 else 0) + (if promoted then 16 else 0), part := part,
        ctx := ctx, detail := detail }

/-- No partition or context: 0xFF (Table 13.5). -/
def nobody : Nat := 0xFF

end Sys2Proof.Machine
end

