-- ==== Sys2Proof/Machine/Fp.lean ====
section
/-! DEFINITION. Number formats and arithmetic (spec/04): decoding, rounding to nearest even with saturation (R138, R139),
signed zero, subnormals and canonical NaN (R140 to R142), FP32 addition, multiplication and division, MX block
quantisation (R143). Values are held exactly as dyadic numbers m · 2^e. -/
namespace Sys2Proof.Machine

/-- A decoded value. -/
inductive FpVal where
  | nan
  | inf (neg : Bool)
  | fin (neg : Bool) (m : Nat) (e : Int)
  deriving DecidableEq, Repr

/-- A binary format: mantissa bits, exponent of the smallest normal, code of the largest finite magnitude, magnitude
bits, and whether the codes above it are infinity and NaN (0: none, 1: NaN only, 2: infinity then NaN). -/
structure FpFmt where
  mb : Nat
  emin : Int
  maxCode : Nat
  width : Nat
  specials : Nat
  nanCode : Nat
  deriving DecidableEq, Repr

/-- Table 04.3, and FP64 (R681). -/
def fp32 : FpFmt := ⟨23, -126, 0x7F7FFFFF, 32, 2, 0x7FC00000⟩
def bf16 : FpFmt := ⟨7, -126, 0x7F7F, 16, 2, 0x7FC0⟩
def fp16 : FpFmt := ⟨10, -14, 0x7BFF, 16, 2, 0x7E00⟩
def e4m3 : FpFmt := ⟨3, -6, 0x7E, 8, 1, 0x7F⟩
def e5m2 : FpFmt := ⟨2, -14, 0x7B, 8, 2, 0x7E⟩
def e3m2 : FpFmt := ⟨2, -2, 0x1F, 6, 0, 0⟩
def e2m3 : FpFmt := ⟨3, 0, 0x1F, 6, 0, 0⟩
def e2m1 : FpFmt := ⟨1, 0, 0x7, 4, 0, 0⟩
def fp64 : FpFmt := ⟨52, -1022, 0x7FEFFFFFFFFFFFFF, 64, 2, 0x7FF8000000000000⟩

/-- The element format of a format code. -/
def elemFmt : Format → FpFmt
  | .fp32 => fp32
  | .bf16 => bf16
  | .fp16 => fp16
  | .e4m3 => e4m3
  | .e5m2 => e5m2
  | .e3m2 => e3m2
  | .e2m3 => e2m3
  | .e2m1 => e2m1

/-- The format is an MX element format (Table 04.2). -/
def isMx : Format → Bool
  | .fp32 | .bf16 | .fp16 => false
  | _ => true

/-- The format code (Table 04.2). -/
def fmtCode : Format → Nat
  | .fp32 => 0 | .bf16 => 1 | .fp16 => 2 | .e4m3 => 3 | .e5m2 => 4 | .e3m2 => 5 | .e2m3 => 6 | .e2m1 => 7

/-- emax: the exponent of the largest normal value (R134, Table 04.3). -/
def emaxOf (f : FpFmt) : Int := (f.maxCode / 2 ^ f.mb : Nat) - 1 + f.emin

/-- Decode a code of a format. -/
def fpDecode (f : FpFmt) (c : Nat) : FpVal :=
  let neg := c.testBit (f.width - 1)
  let mag := c % 2 ^ (f.width - 1)
  if f.maxCode < mag then
    if f.specials = 2 ∧ mag = f.maxCode + 1 then .inf neg else .nan
  else
    let ef := mag / 2 ^ f.mb
    if ef = 0 then .fin neg mag (f.emin - f.mb) else .fin neg (2 ^ f.mb + mag % 2 ^ f.mb) (f.emin - f.mb + (ef - 1))

/-- The magnitude code nearest to (m + sticky) · 2^e, ties to even, before saturation. `sticky` says that the true
value lies strictly between m and m + 1. -/
def fpRoundMag (f : FpFmt) (m : Nat) (e : Int) (sticky : Bool) : Nat :=
  if m = 0 then 0
  else
    let qmin := f.emin - f.mb
    let q := max qmin ((m.log2 : Int) + e - f.mb)
    if q ≤ e then (q - qmin).toNat * 2 ^ f.mb + m * 2 ^ (e - q).toNat
    else
      let sh := (q - e).toNat
      let lo := m % 2 ^ sh
      let hi := m / 2 ^ sh
      let half := 2 ^ (sh - 1)
      let up := half < lo || (lo == half && (sticky || hi % 2 == 1))
      (q - qmin).toNat * 2 ^ f.mb + (if up then hi + 1 else hi)

/-- Encode a value; the flag says that it saturated (R138, R139, R141, R142). -/
def fpEncode (f : FpFmt) (v : FpVal) (sticky : Bool := false) : Nat × Bool :=
  match v with
  | .nan => (f.nanCode, false)
  | .inf neg =>
    if f.specials = 2 then ((if neg then 2 ^ (f.width - 1) else 0) + f.maxCode + 1, false) else (f.nanCode, false)
  | .fin neg m e =>
    let c := fpRoundMag f m e sticky
    ((if neg then 2 ^ (f.width - 1) else 0) + min c f.maxCode, f.maxCode < c)

/-- FP32 words as values and back. -/
def f32 (x : W32) : FpVal := fpDecode fp32 x.toNat
def toF32 (v : FpVal) (sticky : Bool := false) : W32 := BitVec.ofNat 32 (fpEncode fp32 v sticky).1

/-- An FP16 word converted exactly to FP32 (R349). -/
def f16to32 (x : Nat) : W32 := toF32 (fpDecode fp16 x)

/-- The signed mantissa of a finite value at exponent `e0`, at or below its own. -/
def fpAt (neg : Bool) (m : Nat) (e e0 : Int) : Int :=
  let x : Int := (m * 2 ^ (e - e0).toNat : Nat)
  if neg then -x else x

/-- Exact sum; a zero sum of unlike signs is +0. -/
def fpAdd (a b : FpVal) : FpVal :=
  match a, b with
  | .nan, _ => .nan
  | _, .nan => .nan
  | .inf x, .inf y => if x = y then .inf x else .nan
  | .inf x, _ => .inf x
  | _, .inf y => .inf y
  | .fin n1 m1 e1, .fin n2 m2 e2 =>
    let e0 := min e1 e2
    let x := fpAt n1 m1 e1 e0 + fpAt n2 m2 e2 e0
    if x = 0 then .fin (n1 && n2) 0 0 else .fin (decide (x < 0)) x.natAbs e0

/-- Exact product. -/
def fpMul (a b : FpVal) : FpVal :=
  match a, b with
  | .nan, _ => .nan
  | _, .nan => .nan
  | .inf x, .inf y => .inf (x != y)
  | .inf x, .fin y m _ => if m = 0 then .nan else .inf (x != y)
  | .fin y m _, .inf x => if m = 0 then .nan else .inf (x != y)
  | .fin n1 m1 e1, .fin n2 m2 e2 => .fin (n1 != n2) (m1 * m2) (e1 + e2)

def fpNeg : FpVal → FpVal
  | .nan => .nan
  | .inf x => .inf (!x)
  | .fin n m e => .fin (!n) m e

/-- FP32 operations, each rounded once (R147, R349). -/
def fadd (a b : W32) : W32 := toF32 (fpAdd (f32 a) (f32 b))
def fsub (a b : W32) : W32 := toF32 (fpAdd (f32 a) (fpNeg (f32 b)))
def fmul (a b : W32) : W32 := toF32 (fpMul (f32 a) (f32 b))

/-- A quotient rounded once (R349, R360): the dividend is scaled so that the integer quotient has 40 bits or more. -/
def fdiv (a b : W32) : W32 :=
  match f32 a, f32 b with
  | .fin n1 m1 e1, .fin n2 m2 e2 =>
    if m2 = 0 then (if m1 = 0 then toF32 .nan else toF32 (.inf (n1 != n2)))
    else
      let x := m1 * 2 ^ 64
      toF32 (.fin (n1 != n2) (x / m2) (e1 - e2 - 64)) (x % m2 != 0)
  | .inf n1, .fin n2 _ _ => toF32 (.inf (n1 != n2))
  | .fin n1 _ _, .inf n2 => toF32 (.fin (n1 != n2) 0 0)
  | _, _ => toF32 .nan

/-- An FP32 result with its numeric events: it saturated (R139), it is a NaN from operands none of which is one (R142). -/
structure FpRes where
  w : W32
  sat : Bool
  nanGen : Bool
  deriving DecidableEq, Repr

/-- Round an exact result of the operands `xs` once (R138, R139, R142). -/
def fpRound (xs : List FpVal) (v : FpVal) (sticky : Bool := false) : FpRes :=
  let e := fpEncode fp32 v sticky
  ⟨BitVec.ofNat 32 e.1, e.2, v == .nan && !xs.contains .nan⟩

/-- An order key of a non-NaN FP32 word: −0 and +0 are equal. -/
def fkey (x : W32) : Int :=
  let m : Int := (x.toNat % 2 ^ 31 : Nat)
  if x.toNat / 2 ^ 31 = 1 then -m else m

def flt (a b : W32) : Bool := decide (fkey a < fkey b)

/-- The word is NaN or infinite. -/
def fNonfinite (x : W32) : Bool := x.toNat / 2 ^ 23 % 256 == 255

/-- A count as an FP32 value, exact up to 2^24 and rounded above. -/
def fOfNat (n : Nat) : W32 := toF32 (.fin false n 0)

/-! ## MX blocks (R136, R143) -/

/-- Elements of a block packed as R136 states. -/
def packElems (f : Format) (es : List Nat) : List Byte :=
  match f with
  | .e2m1 => (List.range 16).map fun i => BitVec.ofNat 8 ((es[2 * i]?).getD 0 + 16 * (es[2 * i + 1]?).getD 0)
  | .e3m2 | .e2m3 => (List.range 8).flatMap fun g =>
      leBytes 3 ((List.range 4).foldl (fun a k => a + (es[4 * g + k]?).getD 0 * 2 ^ (6 * k)) 0)
  | _ => es.map (BitVec.ofNat 8)

/-- The largest magnitude among finite values as (m, e) with m of the common exponent; none when all are zero. -/
def maxMag (vs : List FpVal) : Option (Nat × Int) :=
  vs.foldl (fun a v => match v with
    | .fin _ m e =>
      if m = 0 then a
      else match a with
        | none => some (m, e)
        | some (m0, e0) =>
          let e1 := min e e0
          if m0 * 2 ^ (e0 - e1).toNat < m * 2 ^ (e - e1).toNat then some (m, e) else a
    | _ => a) none

/-- What quantising a block gives: its scale byte, its element bytes, whether it saturated or wrote scale 0xFF, and
whether that scale made NaNs of values none of which was one (R142). -/
structure MxBlock where
  scale : Nat
  bytes : List Byte
  sat : Bool
  scaleNan : Bool
  nanGen : Bool
  deriving DecidableEq, Repr

/-- R143: write a block of 32 FP32 values in an MX format. -/
def mxQuant (f : Format) (xs : List W32) : MxBlock :=
  let vs := xs.map f32
  let k := elemFmt f
  let zeroOf (v : FpVal) : Nat := match v with | .fin true _ _ | .inf true => 2 ^ (k.width - 1) | _ => 0
  let bad := vs.any fun v => match v with
    | .nan => true
    | .inf _ => decide (f ≠ .e5m2)
    | _ => false
  if bad then ⟨0xFF, packElems f (vs.map fun _ => 0), false, true, !vs.contains .nan⟩
  else match maxMag vs with
    | none => ⟨0x7F, packElems f (vs.map zeroOf), false, false, false⟩
    | some (m, e) =>
      let x := max (-127) (min 127 ((m.log2 : Int) + e - emaxOf k))
      let es := vs.map fun v => match v with
        | .fin n m e => fpEncode k (.fin n m (e - x))
        | v => fpEncode k v
      ⟨(x + 127).toNat, packElems f (es.map (·.1)), es.any (·.2), false, false⟩

/-- Bytes of an element array, and of a scale array, of `n` elements (R136). -/
def elemBytes (f : Format) (n : Nat) : Nat :=
  match f with
  | .fp32 => 4 * n
  | .bf16 | .fp16 => 2 * n
  | .e2m1 => 16 * ceilDiv n 32
  | .e3m2 | .e2m3 => 24 * ceilDiv n 32
  | .e4m3 | .e5m2 => 32 * ceilDiv n 32
def scaleBytes (f : Format) (n : Nat) : Nat := if isMx f then ceilDiv n 32 else 0

/-- The code of element `i` of an element array (R136). -/
def elemCode (f : Format) (bs : List Byte) (i : Nat) : Nat :=
  match f with
  | .e2m1 => ((bs[i / 2]?).getD 0).toNat / 16 ^ (i % 2) % 16
  | .e3m2 | .e2m3 => leAt bs (i / 4 * 3) 3 / 2 ^ (6 * (i % 4)) % 64
  | .e4m3 | .e5m2 => ((bs[i]?).getD 0).toNat
  | .bf16 | .fp16 => leAt bs (2 * i) 2
  | .fp32 => leAt bs (4 * i) 4

/-- The first `n` values of a tensor: for an MX format each element times its block's scale; every element of a block is NaN
under scale 0xFF (R135). -/
def tensorVals (f : Format) (elems scales : List Byte) (n : Nat) : List FpVal :=
  (List.range n).map fun i =>
    let v := fpDecode (elemFmt f) (elemCode f elems i)
    if isMx f then
      let e := ((scales[i / 32]?).getD 0#8).toNat
      if e = 0xFF then .nan else match v with
        | .fin s m x => .fin s m (x + e - 127)
        | v => v
    else v

/-- Split a list into runs of `n`, within `fuel` runs. -/
def chunks {α : Type} (n : Nat) : Nat → List α → List (List α)
  | 0, _ => []
  | fuel + 1, xs => if xs.isEmpty then [] else xs.take n :: chunks n fuel (xs.drop n)

end Sys2Proof.Machine
end

