-- ==== Sys2Proof/Machine/Link.lean ====
section
/-! DEFINITION. Cezlink: flits, routing, the transmit side of a port, and sending a message (spec/14, R477 to R499,
R516). -/
namespace Sys2Proof.Machine

/-! ## Flits -/

/-- FTYPE of a message (Table 14.3). -/
def ftypeOf : LinkMsg → Nat
  | .trainExch .. => 0x02
  | .form .. => 0x03
  | .formAck .. => 0x03
  | .heartbeat .. => 0x03
  | .leave .. => 0x03
  | .modelRequest .. => 0x03
  | .plan .. => 0x10
  | .planAck .. => 0x11
  | .cand .. => 0x12
  | .commit .. => 0x13
  | .abandon .. => 0x14
  | .abandonAck .. => 0x15
  | .release .. => 0x16
  | .ramp .. => 0x20
  | .stamp .. => 0x21
  | .coll .. => 0x30
  | .kvxfer .. => 0x31
  | .modelXfer .. => 0x32
  | .sampPage .. => 0x33

/-- The traffic class of a frame type; none for a type Table 14.3 does not name (R479). -/
def tcOf (ftype : Nat) : Option Nat :=
  if ftype = 2 ∨ ftype = 3 then some 0
  else if 0x10 ≤ ftype ∧ ftype ≤ 0x16 then some 1
  else if ftype = 0x20 ∨ ftype = 0x21 then some 2
  else if 0x30 ≤ ftype ∧ ftype ≤ 0x33 then some 3
  else none

/-- A CAND position record (Table 14.7). -/
def candBytes (c : CandPos) : List Byte :=
  leBytes 2 c.pos ++ leBytes 2 c.cands.length ++ [if c.nonfinite then 1#8 else 0#8, 0#8, 0#8, 0#8] ++
    c.shards.flatMap (fun e => leBytes 4 e.1.toNat ++ leBytes 4 e.2.toNat) ++
    c.cands.flatMap fun e => leBytes 4 e.1 ++ leBytes 4 e.2.toNat

/-- The first `n` bytes of a free content, with zeros where it is shorter. -/
def sized (n : Nat) (b : List Byte) : List Byte := b.take n ++ List.replicate (n - b.length) 0#8

/-- A message's payload: as Table 14.7, R515 and R516 lay it out, and free where the spec gives no
layout; a MODELXFER, COLL or KVXFER holds as many bytes as it names. -/
def msgPayload : LinkMsg → List Byte
  | .cand gid tag ls => leBytes 16 (Config.groupHeader gid tag).toNat ++ ls.flatMap candBytes
  | .ramp r => leBytes 1 r.dom ++ leBytes 4 r.period ++ leBytes 4 r.power ++ leBytes 4 r.next ++ leBytes 4 r.raise ++
      leBytes 1 r.flags
  | .stamp t => leBytes 8 t
  | .modelXfer h f n => sized n (Config.payload (.modelXfer h f n))
  | .coll gid tag bs => leBytes 16 (Config.groupHeader gid tag).toNat ++ sized bs.length (Config.payload (.coll gid tag bs))
  | .kvxfer gid tag bs =>
    leBytes 16 (Config.groupHeader gid tag).toNat ++ sized bs.length (Config.payload (.kvxfer gid tag bs))
  | m => Config.payload m

/-- The data flits of a message, at most 65,536 (R477, R480). -/
def flitsOf (m : LinkMsg) (hops dest src msg : Nat) : List Flit :=
  let b := msgPayload m
  let parts := (if b.isEmpty then [[0#8]] else chunks 240 b.length b).take 65536
  (numbered 0 parts).map fun e =>
    { ftype := ftypeOf m, tc := (tcOf (ftypeOf m)).getD 0, first := e.1 == 0, last := e.1 + 1 == parts.length,
      hops := hops, dest := dest, src := src, msg := msg, idx := e.1, payload := e.2 }

/-- Bytes 0 to 251 of a data flit, and all 256 (Table 14.2). -/
def flitBody (lseq : Nat) (f : Flit) : List Byte :=
  leBytes 1 f.ftype ++
    leBytes 1 (f.tc + (if f.first then 4 else 0) + (if f.last then 8 else 0) + f.hops % 8 * 16) ++ leBytes 2 lseq ++
    leBytes 1 f.dest ++ leBytes 1 f.src ++ leBytes 1 f.payload.length ++ [0#8] ++ leBytes 2 f.msg ++ leBytes 2 f.idx ++
    f.payload ++ List.replicate (240 - f.payload.length) 0#8
def flitBytes (lseq : Nat) (f : Flit) : List Byte :=
  let b := flitBody lseq f
  b ++ leBytes 4 (crc32c b).toNat

/-- A received flit's LSEQ and content, when its CRC is right (R485). -/
def readFlit (bs : List Byte) : Option (Nat × Flit) :=
  if bs.length = 256 ∧ leAt bs 252 4 = (crc32c (bs.take 252)).toNat then
    let fl := leAt bs 1 1
    some (leAt bs 2 2,
      { ftype := leAt bs 0 1, tc := bits fl 0 2, first := fl.testBit 2, last := fl.testBit 3, hops := bits fl 4 3,
        dest := leAt bs 4 1, src := leAt bs 5 1, msg := leAt bs 8 2, idx := leAt bs 10 2,
        payload := (bs.drop 12).take (leAt bs 6 1) })
  else none

/-! ## Ports -/

def portOf (s : State) (n : Nat) : Port := spGet (fun _ => Port.idle) s.ports n
def setPort (s : State) (n : Nat) (x : Port) : State := { s with ports := spPut (fun _ => Port.idle) n x s.ports }

/-- STATE of a port: 0 DOWN to 7 retraining; it is up in 5 ACTIVE and 6 ACTIVE_DEGRADED. -/
def portState (s : State) (n : Nat) : Nat := getF s (Reg.CZL_PORT_STATE n)
def portUp (s : State) (n : Nat) : Bool := portState s n == 5 || portState s n == 6

/-- This device's node ID. -/
def myNode (s : State) : Nat := getF s Reg.CZL_NODE_NODE_ID

/-- The port a message to a node leaves on; none when neither its primary nor its alternate is up (R495). -/
def routeTo (s : State) (node : Nat) : Option Nat :=
  let a := getF s (Reg.CZL_ROUTE_PRIMARY node)
  let b := getF s (Reg.CZL_ROUTE_ALTERNATE node)
  if a < 12 ∧ portUp s a then some a else if b < 12 ∧ portUp s b then some b else none

/-- Entry `k` of a per-class list, and the list with it changed. -/
def clsGet (l : List Nat) (k : Nat) : Nat := (l[k]?).getD 0
def clsSet {α : Type} (l : List α) (k : Nat) (x : α) : List α := l.set k x

/-- Receive buffer of a class in flits: its credits at ACTIVE (R490). -/
def bufOf (k : Nat) : Nat := ([8, 64, 8, 128][k]?).getD 0

/-- The port has a credit of class `k` (R490). -/
def hasCredit (x : Port) (k : Nat) : Bool := decide (clsGet x.sent k < bufOf k + clsGet x.returned k)

/-- The next flit of class `k`: of the message under way, else the next source in round robin, the local sources before
the ingress ports in ascending order (R491). -/
def nextOf (x : Port) (k : Nat) : Option (Nat × Flit) :=
  let mine := x.queue.filter fun e => e.2.tc == k
  match (x.busy[k]?).getD none with
  | some m => mine.find? fun e => (e.1, e.2.src, e.2.msg) == m
  | none =>
    let rank (i : Nat) : Nat := if i = 12 then 0 else i + 1
    let cur := rank (clsGet x.served k)
    let best := mine.foldl (fun a e =>
      let d := (rank e.1 + 13 - (cur + 1)) % 13
      match a with
      | none => some (d, e)
      | some y => if d < y.1 then some (d, e) else some y) (none : Option (Nat × (Nat × Flit)))
    best.map (·.2)

/-- A class that has a flit ready and a credit. -/
def classReady (x : Port) (k : Nat) : Bool := hasCredit x k && (nextOf x k).isSome

/-- The class the next data slot serves (R491). -/
def pickClass (x : Port) : Option Nat :=
  if classReady x 3 && decide (7 ≤ x.gap) then some 3 else (List.range 4).find? (classReady x)

/-- A control flit of the port: the LSEQ accepted last, a NAK, and the credits returned so far (R485, R487, R490). -/
def sendControl (s : State) (n : Nat) (nak : Option Nat) : State :=
  let x := portOf s n
  emit s (.flit n (.control ((x.rxSeq + 65535) % 65536) nak x.freed))

/-- A flit of class `k` leaves the receive buffer of port `n`: its credit goes back to the peer (R490). -/
def freeBuffer (s : State) (n k : Nat) : State :=
  let x := portOf s n
  setPort s n { x with freed := clsSet x.freed k (clsGet x.freed k + 1) }

/-- A flit that came in through port `n` is sent on or discarded (12: a local flit, which took no buffer). -/
def leaveBuffer (s : State) (n k : Nat) : State :=
  if n < 12 then sendControl (freeBuffer s n k) n none else s

/-- The flits that wait in the receive buffer of class `k` of port `n`: those to be forwarded (R490). -/
def buffered (s : State) (n k : Nat) : List Flit :=
  (List.range 12).flatMap fun q => ((portOf s q).queue.filter fun e => e.1 == n && e.2.tc == k).map (·.2)

/-- The data slots that have gone by idle since the port last sent, for what is ready is sent at once (R478): 20 in every 21,
of 4.571 ns at 8 lanes and 9.143 ns at 4. -/
def idleSlots (s : State) (n : Nat) : Nat :=
  2000 * (s.lTime - (portOf s n).slotAt) * 20 / (21 * (if portState s n = 6 then 9143 else 4571))

/-- Idle data slots count for TC3's turn (R491). -/
def countIdle (s : State) (n : Nat) : State :=
  let x := portOf s n
  setPort s n { x with gap := min 7 (x.gap + idleSlots s n), slotAt := s.lTime }

/-- Send one flit in a data slot: into the replay buffer of 256 flits and onto the link (R485, R490). -/
def sendFlit (s : State) (n : Nat) : Option State :=
  let x := portOf s n
  if !portUp s n || 256 ≤ x.replay.length then none
  else match pickClass x with
    | none => none
    | some k => match nextOf x k with
      | none => none
      | some e =>
        let f := e.2
        let x1 : Port := { x with
          queue := x.queue.erase e
          replay := x.replay ++ [(x.txSeq, f)]
          txSeq := (x.txSeq + 1) % 65536
          sent := clsSet x.sent k (clsGet x.sent k + 1)
          busy := clsSet x.busy k (if f.last then none else some (e.1, f.src, f.msg))
          served := clsSet x.served k e.1
          gap := if k = 3 then 0 else min 7 (x.gap + 1) }
        let s1 := bump (emit (setPort s n x1) (.flit n (.data (flitBytes x.txSeq f)))) (Reg.CZL_PORT_TX_FLITS n) 1
        some (leaveBuffer s1 e.1 f.tc)

/-- Send every flit that may go now. -/
def pump (n : Nat) : Nat → State → State
  | 0, s => s
  | fuel + 1, s => match sendFlit s n with
    | some s' => pump n fuel s'
    | none => s
def pumpPort (s : State) (n : Nat) : State := pump n ((portOf s n).queue.length + 1) (countIdle s n)

/-- Flits join a port's queue from an ingress port (12: local) and go as they may. -/
def queueFlits (s : State) (n from_ : Nat) (fs : List Flit) : State :=
  let x := portOf s n
  pumpPort (setPort s n { x with queue := x.queue ++ fs.map fun f => (from_, f) }) n

/-- The messages at a port of which no flit is sent yet: source, message number and ingress port. -/
def notBegun (x : Port) : List (Nat × Nat × Nat) :=
  (x.queue.filter fun e => e.2.first).map fun e => (e.1, e.2.src, e.2.msg)

/-- A message at port `n` of which no flit is sent takes the route that is now its own (R495, R497). -/
def rerouteMsg (n : Nat) (s : State) (m : Nat × Nat × Nat) : State :=
  let x := portOf s n
  let mine (e : Nat × Flit) : Bool := (e.1, e.2.src, e.2.msg) == m
  let fs := x.queue.filter mine
  match fs.head?.bind fun e => routeTo s e.2.dest with
  | some k =>
    if k = n then s
    else
      let s1 := setPort s n { x with queue := x.queue.filter fun e => !mine e }
      let y := portOf s1 k
      let s2 := setPort s1 k { y with queue := y.queue ++ fs }
      pumpPort { s2 with fwd := s2.fwd.map fun e => if e.1 == m.2 then (e.1, k) else e } k
  | none => s

/-- Every message that has not begun takes its route anew. -/
def reroute (s : State) : State :=
  (List.range 12).foldl (fun a n => (notBegun (portOf a n)).foldl (rerouteMsg n) a) s

/-- A flit or message is discarded: DROPPED. -/
def linkDropped (s : State) : State := raise s Reg.CZL_STATUS_DROPPED

/-- Flits go to a node on its route, or are discarded and counted in NO_ROUTE (R495). In HOLD only TRAIN_EXCH and MGMT
frames are sent (R517). -/
def sendFlits (s : State) (node : Nat) (fs : List Flit) : State × Option Nat :=
  let hold := stage s == 7 && fs.any fun f => 3 < f.ftype
  if hold then (s, none)
  else match routeTo s node with
    | some n => (queueFlits s n 12 fs, some n)
    | none => (linkDropped (bumpSat s Reg.CZL_DROP_NO_ROUTE 1), none)

/-- Send a message that belongs to no partition (MGMT, RAMP). -/
def sendBare (s : State) (node : Nat) (m : LinkMsg) : State :=
  let no := s.msgNo
  let fs := flitsOf m (getF s Reg.CZL_NODE_MAX_HOPS) node (myNode s) no
  let s1 := { s with msgNo := (no + 1) % 65536 }
  let e := sendFlits s1 node fs
  match e.2 with
  | some _ => emit e.1 (.link node m)
  | none => e.1

/-- Send message number `no`, and trace the send of a TC1 message (R516). -/
def launch (s : State) (p g tag node no : Nat) (m : LinkMsg) : State × Bool :=
  let ft := ftypeOf m
  let e := sendFlits s node (flitsOf m (getF s Reg.CZL_NODE_MAX_HOPS) node (myNode s) no)
  match e.2 with
  | none => (e.1, false)
  | some n =>
    let s1 := if tcOf ft = some 1 then traceLink e.1 p g tag n ft node no 0 s.lTime false else e.1
    (emit s1 (.link node m), true)

/-- The held messages whose bytes have all issued are sent, in their order (R421, R499). -/
def sendIssued (s : State) (p : Nat) : State :=
  let h := heldOf s p 2
  let go := h.waits.filter fun w => w.2 == 0
  go.foldl (fun a w => match w.1 with
    | .msg _ node no m => (launch a p 0 0 node no m).1
    | _ => a) (setHeld s p 2 { h with waits := h.waits.filter fun w => w.2 != 0 })

/-- The bytes of a message on the link. -/
def msgBytes (m : LinkMsg) : Nat := 256 * (flitsOf m 0 0 0 0).length

/-- Send a message of partition `p`, of context `g` and step tag `tag`; PLAN and CAND are charged to the Cezlink regulator
(R499). -/
def sendMsg (s : State) (p g tag node : Nat) (m : LinkMsg) : State :=
  let ft := ftypeOf m
  let e := launch { s with msgNo := (s.msgNo + 1) % 65536 } p g tag node s.msgNo m
  if e.2 && (ft == 0x10 || ft == 0x12) then chargeOnly e.1 p 2 (msgBytes m) else e.1

/-- Offer a COLL, KVXFER or MODELXFER message of model slot `n`: it waits at the Cezlink regulator (R499). -/
def sendBulk (s : State) (p n node : Nat) (m : LinkMsg) : State :=
  sendIssued (chargeHeld { s with msgNo := (s.msgNo + 1) % 65536 } p 2 (.msg n node s.msgNo m) (msgBytes m)) p

/-- What waits at regulator `k` issues as far as it may, and the messages among it go (R421, R422). -/
def issueNow (s : State) (p k : Nat) : State := sendIssued (issueHeld s p k) p

/-- REGULATOR_REFILL (R420): every regulator of every partition, once per microsecond of device time. -/
def execRegulatorRefill (s : State) : Host.Outcome State Fault Refusal :=
  if stage s ≠ 6 ∨ s.qTime / 500 ≤ s.regRefills then .next s
  else
    let s1 := (List.range 16).foldl (fun a p =>
      if partValid a p then sendIssued ((List.range 4).foldl (fun b k => refillReg b p k) a) p else a) s
    .next { s1 with regRefills := s.regRefills + 1 }

end Sys2Proof.Machine
end

