-- ==== Sys2Proof/Machine/PowerOps.lean ====
section
/-! DEFINITION. The power predictor, ballast and the energy allowance (spec/15, R526 to R533). Powers are whole
milliwatts and energies whole femtojoules, rounded down (notes/assumptions). -/
namespace Sys2Proof.Machine

/-- Table 15.2 and Table 22.5: MHz, k in thousandths, static power in W at 85 °C, VID code, by step. -/
def stepMhz (s : Nat) : Nat := 800 + 100 * s
def stepK (s : Nat) : Nat := ([660, 701, 744, 788, 833, 879, 926, 963, 1000, 1076, 1156][s]?).getD 1156
def stepW (s : Nat) : Nat := ([32, 34, 36, 38, 41, 44, 47, 48, 50, 56, 62][s]?).getD 62
def stepVid (s : Nat) : Nat := ([5, 7, 9, 11, 13, 15, 17, 19, 21, 26, 31][s]?).getD 31

/-- T_d as the register shows it, in 1/8 °C. -/
def tDie (s : State) : Int := (BitVec.ofNat 16 (getF s Reg.PWR_THERM_T_D)).toInt

/-- Static power of step `k` at the present die temperature, in mW (Table 15.2): S (1 + 0.01 (T_d − 85)). -/
def staticAt (s : State) (k : Nat) : Nat := (stepW k * 5 * (tDie s + 120) / 4).toNat

/-- The current static power. -/
def staticNow (s : State) : Nat := staticAt s (getF s Reg.PWR_STATE_STEP)

/-- The step whose k counts: the higher of the two during a change (R528). -/
def kStep (s : State) : Nat :=
  match s.power.rising with
  | some (_, k) => max k (getF s Reg.PWR_STATE_STEP)
  | none => getF s Reg.PWR_STATE_STEP

/-- A work-table value in units of 2^−149; the spec gives no energy for a NaN, an infinity or a negative value. -/
def workVal (x : W32) : Nat :=
  match f32 x with
  | .fin false m e => m * 2 ^ (e + 149).toNat
  | .fin true 0 _ => 0
  | _ => Config.workValue x.toNat

/-- Σ e_w (X_w + Y_w n + Z_w a) in fJ · 2^−149 (R528). -/
def workSum (s : State) (work : List (W32 × W32 × W32)) (n a : Nat) : Nat :=
  (numbered 0 work).foldl (fun acc e =>
    acc + getF s (Reg.PWR_COEF_E e.1) * (workVal e.2.1 + workVal e.2.2.1 * n + workVal e.2.2.2 * a)) 0

/-- Σ (position + 1) over `n` positions from `p`. -/
def attended (p n : Nat) : Nat := n * p + n * (n + 1) / 2

/-- Staged positions of a plan and their attended sum, for the target (R528). -/
def planWork (s : State) (plan : List PlanItem) : Nat × Nat :=
  plan.foldl (fun acc it => it.seqs.foldl (fun b i =>
    match reqByHandle s i with
    | some (_, r) => (b.1 + it.n, b.2 + attended r.append it.n)
    | none => b) acc) (0, 0)

/-- Draft positions a sequence stages in a paired step: from its draft pointer to the target's last emitted token and
one for each further draft, or the chunk's positions of a member that drafts (R326, R327). -/
def draftSpan (r : Req) (it : PlanItem) : Nat × Nat :=
  if it.prefill then (r.append, if r.sub.draftN ≠ 0 ∧ r.paired then it.n else 0)
  else (r.dAppend, if it.d = 0 then 0 else r.append + 1 - r.dAppend + (it.d - 1))

/-- Staged draft positions of a plan and their attended sum. -/
def draftWork (s : State) (plan : List PlanItem) : Nat × Nat :=
  plan.foldl (fun acc it => it.seqs.foldl (fun b i =>
    match reqByHandle s i with
    | some (_, r) => let e := draftSpan r it; (b.1 + e.2, b.2 + attended e.1 e.2)
    | none => b) acc) (0, 0)

/-- The global number of a context's draft, when it is the target of a pair. -/
def draftOf (s : State) (g : Nat) : Option Nat :=
  match ctx? s g with
  | some c => if isSet s (Reg.CMP_CTX_CFG_DRAFT (g / 32) (g % 32)) then none else c.pair.map (32 * (g / 32) + ·)
  | none => none

/-- The model slot of a context. -/
def slotOf (s : State) (g : Nat) : Option Slot := (ctx? s g).bind fun c => slot? s c.slot

/-- The predicted dynamic energy in fJ of a plan of context `g` with draft context `dr` (R528). -/
def planEnergy (s : State) (g : Nat) (dr : Option Nat) (plan : List PlanItem) : Nat :=
  let w := planWork s plan
  let t := match slotOf s g with | some x => workSum s x.prog.work w.1 w.2 | none => 0
  let d := match dr.bind (slotOf s) with
    | some x => let v := draftWork s plan; if v.1 = 0 then 0 else workSum s x.prog.work v.1 v.2
    | none => 0
  stepK (kStep s) * getF s Reg.PWR_GAIN_GAIN * (t + d) / (1000 * 1024 * 2 ^ 149)

/-- T_est of a context, in ticks. -/
def tEst (s : State) (g : Nat) : Nat := getF s (Reg.CMP_CTX_TEST_T_EST (g / 32) (g % 32))

/-- A step's predicted dynamic power: its energy over T_est, in mW (R529). -/
def stepPower (energy t : Nat) : Nat := if t = 0 then 0 else energy / (2000 * t)

/-- Predicted step power of the partitions other than `p`. -/
def otherPower (s : State) (p : Nat) : Nat :=
  s.lanes.foldl (fun a e => if e.1 = p then a else a + e.2.power) 0

/-- The energy allowance of a composition, in fJ (R533). -/
def allowance (s : State) (p g : Nat) : Nat :=
  (getF s Reg.PWR_CEILING_MW - staticNow s - otherPower s p) * 2000 * tEst s g

/-- P_pred: static power and every partition's step power; after an F4 no step power counts (R528, R548). -/
def pPred (s : State) : Nat :=
  staticNow s + (if chipFaulted s then 0 else s.lanes.foldl (fun a e => a + e.2.power) 0)

/-- Ballast: the floor less P_pred, within BALLAST_MAX; 0 with BALLAST_EN 0, in a thermal emergency, and outside SERVICE
(R531, R543, R547). -/
def ballastFor (s : State) (pred : Nat) : Nat :=
  if !isSet s Reg.PWR_BALLAST_BALLAST_EN || isSet s Reg.PWR_STATE_EMERGENCY || (stage s != 6 && !s.power.rundown) then 0
  else min (1000 * getF s Reg.PWR_BALLAST_BALLAST_MAX) (getF s Reg.PWR_FLOOR_MW - pred)

/-- P_pred has changed: PRED, B and the partitions' powers show it (R531); what was predicted until now is summed (R540). -/
def updatePred (s : State) : State :=
  let q := s.power
  let dyn := (List.range 16).foldl (fun a p => a + getF s (Reg.PWR_PART_MW_MW p)) 0
  let s0 := { s with power := { q with sumPred := q.sumPred + dyn * (s.qTime - q.accAt), accAt := s.qTime } }
  let pr := pPred s0
  let s1 := setF s0 Reg.PWR_PRED_MW pr
  let s2 := setF s1 Reg.PWR_BALLAST_MW_MW (ballastFor s1 pr)
  (List.range 16).foldl (fun a p => setF a (Reg.PWR_PART_MW_MW p) (if chipFaulted a then 0 else (lane a p).power)) s2

/-- Give partition `p` a share of P_pred. -/
def setPower (s : State) (p mw : Nat) : State := updatePred (setLane s p { lane s p with power := mw })

/-- A composition of this period was trimmed, or waited for power (R545). -/
def notePower (s : State) (trimmed : Bool) : State :=
  { s with power := { s.power with trimmed := s.power.trimmed || trimmed, waited := s.power.waited || !trimmed } }

/-- Event 0x0B00 + `k` is counted (spec/15, PWR_CNT). -/
def powerEvent (s : State) (k : Nat) : State :=
  if k % 2 = 1 then bumpSat s (Reg.PWR_CNT_LOW (k / 2)) 1 else bumpSat s (Reg.PWR_CNT_HIGH (k / 2 - 1)) 1

/-! ## Limits (R530, R536, R539, R542 to R544) -/

/-- A shelf device is unreachable or reports overload: FALLBACK_W applies. -/
def fallbackOn (s : State) : Bool :=
  (List.range 8).any fun d =>
    isSet s (Reg.PWR_SHELF_VALID d) && (!isSet s (Reg.PWR_SHELF_REACHABLE d) || isSet s (Reg.PWR_SHELF_OVERLOAD d))

/-- A reachable shelf device reports battery state. -/
def shelfBatt (s : State) : Bool :=
  (List.range 8).any fun d =>
    isSet s (Reg.PWR_SHELF_VALID d) && isSet s (Reg.PWR_SHELF_REACHABLE d) && isSet s (Reg.PWR_SHELF_BATT d)

/-- The limit in force, in mW. -/
def limitInForce (s : State) : Nat :=
  let k1 := getF s Reg.PWR_CAP_CAP_W
  let k2 := if isSet s Reg.PWR_STATE_BATTERY then min k1 (getF s Reg.PWR_LIMITS_BATT_CAP_W) else k1
  1000 * (if fallbackOn s then min k2 (getF s Reg.PWR_LIMITS_FALLBACK_W) else k2)

/-- Boost is allowed (R544). -/
def boostOk (s : State) : Bool :=
  isSet s Reg.PWR_DVFS_BOOST_EN && !isSet s Reg.PWR_STATE_BATTERY && !isSet s Reg.PWR_STATE_EMERGENCY && !fallbackOn s &&
    decide (tDie s + 80 ≤ 8 * (getF s Reg.PWR_THERM1_T_LIMIT : Int))

/-- FALLBACK and BOOST_OK show. -/
def showPower (s : State) : State :=
  let s1 := setF s Reg.PWR_STATE_FALLBACK (if fallbackOn s then 1 else 0)
  if stage s = 6 then setF s1 Reg.PWR_STATE_BOOST_OK (if boostOk s1 then 1 else 0) else s1

/-- P_th before its bounds (R542). Without a model (RJC, HORIZON_MS or TAU_DIE_MS 0) the spec gives it no value. -/
def thermModel (s : State) : Nat × State :=
  let rjc := getF s Reg.PWR_THERM1_RJC
  let hor := getF s Reg.PWR_THERM2_HORIZON_MS
  let tau := getF s Reg.PWR_THERM2_TAU_DIE_MS
  if rjc = 0 ∨ hor = 0 ∨ tau = 0 then
    let e := draw s
    (Config.freeNat e.1, e.2)
  else
    let a : Int := (min (2 ^ 32 - 1) (Config.decay hor tau) : Nat)
    let lim : Int := (getF s Reg.PWR_THERM1_T_LIMIT : Int) * 2 ^ 64
    let x := (lim - a * (tDie s * 2 ^ 29)) / (2 ^ 32 - a) - s.power.tC
    ((x * 4096000 / (2 ^ 32 * (rjc : Int))).toNat, s)

/-- P_th: at most half the limit in force in a thermal emergency, never below S_0 (R542, R543). -/
def thermCap (s : State) : Nat × State :=
  let e := thermModel s
  (max (if isSet s Reg.PWR_STATE_EMERGENCY then min e.1 (limitInForce s / 2) else e.1) (staticAt s 0), e.2)

/-- C(n), F(n) and B of a period that follows target power `prev` with these allowances (R530, R531). -/
def setBounds (s : State) (prev up down : Nat) : State :=
  let k := limitInForce s
  let kn := if k < s.power.kNow then max k (s.power.kNow - getF s Reg.PWR_SLEW_LIMIT_SLEW * 100) else k
  let e := thermCap s
  let c := min kn (min e.1 (prev + up))
  let f := min c (max (staticNow s) (prev - down))
  let s1 := setF e.2 Reg.PWR_THERM_CAP_MW (min e.1 (2 ^ 32 - 1))
  let s2 := setF (setF s1 Reg.PWR_CEILING_MW c) Reg.PWR_FLOOR_MW f
  updatePred { s2 with power := { s2.power with kNow := kn, gUp := up, gDown := down } }

/-- The local allowances (spec/15, section Ceiling, floor and ballast). -/
def upLocal (s : State) : Nat := getF s Reg.PWR_SLEW_UP_W_MS * 100
def downLocal (s : State) : Nat := getF s Reg.PWR_SLEW_DOWN_W_MS * 100

/-- Battery mode begins (R536). -/
def beginBattery (s : State) : State :=
  powerEvent (raise (setF s Reg.PWR_STATE_BATTERY 1) Reg.PWR_STATUS_ON_BATTERY) 4

/-- The code on VID5 to VID0 (R718). -/
def setVid (s : State) (code : Nat) : State := drive (setF s Reg.HST_STRAPS_VID code) (.vid code)

end Sys2Proof.Machine
end

