-- ==== Sys2Proof/Machine/Elementary.lean ====
section
/-! DEFINITION. The functions the device computes to within 2 units in the last place of FP32 (spec/04, R147; spec/10,
R739): exp, log, reciprocal, reciprocal square root and tanh. The spec fixes each result only up to that bound. It is a
free value (Config) held to the bound by a reference computed here to 2^−70 or better. -/
namespace Sys2Proof.Machine

/-- A real number for comparison: a dyadic number, with a mark that the true value lies just above it in magnitude. -/
abbrev Ref := FpVal × Bool

/-- Fixed-point numbers with 96 fraction bits: one, ln 2, and a product. -/
def fx1 : Nat := 2 ^ 96
def fxLn2 : Nat := 0xB17217F7D1CF79ABC9E3B398
def fxMul (a b : Nat) : Nat := a * b / 2 ^ 96

/-- The series 1 + x (1 + x/2 (1 + x/3 (…))) to `n` terms, from term `k` on: exp of a fixed-point x below 1. -/
def expSeries (x : Nat) : Nat → Nat → Nat
  | 0, _ => fx1
  | n + 1, k => fx1 + fxMul x (expSeries x n (k + 1)) / k

/-- exp of a nonnegative fixed-point number: mantissa with 96 fraction bits, and the power of 2. -/
def expFx (x : Nat) : Nat × Nat := (expSeries (x % fxLn2) 32 1, x / fxLn2)

/-- A magnitude m · 2^e as a fixed-point number; from 2^12 on it stands for 2^12. -/
def toFx (m : Nat) (e : Int) : Nat :=
  if 12 ≤ (m.log2 : Int) + e then 2 ^ 108
  else if 0 ≤ e + 96 then m * 2 ^ (e + 96).toNat else m / 2 ^ (-(e + 96)).toNat

/-- exp of ±(m · 2^e): for a negative argument the reciprocal. -/
def expRef (neg : Bool) (m : Nat) (e : Int) : Ref :=
  let r := expFx (toFx m e)
  if neg then (.fin false (2 ^ 192 / r.1) (-96 - (r.2 : Int)), true) else (.fin false r.1 ((r.2 : Int) - 96), true)

/-- The series t (1 + t² / 3 + t⁴ / 5 + …) to `n` terms: artanh of a fixed-point t of at most 1/3. -/
def atanhSeries (t2 : Nat) : Nat → Nat → Nat
  | 0, _ => 0
  | n + 1, k => fx1 / k + fxMul t2 (atanhSeries t2 n (k + 2))

/-- log of m · 2^e, m not 0: the exponent times ln 2, and the log of the mantissa in [1, 2). -/
def logRef (m : Nat) (e : Int) : Ref :=
  let l := m.log2
  let y := m * 2 ^ 96 / 2 ^ l
  let t := (y - fx1) * 2 ^ 96 / (y + fx1)
  let x : Int := ((l : Int) + e) * (fxLn2 : Int) + ((2 * fxMul t (atanhSeries (fxMul t t) 34 1) : Nat) : Int)
  (.fin (decide (x < 0)) x.natAbs (-96), x != 0)

/-- The integer square root, by Newton's iteration from above. -/
def isqrt (n : Nat) : Nat :=
  (List.range 12).foldl (fun x _ => if x = 0 then 0 else min x ((x + n / x) / 2)) (2 ^ (n.log2 / 2 + 1))

/-- 1 / (m · 2^e) and 1 / sqrt (m · 2^e), m not 0. -/
def recipRef (neg : Bool) (m : Nat) (e : Int) : Ref := (.fin neg (2 ^ 128 / m) (-128 - e), true)
def rsqrtRef (m : Nat) (e : Int) : Ref :=
  let m' := if e % 2 = 0 then m else 2 * m
  (.fin false (isqrt (2 ^ 256 / m')) (-128 - (e - e % 2) / 2), true)

/-- tanh of ±(m · 2^e): x − x³ / 3 below 2^−12, 1 from 2^4 on, else (exp 2x − 1) / (exp 2x + 1). -/
def tanhRef (neg : Bool) (m : Nat) (e : Int) : Ref :=
  if m = 0 then (.fin neg 0 0, false)
  else if (m.log2 : Int) + e < -12 then (.fin neg (m * (3 * 2 ^ (-2 * e).toNat - m * m) * 2 ^ 8 / 3) (3 * e - 8), true)
  else if 4 ≤ (m.log2 : Int) + e then (.fin neg (2 ^ 64 - 1) (-64), true)
  else
    let r := expFx (toFx m (e + 1))
    let x := r.1 * 2 ^ r.2
    (.fin neg ((x - fx1) * 2 ^ 96 / (x + fx1)) (-96), true)

/-- |v − r| is at most 2 units in the last place of FP32 at r (R147, R739). -/
def within2 (v r : FpVal) : Bool :=
  match fpAdd v (fpNeg r), r with
  | .fin _ d e, .fin _ m x =>
    let q : Int := max (-149) ((m.log2 : Int) + x - 23)
    let e0 := min e (q + 1)
    decide (d * 2 ^ (e - e0).toNat ≤ 2 ^ (q + 1 - e0).toNat)
  | _, _ => false

/-- A free result held to its bound: it counts where it lies within 2 units in the last place of the reference, else the
reference correctly rounded does. -/
def near2 (v : W32) (r : Ref) : FpRes := if within2 (f32 v) r.1 then ⟨v, false, false⟩ else fpRound [] r.1 r.2

/-- exp at a value: exact at NaN, the infinities and 0. -/
def expOf (free : W32) (x : FpVal) : FpRes :=
  match x with
  | .nan => fpRound [x] .nan
  | .inf true => fpRound [x] (.fin false 0 0)
  | .inf false => fpRound [x] x
  | .fin n m e => if m = 0 then fpRound [x] (.fin false 1 0) else near2 free (expRef n m e)

/-- log at a value; the spec states no result at 0 and below. -/
def logOf (free : W32) (x : FpVal) : FpRes :=
  match x with
  | .nan => fpRound [x] .nan
  | .inf false => fpRound [x] x
  | .fin false m e => if m = 0 then fpRound [x] (f32 free) else near2 free (logRef m e)
  | _ => fpRound [x] (f32 free)

/-- A function of one argument (R147). The reciprocal of 0, and the reciprocal square root of 0 and below, have no stated
result either: free values (notes/assumptions/65.md). -/
def vecOne (f : VecFn) (w : W32) : FpRes :=
  let x := f32 w
  let free := Config.vecFn f w
  match f, x with
  | .exp, _ => expOf free x
  | .log, _ => logOf free x
  | .copy, _ => fpRound [x] x
  | _, .nan => fpRound [x] .nan
  | .recip, .inf n => fpRound [x] (.fin n 0 0)
  | .recip, .fin n m e => if m = 0 then fpRound [x] (f32 free) else near2 free (recipRef n m e)
  | .rsqrt, .inf false => fpRound [x] (.fin false 0 0)
  | .rsqrt, .fin false m e => if m = 0 then fpRound [x] (f32 free) else near2 free (rsqrtRef m e)
  | .tanh, .inf n => fpRound [x] (.fin n 1 0)
  | .tanh, .fin n m e => if m = 0 then fpRound [x] x else near2 free (tanhRef n m e)
  | _, _ => fpRound [x] (f32 free)

/-- exp and log of the merge stage, by the release of its tables (R739). -/
def tabExp (ver : W64) (w : W32) : W32 := (expOf (Config.tabExp ver w) (f32 w)).w
def tabLog (ver : W64) (w : W32) : W32 := (logOf (Config.tabLog ver w) (f32 w)).w

/-- A vector instruction on its operands (R147): each result rounds once. -/
def vecApply (f : VecFn) (xs : List W32) : FpRes :=
  match f, xs with
  | .add, [a, b] => fpRound [f32 a, f32 b] (fpAdd (f32 a) (f32 b))
  | .mul, [a, b] => fpRound [f32 a, f32 b] (fpMul (f32 a) (f32 b))
  | .fma, [a, b, c] => fpRound [f32 a, f32 b, f32 c] (fpAdd (fpMul (f32 a) (f32 b)) (f32 c))
  | f, a :: _ => vecOne f a
  | _, [] => ⟨0#32, false, false⟩

/-! ## The MAC array (R144, R145) -/

/-- Products summed exactly in one addition to the accumulator: a block of 32 where both operands are MX, else 8. -/
def macGroup (a b : Format) : Nat := if isMx a && isMx b then 32 else 8

/-- One group's exact sum is added to the accumulator with one rounding. -/
def macStep (acc : FpRes) (g : List (FpVal × FpVal)) : FpRes :=
  match g.map fun e => fpMul e.1 e.2 with
  | [] => acc
  | x :: xs =>
    let r := fpRound (f32 acc.w :: g.flatMap fun e => [e.1, e.2]) (fpAdd (f32 acc.w) (xs.foldl fpAdd x))
    ⟨r.w, acc.sat || r.sat, acc.nanGen || r.nanGen⟩

/-- Products of two operands added to an accumulator in ascending order, in groups of `n`. -/
def macRun (acc : W32) (n : Nat) (xs : List (FpVal × FpVal)) : FpRes :=
  (chunks n xs.length xs).foldl macStep ⟨acc, false, false⟩

end Sys2Proof.Machine
end

