-- ==== Sys2Proof/Machine/Sampler.lean ====
section
/-! DEFINITION. The sampler's arithmetic (spec/10): adjusted logits, shard lists, merge, filters, draws, the random
streams, draft verification, penalty history and end conditions. -/
namespace Sys2Proof.Machine

/-! ## Random streams -/

/-- One Philox-4x32 round (R357). -/
def philoxRound (k : W32 × W32) (c : W32 × W32 × W32 × W32) : W32 × W32 × W32 × W32 :=
  let p0 := 0xD2511F53 * c.1.toNat
  let p1 := 0xCD9E8D57 * c.2.2.1.toNat
  (BitVec.ofNat 32 (p1 / 2 ^ 32) ^^^ c.2.1 ^^^ k.1, BitVec.ofNat 32 p1,
   BitVec.ofNat 32 (p0 / 2 ^ 32) ^^^ c.2.2.2 ^^^ k.2, BitVec.ofNat 32 p0)

/-- `n` rounds, the key stepped after each. -/
def philoxRounds : Nat → W32 × W32 → W32 × W32 × W32 × W32 → W32 × W32 × W32 × W32
  | 0, _, c => c
  | n + 1, k, c => philoxRounds n (k.1 + 0x9E3779B9#32, k.2 + 0xBB67AE85#32) (philoxRound k c)

/-- Output word 0 of Philox-4x32-10 for a seed, an output index and a use (Table 10.3). -/
def philox (seed i use : Nat) : W32 :=
  (philoxRounds 10 (BitVec.ofNat 32 seed, BitVec.ofNat 32 (seed / 2 ^ 32))
    (BitVec.ofNat 32 i, BitVec.ofNat 32 use, 0#32, 0#32)).1

/-- The random value u of an output index and a use: 0 target, 1 draft, 2 acceptance, 3 residual (R358). -/
def randomU (seed i use : Nat) : W32 := toF32 (.fin false ((philox seed i use).toNat / 256) (-24))

/-! ## History -/

/-- The entry with the smallest last index. -/
def oldestEntry : List (Nat × Nat × Nat) → Option (Nat × Nat × Nat)
  | [] => none
  | x :: xs => match oldestEntry xs with
    | none => some x
    | some y => if y.2.2 < x.2.2 then some y else some x

/-- R365: token `t` emitted at output index `i`. -/
def histAdd (h : List (Nat × Nat × Nat)) (t i : Nat) : List (Nat × Nat × Nat) :=
  if h.any fun e => e.1 == t then h.map fun e => if e.1 = t then (t, e.2.1 + 1, i) else e
  else if h.length < 2048 then h ++ [(t, 1, i)]
  else match oldestEntry h with
    | some o => h.map fun e => if e = o then (t, 1, i) else e
    | none => h

/-- The history with tokens taken as emitted from index `i` on (R350). -/
def histWith (h : List (Nat × Nat × Nat)) (i : Nat) (ts : List Nat) : List (Nat × Nat × Nat) :=
  (numbered i ts).foldl (fun a e => histAdd a e.2 e.1) h

/-! ## Shard stage -/

/-- What the shard stage needs of a sequence (R349): its sampling fields, mask, bias entries and history. -/
structure SampView where
  temp : Nat
  topK : Nat
  topP : Nat
  minP : Nat
  repPen : Nat
  presPen : Nat
  freqPen : Nat
  mask : Option (List Byte)
  bias : List (Nat × W32)
  hist : List (Nat × Nat × Nat)
  deriving DecidableEq, Repr

/-- The view of a request, with `ts` taken as already emitted. -/
def viewOf (r : Req) (ts : List Nat) : SampView :=
  { temp := r.sub.temp, topK := r.sub.topK, topP := r.sub.topP, minP := r.sub.minP, repPen := r.sub.repPen,
    presPen := r.sub.presPen, freqPen := r.sub.freqPen, mask := if r.sub.maskAddr = 0 then none else some r.mask,
    bias := r.bias, hist := histWith r.hist r.emitted ts }

/-- The mask allows token `t`. -/
def allowed (v : SampView) (t : Nat) : Bool :=
  match v.mask with
  | none => true
  | some m => ((m[t / 8]?).getD 0).toNat.testBit (t % 8)

/-- 1.0 in FP32 and FP16. -/
def one32 : W32 := 0x3F800000#32
def one16 : Nat := 0x3C00

/-- Operations of the vector unit on a running result, whose numeric events add up (R139, R142). -/
def thenOp (a r : FpRes) : FpRes := ⟨r.w, a.sat || r.sat, a.nanGen || r.nanGen⟩
def thenAdd (a : FpRes) (b : W32) : FpRes := thenOp a (vecApply .add [a.w, b])
def thenSub (a : FpRes) (b : W32) : FpRes := thenOp a (fpRound [f32 a.w, f32 b] (fpAdd (f32 a.w) (fpNeg (f32 b))))
def thenMul (a : FpRes) (b : W32) : FpRes := thenOp a (vecApply .mul [a.w, b])

/-- The adjusted logit z of a token with its numeric events, none when it is excluded (R349). -/
def adjust (v : SampView) (t : Nat) (l : W32) : Option FpRes :=
  if !allowed v t || fNonfinite l then none
  else
    let l0 : FpRes := ⟨l, false, false⟩
    let l1 := match v.hist.find? fun e => e.1 == t with
      | some e =>
        let rep := f16to32 v.repPen
        let a := if v.repPen = one16 then l0
          else if flt 0#32 l then thenMul l0 (fdiv one32 rep) else thenMul l0 rep
        let q := vecApply .mul [f16to32 v.freqPen, fOfNat e.2.1]
        thenSub (thenSub (thenOp q a) q.w) (f16to32 v.presPen)
      | none => l0
    let l2 := v.bias.foldl (fun a e => if e.1 = t then thenAdd a e.2 else a) l1
    some (if v.temp % 2 ^ 15 = 0 then l2 else thenMul l2 (fdiv one32 (f16to32 v.temp)))

/-- Descending z, ties by ascending token. -/
def candBefore (a b : Nat × W32) : Bool := flt b.2 a.2 || (!flt a.2 b.2 && a.1 ≤ b.1)

/-- Insert in order. -/
def candIns (x : Nat × W32) : List (Nat × W32) → List (Nat × W32)
  | [] => [x]
  | y :: ys => if candBefore x y then x :: y :: ys else y :: candIns x ys

/-- The first 256 candidates in order. -/
def topCands (l : List (Nat × W32)) : List (Nat × W32) := (l.foldr candIns []).take 256

/-- The largest of a nonempty list of z. -/
def maxZ : List W32 → W32
  | [] => 0#32
  | [x] => x
  | x :: xs => let m := maxZ xs; if flt m x then x else m

/-- A shard's list for one sampled position, with whether the vector unit saturated or made a NaN (R139, R142). -/
structure ShardOut where
  list : CandList
  sat : Bool
  nanGen : Bool
  deriving DecidableEq, Repr

/-- A shard's list for one sampled position from the model's logits, in ascending token order (R351). -/
def shardList (v : SampView) (req pos shard : Nat) (draft : Bool) (ls : List (Nat × W32)) : ShardOut :=
  let zs := ls.filterMap fun e => (adjust v e.1 e.2).map fun z => (e.1, z)
  let m := maxZ (zs.map (·.2.w))
  let sum := zs.foldl (fun a e =>
    let d := fpRound [f32 e.2.w, f32 m] (fpAdd (f32 e.2.w) (fpNeg (f32 m)))
    thenOp d (thenAdd a (vecOne .exp d.w).w)) ⟨0#32, false, false⟩
  { list := { req := req, pos := pos, draft := draft, shard := shard, cands := topCands (zs.map fun e => (e.1, e.2.w)),
              m := m, s := sum.w, nonfinite := ls.any fun e => fNonfinite e.2 }
    sat := sum.sat || zs.any (·.2.sat)
    nanGen := sum.nanGen || zs.any (·.2.nanGen) }

/-! ## Merge, filters, draw -/

/-- The lists of one sampled position, in ascending shard number. -/
def listsAt (cs : List CandList) (req pos : Nat) (draft : Bool) : List CandList :=
  (cs.filter fun c => c.req == req && c.pos == pos && c.draft == draft).foldr
    (fun x acc => acc.takeWhile (fun y => y.shard < x.shard) ++ x :: acc.dropWhile (fun y => y.shard < x.shard)) []

/-- The merged candidates with their probabilities, for a sampler tables release (R352). -/
def mergeAt (ver : W64) (ls : List CandList) : List (Nat × W32) :=
  let merged := topCands (ls.flatMap (·.cands))
  let live := ls.filter fun c => c.s.toNat % 2 ^ 31 != 0
  let m := maxZ (live.map (·.m))
  let sum := live.foldl (fun a c => fadd a (fmul c.s (tabExp ver (fsub c.m m)))) 0#32
  let lse := fadd m (tabLog ver sum)
  merged.map fun e => (e.1, tabExp ver (fsub e.2 lse))

/-- The shortest leading run whose p reach at least `bound`; all of them where the sum does not reach it. -/
def topPRun (bound : W32) : W32 → List (Nat × W32) → List (Nat × W32)
  | _, [] => []
  | sum, e :: rest =>
    let sum' := fadd sum e.2
    if flt sum' bound then e :: topPRun bound sum' rest else [e]

/-- The kept set (R354). -/
def keptSet (v : SampView) (ps : List (Nat × W32)) : List (Nat × W32) :=
  if v.temp % 2 ^ 15 = 0 then ps.take 1
  else
    let k := if v.topK = 0 then ps else ps.take v.topK
    let m := if v.minP % 2 ^ 15 = 0 then k
      else
        let bound := fmul (f16to32 v.minP) ((k.head?.map (·.2)).getD 0#32)
        k.take 1 ++ (k.drop 1).filter fun e => !flt e.2 bound
    if v.topP < one16 then topPRun (f16to32 v.topP) 0#32 m else m

/-- The sum of weights, in order. -/
def weightSum (ws : List (Nat × W32)) : W32 := ws.foldl (fun a e => fadd a e.2) 0#32

/-- The first candidate whose running sum exceeds the target, else the last (R355). -/
def pickFrom (target : W32) : W32 → List (Nat × W32) → Nat
  | _, [] => 0
  | _, [e] => e.1
  | sum, e :: rest => let sum' := fadd sum e.2; if flt target sum' then e.1 else pickFrom target sum' rest

/-- The draw from a set of weights with a random value (R355). -/
def drawFrom (ws : List (Nat × W32)) (u : W32) : Nat := pickFrom (fmul u (weightSum ws)) 0#32 ws

/-- The fallback token of a vocabulary of `n` tokens (R356): the lowest the mask allows, or 0. -/
def fallbackToken (v : SampView) (n : Nat) : Nat :=
  match v.mask with
  | none => 0
  | some m => ((List.range (min n (8 * m.length))).find? fun t => allowed v t).getD 0

/-- A renormalised probability in a kept set (R360). -/
def renorm (ws : List (Nat × W32)) (t : Nat) : W32 :=
  match ws.find? fun e => e.1 == t with
  | some e => fdiv e.2 (weightSum ws)
  | none => 0#32

/-! ## Verification -/

/-- What a merge of one item counts: fallback tokens and empty residuals. -/
structure MergeEvents where
  noCand : Nat
  residual : Nat
  deriving DecidableEq, Repr

/-- R360 to R363: positions from `j` on, with the drafts (token, kept set) still to verify; `vocab` is V. -/
def verify (ver : W64) (vocab : Nat) (r : Req) (cs : List CandList) (h : Nat) :
    List (Nat × List (Nat × W32)) → List Nat → Nat → Nat → List Nat × Nat × MergeEvents
  | ds, before, j, acc =>
    let v := viewOf r before
    let ks := keptSet v (mergeAt ver (listsAt cs h j false))
    let i := r.emitted + j
    if ks.isEmpty then ([fallbackToken v vocab], acc, ⟨1, 0⟩)
    else match ds with
      | [] => ([drawFrom ks (randomU r.sub.seed i 0)], acc, ⟨0, 0⟩)
      | (x, qs) :: rest =>
        if flt (fmul (randomU r.sub.seed i 2) (renorm qs x)) (renorm ks x) then
          let e := verify ver vocab r cs h rest (before ++ [x]) (j + 1) (acc + 1)
          (x :: e.1, e.2)
        else
          let res := ks.map fun e =>
            let w := fsub (renorm ks e.1) (renorm qs e.1)
            (e.1, if flt 0#32 w then w else 0#32)
          let u := randomU r.sub.seed i 3
          if res.all fun e => !flt 0#32 e.2 then ([drawFrom ks u], acc, ⟨0, 1⟩) else ([drawFrom res u], acc, ⟨0, 0⟩)

/-! ## End conditions -/

/-- Stop sequence `x` matches the emitted tokens' tail, of which at most 16 are kept (R364, R366). -/
def stopMatch (emitted : Nat) (tail x : List Nat) : Bool :=
  x.length ≤ emitted && x.length ≤ tail.length && tail.drop (tail.length - x.length) == x

/-- R364 over the tokens of a commit: what is emitted, the request after it, and whether it ends and by a stop. -/
def emitTokens : Req → List Nat → List Nat → List Nat × Req × Bool × Bool
  | r, [], out => (out, r, false, false)
  | r, t :: ts, out =>
    let tail := (r.tail ++ [t]).drop (r.tail.length + 1 - 16)
    let r1 := { r with tail := tail, hist := histAdd r.hist t r.emitted, emitted := r.emitted + 1 }
    let stop := r1.stops.any (stopMatch r1.emitted tail)
    let full := (r1.sub.maxNew != 0 && r1.emitted == r1.sub.maxNew) || 131072 ≤ r1.bucket + r1.emitted
    if stop || full then (out ++ [t], r1, true, stop) else emitTokens r1 ts (out ++ [t])

end Sys2Proof.Machine
end

