-- ==== Sys2Proof/Machine/StepOps.lean ====
section
/-! DEFINITION. Operations on contexts, plans and steps that several commands share: page needs, groves, group counts,
trace and Assay at the end of a step, abandonment and discard (spec/05, spec/09, spec/14, spec/20). -/
namespace Sys2Proof.Machine

/-! ## Contexts -/

/-- Partition and local number of a global context number (R155). -/
def ctxPart (g : Nat) : Nat := g / 32
def ctxLocal (g : Nat) : Nat := g % 32

/-- The context class (spec/05). -/
def classOf (s : State) (g : Nat) : Nat := getF s (Reg.CMP_CTX_CFG_CLASS (ctxPart g) (ctxLocal g))

/-- The context is the draft of a pair. -/
def isDraft (s : State) (g : Nat) : Bool := isSet s (Reg.CMP_CTX_CFG_DRAFT (ctxPart g) (ctxLocal g))

/-- Contexts of a partition, ascending. -/
def ctxsOf (s : State) (p : Nat) : List Nat :=
  s.ctxs.filterMap fun e => if e.1 / 32 = p ∧ e.2.isSome then some e.1 else none

/-- The positions a sequence holds: its padded prompt and its output. -/
def seqLen (r : Req) : Nat := r.bucket + r.emitted

/-- drafts(s) of a sequence in a step with draft context `dr` (R324); 0 for a request that is not paired. -/
def draftsOf (dr : Option Nat) (r : Req) : Nat :=
  if r.paired = true ∧ dr.isSome then
    min (min r.sub.draftN (131071 - seqLen r))
      (if r.sub.maxNew = 0 then r.sub.draftN else r.sub.maxNew - r.emitted - 1)
  else 0

/-- Page indexes that positions [a, a + n) need and a sequence of `a` committed positions does not hold (R210, R211). -/
def newIdx (pLog2 a n : Nat) : List Nat :=
  (List.range (ceilDiv (a + n) (2 ^ pLog2) - ceilDiv a (2 ^ pLog2))).map (ceilDiv a (2 ^ pLog2) + ·)

/-- The pages of those indexes, one per layer. -/
def newUses (h layers pLog2 a n : Nat) (draft : Bool) : List PageUse :=
  (newIdx pLog2 a n).flatMap fun k => (List.range layers).map fun l => .staged h l k draft

/-- The pages a plan item needs of one of its sequences: of the target `g`, and of the draft `dr` (R211, R325, R327). -/
def seqUses (s : State) (g : Nat) (dr : Option Nat) (it : PlanItem) (h : Nat) : List PageUse × List PageUse :=
  match reqByHandle s h, slotOf s g with
  | some (_, r), some x =>
    let t := newUses h x.pkg.layers x.pkg.pLog2 r.append it.n false
    let d := match dr.bind (slotOf s) with
      | some y => let e := draftSpan r it; newUses h y.pkg.layers y.pkg.pLog2 e.1 e.2 true
      | none => []
    (t, d)
  | _, _ => ([], [])

/-- The pages a plan item needs. -/
def itemUses (s : State) (g : Nat) (dr : Option Nat) (it : PlanItem) : List PageUse × List PageUse :=
  it.seqs.foldl (fun a h => let u := seqUses s g dr it h; (a.1 ++ u.1, a.2 ++ u.2)) ([], [])

/-- The KV pages a sequence of committed pointers holds, target's before draft's, by layer and index (R210): the order in
which slots are given to them. -/
def seqPages (s : State) (h : Nat) (r : Req) : List PageUse :=
  let own (k : Pkg) (n : Nat) (draft : Bool) : List PageUse :=
    (List.range k.layers).flatMap fun l => (List.range (ceilDiv n (2 ^ k.pLog2))).map fun j => .kv h l j draft
  let t := match slotOf s r.ctx with | some x => own x.pkg r.append false | none => []
  let d := match (draftOf s r.ctx).bind (slotOf s) with | some y => own y.pkg r.dAppend true | none => []
  t ++ d

/-! ## Replica groups -/

def group? (s : State) (slot : Nat) : Option Group := spGet (fun _ => none) s.groups slot
def setGroup (s : State) (slot : Nat) (x : Option Group) : State :=
  { s with groups := spPut (fun _ => none) slot x s.groups }

/-- The group ID of a slot (CZL_GROUP_s). -/
def gidOf (s : State) (slot : Nat) : Nat := getF s (Reg.CZL_GROUP_GROUP_ID slot)

/-- The slot's group is formed; this device is its leader, or a follower. -/
def groupFormed (s : State) (slot : Nat) : Bool := getF s (Reg.CZL_GROUP_STATE slot) == 2
def groupLeads (s : State) (slot : Nat) : Bool := groupFormed s slot && !isSet s (Reg.CZL_GROUP_ROLE slot)

/-- The group a context's steps belong to, when this device leads it. -/
def ledGroup (s : State) (g : Nat) : Option (Nat × Group) :=
  match ctx? s g with
  | some c => if groupLeads s c.slot then (group? s c.slot).map fun x => (c.slot, x) else none
  | none => none

/-- The pages a plan item needs on a follower (R502). -/
def peerNeed (s : State) (p : Peer) (it : PlanItem) : Nat :=
  it.seqs.foldl (fun a h => match reqByHandle s h with
    | some (_, r) => a + p.info.layers * (newIdx p.info.pLog2 r.append it.n).length
    | none => a) 0

/-- Change the leader's page count of every follower by `f`. -/
def mapPeers (s : State) (slot : Nat) (f : Peer → Peer) : State :=
  match group? s slot with
  | some x => setGroup s slot (some { x with peers := x.peers.map f })
  | none => s

/-! ## Groves -/

/-- Set STATE of every grove of a partition (spec/04). -/
def setGroves (s : State) (p x : Nat) : State :=
  (groveList s p).foldl (fun a g => setF a (Reg.GRV_STATUS_STATE g) x) s

/-- The clusters of a partition that `f` names hold no storage any more, and their traffic issues no further (R164). -/
def killClusters (s : State) (p : Nat) (f : Nat → Bool) : State :=
  let mine (c : Nat) : Bool := (groveList s p).contains (c / 80) && f c
  let s1 := dropWaits s fun w => match w with | .task c => mine c | _ => false
  { s1 with clusters := spDrop mine s1.clusters }

/-- ABANDON is raised on every grove of a partition: its clusters stop, and their contents are dead (R71). `g` is the
context whose step it stops. -/
def raiseAbandon (s : State) (p g : Nat) : State :=
  let s1 := setGroves (killClusters s p fun _ => true) p 2
  setLane s1 p { lane s1 p with acks := groveList s1 p, abandoned := some g, ackSince := s1.qTime }

/-! ## The step's end -/

/-- Sequences and positions of a plan (Table 20.5). -/
def planSeqs (plan : List PlanItem) : Nat := plan.foldl (fun a it => a + it.seqs.length) 0
def planPos (plan : List PlanItem) : Nat := plan.foldl (fun a it => a + it.seqs.length * it.n) 0

/-- A STEP record of a step: event 0 ISSUE, 1 COMMIT, 2 ABANDON, 3 save, 4 restore. -/
def stepRecord (s : State) (p : Nat) (st : Step) (ev : Nat) : State :=
  traceStep s p st.ctx st.tag ev (planSeqs st.plan) (planPos st.plan)

/-- The STAGED pages of a plan return to FREE (R212). -/
def freeStaged (s : State) (p : Nat) (plan : List PlanItem) : State :=
  freeWhere s p fun u => isStaged u && plan.any fun it => match useReq u with
    | some h => it.seqs.contains h
    | none => false

/-- The leader's counts rise by the pages a plan reserved on the followers and that an abandon frees (R502). -/
def returnPeerPages (s : State) (st : Step) : State :=
  match st.group with
  | some slot => mapPeers s slot fun p => { p with pages := st.plan.foldl (fun a it => a + peerNeed s p it) p.pages }
  | none => s

/-- Every live request of a plan, by entry. -/
def planReqs (s : State) (plan : List PlanItem) : List Nat :=
  (plan.flatMap (·.seqs)).filterMap fun h => match reqByHandle s h with
    | some (i, r) => if isLive r.st then some i else none
    | none => none

/-- The groves are free of the step in `cur`: it has left COMMIT or ABANDON; contexts passed over for want of pages or
slots are looked at again. What Cezlink brought for it is written no more (R510). -/
def clearCur (s0 : State) (p : Nat) : State :=
  let s := dropWaits s0 fun w => match w with | .store q _ => q == p | _ => false
  let l := lane s p
  setLane s p { l with cur := none, preempt := none, restoreAt := none, leftAt := s.qTime, stalled := [] }

/-! ## Assay -/

/-- FP64 words compared and added. -/
def lt64 (a b : Nat) : Bool :=
  let key (x : Nat) : Int := if x / 2 ^ 63 = 1 then -((x % 2 ^ 63 : Nat) : Int) else ((x % 2 ^ 63 : Nat) : Int)
  decide (key a < key b)
def add64 (a b : Nat) : Nat := (fpEncode fp64 (fpAdd (fpDecode fp64 a) (fpDecode fp64 b))).1

/-- Pieces of one watch slot in ascending order of their task's first element (R682). -/
def piecesOf (st : Step) (slot : Nat) : List AssayPiece :=
  (st.assay.filter fun a => a.slot == slot).foldr
    (fun x acc => acc.takeWhile (fun y => y.first < x.first) ++ x :: acc.dropWhile (fun y => y.first < x.first)) []

/-- The quantities of Table 20.6 in the order of TRC_ASSAY: COUNT, MIN, MAX, SUM, SUMSQ, DIGEST, NAN, INF, ZERO. -/
def assayTotals (ps : List AssayPiece) : List Nat :=
  let sum (f : AssayPiece → Nat) : Nat := ps.foldl (fun a x => a + f x) 0
  let cnt (f : AssayPiece → Nat) : Nat := min (sum f) (2 ^ 40)
  let mn := ps.foldl (fun a x => if lt64 x.min a then x.min else a) 0x7FF0000000000000
  let mx := ps.foldl (fun a x => if lt64 a x.max then x.max else a) 0xFFF0000000000000
  let add (f : AssayPiece → Nat) : Nat := match ps with
    | [] => 0
    | x :: xs => xs.foldl (fun a y => add64 a (f y)) (f x)
  [cnt (·.count), mn, mx, add (·.sum), add (·.sumsq), (crc64 (ps.flatMap (·.bytes) ++ ps.flatMap (·.scales))).toNat,
    cnt (·.nan), cnt (·.inf), cnt (·.zero)]

/-- An ASSAY record (Tables 20.4 and 20.7): three units. -/
def assayRecord (s : State) (p : Nat) (st : Step) (slot tensor : Nat) (ps : List AssayPiece) (q : List Nat)
    (abandoned : Bool) : State :=
  let fmt := match ps with | x :: _ => fmtCode x.fmt | [] => 0
  let at_ (k : Nat) : List Byte := leBytes 8 ((q[k]?).getD 0)
  traceRec s p 5 s.qTime (traceHeader 5 (2 + if abandoned then 16 else 0) st.ctx st.tag s.qTime ++ leBytes 1 slot ++
    leBytes 1 fmt ++ [0#8, 0#8] ++ leBytes 4 tensor ++ at_ 0 ++ at_ 1 ++ at_ 2 ++ at_ 3 ++ at_ 4 ++ at_ 5 ++ at_ 6 ++
    at_ 7 ++ at_ 8)

/-- The Assay results of a step that commits or is abandoned (R680, R684), for one watch slot. -/
def assaySlot (p : Nat) (st : Step) (abandoned : Bool) (s : State) (w : Nat × Nat) : State :=
  let ps := piecesOf st w.1
  if ps.isEmpty then s
  else
    let n := spGet (fun _ => 0) s.assaySeen (16 * p + w.1)
    let s1 := { s with assaySeen := spPut (fun _ => 0) (16 * p + w.1) (n + 1) s.assaySeen }
    let every := getF s (Reg.TRC_ASSAY_CTL_EVERY p w.1)
    if every ≠ 0 ∧ n % every ≠ 0 then s1
    else
      let q := assayTotals ps
      let s2 := if isSet s (Reg.TRC_ASSAY_CTL_RECORD p w.1) then assayRecord s1 p st w.1 w.2 ps q abandoned else s1
      if abandoned then s2
      else
        let s3 := (numbered 0 q).foldl (fun a e => setF a (Reg.TRC_ASSAY_Q_VALUE p w.1 e.1) e.2) s2
        let s4 := setF s3 (Reg.TRC_ASSAY_TAG_TAG p w.1) st.tag
        if (q[6]?).getD 0 ≠ 0 ∨ (q[7]?).getD 0 ≠ 0 then raise s4 Reg.TRC_STATUS_NONFINITE else s4

def assayEnd (s : State) (p : Nat) (st : Step) (abandoned : Bool) : State :=
  st.watch.foldl (assaySlot p st abandoned) s

/-! ## Abandonment -/

/-- CMP_CTX_ABN and CMP_ABN_LOG (R24, Table 09.3). `code` is the STATE the log gives. -/
def logAbandon (s : State) (p : Nat) (st : Step) (code : Nat) : State :=
  let k := getF s (Reg.CMP_ABN_PTR_NEXT p)
  let s1 := bump s (Reg.CMP_CTX_ABN_ABANDONED p (ctxLocal st.ctx)) 1
  let s2 := setF (setF s1 (Reg.CMP_ABN_LOG_CODE p k) 0x0303) (Reg.CMP_ABN_LOG_CTX p k) (ctxLocal st.ctx)
  let s3 := setF (setF s2 (Reg.CMP_ABN_LOG_STATE p k) code) (Reg.CMP_ABN_LOG_TAG p k) st.tag
  setF (setF s3 (Reg.CMP_ABN_LOG_TIME_US p k) (st.deadline / 500)) (Reg.CMP_ABN_PTR_NEXT p) ((k + 1) % 16)

/-- A step is abandoned (R24, R33, R212, R317): counters and log, staged pages, expiries, trace. The lane still holds it;
the caller takes it out. -/
def abandonStep (s : State) (p : Nat) (st : Step) (code : Nat) : State :=
  let s1 := raise (bump (logAbandon s p st code) (Reg.TRC_PART_COUNT p 1) 1) (Reg.CMP_STATUS_ABANDONED p)
  let s2 := match ctx? s1 st.ctx with
    | some c => setCtx s1 st.ctx (some { c with lastAbandoned := true })
    | none => s1
  let s3 := returnPeerPages (freeStaged s2 p st.plan) st
  let s4 := assayEnd (stepRecord s3 p st 2) p st true
  (planReqs s4 st.plan).foldl (fun a i => match req? a i with
    | some r => if pastDeadline r a.qTime then expireReq a i else a
    | none => a) s4

/-- The ABANDON messages of a group's step, and the ABANDON_ACKs now outstanding (R509). -/
def abandonGroup (s : State) (p : Nat) (st : Step) : State :=
  match st.group with
  | none => s
  | some slot =>
    if st.follower then s
    else
      let nodes := match group? s slot with | some x => x.peers.map (·.node) | none => []
      let s1 := nodes.foldl (fun a n => sendMsg a p st.ctx st.tag n (.abandon (gidOf a slot) st.tag)) s
      setLane s1 p { lane s1 p with nodeAcks := nodes, ackSince := s1.qTime }

/-- A step is discarded as if abandoned, without counters, log or expiries (R453, R454, Table 09.5): its staged pages
return to FREE. -/
def discardStep (s : State) (p : Nat) (st : Step) : State := returnPeerPages (freeStaged s p st.plan) st

/-- The lane drops every step and composition of the contexts `f` names; ABANDON is raised when one held the groves
(R453). The power of a dropped holder stays for the hand-over hold (R529). -/
def dropSteps (s : State) (p : Nat) (f : Nat → Bool) : State :=
  let l := lane s p
  let gone := ((l.cur.toList ++ l.nextStep.toList ++ l.pre).filter fun st => f st.ctx)
  let s1 := gone.foldl (fun a st => discardStep a p st) s
  let held := match l.cur with | some st => f st.ctx | none => false
  let l1 : Lane := { lane s1 p with
    pre := l.pre.filter fun st => !f st.ctx
    nextStep := l.nextStep.filter fun st => !f st.ctx
    composing := l.composing.filter fun c => !f c.ctx
    powerWait := match l.composing with | some c => if f c.ctx then none else l.powerWait | none => l.powerWait }
  let s2 := setLane s1 p l1
  if held then
    let s3 := match l.cur with | some st => abandonGroup s2 p st | none => s2
    clearCur (raiseAbandon s3 p (match l.cur with | some st => st.ctx | none => nobody)) p
  else s2

end Sys2Proof.Machine
end

