-- ==== Sys2Proof/Machine/Admission.lean ====
section
/-! DEFINITION. The admission controller (spec/08): checks, budgets, feasibility, mask copies, deadlines of queued and
waiting requests (spec/01, R34). -/
namespace Sys2Proof.Machine

/-- The tenant's level in credits, signed (spec/08). -/
def level (s : State) (t : Nat) : Int := (rd s (Reg.ADM_TEN_LEVEL t)).toInt

/-- Set the level; it saturates at −2^47 below (spec/08, section Token-rate budget). -/
def setLevel (s : State) (t : Nat) (x : Int) : State :=
  wr s (Reg.ADM_TEN_LEVEL t) (BitVec.ofInt 64 (max x (-(2 ^ 47))))

/-- The admitted count of the device: the sum of the tenants' live counts. -/
def admittedCount (s : State) : Nat := (List.range 64).foldl (fun a t => a + getF s (Reg.ADM_TEN_LIVE_LIVE t)) 0

/-- The floor of a class in sixteenths of BURST. -/
def floorOf (s : State) (t c : Nat) : Nat := bits (rd s (Reg.ADM_TEN_FLOOR t)).toNat (4 * c) 4

/-- The reject code of a holding cause (Table 08.2). -/
def holdCode (h : Nat) : Nat := if h = 1 then 0x0201 else 0x0204

/-- The result of an evaluation. -/
inductive Verdict where
  | refuse (code : Nat)
  | wait (hold : Nat)
  | accept
  deriving DecidableEq, Repr

/-- The cost entry for a partition's groves: of the largest of 1, 2, 4, 8, 16 that does not exceed them and is present
(R294). -/
def costEntry (c : CostRec) (groves : Nat) : Option CostEntry :=
  ((numbered 0 c.entries).filter fun e => 2 ^ e.1 ≤ groves && e.2.aNs != 0).getLast?.map (·.2)

/-- cost(m, b) in nanoseconds (R294). -/
def costOf (e : CostEntry) (m b : Nat) : Nat :=
  ceilDiv (m * b) (2 ^ e.chunkLog2) * e.tStepUs * 1000 + m * b * e.aNs + m * b * b * e.qPs / 1000

/-- Cohorts of a context in ADMITTED or PREFILL: still prefilling (R294). -/
def prefilling (s : State) (g : Nat) : List Cohort :=
  s.cohorts.filterMap fun e => match e.2 with
    | some c =>
      let still := match c.members.head?.bind (req? s) with
        | some r => r.ctx == g && (r.st == .admitted || r.st == .prefill)
        | none => false
      if c.st == .admitted && still then some c else none
    | none => none

/-- The backlog of a context in nanoseconds (R294). -/
def backlogOf (s : State) (g : Nat) (e : CostEntry) : Nat :=
  (prefilling s g).foldl (fun a c =>
    a + costOf e c.members.length c.bucket * (c.bucket - c.committed) / c.bucket) 0

/-- ceil(deficit / RATE): the budget wait in ms (R290). -/
def budgetWait (s : State) (t c chg : Nat) : Nat :=
  let room : Int := level s t - getF s (Reg.ADM_TEN_RESERVED_RESERVED t) - chg
  let need : Int := floorOf s t c * getF s (Reg.ADM_TEN_BURST_BURST t)
  let d := (need - 16 * room).toNat
  let rate := getF s (Reg.ADM_TEN_RATE_RATE t)
  if rate = 0 then 0 else ceilDiv d (16 * rate)

/-- The budget check (R290). -/
def budgetOk (s : State) (t c chg : Nat) : Bool :=
  let room : Int := level s t - getF s (Reg.ADM_TEN_RESERVED_RESERVED t) - chg
  decide ((floorOf s t c * getF s (Reg.ADM_TEN_BURST_BURST t) : Nat) ≤ 16 * room)

/-- The ARRIVED members of a cohort with their requests. -/
def arrivedMembers (s : State) (c : Cohort) : List (Nat × Req) :=
  c.members.filterMap fun i => match req? s i with
    | some r => if r.st = .arrived then some (i, r) else none
    | none => none

/-- The prefill pages of a cohort (R291). -/
def prefillPages (k : Pkg) (bucket : Nat) (ms : List (Nat × Req)) : Nat :=
  ms.foldl (fun a e => a + memberPages k bucket (e.2.sub.maskAddr != 0)) 0

/-- The smallest nonzero TTFT_US of the members, in ticks (R293). -/
def ttftOf (ms : List (Nat × Req)) : Option Nat :=
  ((ms.map fun e => e.2.sub.ttftUs).filter (· != 0)).min?.map (· * 500)

/-- The feasibility check with a budget wait of `bw` ms (R293, R294); none: it applies and no cost record serves. -/
def feasible (s : State) (c : Cohort) (k : Pkg) (slot bw : Nat) : Option Bool :=
  let ms := arrivedMembers s c
  match ttftOf ms with
  | none => some true
  | some dl =>
    if !isSet s (Reg.ADM_TEN_CTL_FEAS_EN c.tenant) then some true
    else
      let p := (partOf s c.tenant).getD 0
      match s.costs.find? (·.modelId == k.modelId) with
      | none => none
      | some rec =>
        match costEntry rec (grovesOf s p) with
        | none => none
        | some e =>
          let g := (servingCtx s slot c.cls).getD 0
          let d := getF s (Reg.ADM_CTX_DSHARE g)
          let work := backlogOf s g e + costOf e ms.length c.bucket
          let pred := (s.qTime - c.arrival) * 2 + work * 256 / (256 - d) + rec.marginUs * 1000
          some (decide (pred + 1000000 * bw ≤ 2 * dl))

/-- Table 08.2, the checks in order. -/
def evaluate (s : State) (c : Cohort) : Verdict :=
  let t := c.tenant
  let ms := arrivedMembers s c
  let m := ms.length
  let en (f : Fld) := isSet s f
  if !en (Reg.ADM_TEN_CTL_OPEN t) then .refuse 0x0209
  else match modelFor s t c.model with
    | none => .refuse 0x020B
    | some (slot, k) =>
      let chg := m * c.bucket * getF s (Reg.ADM_TEN_CTL_W_PF t)
      let burst := getF s (Reg.ADM_TEN_BURST_BURST t)
      let cap := getF s (Reg.ADM_TEN_CONC_CONC_CAP t)
      let mcap := getF s (Reg.MDL_SLOT_CONC_CONC_CAP slot)
      let total := admittedCount s
      if !c.evaluated && getF s (Reg.ADM_TEN_QDEPTH_QDEPTH t) < getF s (Reg.ADM_TEN_QUEUED_QUEUED t) then .refuse 0x0205
      else if 245760 < total + m then .refuse 0x0206
      else if (feasible s c k slot 0).isNone then .refuse 0x020A
      else if en (Reg.ADM_TEN_CTL_KVQ_EN t) && getF s (Reg.ADM_TEN_KVQ_KVQ_PAGES t) <
          getF s (Reg.ADM_TEN_KVUSE_KVUSE t) + getF s (Reg.ADM_TEN_KVRSV_KVRSV t) + prefillPages k c.bucket ms then
        .refuse 0x0203
      else if en (Reg.ADM_TEN_CTL_CONC_EN t) && (cap < m || mcap < m) then .refuse 0x0204
      else if en (Reg.ADM_TEN_CTL_CONC_EN t) &&
          (cap < getF s (Reg.ADM_TEN_LIVE_LIVE t) + m || mcap < getF s (Reg.MDL_SLOT_LIVE_LIVE slot) + m) then
        if feasible s c k slot 0 = some false then .refuse 0x0204 else .wait 2
      else if en (Reg.ADM_TEN_CTL_BUDGET_EN t) && (burst * (16 - floorOf s t c.cls) < 16 * chg ||
          (getF s (Reg.ADM_TEN_RATE_RATE t) == 0 && !budgetOk s t c.cls chg)) then .refuse 0x0201
      else if en (Reg.ADM_TEN_CTL_BUDGET_EN t) && !budgetOk s t c.cls chg then
        if feasible s c k slot (budgetWait s t c.cls chg) = some false then .refuse 0x0201 else .wait 1
      else if feasible s c k slot 0 = some false then .refuse 0x0202
      else .accept

/-- Every ARRIVED member of the cohort ends REJECTED with one status (R15, R303), and the cohort leaves its queue. -/
def rejectCohort (s : State) (co : Nat) (code : Nat) : State :=
  match cohort? s co with
  | none => s
  | some c =>
    let s1 := c.members.foldl (fun a i => endReq a i .rejected code false) s
    let s2 := setAdmQueue (setCohort s1 co none) c.tenant c.cls ((admQueue s1 c.tenant c.cls).filter (· != co))
    let s3 := showHold (bump s2 (Reg.TRC_RE_COUNT 2) 1) c.tenant c.cls
    let s4 := if code = 0x0206 then raise s3 Reg.ADM_STATUS_TABLE_FULL else s3
    let s5 := if code = 0x020A then raise s4 Reg.ADM_STATUS_COST_MISS else s4
    if code = 0x0207 ∨ code = 0x0208 then raise s5 Reg.ADM_STATUS_MASK_FAIL else s5

/-- Take a MASK page for each member that carries a mask; the flag says that one could not be had (R298). -/
def takeMasks (p : Nat) : State → List (Nat × Req) → State × Bool
  | s, [] => (s, true)
  | s, (i, r) :: rest =>
    if r.sub.maskAddr = 0 then takeMasks p s rest
    else match takePages s p [.mask (hnat i r)] (.tenant r.tenant) with
      | none => (s, false)
      | some s1 =>
        let pg := (pagesWhere s1 p (· == .mask (hnat i r))).head?
        let s2 := setReq s1 i (some { r with maskPage := pg, charged := true })
        let n := match pkgOf s2 r.slot with | some k => ceilDiv k.vocab 8 | none => 0
        let s3 := chargeHeld (chargeHeld s2 p 1 (.mask i) n) p 0 (.mask i) n
        takeMasks p (useReservation (charge s3 r.tenant 1) i 1) rest

/-- An accepted cohort (R289): counts, credits, reservation, masks; ADMITTED at once when nobody carries a mask. -/
def acceptCohort (s : State) (co : Nat) (c : Cohort) (slot : Nat) (k : Pkg) : State :=
  let t := c.tenant
  let ms := arrivedMembers s c
  let m := ms.length
  let w := getF s (Reg.ADM_TEN_CTL_W_PF t)
  let s1 := bump (bump s (Reg.ADM_TEN_LIVE_LIVE t) m) (Reg.MDL_SLOT_LIVE_LIVE slot) m
  let s2 := bump s1 (Reg.ADM_TEN_RESERVED_RESERVED t) (m * c.bucket * w)
  let pages := prefillPages k c.bucket ms
  let s3 := bump s2 (Reg.ADM_TEN_KVRSV_KVRSV t) pages
  let s4 := setCohort s3 co
    (some { c with st := .copying, wPf := w, hold := 0, members := ms.map (·.1), kvLeft := pages })
  let s5 := setAdmQueue s4 t c.cls ((admQueue s4 t c.cls).filter (· != co))
  let s6 := showHold (bump s5 (Reg.TRC_RE_COUNT 1) 1) t c.cls
  let e := takeMasks ((partOf s t).getD 0) s6 (arrivedMembers s6 { c with members := ms.map (·.1) })
  if e.2 then (if ms.all fun x => x.2.sub.maskAddr == 0 then admitCohort e.1 co else e.1)
  else rejectCohort (lower e.1 (Reg.TRC_RE_COUNT 1) 1) co 0x0207

/-- A waiting head is rejected: a deadline has passed or its wait exceeds QWAIT (R302). -/
def waitOver (s : State) (c : Cohort) : Bool :=
  let q := getF s (Reg.ADM_TEN_CTL_QWAIT_10MS c.tenant)
  (arrivedMembers s c).any (fun e => pastQueueDeadline e.2 s.qTime) ||
  (c.hold != 0 && q != 0 && 5000000 * q < s.qTime - c.waitSince)

/-- The head of queue (t, c) is evaluated (R288, R289, R302); the flag says that it waits. -/
def evalHead (s : State) (t c : Nat) : State × Bool :=
  match (admQueue s t c).head? with
  | none => (s, false)
  | some co =>
    match cohort? s co with
    | none => (s, false)
    | some h =>
      if h.hold ≠ 0 ∧ waitOver s h = true then (rejectCohort s co (holdCode h.hold), false)
      else match evaluate s h with
        | .refuse code => (rejectCohort s co code, false)
        | .wait x =>
          let since := if h.hold = 0 then s.qTime else h.waitSince
          (showHold (setCohort s co (some { h with hold := x, waitSince := since, evaluated := true })) t c, true)
        | .accept =>
          match modelFor s t h.model with
          | some (slot, k) => (acceptCohort s co { h with evaluated := true } slot k, false)
          | none => (s, false)

/-- The scan passes over queues 4t + c in the order given: a head that waits ends its tenant's part of the round (R299).
The result names the tenant whose head waited last, if the queues after it are its own. -/
def scanQueues (s : State) (ks : List Nat) : State × Option Nat :=
  ks.foldl (fun a k =>
    if a.2 = some (k / 4) then a
    else
      let e := evalHead a.1 (k / 4) (k % 4)
      (e.1, if e.2 then some (k / 4) else none)) (s, none)

/-- The queues from where the scan stands to queue (t, c): tenants in round robin, classes in order. -/
def scanPath (s : State) (t c : Nat) : List Nat :=
  (List.range ((4 * t + c + 256 - s.scan.next % 256) % 256 + 1)).map fun i => (s.scan.next + i) % 256

/-- ADMISSION_EVALUATE (R288, R289, R299 to R302): the scan goes on to the head of queue (t, c), and evaluates it and every
head it comes by, unless a lower class's head of the tenant waits. -/
def execAdmissionEvaluate (t c : Nat) (s : State) : Host.Outcome State Fault Refusal :=
  if !serving s then .next s
  else
    let e := scanQueues s (scanPath s t c)
    let next := if e.2 = some t then 4 * (t + 1) % 256 else (4 * t + c + 1) % 256
    .next { e.1 with scan := { e.1.scan with next := next } }

/-- The waiting heads among queues `ks` are evaluated again, in the order of the scan (R299, R301). -/
def recheckHeads (s : State) (ks : List Nat) : State :=
  let due := (((List.range 256).map fun i => (s.scan.next + i) % 256).filter fun k => ks.contains k).filter fun k =>
    headHold s (admQueue s (k / 4) (k % 4)) != 0
  (scanQueues s due).1

/-- The waiting heads that an end or an admission made due are evaluated again (R301). -/
def recheckDue (s : State) : State :=
  if s.scan.due.isEmpty || !serving s then s
  else recheckHeads { s with scan := { s.scan with due := [] } } s.scan.due

/-- Every tenant's level takes its RATE, up to BURST (R289). -/
def refillLevels (s : State) : State :=
  (List.range 64).foldl (fun a t =>
    setLevel a t (min (level a t + getF a (Reg.ADM_TEN_RATE_RATE t)) (getF a (Reg.ADM_TEN_BURST_BURST t)))) s

/-- BUDGET_REFILL (R289, R301): every level is refilled, once per millisecond of device time, and every waiting head is
evaluated again. -/
def execBudgetRefill (s : State) : Host.Outcome State Fault Refusal :=
  if !serving s || s.qTime / 500000 ≤ s.refills then .next s
  else
    let s1 := refillLevels s
    .next (recheckHeads { s1 with refills := s.refills + 1 } ((s1.admQ.filter fun e => e.2 != []).map (·.1)))

/-- QUEUE_DEADLINE_SCAN (R303). -/
def execQueueDeadlineScan (s : State) : Host.Outcome State Fault Refusal :=
  if !serving s then .next s
  else
    .next (s.cohorts.foldl (fun a e =>
      match e.2 with
      | some c =>
        if c.st = .queued ∧ (arrivedMembers a c).any (fun x => pastQueueDeadline x.2 a.qTime) then
          rejectCohort a e.1 (if c.hold = 0 then 0x0202 else holdCode c.hold)
        else a
      | none => a) s)

/-- Entries of a stop or bias list read again are taken modulo V, each change counted (R348). -/
def mutated (v : Nat) (xs : List Nat) : Nat := (xs.filter (v ≤ ·)).length

/-- The sampler page of a request (Table 10.2). -/
def samplerPage (r : Req) : List (Nat × Byte) :=
  let hist := r.hist.flatMap fun e => leBytes 8 (e.1 + 2 ^ 18 * e.2.1 + 2 ^ 36 * e.2.2)
  let bias := r.bias.flatMap fun e => leBytes 4 e.1 ++ leBytes 4 e.2.toNat
  let stops := r.stops.flatMap fun x => leBytes 4 x.length ++ (x ++ List.replicate (16 - x.length) 0).flatMap (leBytes 4)
  let tail := r.tail.flatMap (leBytes 4)
  numbered 0 r.mask ++ numbered 0x8000 hist ++ numbered 0xC000 bias ++ numbered 0xC100 stops ++ numbered 0xC400 tail ++
    numbered 0xC440 (leBytes 4 (r.hist.length + 2 ^ 12 * r.tail.length))

/-- Write a request's sampler page to its MASK page. -/
def writeSampler (s : State) (i : Nat) : State :=
  match req? s i with
  | some r =>
    match r.maskPage with
    | some pg =>
      let p := r.ctx / 32
      let a := arenaBase s p + 65536 * pg
      (samplerPage r).foldl (fun x e => (storePart x p (a + e.1) [e.2]).1) (zeroPage s p pg)
    | none => s
  | none => s

/-- The SAMPPAGE copies of a request's sampler page (R511): one to each follower that holds shards; the flag says that one
has no route. -/
def copySampler (s : State) (i : Nat) : State × Bool :=
  match req? s i with
  | none => (s, false)
  | some r => match ledGroup s r.ctx with
    | none => (s, false)
    | some (slot, x) =>
      (x.peers.filter fun q => q.info.shards != 0).foldl (fun a q =>
        if (routeTo a.1 q.node).isNone then (a.1, true)
        else (sendMsg a.1 (ctxPart r.ctx) r.ctx 0 q.node (.sampPage (gidOf s slot) i r.mask r.bias), a.2)) (s, false)

/-- The mask copy of entry `i` is over: its traffic waits no more. Nothing waits of a copy that is complete (R421). -/
def copyWaits (s : State) (i : Nat) (r : Req) : Bool := waitsFor s (r.ctx / 32) (· == .mask i)

/-- MASK_COPY_DONE (R247, R298, R348, R421, R511): not before the last byte of the mask has issued. -/
def execMaskCopyDone (i : Nat) (mask ext : Option (List Byte)) (s : State) : Host.Outcome State Fault Refusal :=
  match req? s i with
  | none => .next s
  | some r =>
    match cohort? s r.cohort, pkgOf s r.slot with
    | some c, some k =>
      if c.st ≠ .copying ∨ r.st ≠ .arrived ∨ r.maskReady ∨ !canDma s (tenantFn s r.tenant) ||
          mask.isSome && copyWaits s i r then .next s
      else match mask with
        | none => .next (rejectCohort s r.cohort 0x0208)
        | some mb =>
          if r.sub.extAddr ≠ 0 ∧ ext.isNone then .next (rejectCohort s r.cohort 0x0208)
          else
            let eb := ext.getD []
            let b0 := if r.sub.extAddr = 0 then [] else extBias r.sub eb
            let t0 := if r.sub.extAddr = 0 then [] else extStops r.sub eb
            let n := mutated k.vocab (b0.map (·.1)) + mutated k.vocab t0.flatten
            let r1 : Req := { r with
              mask := mb.take (ceilDiv k.vocab 8), maskReady := true, bias := b0.map fun e => (e.1 % k.vocab, e.2),
              stops := t0.map fun x => x.map (· % k.vocab) }
            let s0 := chargeTenant s r.tenant 1 eb.length
            let s1 := bump (setReq s0 i (some r1)) (Reg.TRC_TEN_COUNT r.tenant 8) n
            let e := copySampler (writeSampler s1 i) i
            let s2 := e.1
            .next (if e.2 then rejectCohort s2 r.cohort 0x0208 else admitCopied s2 r.cohort)
    | _, _ => .next s

/-- The request is among those a step is being composed of: it stays until the step leaves (Table 09.5). -/
def inCompose (s : State) (i : Nat) (r : Req) : Bool :=
  let l := lane s (r.ctx / 32)
  match l.composing, l.powerWait with
  | some c, none => c.work.any fun w => w.seqs.contains (hnat i r)
  | _, _ => false

/-- DEADLINE_CHECK (R34): requests in no running step whose hard deadline has passed end EXPIRED. -/
def execDeadlineCheck (s : State) : Host.Outcome State Fault Refusal :=
  if !serving s then .next s
  else
    .next ((allReqs s).foldl (fun a e =>
      match req? a e.1 with
      | some r =>
        if isAdmitted r.st && !inPlan a e.1 r && !inCompose a e.1 r && pastDeadline r a.qTime then expireOut a e.1 a.qTime else a
      | none => a) s)

end Sys2Proof.Machine
end

