-- ==== Sys2Proof/Machine/Compose.lean ====
section
/-! DEFINITION. Step composition (spec/09, R311 to R334; spec/05, R166): eligibility, slack, the composition algorithm,
the choice of holder, and entry into ISSUE. -/
namespace Sys2Proof.Machine

/-! ## Eligibility and slack -/

/-- The sequence of entry `i` is eligible for a step of context `g` composed at `now` (R311). -/
def eligible (s : State) (g now i : Nat) (r : Req) : Bool :=
  r.ctx == g && (r.st == .admitted || r.st == .prefill || (r.st == .decode && !r.parking && !r.unparking)) &&
    !inPlan s i r && !pastDeadline r now

/-- The batch set of a tenant: its batching group, or itself alone (R425). -/
def batchSet (s : State) (t : Nat) : Nat :=
  let b := getF s (Reg.PRT_TEN_BGROUP t)
  if b = 0 then t else 64 + b

/-- The slack of a sequence (R314, Table 09.2). -/
def slackOf (now t chunkLog2 : Nat) (r : Req) : Int :=
  let k : Nat := if r.st = .decode ∨ r.st = .parked then 0 else ceilDiv (r.bucket - r.append) (2 ^ chunkLog2)
  let q : Nat := if r.sub.maxNew = 0 then 1 else min 64 (r.sub.maxNew - r.emitted)
  let terms : List Int :=
    (if r.emitted = 0 ∧ ttftDeadline r ≠ 0 then [((ttftDeadline r : Nat) : Int) - now - (t * k : Nat)] else []) ++
    (if r.st = .decode ∧ r.sub.bttUs ≠ 0 then [((r.lastCommit + 500 * r.sub.bttUs : Nat) : Int) - now - t] else []) ++
    (if totalDeadline r ≠ 0 then [((totalDeadline r : Nat) : Int) - now - (t * (k + q) : Nat)] else [])
  max (-(2 ^ 47)) (terms.foldl min (2 ^ 47 - 1))

/-- R315: ascending slack, class, arrival stamp, table index. -/
def workBefore (a b : WorkItem) : Bool :=
  if a.slack ≠ b.slack then decide (a.slack < b.slack)
  else if a.cls ≠ b.cls then decide (a.cls < b.cls)
  else if a.arrival ≠ b.arrival then decide (a.arrival < b.arrival)
  else decide (a.index < b.index)

def workIns (x : WorkItem) : List WorkItem → List WorkItem
  | [] => [x]
  | y :: ys => if workBefore x y then x :: y :: ys else y :: workIns x ys

/-- The eligible items of context `g` at `now`, in order. -/
def workOf (s : State) (g now : Nat) : List WorkItem :=
  let t := tEst s g
  let cl := getF s (Reg.CMP_CTX_CHUNK_CHUNK_LOG2 (ctxPart g) (ctxLocal g))
  let dec := ((allReqs s).filter fun e => e.2.st == .decode && eligible s g now e.1 e.2).map fun e =>
    ({ prefill := false, cohort := e.2.cohort, seqs := [hnat e.1 e.2], slack := slackOf now t cl e.2, cls := e.2.cls,
       arrival := e.2.arrival, index := e.1, set := batchSet s e.2.tenant } : WorkItem)
  let pre := s.cohorts.filterMap fun e => match e.2 with
    | some c =>
      let ms := c.members.filterMap fun i => (req? s i).map fun r => (i, r)
      match ms with
      | [] => none
      | (i, r) :: _ =>
        if c.st = .admitted ∧ ms.all (fun x => (x.2.st == .admitted || x.2.st == .prefill) &&
            eligible s g now x.1 x.2) then
          some ({ prefill := true, cohort := e.1, seqs := ms.map fun x => hnat x.1 x.2,
                  slack := (ms.map fun x => slackOf now t cl x.2).foldl min (2 ^ 47 - 1), cls := c.cls,
                  arrival := c.arrival, index := i, set := batchSet s r.tenant } : WorkItem)
        else none
    | none => none
  (dec ++ pre).foldr workIns []

/-- The context may compose at all: it exists, is no draft, no eviction or loss bars it, its model is READY or DRAINING
(R312, R325, R391, R396, Table 09.5). -/
def mayCompose (s : State) (g : Nat) : Bool :=
  match ctx? s g with
  | some c =>
    let st := getF s (Reg.MDL_SLOT_STATE c.slot)
    !c.barred && !isDraft s g && (st == 3 || st == 4)
  | none => false

/-- The context has an eligible item and no preempted step (R312). -/
def hasWork (s : State) (g : Nat) : Bool :=
  mayCompose s g && !((lane s (ctxPart g)).pre.any fun st => st.ctx == g) && !(workOf s g s.qTime).isEmpty

/-! ## The composition algorithm -/

/-- A plan being built: positions, sequences, items, FREE pages left here and on each follower, completion slots taken,
and whether an item was skipped for want of pages or of slots. -/
structure Build where
  tok : Nat
  seq : Nat
  plan : List PlanItem
  free : Nat
  peers : List (Peer × Nat)
  cqs : List (Nat × Nat)
  pageSkip : Bool
  cqSkip : Bool
  deriving DecidableEq, Repr

/-- Slots of a completion ring (key 4t + c) the plan being built has taken. -/
def takenCq (b : Build) (k : Nat) : Nat := b.cqs.foldl (fun a e => if e.1 = k then a + e.2 else a) 0

/-- The available slots of a completion ring (key 4t + c) without those that its head has freed since the entry to COMPOSE
(Table 09.5). -/
def cqAvailAt (s : State) (heads : List (Nat × Nat)) (k : Nat) : Nat :=
  match heads.find? fun e => e.1 == k with
  | some e => cqAvail s (k / 4) (k % 4) -
      ((cq s (k / 4) (k % 4)).head + cqSize s (k / 4) (k % 4) - e.2) % cqSize s (k / 4) (k % 4)
  | none => cqAvail s (k / 4) (k % 4)

/-- The slots can be reserved (R29, R317). -/
def cqFits (s : State) (heads : List (Nat × Nat)) (b : Build) (need : List (Nat × Nat)) : Bool :=
  need.all fun e =>
    takenCq b e.1 + need.foldl (fun a x => if x.1 = e.1 then a + x.2 else a) 0 ≤ cqAvailAt s heads e.1

/-- Add an item if its slots and pages can be reserved, else skip it (R316). -/
def addItem (s : State) (c : Composing) (b : Build) (it : PlanItem) : Build :=
  if !cqFits s c.heads b it.cqs then { b with cqSkip := true }
  else
    let u := itemUses s c.ctx c.draft it
    let n := u.1.length + u.2.length
    if n ≤ b.free ∧ b.peers.all (fun e => peerNeed s e.1 it ≤ e.2) then
      { b with
        tok := b.tok + it.seqs.length * it.n
        seq := b.seq + it.seqs.length
        plan := b.plan ++ [it]
        free := b.free - n
        peers := b.peers.map fun e => (e.1, e.2 - peerNeed s e.1 it)
        cqs := b.cqs ++ it.cqs }
    else { b with pageSkip := true }

/-- The sequences of an item that are still there to be composed: a CANCEL during COMPOSE leaves its sequence out
(Table 09.5), and so does a park. -/
def seqsLeft (s : State) (w : WorkItem) : List (Nat × Req) :=
  w.seqs.filterMap fun h => (reqByHandle s h).filter fun e =>
    if w.prefill then e.2.st == .admitted || e.2.st == .prefill
    else e.2.st == .decode && !e.2.parking && !e.2.unparking

/-- One eligible decode item (R316). -/
def addDecode (s : State) (c : Composing) (dcap : Nat) (b : Build) (w : WorkItem) : Build :=
  match seqsLeft s w with
  | [(i, r)] =>
    let d := draftsOf c.draft r
    let n := 1 + d
    if b.seq = c.seqCap ∨ dcap < b.tok + n then b
    else addItem s c b
      { prefill := false, cohort := w.cohort, seqs := [hnat i r], n := n, d := d, last := false,
        cqs := [(4 * r.tenant + r.sub.cq, ceilDiv n 5)] }
  | _ => b

/-- One eligible prefill item (R316, R318). -/
def addPrefill (s : State) (c : Composing) (b : Build) (w : WorkItem) : Build :=
  match seqsLeft s w with
  | [] => b
  | (i, r) :: rest =>
    let ms := (i, r) :: rest
    let m := ms.length
    let left := r.bucket - r.append
    let n := min (min (2 ^ c.chunkLog2) left) (256 * ((c.budget - b.tok) / (256 * m)))
    if n = 0 ∨ c.seqCap < b.seq + m then b
    else addItem s c b
      { prefill := true, cohort := w.cohort, seqs := ms.map fun e => hnat e.1 e.2, n := n, d := 0, last := n == left,
        cqs := if n = left then ms.map fun e => (4 * e.2.tenant + e.2.sub.cq, 1) else [] }

/-- Trim the plan to the allowance (R316, R320). -/
def trimPlan (s : State) (c : Composing) : Nat → List PlanItem → List PlanItem
  | 0, plan => plan
  | fuel + 1, plan =>
    if planEnergy s c.ctx c.draft plan ≤ c.allow then plan
    else match plan.getLast? with
      | none => []
      | some z =>
        if z.prefill ∧ 256 < z.n then
          trimPlan s c fuel (plan.dropLast ++ [{ z with n := z.n - 256, last := false, cqs := [] }])
        else trimPlan s c fuel plan.dropLast

/-- Rounds of trimming that can be needed. -/
def trimFuel (plan : List PlanItem) : Nat := plan.foldl (fun a it => a + it.n / 256 + 1) 1

/-- Context `g` enters COMPOSE: the time, the allowance, the eligible items of the batch set of the item of least slack, the
token budget, halved after an abandon, and what else a composition takes as it is now (R316, R320, R331, R427, Table 09.5,
Table 11.6). -/
def openCompose (s : State) (p g : Nat) : Composing :=
  let l := ctxLocal g
  let work := workOf s g s.qTime
  let set := match work with | w :: _ => w.set | [] => 0
  let mine := work.filter fun w => w.set == set
  let bud := getF s (Reg.CMP_CTX_BUDGET_TOKEN_BUDGET p l)
  let back := isSet s (Reg.CMP_LANE_CTL_BACKOFF_EN p) && match ctx? s g with | some c => c.lastAbandoned | none => false
  let rings := (mine.flatMap fun w => w.seqs.filterMap fun h => (reqByHandle s h).map fun e =>
    4 * e.2.tenant + e.2.sub.cq).eraseDups
  { ctx := g, since := s.qTime, allow := allowance s p g, work := mine
    budget := if back then max 1 (bud / 2) else bud
    seqCap := getF s (Reg.CMP_CTX_BUDGET_SEQ_CAP p l)
    pfRsv := getF s (Reg.CMP_CTX_CHUNK_PF_RSV p l)
    chunkLog2 := getF s (Reg.CMP_CTX_CHUNK_CHUNK_LOG2 p l)
    draft := draftOf s g
    heads := rings.map fun k => (k, (cq s (k / 4) (k % 4)).head) }

/-- The plan of a composition before trimming (R316). -/
def buildPlan (s : State) (c : Composing) : Build :=
  let pf := c.work.any (·.prefill)
  let dcap := c.budget - (if pf then min c.pfRsv c.budget else 0)
  let peers := match ledGroup s c.ctx with | some x => x.2.peers.map fun e => (e, e.pages) | none => []
  let b0 : Build :=
    { tok := 0, seq := 0, plan := [], free := freePages s (ctxPart c.ctx), peers := peers, cqs := [], pageSkip := false,
      cqSkip := false }
  let b1 := (c.work.filter fun w => !w.prefill).foldl (addDecode s c dcap) b0
  (c.work.filter (·.prefill)).foldl (addPrefill s c) b1

/-- Reserve the pages of a plan: FREE pages enter STAGED (R211). Its requests' entries are in engine SRAM (R69). -/
def reservePlan (s : State) (c : Composing) (plan : List PlanItem) : State :=
  let p := ctxPart c.ctx
  let u := plan.foldl (fun a it => let e := itemUses s c.ctx c.draft it; (a.1 ++ e.1, a.2 ++ e.2)) ([], [])
  let s0 := useEntries s (planReqs s plan)
  let s1 := (takePages s0 p u.1 (.ctx c.ctx)).getD s0
  (takePages s1 p u.2 (.ctx (c.draft.getD c.ctx))).getD s1

/-- The shards of a context's step program on this device, and of its draft's. -/
def shardsOf (s : State) (g : Nat) : List Nat :=
  match slotOf s g with
  | some x => (List.range x.prog.shards).map (x.prog.firstShard + ·)
  | none => []

/-- The step a plan makes. -/
def mkStep (s : State) (c : Composing) (plan : List PlanItem) : Step :=
  { ctx := c.ctx, tag := 0, st := .issue, issueAt := 0, deadline := 0, composeAt := c.since, plan := plan, drafts := [],
    draftStop := [], drawn := [], cands := [], shardsLeft := shardsOf s c.ctx, draftShards := [], sampleAt := 0, held := [],
    running := [], stopped := [], kept := [], ackWait := [], lost := 0, preAt := 0, saved := [], modeI := false,
    preempted := false, draft := c.draft, tokens := [],
    power := stepPower (planEnergy s c.ctx c.draft plan) (tEst s c.ctx), raisedAt := 0, preBy := none, assay := [],
    watch := [], group := (ledGroup s c.ctx).map (·.1), follower := false, candWait := [], fplan := [] }

/-- The lane leaves COMPOSE. -/
def endCompose (s : State) (p : Nat) : State := setLane s p { lane s p with composing := none, powerWait := none }

/-! ## Entry into ISSUE -/

/-- What a PLAN message names of a plan (R503, R504). -/
def planMsg (s : State) (plan : List PlanItem) : List PlanSeq :=
  plan.flatMap fun it => it.seqs.filterMap fun h => (reqByHandle s h).map fun e =>
    { idx := e.1, first := e.2.append, n := it.n, sampled := !it.prefill || it.last, temp := e.2.sub.temp,
      topK := e.2.sub.topK, repPen := e.2.sub.repPen, presPen := e.2.sub.presPen, freqPen := e.2.sub.freqPen }

/-- The PLAN messages of a group step, and the leader's page counts (R502, R503). -/
def sendPlan (s : State) (p : Nat) (st : Step) : State :=
  match st.group.bind fun slot => (group? s slot).map fun x => (slot, x) with
  | none => s
  | some (slot, x) =>
    let s1 := mapPeers s slot fun q => { q with pages := q.pages - st.plan.foldl (fun a it => a + peerNeed s q it) 0 }
    x.peers.foldl (fun a q => sendMsg a p st.ctx st.tag q.node (.plan (gidOf s slot) st.tag (planMsg s st.plan))) s1

/-- Nodes of the followers of a step's group. -/
def followerNodes (s : State) (st : Step) : List Nat :=
  match st.group.bind (group? s) with
  | some x => x.peers.map (·.node)
  | none => []

/-- Followers that hold shards: those whose CAND the merge waits for (R506). -/
def candNodes (s : State) (st : Step) : List Nat :=
  match st.group.bind (group? s) with
  | some x => (x.peers.filter fun q => q.info.shards != 0).map (·.node)
  | none => []

/-- The composed step enters ISSUE when the groves are free of any step and every ABANDON is acknowledged (R19, R67, R72,
R158, R170). -/
def issueStep (s : State) (p : Nat) : State :=
  let l := lane s p
  match l.nextStep with
  | none => s
  | some st0 =>
    if l.cur.isSome || !l.acks.isEmpty || !l.nodeAcks.isEmpty || l.restoreAt.isSome || chipFaulted s || l.halted then s
    else match ctx? s st0.ctx with
      | none => s
      | some c =>
        let st : Step := { st0 with
          tag := c.tag
          issueAt := s.qTime
          deadline := s.qTime + 500 * getF s (Reg.CMP_CTX_LIMIT_LIMIT_US p (ctxLocal st0.ctx))
          ackWait := followerNodes s st0
          candWait := candNodes s st0 }
        let s1 := setCtx s st0.ctx (some { c with tag := (c.tag + 1) % 65536 })
        let s2 := setLane s1 p { lane s1 p with nextStep := none, cur := some st, lastHolder := ctxLocal st.ctx }
        let s3 := bump s2 (Reg.CMP_LANE_STEPS_STEPS p) 1
        sendPlan (stepRecord (setPower s3 p st.power) p st 0) p st

/-! ## COMPOSE -/

/-- The composition of the lane's context, with its outcome: a step, nothing, or a power wait (R316, R321, R322). -/
def composeNow (s : State) (p : Nat) (c : Composing) : State :=
  let g := c.ctx
  let b := buildPlan s c
  let s1 := if b.pageSkip then raise s (Reg.CMP_STATUS_PAGE_STALL p) else s
  let s2 := if b.cqSkip then raise s1 (Reg.CMP_STATUS_CQ_STALL p) else s1
  let s3 := setLane s2 p { lane s2 p with pageSkip := b.pageSkip }
  let plan := trimPlan s3 c (trimFuel b.plan) b.plan
  let s4 := if plan = b.plan then s3
    else notePower (bumpSat (raise s3 (Reg.CMP_STATUS_TRIMMED p)) (Reg.CMP_LANE_CNT_TRIMMED p) 1) true
  if b.plan.isEmpty then
    let s5 := endCompose s4 p
    setLane s5 p { lane s5 p with stalled := g :: (lane s5 p).stalled.filter (· != g) }
  else if plan.isEmpty then
    let s5 := bumpSat (raise s4 (Reg.CMP_STATUS_POWER_WAIT p)) (Reg.CMP_LANE_CNT_POWER_WAITS p) 1
    notePower (setLane s5 p { lane s5 p with composing := some c, powerWait := some s5.qTime }) false
  else
    let s5 := endCompose (reservePlan s4 c plan) p
    issueStep (setLane s5 p { lane s5 p with nextStep := some (mkStep s5 c plan) }) p

/-- STEP_COMPOSE (R316): the composer lane composes the step of its context. An eviction accepted since waits for the step
(Table 09.5). -/
def execStepCompose (p : Nat) (s : State) : Host.Outcome State Fault Refusal :=
  match (lane s p).composing with
  | none => .next s
  | some c =>
    if !serving s || (lane s p).powerWait.isSome then .next s
    else if (ctx? s c.ctx).isSome then .next (composeNow s p c)
    else .next (endCompose s p)

/-- A lane in a power wait composes again, with the time and the allowance of the new entry (R322). -/
def retryCompose (s : State) (p : Nat) : State :=
  match (lane s p).composing with
  | none => s
  | some c =>
    let s1 := setLane s p { lane s p with powerWait := none }
    if mayCompose s c.ctx then composeNow s1 p (openCompose s p c.ctx)
    else endCompose s1 p

/-- POWER_WAIT_RETRY (R322): 50 µs after the failed composition. -/
def execPowerWaitRetry (p : Nat) (s : State) : Host.Outcome State Fault Refusal :=
  match (lane s p).powerWait with
  | none => .next s
  | some t => if !serving s || s.qTime < t + 25000 then .next s else .next (retryCompose s p)

/-- The allowance changes: every lane in a power wait composes again (R322, R533), but for the partition whose own step
boundary it is. -/
def retryWaits (s : State) (but : Option Nat) : State :=
  (List.range 16).foldl (fun a p =>
    if (lane a p).powerWait.isNone || but == some p then a else retryCompose a p) s

/-! ## The choice of holder -/

/-- The effective class: 0 once the context has waited longer than AGE_MS since it was first passed over (R166). -/
def effClass (s : State) (g : Nat) : Nat :=
  let p := ctxPart g
  match (lane s p).passed.find? fun e => e.1 == g with
  | some e => if 500000 * getF s (Reg.CMP_SWITCH_CTL_AGE_MS p) < s.qTime - e.2 then 0 else classOf s g
  | none => classOf s g

/-- The first of the contexts in ascending local number after the last holder, wrapping to 0 (R166). -/
def afterHolder (last : Nat) (gs : List Nat) : Option Nat :=
  match gs.find? fun g => last < ctxLocal g with
  | some g => some g
  | none => gs.head?

/-- Contexts with work that were passed over at this boundary, since the first such boundary (R166). -/
def notePassed (s : State) (p : Nat) (work : List Nat) (chosen : Option Nat) : State :=
  let old := (lane s p).passed
  let now := work.filterMap fun g =>
    if some g = chosen then none
    else some (match old.find? fun e => e.1 == g with | some e => e | none => (g, s.qTime))
  setLane s p { lane s p with passed := now }

/-- The most recently preempted step is restored: its groves are taken from now on, and its context is the last holder
(R158, R166, R178). -/
def startRestore (s : State) (p : Nat) (z : Step) (rest : List Step) : State :=
  setGroves (setLane s p { lane s p with
    cur := some z, pre := rest, restoreAt := some s.qTime, lastHolder := ctxLocal z.ctx }) p 6

/-- The groves of the partition are free and nothing is being chosen or composed for them. -/
def atBoundary (l : Lane) : Bool :=
  l.cur.isNone && l.composing.isNone && l.nextStep.isNone && l.preempt.isNone && l.restoreAt.isNone && !l.halted

/-- HOLDER_SELECT (R166). A context whose composition found no page or slot since the last boundary has no step to compose
and is passed over while another context has work or a preempted step waits. -/
def execHolderSelect (p : Nat) (s : State) : Host.Outcome State Fault Refusal :=
  let l := lane s p
  let st := partState s p
  if !serving s || !partValid s p || !(st == 1 || st == 2) || !atBoundary l then .next s
  else
    let all := (ctxsOf s p).filter (hasWork s)
    let fresh := all.filter fun g => !l.stalled.contains g
    let work := if fresh.isEmpty ∧ l.pre = [] then all else fresh
    let cls := (work.map (effClass s)).min?
    match l.pre, cls with
    | [], none => .next (notePassed s p all none)
    | z :: rest, none => if l.acks.isEmpty then .next (startRestore (notePassed s p all none) p z rest) else .next s
    | pre, some c =>
      let keep := match pre with | z :: _ => decide (classOf s z.ctx ≤ c) | [] => false
      match keep, pre with
      | true, z :: rest => if l.acks.isEmpty then .next (startRestore (notePassed s p all none) p z rest) else .next s
      | _, _ =>
        match afterHolder l.lastHolder (work.filter fun g => effClass s g == c) with
        | none => .next s
        | some g =>
          let s1 := notePassed s p all (some g)
          .next (setLane s1 p { lane s1 p with composing := some (openCompose s1 p g) })

/-- COMPOSE_TIMEOUT condition (R342): 100 µs in COMPOSE outside a power wait. -/
def composeLate (s : State) (p : Nat) : Bool :=
  match (lane s p).composing, (lane s p).powerWait with
  | some c, none => c.since + 50000 ≤ s.qTime
  | _, _ => false

end Sys2Proof.Machine
end

