-- ==== Sys2Proof/Machine/ModelOps.lean ====
section
/-! DEFINITION. Operations on contexts and resident models (spec/05, R183, R184; spec/11; spec/13, R453): save areas,
creation, pairs, eviction, context teardown, and what waits for a step to leave. -/
namespace Sys2Proof.Machine

/-! ## Contexts -/

/-- SA in 64 KiB units for `groves` groves and a largest live SRAM of `live` bytes (R183). -/
def saveArea (groves live : Nat) : Nat :=
  ceilDiv (80 * groves * (98304 + live) + 65536 * groves + 4096) 65536

/-- LOADING slots of a partition with what they keep for their first context: save area and local number. -/
def loadingSlots (s : State) (p : Nat) : List (Nat × Nat × Nat) :=
  s.slots.filterMap fun e => match e.2 with
    | some x =>
      if getF s (Reg.MDL_SLOT_STATE e.1) = 1 ∧ getF s (Reg.MDL_SLOT_PARTITION e.1) = p then
        some (x.saveBase, saveArea (grovesOf s p) x.prog.liveSram, x.ctxNo) else none
    | none => none

/-- The save areas taken in a partition: first unit and size. -/
def saveAreas (s : State) (p : Nat) : List (Nat × Nat) :=
  (s.ctxs.filterMap fun e => match e.2 with
    | some c => if e.1 / 32 = p then some (c.saveBase, c.saveUnits) else none
    | none => none) ++ (loadingSlots s p).map fun e => (e.1, e.2.1)

/-- A run of units [b, b + n) is free of every save area of the partition and of retired pages. -/
def saveFree (s : State) (p b n : Nat) : Bool :=
  ((s.retired ++ s.retiredFull).all fun x => match partAddr s p x with
    | some y =>
      let base := (part s p).traceMib * 16
      y / 65536 < base + b || base + b + n ≤ y / 65536
    | none => true) &&
  (saveAreas s p).all fun e => e.1 + e.2 ≤ b || b + n ≤ e.1

/-- The lowest free run of `n` units of the save region (R184; which run is the model's choice). -/
def findSave (s : State) (p n : Nat) : Option Nat :=
  let ends := (saveAreas s p).map fun e => e.1 + e.2
  let past := (s.retired ++ s.retiredFull).filterMap fun x => (partAddr s p x).map fun y => y / 65536 + 1 - (part s p).traceMib * 16
  ((0 :: ends ++ past).filter fun b => b + n ≤ saveUnits s p && saveFree s p b n).min?

/-- The limit of contexts of a partition (Table 05.1). -/
def ctxLimit (s : State) : Nat := if sharedMode s then 32 else 8

/-- The lowest local number that no context and no load has. -/
def freeLocal (s : State) (p : Nat) : Option Nat :=
  (List.range (ctxLimit s)).find? fun n =>
    (ctx? s (32 * p + n)).isNone && (loadingSlots s p).all fun e => e.2.2 != n

/-- R328: the step limit as stored. -/
def clampLimit (us : Nat) : Nat := max 100 (min 200000 us)

/-- The defaults a context takes: class, step limit, budget, sequence cap and chunk. -/
structure CtxParams where
  cls : Nat
  limitUs : Nat
  budget : Nat
  seqCap : Nat
  chunkLog2 : Nat
  deriving DecidableEq, Repr

/-- The header's defaults (R343, R394). -/
def headerParams (k : Pkg) : CtxParams :=
  { cls := k.cls, limitUs := k.limitUs, budget := k.tokenBudget, seqCap := k.seqCap, chunkLog2 := k.chunkLog2 }

/-- Every register of a local context number, at 0 (spec/09: registers without a context read 0). -/
def clearCtxRegs (s : State) (g : Nat) : State :=
  let p := ctxPart g
  let n := ctxLocal g
  [Reg.CMP_CTX_CFG p n, Reg.CMP_CTX_STATE p n, Reg.CMP_CTX_LIMIT p n, Reg.CMP_CTX_BUDGET p n, Reg.CMP_CTX_CHUNK p n,
    Reg.CMP_CTX_TEST p n, Reg.CMP_CTX_ABN p n, Reg.MDL_CTX_SVC g].foldl resetReg s

/-- T_est and the decode share at creation (R295, R313). -/
def resetEst (s : State) (g : Nat) : State :=
  setF (setF s (Reg.ADM_CTX_DSHARE g) 0) (Reg.CMP_CTX_TEST_T_EST (ctxPart g) (ctxLocal g))
    (getF s (Reg.CMP_CTX_LIMIT_LIMIT_US (ctxPart g) (ctxLocal g)) * 250)

/-- A context comes to be (R184, R313, R343, R380). -/
def createCtx (s : State) (g slotN : Nat) (first : Bool) (q : CtxParams) (mask saveBase units : Nat) : State :=
  let p := ctxPart g
  let n := ctxLocal g
  let s1 := setCtx (clearCtxRegs s g) g (some
    { slot := slotN, first := first, saveBase := saveBase, saveUnits := units, tag := 0, lastAbandoned := false,
      barred := false, pair := none, unpair := false })
  let s2 := setF (setF (setF s1 (Reg.CMP_CTX_CFG_VALID p n) 1) (Reg.CMP_CTX_CFG_CLASS p n) q.cls)
    (Reg.CMP_CTX_CFG_MODEL p n) (getF s (Reg.MDL_SLOT_HANDLE slotN))
  let s3 := setF (setF s2 (Reg.CMP_CTX_STATE_SAVE_64K p n) units) (Reg.CMP_CTX_LIMIT_LIMIT_US p n) (clampLimit q.limitUs)
  let s4 := setF (setF s3 (Reg.CMP_CTX_BUDGET_TOKEN_BUDGET p n) q.budget) (Reg.CMP_CTX_BUDGET_SEQ_CAP p n) q.seqCap
  let s5 := setF (setF s4 (Reg.CMP_CTX_CHUNK_CHUNK_LOG2 p n) q.chunkLog2) (Reg.MDL_CTX_SVC_SVC_MASK g) mask
  bump (resetEst s5 g) (Reg.MDL_SLOT_LOAD_CONTEXTS slotN) 1

/-- The contexts of a model slot, by global number. -/
def slotCtxs (s : State) (n : Nat) : List Nat :=
  s.ctxs.filterMap fun e => match e.2 with
    | some c => if c.slot = n then some e.1 else none
    | none => none

/-- A context has a step in any state, or is being composed. -/
def ctxBusy (s : State) (g : Nat) : Bool :=
  let l := lane s (ctxPart g)
  (stepsOf s (ctxPart g)).any (fun st => st.ctx == g) || match l.composing with | some c => c.ctx == g | none => false

/-- Its step is preempted. -/
def ctxPreempted (s : State) (g : Nat) : Bool := (lane s (ctxPart g)).pre.any fun st => st.ctx == g

/-- The target of a draft context. -/
def targetOf (s : State) (g : Nat) : Option Nat :=
  match ctx? s g with
  | some c => if isDraft s g then c.pair.map (32 * ctxPart g + ·) else none
  | none => none

/-! ## Pairs -/

/-- The number of KV pages of the target that a request's committed positions need (R210). -/
def targetPages (s : State) (r : Req) : Nat :=
  match slotOf s r.ctx with
  | some x => x.pkg.layers * ceilDiv r.append (2 ^ x.pkg.pLog2)
  | none => 0

/-- The park slots past those of the target's pages are released, with their credits (R214, R400). -/
def freeDraftSlots (s : State) (i : Nat) : State :=
  match req? s i with
  | some r =>
    let n := targetPages s r
    credit (setReq s i (some { r with slots := r.slots.take n })) r.tenant (r.slots.drop n).length
  | none => s

/-- The draft pages of a request return to FREE, and the slots of those that are parked are released (R400, R214); of a
copy in flight, once it is over (R215). -/
def freeDraftPages (s : State) (p i : Nat) (r : Req) : State :=
  let mine : PageUse → Bool := fun u => match u with
    | .kv h _ _ d => h == hnat i r && d
    | _ => false
  let s1 := credit (freeWhere s p mine) r.tenant (pagesWhere s p mine).length
  if r.parking || r.unparking then s1 else freeDraftSlots s1 i

/-- A pair ends (R400): the target's requests draft no more, the former draft serves as a first context does. -/
def endPair (s : State) (g : Nat) : State :=
  match ctx? s g, draftOf s g with
  | some c, some d =>
    let p := ctxPart g
    let n := ctxLocal g
    let s1 := (allReqs s).foldl (fun a e =>
      if e.2.ctx = g ∧ e.2.paired = true then
        let a1 := freeDraftPages a p e.1 e.2
        match req? a1 e.1 with
        | some r => setReq a1 e.1 (some { r with paired := false, dAppend := 0 })
        | none => a1
      else a) s
    let s2 := setF (setCtx s1 g (some { c with pair := none, unpair := false })) (Reg.CMP_CTX_CFG_PAIR p n) 0
    match ctx? s2 d with
    | none => s2
    | some x =>
      let dn := ctxLocal d
      let s3 := setCtx s2 d (some { x with pair := none })
      let s4 := setF (setF (setF s3 (Reg.CMP_CTX_CFG_PAIR p dn) 0) (Reg.CMP_CTX_CFG_DRAFT p dn) 0)
        (Reg.MDL_CTX_SVC_SVC_MASK d) 15
      let s5 := setF s4 (Reg.CMP_CTX_CFG_CLASS p dn) (match slot? s4 x.slot with | some y => y.pkg.cls | none => 0)
      setF s5 (Reg.MDL_SLOT_DRAFT x.slot) 0
  | _, _ => s

/-- A context's preempted step is discarded at once (Table 09.5). -/
def discardPre (s : State) (g : Nat) : State :=
  let p := ctxPart g
  let l := lane s p
  let s1 := (l.pre.filter fun st => st.ctx == g).foldl (fun a st => discardStep a p st) s
  setLane s1 p { lane s1 p with pre := l.pre.filter fun st => st.ctx != g }

/-- A pair ends now, or when the paired step in progress has left; a preempted one is discarded at once (Table 09.5). -/
def unpairCtx (s : State) (g : Nat) : State :=
  if ctxPreempted s g then endPair (discardPre s g) g
  else if ctxBusy s g then
    match ctx? s g with
    | some c => setCtx s g (some { c with unpair := true })
    | none => s
  else endPair s g

/-! ## Eviction -/

/-- A queued cohort whose members' masks are being copied is rejected when its model goes (R391, Table 01.1). -/
def rejectCopying (s : State) (n : Nat) : State :=
  s.cohorts.foldl (fun a e => match e.2 with
    | some c =>
      let mine := c.members.any fun i => match req? a i with | some r => r.slot == n | none => false
      if c.st = .copying ∧ mine then rejectCohort a e.1 0x020B else a
    | none => a) s

/-- The pages a context held are zeroed before another context of its number reads them (R202). -/
def forgetOwner (s : State) (g : Nat) : State :=
  (listedPages s (ctxPart g)).foldl (fun a e =>
    if e.2.owner = .ctx g then setPage a (ctxPart g) e.1 { e.2 with owner := .none } else a) s

/-- A resident model is evicted (R398): its pages, save areas and slot are released, the handle names no model. -/
def evictSlot (s : State) (n : Nat) : State :=
  let p := getF s (Reg.MDL_SLOT_PARTITION n)
  let gs := slotCtxs s n
  let s1 := gs.foldl (fun a g => match targetOf a g with | some t => endPair a t | none => endPair a g) s
  let s2 := dropWaits (rejectCopying s1 n) fun f => match f with
    | .load k => k == n
    | .msg k _ _ _ => k == n
    | _ => false
  let s3 := gs.foldl (fun a g =>
    let b := dropSteps a p (· == g)
    clearCtxRegs (setCtx b g none) g) s2
  let s4 := gs.foldl forgetOwner (freeWhere s3 p (· == .model n))
  let code := getF s4 (Reg.MDL_SLOT_LOAD_LOAD_CODE n)
  let s5 := [Reg.MDL_SLOT n, Reg.MDL_SLOT_LOAD n, Reg.MDL_SLOT_PAGES n, Reg.MDL_SLOT_KV_RSV n, Reg.MDL_SLOT_CONC n,
    Reg.MDL_SLOT_LIVE n, Reg.MDL_SLOT_LAST n].foldl resetReg (setSlot s4 n none)
  setF s5 (Reg.MDL_SLOT_LOAD_LOAD_CODE n) code

/-- The slot's group on this device is forgotten (R402, R524). -/
def clearGroup (s : State) (n : Nat) : State :=
  ([Reg.CZL_GROUP n, Reg.CZL_GROUP_SHORT n] ++ (List.range 4).map (Reg.CZL_GROUP_NODES n)).foldl resetReg
    (setGroup s n none)

/-- A model is evicted and EVICTED is set (R396). -/
def evictModel (s : State) (n : Nat) : State := raise (clearGroup (evictSlot s n) n) Reg.MDL_STATUS_EVICTED

/-! ## Teardown -/

/-- Requests of a context that are served: ADMITTED to PARKED. -/
def servedReqs (s : State) (g : Nat) : List Nat :=
  ((allReqs s).filter fun e => e.2.ctx == g && isAdmitted e.2.st).map (·.1)

/-- R453 steps 1 and 2: the context's steps are discarded and its requests end FAILED. -/
def stopCtx (s : State) (g code : Nat) : State :=
  (servedReqs s g).foldl (fun a i => endReq a i .failed code false) (dropSteps s (ctxPart g) (· == g))

/-- R453 step 3: the context is created again, empty. -/
def recreateCtx (s : State) (g : Nat) : State :=
  match ctx? s g with
  | some c => resetEst (setCtx s g (some { c with lastAbandoned := false })) g
  | none => s

/-- A context teardown (R453); a draft's is its target's, and the target's includes the draft. -/
def teardownCtx (s : State) (g code : Nat) : State :=
  let t := (targetOf s g).getD g
  let d := draftOf s t
  let s1 := recreateCtx (stopCtx s t code) t
  match d with
  | some x => recreateCtx s1 x
  | none => s1

/-! ## Loss of a replica group -/

/-- A formed group ends on this device (R456, R520, R521): LEAVE to its peers, its contexts' requests end with `code`, its
part is evicted; a loss that this device detects in another member is recorded as fault 0x17. -/
def loseGroup (s : State) (n code : Nat) (detected : Bool) : State :=
  match group? s n with
  | none => s
  | some x =>
    let p := getF s (Reg.MDL_SLOT_PARTITION n)
    let c := match slotCtxs s n with | g :: _ => ctxLocal g | [] => nobody
    let s1 := x.peers.foldl (fun a q => sendBare a q.node (.leave (gidOf s n))) s
    let s2 := (slotCtxs s1 n).foldl (fun a g => stopCtx a g code) s1
    let s2b := freeWhere (setLane s2 p { lane s2 p with nodeAcks := [], ackTo := none }) p peerUse
    let s3 := raise (evictSlot (setGroup s2b n none) n) Reg.MDL_STATUS_EVICTED
    let s4 := raise (setF s3 (Reg.CZL_GROUP_STATE n) 3) Reg.CZL_STATUS_GROUP_LOST
    if detected then recordFault s4 0x17 clsGroup false false p c 0 else s4

/-- A model is evicted; a group's part is lost with it (R402, R520). -/
def evictWhole (s : State) (n code : Nat) : State :=
  if groupFormed s n then loseGroup s n code false
  else match group? s n with
    | some x => evictModel (x.peers.foldl (fun a q => sendBare a q.node (.leave (gidOf s n))) s) n
    | none => evictModel s n

/-! ## What waits for a step -/

/-- MODELXFER messages of the model wait at the regulator or in a port: it is the source of a peer transfer (R393). -/
def peerSource (s : State) (n : Nat) : Bool :=
  match slot? s n with
  | some x =>
    (s.held.any fun e => e.2.waits.any fun w => match w.1 with
      | .msg k _ _ (.modelXfer ..) => k == n
      | _ => false) ||
    s.ports.any fun e => e.2.queue.any fun f => f.1 == 12 && f.2.ftype == 0x32 && x.peerReads.contains f.2.msg
  | none => false

/-- No context of the model holds, composes or has a step preempted, and for a draft no step of its target does. -/
def slotIdle (s : State) (n : Nat) : Bool :=
  (slotCtxs s n).all fun g => !ctxBusy s g && match targetOf s g with | some t => !ctxBusy s t | none => true

/-- A forced eviction goes as far as it can (R397): contexts without a step are torn down, then the model is evicted. -/
def forceEvict (s : State) (n : Nat) : State :=
  let s1 := (slotCtxs s n).foldl (fun a g => if ctxBusy a g then a else stopCtx a g 0x0701) s
  if slotIdle s1 n && !peerSource s1 n then evictWhole s1 n 0x0701 else s1

/-- The step of context `g` has left COMMIT or ABANDON: a pair that waits ends, a forced eviction goes on (Table 09.5). -/
def afterLeave (s : State) (g : Nat) : State :=
  match ctx? s g with
  | none => s
  | some c =>
    let s1 := if c.unpair && !ctxBusy s g then endPair s g else s
    let dslot := (draftOf s1 g).bind (ctx? s1) |>.map (·.slot)
    let go (a : State) (n : Nat) : State := match slot? a n with
      | some x => if x.force then forceEvict a n else a
      | none => a
    match dslot with
    | some n => go (go s1 c.slot) n
    | none => go s1 c.slot

end Sys2Proof.Machine
end

