-- ==== Sys2Proof/Machine/LayoutOps.lean ====
section
/-! DEFINITION. Partitions and groves (spec/12; spec/04, R128 to R130; spec/06, R196, R232, R233): assignment, regions,
bindings, the hold of OPEN, the repair map, and what a partition reset does at once (spec/13, R454). -/
namespace Sys2Proof.Machine

/-- Set or clear bit `b` of a bitmap register field. -/
def setBit (s : State) (f : Fld) (b : Nat) (v : Bool) : State :=
  let x := getF s f
  setF s f (if x.testBit b = v then x else if v then x + 2 ^ b else x - 2 ^ b)

/-- Tenants bound to a partition, ascending. -/
def tenantsOf (s : State) (p : Nat) : List Nat := (List.range 64).filter fun t => partOf s t == some p

/-! ## Bindings and the hold of OPEN -/

/-- Record a tenant's OPEN and hold it at 0 (R414); a hold that stands keeps its record. -/
def holdOpen (s : State) (t : Nat) : State :=
  match (tenant s t).hold with
  | some _ => s
  | none =>
    setF (setTenant s t { tenant s t with hold := some (isSet s (Reg.ADM_TEN_CTL_OPEN t)) }) (Reg.ADM_TEN_CTL_OPEN t) 0

/-- The hold ends: OPEN takes the recorded value. -/
def restoreOpen (s : State) (t : Nat) : State :=
  match (tenant s t).hold with
  | some b => setF (setTenant s t { tenant s t with hold := none }) (Reg.ADM_TEN_CTL_OPEN t) (if b then 1 else 0)
  | none => s

/-- The hold of a partition's tenants ends, but for those a migration holds (R435, R439, R454). -/
def resumeOpen (s : State) (p : Nat) : State :=
  ((tenantsOf s p).filter fun t => !isSet s (Reg.PRT_TEN_MIGRATING t)).foldl restoreOpen s

/-- Unbind a tenant (R414, R437, R439). -/
def unbindTenant (s : State) (t : Nat) : State :=
  let s1 := match partOf s t with
    | some p => setBit s (Reg.PRT_PART_TENANTS_TENANTS p) t false
    | none => s
  setF (setF (setF s1 (Reg.PRT_TEN_BOUND t) 0) (Reg.PRT_TEN_PARTITION t) 0) (Reg.PRT_TEN_BGROUP t) 0

/-- Bind a tenant to a partition with a batching group. -/
def bindTenant (s : State) (t p bgroup : Nat) : State :=
  let s1 := unbindTenant s t
  let s2 := setF (setF (setF s1 (Reg.PRT_TEN_BOUND t) 1) (Reg.PRT_TEN_PARTITION t) p) (Reg.PRT_TEN_BGROUP t) bgroup
  setBit s2 (Reg.PRT_PART_TENANTS_TENANTS p) t true

/-! ## The repair map -/

/-- Physical number and ABSENT of a logical cluster (GRV_MAP). -/
def mapFld (g l : Nat) : Fld := ⟨Reg.GRV_MAP g (l / 4), 8 * (l % 4), 8⟩
def mapEntry (s : State) (g l : Nat) : Nat := getF s (mapFld g l)
def clusterAbsent (s : State) (g l : Nat) : Bool := 128 ≤ mapEntry s g l

/-- A physical cluster is marked retired (GRV_RETIRED). -/
def physRetired (s : State) (g x : Nat) : Bool := isSet s ⟨Reg.GRV_RETIRED g (x / 32), x % 32, 1⟩

/-- Spares neither mapped nor retired. -/
def freeSpares (s : State) (g : Nat) : List Nat :=
  [80, 81, 82, 83].filter fun x => !physRetired s g x && !(List.range 80).any fun l => mapEntry s g l == x

/-- ACTIVE and SPARES_FREE of a grove (R129, R130). -/
def showGrove (s : State) (g : Nat) : State :=
  let act := ((List.range 80).filter fun l => !clusterAbsent s g l).length
  setF (setF s (Reg.GRV_STATUS_ACTIVE g) act) (Reg.GRV_STATUS_SPARES_FREE g) (freeSpares s g).length

/-- A logical cluster is retired: the lowest spare takes over, or the entry is ABSENT (R129, R130). -/
def retireCluster (s : State) (g l : Nat) : State :=
  let x := mapEntry s g l % 128
  let s1 := setF s ⟨Reg.GRV_RETIRED g (x / 32), x % 32, 1⟩ 1
  let s2 := setF s1 (mapFld g l) (match freeSpares s1 g with | y :: _ => y | [] => 128)
  showGrove s2 g

/-- A grove's 96 bytes of a map copy (R633). -/
def mapBytes (s : State) (g : Nat) : List Byte :=
  (List.range 80).map (fun l => BitVec.ofNat 8 (mapEntry s g l)) ++
    (List.range 11).map (fun k => BitVec.ofNat 8 (getF s (Reg.GRV_RETIRED_RETIRED g (k / 4)) / 256 ^ (k % 4))) ++
    List.replicate 5 0#8

/-- Load a grove's map from 96 bytes. -/
def loadMap (s : State) (g : Nat) (b : List Byte) : State :=
  let s1 := (List.range 80).foldl (fun a l => setF a (mapFld g l) (leAt b l 1)) s
  let s2 := (List.range 3).foldl (fun a k => setF a (Reg.GRV_RETIRED_RETIRED g k) (leAt b (80 + 4 * k) (if k = 2 then 3 else 4))) s1
  showGrove s2 g

/-- The factory map of a grove (R128). -/
def factoryBytes : List Byte := (List.range 80).map (BitVec.ofNat 8) ++ List.replicate 16 0#8

/-! ## Groves and regions -/

/-- `key` lies in the GRV copy of grove `g`. -/
def inGrove (g key : Nat) : Bool := 0x1000000 + g * 0x40000 ≤ key && key < 0x1000000 + (g + 1) * 0x40000

/-- The GRV copy of a grove is restored; what shows a standing fact (the owner, the map, the microcode) keeps showing it. -/
def resetGrove (s : State) (g : Nat) : State :=
  let keep (k : Nat) : Bool := k == Reg.GRV_STATUS g || (Reg.GRV_MAP g 0 ≤ k && k ≤ Reg.GRV_RETIRED g 2) ||
    k == Reg.GRV_UCODE_VER g
  setF (resetRegs s fun k => inGrove g k && !keep k) (Reg.GRV_STATUS_STATE g) 0

/-- A grove's owner, or none (R412). -/
def ownGrove (s : State) (g : Nat) (p : Option Nat) : State :=
  let s1 := setF (setF s (Reg.GRV_STATUS_PARTITION g) (p.getD 0)) (Reg.GRV_STATUS_ASSIGNED g) (if p.isSome then 1 else 0)
  setBit s1 Reg.PRT_MODE_UNASSIGNED g p.isNone

/-- Zero a partition's channels outside the system reserve (R233). -/
def zeroPart (s : State) (p : Nat) : State := zeroWhere s fun x => (partAddr s p x).isSome

/-- Lay out a partition's regions with every arena page FREE or RETIRED (R196, R232). -/
def layoutPart (s : State) (p trace save : Nat) : State :=
  let s1 := setPart s p { part s p with traceMib := trace }
  let s2 := setF (setF (setF s1 (Reg.MEM_PART_SAVE_SAVE_64K p) save) (Reg.MEM_PART_ARENA_TRACE_MIB p) (trace / 4))
    (Reg.MEM_PART_ARENA_PAGES p) (topOf s1 p / 65536 - trace * 16 - save)
  let s3 := { s2 with pages := spDrop (fun k => k / 2 ^ 20 == p) s2.pages }
  (s3.retired ++ s3.retiredFull).foldl (fun a x => match partAddr a p x with
    | some y =>
      if arenaBase a p ≤ y then setPage a p ((y - arenaBase a p) / 65536) { use := .retired, owner := .none }
      else if y < 2 ^ 20 * trace then setTrace a p { traceOf a p with skip := y / 65536 :: (traceOf a p).skip }
      else a
    | none => a) s3

/-- A partition's trace stops with its FIFO discarded (Table 20.9). -/
def stopTrace (s : State) (p : Nat) : State := setF (setTrace s p Trace.idle) (Reg.TRC_TCTL_EN p) 0

/-- A partition comes to be: CFG, its groves, its regions (R437, R444). -/
def makePart (s : State) (p first n trace save : Nat) (full : Bool) : State :=
  let s1 := setF (setF (setF s (Reg.PRT_PART_CFG_VALID p) 1) (Reg.PRT_PART_CFG_FIRST_GROVE p) first)
    (Reg.PRT_PART_CFG_GROVES p) n
  let s2 := (groveList s1 p).foldl (fun a g => ownGrove a g (some p)) s1
  let s3 := setF (setF s2 (Reg.PRT_PART_ACCT_ACCT_FULL p) (if full then 1 else 0)) Reg.PRT_MODE_PARTS
    (getF s2 Reg.PRT_MODE_PARTS + 1)
  layoutPart (stopTrace (clearL2 (zeroPart s3 p) fun g => (groveList s3 p).contains g) p) p trace save

/-- `key` lies in lane `p` of CMP. -/
def inLane (p key : Nat) : Bool := 0x600000 + p * 0x10000 ≤ key && key < 0x600000 + (p + 1) * 0x10000

/-- Lane `p` as after a reset (R343): its registers restored, then those the profile sets; the power of the step that held
the groves stays for the hand-over hold (R529). -/
def clearLane (s : State) (p : Nat) : State :=
  let l := lane s p
  let s1 := setLane (resetRegs s (inLane p)) p { Lane.idle with power := l.power, leftAt := l.leftAt }
  s1.laneInit.foldl (fun a e => if inLane p e.1 then wr a e.1 e.2 else a) s1

/-- Regulator registers of a partition at their reset values, or only LEVEL and HELD (per-partition; Table 03.3). -/
def resetRegulators (s : State) (p : Nat) (all : Bool) : State :=
  let b := 0x902000 + 0x40 * p
  let s1 := resetRegs s fun k => b ≤ k && k < b + 0x40 && (all || 8 ≤ k % 16)
  { s1 with held := spDrop (fun k => k / 4 == p) s1.held }

/-! ## Eviction of a whole partition -/

/-- The resident models of a partition, by slot. -/
def slotsOf (s : State) (p : Nat) : List Nat :=
  (List.range 32).filter fun n => (slot? s n).isSome && getF s (Reg.MDL_SLOT_PARTITION n) == p

/-- A transfer into a partition that is reset ends (Table 11.6). -/
def failLoad (s : State) (n code : Nat) : State :=
  raise (setF s (Reg.MDL_SLOT_LOAD_LOAD_CODE n) code) Reg.MDL_STATUS_LOAD_FAILED

/-- Every model of a partition goes (R407). -/
def evictAll (s : State) (p : Nat) : State :=
  (slotsOf s p).foldl (fun a n =>
    let loading := getF a (Reg.MDL_SLOT_STATE n) == 1
    let b := evictWhole a n 0x0702
    if loading then failLoad b n 0x050E else b) s

/-! ## The partition reset -/

/-- The storage of the clusters `f` names is dead (R164). -/
def clearClusters (s : State) (f : Nat → Bool) : State := { s with clusters := spDrop f s.clusters }

/-- A partition is in reset. -/
def partResetting (s : State) (p : Nat) : Bool := (getF s Reg.FLT_STATE_PARTS_RESETTING).testBit p

/-- The live requests of the tenants bound to a partition (R434). -/
def partLive (s : State) (p : Nat) : List Nat := liveReqs s fun r => partOf s r.tenant == some p

/-- The requests a partition serves, of the tenants bound to it: those a reset ends FAILED. A queued request is none of them:
Table 01.1 lets it end REJECTED or CANCELLED only, and the cleared OPEN or the model that has gone rejects its cohort
(DEDUCED against R52's "every live request", notes/assumptions/67.md). -/
def partReqs (s : State) (p : Nat) : List Nat := liveReqs s fun r => isAdmitted r.st && partOf s r.tenant == some p

/-- A request ends FAILED with 0x0702; its FINAL record is owed until the partition has restarted (R52). -/
def failOwed (p : Nat) (s : State) (i : Nat) : State :=
  match req? s i with
  | none => s
  | some r =>
    let s1 := endReq (setReq s i (some { r with parking := false, unparking := false })) i .failed 0x0702 false
    let q := cq s1 r.tenant r.sub.cq
    match q.waiting.getLast? with
    | some x =>
      let s2 := setCq s1 r.tenant r.sub.cq { q with waiting := q.waiting.dropLast }
      setPart s2 p { part s2 p with owed := (part s2 p).owed ++ [(4 * r.tenant + r.sub.cq, x)] }
    | none => s1

/-- R454, steps 1 to 5; PARTITION_RESET_COMPLETE does step 6. Requests end before the models they name are gone, so that
their shares and pages go back (R215, R292). -/
def startPartReset (s : State) (p : Nat) : State :=
  if partResetting s p || !partValid s p then s
  else
    let s1 := setF (setPart s p { part s p with before := partState s p }) (Reg.PRT_PART_STATE_STATE p) 4
    let s2 := setBit s1 Reg.FLT_STATE_PARTS_RESETTING p true
    let s3 := (tenantsOf s2 p).foldl holdOpen s2
    let s4 := dropSteps s3 p fun _ => true
    let s5 := endCopiesOf ((partReqs s4 p).foldl (failOwed p) s4) fun r => r.ctx / 32 == p
    let s6 := clearLane (evictAll s5 p) p
    let s7 := (groveList s6 p).foldl resetGrove s6
    let s8 := resetRegulators s7 p false
    let s9 := clearClusters (clearL2 s8 fun g => (groveList s8 p).contains g) fun c => (groveList s8 p).contains (c / 80)
    layoutPart (stopTrace (zeroPart s9 p) p) p (part s9 p).traceMib (saveUnits s9 p)

end Sys2Proof.Machine
end

