-- ==== Sys2Proof/Machine/Mailbox.lean ====
section
/-! DEFINITION. The mailbox and the SMBus endpoint (spec/03, R107 to R114, R738, R745; spec/17, Table 17.10; spec/21,
R704): starting a command, refusing it, choosing the command that runs, and its response. -/
namespace Sys2Proof.Machine

/-! ## Requests -/

/-- READY (R704, R651, R83). -/
def mbxReady (s : State) : Bool := isSet s Reg.MGT_MBX_STATUS_READY

/-- Bytes `o` to `o + n − 1` of the mailbox area. -/
def areaBytes (s : State) (o n : Nat) : List Byte :=
  (List.range n).map fun i => BitVec.ofNat 8 (getF s (Reg.MGT_MBX_AREA_WORD ((o + i) / 4)) / 256 ^ ((o + i) % 4))

/-- The request in the area (R107). -/
def areaRequest (s : State) : MbxCmd :=
  let len := leNat (areaBytes s 4 4)
  { smbus := false, opcode := leNat (areaBytes s 0 2), tag := leNat (areaBytes s 2 2), len := len,
    payload := areaBytes s 64 (min len 4032), started := false }

/-- The opcodes (Tables 11.3, 12.3, 13.6, 14.5, 17.9, 18.6, 19.2; R297). -/
def opcodes : List Nat :=
  [0x0210, 0x0211, 0x0510, 0x0511, 0x0512, 0x0513, 0x0514, 0x0610, 0x0611, 0x0612, 0x0613] ++
  [0x0710, 0x0711, 0x0712, 0x0713, 0x0714, 0x0715, 0x0801, 0x0802, 0x0803, 0x0810, 0x0811, 0x0812, 0x0813] ++
  [0x0901, 0x0902, 0x0903, 0x0904, 0x0905, 0x0906, 0x0907, 0x0908] ++
  [0x0A10, 0x0A11, 0x0A12, 0x0A13, 0x0A14, 0x0A20, 0x0A21, 0x0C10, 0x0C11, 0x0C12]

/-- Opcodes the SMBus endpoint may issue. -/
def smbusOpcodes : List Nat :=
  [0x0713, 0x0714, 0x0801, 0x0802, 0x0803, 0x0810, 0x0811, 0x0812, 0x0813, 0x0901, 0x0902, 0x0903, 0x0905] ++
  [0x0A10, 0x0A11, 0x0A12, 0x0A13, 0x0A14, 0x0C11]

/-- Opcodes whose layout allows one LENGTH, with it (R738). -/
def fixedLen : List (Nat × Nat) :=
  [(0x0211, 0), (0x0510, 24), (0x0511, 13), (0x0512, 3), (0x0513, 3), (0x0514, 6), (0x0610, 2), (0x0611, 1)] ++
  [(0x0613, 3), (0x0710, 1), (0x0711, 2), (0x0712, 1), (0x0713, 0), (0x0714, 2), (0x0715, 0), (0x0801, 2)] ++
  [(0x0803, 0), (0x0810, 0), (0x0811, 6), (0x0812, 6), (0x0901, 0), (0x0902, 0), (0x0903, 3), (0x0905, 0)] ++
  [(0x0906, 0), (0x0907, 104), (0x0908, 200), (0x0A10, 8), (0x0A12, 1), (0x0A13, 0), (0x0A14, 1), (0x0A20, 1)] ++
  [(0x0C11, 1)]

/-- LENGTH lies in the opcode's range (R738), with the exceptions it names. -/
def lenOk (c : MbxCmd) : Bool :=
  let n := c.len
  let b := c.payload
  if 4032 < n then false
  else match fixedLen.find? fun e => e.1 == c.opcode with
    | some e => n == e.2
    | none =>
      if c.opcode = 0x0210 then
        let k := leAt b 0 4
        decide (4 ≤ n ∧ 1 ≤ k ∧ k ≤ 50 ∧ n = 4 + 80 * k)
      else if c.opcode = 0x0612 then
        let k := leAt b 2 1
        decide (3 ≤ n ∧ 1 ≤ k ∧ k ≤ 16 ∧ n = 3 + 8 * k)
      else if c.opcode = 0x0802 then (if leAt b 0 1 = 1 then decide (8 ≤ n) else n == 8)
      else if c.opcode = 0x0813 then decide (264 ≤ n ∧ n ≤ 3848 ∧ (n - 8) % 256 = 0)
      else if c.opcode = 0x0904 then
        let k := leAt b 2 2
        decide (8 ≤ n ∧ (4000 < k ∨ n = 8 + k))
      else if c.opcode = 0x0A11 then decide (9 ≤ n ∧ n ≤ 8 + 3840)
      else if c.opcode = 0x0A21 then
        let k := leAt b 0 1
        decide (1 ≤ k ∧ k ≤ 8 ∧ n = 1 + 2 * k)
      else if c.opcode = 0x0C10 then
        let k := leAt b 1 1
        decide (2 ≤ n ∧ 1 ≤ k ∧ k ≤ 64 ∧ n = 2 + k)
      else
        let k := leAt b 2 1
        decide (3 ≤ n ∧ (k < 2 ∨ 16 < k ∨ n = k + 2))

/-- The result with which a command is refused before its opcode does any work: R109 in its order, then the HOLD rules
(Table 17.10), then an operation that LOAD_VOLATILE_CONFIG does not name (notes/assumptions). -/
def refusalOf (s : State) (c : MbxCmd) : Option Nat :=
  let hb := c.opcode / 256
  if !opcodes.contains c.opcode then some (256 * hb + 0xFF)
  else if c.smbus && !smbusOpcodes.contains c.opcode then some (256 * hb + 0xFD)
  else if !lenOk c then some (256 * hb + 0xFE)
  else if stage s = 7 then
    let ok := if isSet s Reg.CFG_STATUS_RECOVERY then
        [0x0803, 0x0810, 0x0811, 0x0812, 0x0813, 0x0713].contains c.opcode
      else decide (7 ≤ hb ∧ hb ≤ 10)
    if !ok then some 0x0801 else if c.opcode = 0x0802 ∧ 3 < leAt c.payload 0 1 then some 0x0812 else none
  else if c.opcode = 0x0802 ∧ 3 < leAt c.payload 0 1 then some 0x080D
  else none

/-! ## Which command runs -/

/-- The boot set (spec/21, section Model). -/
def bootSet : List Nat := [0x0803, 0x0810, 0x0811, 0x0714]

/-- The command that runs now: the oldest; before SERVICE and HOLD the oldest of the boot set (R114, R704). -/
def runnable (s : State) : Option MbxCmd :=
  if !mbxReady s then none
  else if stage s = 6 ∨ stage s = 7 then s.mbx.head?
  else s.mbx.find? fun c => bootSet.contains c.opcode

/-- The response of a command (R110): result and payload; DONE, or an MCTP response. -/
def answer (s : State) (c : MbxCmd) (result : Nat) (resp : List Byte) : State :=
  let s1 := { s with mbx := s.mbx.erase c }
  if c.smbus then emit s1 (.smbusResponse c.tag result resp)
  else
    let s2 := setF (setF s1 (Reg.MGT_MBX_AREA_WORD 2) result) (Reg.MGT_MBX_AREA_WORD 3) resp.length
    let s3 := (numbered 0 resp).foldl (fun a e =>
      setF a ⟨Reg.MGT_MBX_AREA (16 + e.1 / 4), 8 * (e.1 % 4), 8⟩ e.2.toNat) s2
    raise (setF s3 Reg.MGT_MBX_STATUS_BUSY 0) Reg.MGT_MBX_STATUS_DONE

/-- Commands that are refused when they come to run complete at once (R109, R604). -/
def settleFor : Nat → State → State
  | 0, s => s
  | n + 1, s => match runnable s with
    | none => s
    | some c => match refusalOf s c with
      | none => s
      | some code => settleFor n (answer s c code [])
def settle (s : State) : State := settleFor 2 s

/-- A hand-off waits for the commands in flight; READY falls once none is (R651 step 1, Table 03.6). -/
def fallReady (s : State) : State :=
  if s.hwd.handoff.isSome && s.mbx.isEmpty then setF s Reg.MGT_MBX_STATUS_READY 0 else s

/-- A command can start: READY, and no hand-off waits for those in flight (R112, R651). -/
def canStart (s : State) : Bool := mbxReady s && s.hwd.handoff.isNone

/-- The command completes; the next one comes to run. -/
def respond (s : State) (c : MbxCmd) (result : Nat) (resp : List Byte) : State := fallReady (settle (answer s c result resp))

/-- The running command, when it is `op` with a payload that `ok` accepts. -/
def takeCmd (s : State) (op : Nat) (ok : List Byte → Bool) : Option MbxCmd :=
  match runnable s with
  | some c => if c.opcode = op ∧ ok c.payload = true then some c else none
  | none => none

/-- The work of the running command begins. -/
def markStarted (s : State) (c : MbxCmd) : State :=
  { s with mbx := s.mbx.map fun x => if x = c then { x with started := true } else x }

/-- Run a mailbox command: no effect when it is not the one that runs. -/
def runCmd (s : State) (op : Nat) (ok : List Byte → Bool) (f : MbxCmd → State) : Host.Outcome State Fault Refusal :=
  match takeCmd s op ok with
  | some c => .next (f c)
  | none => .next s

/-! ## Starting a command -/

/-- MAILBOX_GO (R110 to R113). -/
def execMailboxGo (s : State) : Host.Outcome State Fault Refusal :=
  reach s (Reg.MGT_MBX_CTL) fun s =>
  let c := areaRequest s
  if s.mbx.any fun x => !x.smbus then .next (raise s Reg.MGT_MBX_STATUS_GO_WHILE_BUSY)
  else if !canStart s then .next (raise s Reg.MGT_MBX_STATUS_REFUSED_NOT_READY)
  else if c.opcode / 256 < 1 ∨ 12 < c.opcode / 256 then .next (raise s Reg.MGT_MBX_STATUS_BAD_OPCODE)
  else .next (settle (setF { s with mbx := s.mbx ++ [c] } Reg.MGT_MBX_STATUS_BUSY 1))

/-- PLDM completion codes ERROR_NOT_READY and ERROR_UNSUPPORTED_PLDM_CMD (DSP0240; the spec names them, R745). -/
def pldmNotReady : Nat := 4
def pldmUnsupported : Nat := 5

/-- The endpoint does not answer: its address is not acknowledged in S0, Heartwood is held in reset for good, or the
device is stopped before Heartwood runs (Table 21.4, R83, R710). -/
def smbusSilent (s : State) : Bool :=
  stage s == 0 || getF s Reg.HST_STATUS_HWD_STATE == 2 || (s.boot.stopped && getF s Reg.HST_STATUS_HWD_STATE == 3)

/-- SMBUS_MCTP_REQUEST (R745). -/
def execSmbusMctpRequest (op tag len : Nat) (payload : List Byte) (s : State) : Host.Outcome State Fault Refusal :=
  if smbusSilent s then .next s
  else if (s.mbx.any fun x => x.smbus) || !canStart s then .next (emit s (.smbusPldm pldmNotReady))
  else if op / 256 < 1 ∨ 12 < op / 256 then .next (emit s (.smbusPldm pldmUnsupported))
  else
    .next (settle { s with mbx := s.mbx ++
      [{ smbus := true, opcode := op, tag := tag, len := len, payload := payload.take 4032, started := false }] })

/-- SMBUS_SCL_TIMEOUT (R726): the packet in progress is discarded. The endpoint takes and sends whole MCTP messages here,
so nothing else changes. -/
def execSmbusSclTimeout (s : State) : Host.Outcome State Fault Refusal := .next s

end Sys2Proof.Machine
end

