-- ==== Sys2Proof/Machine/Ports.lean ====
section
/-! DEFINITION. Cezlink ports (spec/14, R483 to R491, R495 to R498): training, retraining and degrading, taking a port
down, receiving flits, and forwarding. -/
namespace Sys2Proof.Machine

/-! ## Up and down -/

/-- Groups of which a peer has no route left lose it (R520). -/
def loseUnrouted (s : State) : State :=
  (List.range 32).foldl (fun a n => match group? a n with
    | some x =>
      if groupFormed a n && x.peers.any (fun q => (routeTo a q.node).isNone) then loseGroup a n 0x0705 true else a
    | none => a) s

/-- The mailbox command RETRAIN_PORT of port `n`, when it waits for the port to settle. -/
def retrainCmd (s : State) (n : Nat) : Option MbxCmd :=
  match runnable s with
  | some c => if c.started ∧ c.opcode = 0x0C11 ∧ leAt c.payload 0 1 = n then some c else none
  | none => none

/-- A port has settled: its RETRAIN_PORT completes. -/
def portSettled (s : State) (n code : Nat) : State :=
  match retrainCmd s n with
  | some c => respond s c code []
  | none => s

/-- Port `q` when ingress port `n` has gone DOWN: messages that came through it and are not whole are given up, for their
rest cannot come; its other flits hold no buffer any more (notes/assumptions/70.md). -/
def orphan (n : Nat) (x : Port) : Port :=
  let whole (m : Nat × Nat × Nat) : Bool := x.queue.any fun e => (e.1, e.2.src, e.2.msg) == m && e.2.last
  let tag (i : Nat) : Nat := if i = n then 12 else i
  { x with
    queue := (x.queue.filter fun e => e.1 != n || whole (e.1, e.2.src, e.2.msg)).map fun e => (tag e.1, e.2)
    busy := x.busy.map fun b => (b.filter fun m => m.1 != n || whole m).map fun m => (tag m.1, m.2) }

/-- STATE 0; queued and unacknowledged flits are discarded and counted in DOWN_DROP, and the buffers they took are free
(R489, R490). -/
def stopPort (s : State) (n : Nat) : State :=
  let x := portOf s n
  let s1 := bumpSat (setPort s n Port.idle) Reg.CZL_DROP2_DOWN_DROP (x.queue.length + x.replay.length)
  let s2 := setF (setF s1 (Reg.CZL_PORT_STATE n) 0) (Reg.CZL_PORT_PEER_VALID n) 0
  let s3 := (x.queue.filter fun e => e.1 != n).foldl (fun a e => leaveBuffer a e.1 e.2.tc) s2
  (List.range 12).foldl (fun a q =>
    let y := portOf a q
    let z := orphan n y
    if z = y then a else bumpSat (setPort a q z) Reg.CZL_DROP2_DOWN_DROP (y.queue.length - z.queue.length)) s3

/-- A port goes DOWN (R489): the flag and the cause LINK_DOWN, unless it is silent; groups without a route are lost. -/
def portDown (s : State) (n : Nat) (silent : Bool) (code : Nat) : State :=
  let s1 := stopPort s n
  let s2 := if silent then s1 else setCause (raise s1 Reg.CZL_STATUS_PORT_DOWN) 6
  portSettled (loseUnrouted s2) n code

/-- Resend the unacknowledged flits from the replay buffer (R485, R488). -/
def resendFrom (s : State) (n : Nat) (fs : List (Nat × Flit)) : State :=
  fs.foldl (fun a e => bump (emit a (.flit n (.data (flitBytes e.1 e.2)))) (Reg.CZL_PORT_TX_FLITS n) 1) s

/-- The port reaches ACTIVE or ACTIVE_DEGRADED, and sends what it holds. -/
def portActive (s : State) (n : Nat) : State :=
  let x := portOf s n
  let s1 := setF (setPort s n { x with degrading := false, exch := false, slotAt := s.lTime }) (Reg.CZL_PORT_STATE n)
    (if x.narrow then 6 else 5)
  portSettled (reroute (pumpPort (resendFrom s1 n x.replay) n)) n 0

/-! ## Training (Table 14.6) -/

/-- A training stage begins. -/
def enterStage (s : State) (n st : Nat) : State :=
  setF (setPort s n { portOf s n with since := s.lTime }) (Reg.CZL_PORT_STATE n) st

/-- A port starts to train (R483, R523), unless DISABLE keeps it DOWN; what it holds to send it keeps (Table 14.9). -/
def startTrain (s : State) (n : Nat) : State :=
  if isSet s (Reg.CZL_PORT_CTL_DISABLE n) then s
  else enterStage (setF (setPort s n { portOf s n with degrading := false, exch := false, failed := [] })
    (Reg.CZL_PORT_PEER_VALID n) 0) n 1

/-- A port trains or retrains. -/
def portTraining (s : State) (n : Nat) : Bool :=
  let st := portState s n
  (1 ≤ st && st ≤ 4) || st == 7

/-- Margin of lane `i`. -/
def laneMargin (s : State) (n i : Nat) : Nat := getF s (Reg.CZL_PORT_MARGIN_LANES n) / 16 ^ i % 16

/-- The worst margin of half `h`. -/
def worstMargin (s : State) (n h : Nat) : Nat :=
  min (min (laneMargin s n (4 * h)) (laneMargin s n (4 * h + 1)))
    (min (laneMargin s n (4 * h + 2)) (laneMargin s n (4 * h + 3)))

/-- The half a port narrows to: it aligns wholly and has the better worst lane, lanes 0 to 3 on a tie. -/
def betterHalf (s : State) (n aligned : Nat) : Option Nat :=
  let lo := aligned % 16 == 15
  let hi := aligned / 16 % 16 == 15
  if lo && hi then some (if worstMargin s n 0 < worstMargin s n 1 then 1 else 0)
  else if lo then some 0
  else if hi then some 1
  else none

/-- ALIGN ends with the lanes of `aligned`: 8 lanes, a half, or DOWN; then the device's TRAIN_EXCH goes out. -/
def alignDone (s : State) (n aligned : Nat) : State :=
  let go (narrow : Bool) (h : Nat) : State :=
    let s1 := setPort (setF s (Reg.CZL_PORT_HALF n) h) n { portOf s n with narrow := narrow }
    emit (enterStage s1 n 4)
      (.exch n (.trainExch (myNode s) n (if narrow then 4 else 8) (getF s Reg.HST_ID_STEPPING)))
  if aligned % 256 = 255 then go false 0
  else match betterHalf s n aligned with
    | some h => go true h
    | none => portDown s n false 0x0C01

/-- ALIGN of a degrade retrain ends: EXCHANGE on the better half, or DOWN (R488, R489). -/
def degradeAligned (s : State) (n aligned : Nat) : State :=
  match betterHalf s n aligned with
  | none => portDown s n false 0x0C01
  | some h =>
    emit (setPort (setF s (Reg.CZL_PORT_HALF n) h) n { portOf s n with narrow := true, exch := true })
      (.exch n (.trainExch (myNode s) n 4 (getF s Reg.HST_ID_STEPPING)))

/-- LINK_TRAIN_STAGE_DONE (R483, R488). -/
def execLinkTrainStageDone (n margins aligned : Nat) (s : State) : Host.Outcome State Fault Refusal :=
  let st := portState s n
  if st = 1 then .next (enterStage s n 2)
  else if st = 2 then .next (enterStage (setF s (Reg.CZL_PORT_MARGIN_LANES n) margins) n 3)
  else if st = 3 then .next (alignDone s n aligned)
  else if st = 4 ∧ isSet s (Reg.CZL_PORT_PEER_VALID n) = true then .next (portActive s n)
  else if st = 7 ∧ (portOf s n).exch = false then .next (degradeAligned s n aligned)
  else .next s

/-- Time limit of a stage, in ticks (Table 14.6, R488). -/
def stageLimit (st : Nat) : Nat :=
  if st = 2 then 6000000 else if st = 3 ∨ st = 7 then 1000000 else 500000

/-- LINK_TRAIN_TIMEOUT (R483): at DETECT DOWN, without a flag where the port is not expected (R484); at EQUALIZE the
stage ends, for it has no failure; at ALIGN the port narrows or goes DOWN; at EXCHANGE and in a degrade retrain DOWN. -/
def execLinkTrainTimeout (n aligned : Nat) (s : State) : Host.Outcome State Fault Refusal :=
  let st := portState s n
  if !portTraining s n || s.lTime < (portOf s n).since + stageLimit st then .next s
  else if st = 1 then .next (portDown s n (!isSet s (Reg.CZL_PORT_CTL_EXPECTED n)) 0x0C01)
  else if st = 2 then .next (enterStage s n 3)
  else if st = 3 then .next (alignDone s n aligned)
  else .next (portDown s n false 0x0C01)

/-- TRAIN_EXCH (Table 14.6): the peer's node and port; an equal node ID sets NODE_CONFLICT and the port goes DOWN. -/
def execTrainExch (n node port _width _stepping : Nat) (s : State) : Host.Outcome State Fault Refusal :=
  let st := portState s n
  if st ≠ 4 ∧ st ≠ 7 then .next s
  else
    let s1 := setF (setF s (Reg.CZL_PORT_PEER_NODE n) node) (Reg.CZL_PORT_PEER_PORT n) port
    if node = myNode s then .next (portDown (raise s1 Reg.CZL_STATUS_NODE_CONFLICT) n false 0x0C02)
    else .next (setF s1 (Reg.CZL_PORT_PEER_VALID n) 1)

/-- The TRAIN_EXCH frames of a degrade retrain have crossed: the port is ACTIVE_DEGRADED (R488). -/
def degradeExchanged (s : State) (n : Nat) : State :=
  if portState s n = 7 ∧ (portOf s n).exch = true ∧ isSet s (Reg.CZL_PORT_PEER_VALID n) = true then portActive s n else s

/-- LINK_DEGRADE_DONE (R488, R489): ALIGN has brought up the better half, if it had not, and once the peer's TRAIN_EXCH has
come too the port enters ACTIVE_DEGRADED and resends; with neither half it goes DOWN. -/
def execLinkDegradeDone (n aligned : Nat) (s : State) : Host.Outcome State Fault Refusal :=
  if portState s n ≠ 7 then .next s
  else if (portOf s n).exch then .next (degradeExchanged s n)
  else .next (degradeExchanged (degradeAligned s n aligned) n)

/-- RETRAIN_PORT (R482, R484, Table 14.4): refused while the port trains; the response waits for the port to settle. -/
def execRetrainPort (s : State) : Host.Outcome State Fault Refusal :=
  match takeCmd s 0x0C11 fun _ => true with
  | none => .next s
  | some c =>
    let n := leAt c.payload 0 1
    if c.started then .next s
    else if 12 ≤ n ∨ isSet s (Reg.CZL_PORT_CTL_DISABLE n) = true then .next (respond s c 0x0C01 [])
    else if portTraining s n then .next (respond s c 0x0C05 [])
    else .next (startTrain (markStarted s c) n)

/-! ## Receiving -/

/-- A Cezlink flit failure is recorded as fault 0x16, F1 (R449, Table 13.4). -/
def flitFault (s : State) (n : Nat) (lasting : Bool) : State := recordFault s 0x16 1 lasting false nobody nobody n

/-- A data flit with a CRC error (R485, R486, R488, R489): NAKed by its LSEQ, and lasting when that LSEQ failed before. -/
def badFlit (s : State) (n lseq : Nat) : State :=
  let x := portOf s n
  if x.failed.contains lseq then
    let s1 := flitFault (bumpSat s (Reg.CZL_PORT_ERR_LASTING n) 1) n true
    if portState s n = 6 then portDown s1 n false 0x0C01
    else
      let s2 := setF (setPort s1 n { x with failed := [], degrading := true, exch := false }) (Reg.CZL_PORT_PEER_VALID n) 0
      raise (enterStage s2 n 7) Reg.CZL_STATUS_DEGRADED
  else sendControl (setPort s n { x with failed := x.failed ++ [lseq] }) n (some lseq)

/-- The port a flit for another node leaves on: the route at its message's first flit (R495). -/
def fwdPort (s : State) (f : Flit) : Option Nat :=
  if f.first then routeTo s f.dest
  else (s.fwd.find? fun e => e.1 == (f.src, f.msg)).bind fun e => if e.2 = 15 then none else some e.2

/-- Forward a flit for another node (R495, R496, R497). What is discarded leaves its buffer at once; what waits leaves it
when it is sent (R490). -/
def forwardFlit (s : State) (n : Nat) (f : Flit) : State :=
  let key := (f.src, f.msg)
  let gone (a : State) : State := leaveBuffer a n f.tc
  if f.ftype = 2 then gone (linkDropped s)
  else if f.hops = 0 then gone (linkDropped (bumpSat s Reg.CZL_DROP_TTL_DROP 1))
  else
    let others := s.fwd.filter fun e => e.1 != key
    let port := fwdPort s f
    let s1 := { s with fwd := if f.last then others else others ++ [(key, port.getD 15)] }
    match port with
    | some p =>
      if portState s p = 0 then gone (bumpSat s1 Reg.CZL_DROP2_DOWN_DROP 1)
      else queueFlits s1 p n [{ f with hops := f.hops - 1 }]
    | none => gone (if f.first then linkDropped (bumpSat s1 Reg.CZL_DROP_NO_ROUTE 1) else s1)

/-- A flit for this node joins its message (R498). The message's effect is a command of its own, for when it is whole. -/
def takeFlit (s : State) (f : Flit) : State :=
  let mine (r : Reasm) : Bool := r.src == f.src && r.msg == f.msg
  let others := s.reasm.filter fun r => !mine r
  if f.last then { s with reasm := others }
  else if f.first then
    { s with reasm := others ++ [{ src := f.src, msg := f.msg, ftype := f.ftype, since := s.lTime, dead := false }] }
  else s

/-- A data flit that the link layer accepts (R479, R496, R517): it is discarded, forwarded or taken, and its credit goes back
when it leaves its buffer (R490). -/
def acceptFlit (s : State) (n : Nat) (f : Flit) : State :=
  if tcOf f.ftype ≠ some f.tc then leaveBuffer (linkDropped s) n f.tc
  else if stage s = 7 ∧ 3 < f.ftype then leaveBuffer (linkDropped s) n f.tc
  else if f.dest ≠ myNode s then forwardFlit s n f
  else leaveBuffer (takeFlit s f) n f.tc

/-- DATA_FLIT_RECEIVE (R485, R486, R490): a flit with the wrong CRC is NAKed; one out of sequence is discarded without a
count; an accepted one is counted and acknowledged. -/
def execDataFlitReceive (n : Nat) (bytes : List Byte) (s : State) : Host.Outcome State Fault Refusal :=
  if !portUp s n then .next s
  else match readFlit bytes with
    | none => .next (badFlit s n (leAt bytes 2 2))
    | some (lseq, f) =>
      let x := portOf s n
      if lseq ≠ x.rxSeq then .next s
      else
        let s1 := if x.failed.contains lseq then
            flitFault (bumpSat s (Reg.CZL_PORT_ERR_TRANSIENT n) 1) n false else s
        let x1 : Port := { x with
          rxSeq := (x.rxSeq + 1) % 65536
          failed := x.failed.filter (· != lseq) }
        let s2 := bump (setPort s1 n x1) (Reg.CZL_PORT_RX_FLITS n) 1
        .next (acceptFlit (sendControl s2 n none) n f)

/-- The replay buffer past the flit `ack` names. -/
def afterAck (l : List (Nat × Flit)) (ack : Nat) : List (Nat × Flit) :=
  if l.any fun e => e.1 == ack then (l.dropWhile fun e => e.1 != ack).drop 1 else l

/-- CONTROL_FLIT_RECEIVE (R485, R487, R490): CTRL_ERR, or acknowledgement, credits and a resend. -/
def execControlFlitReceive (n : Nat) (crcOk : Bool) (ack nak : Option Nat) (credits : List Nat) (s : State) :
    Host.Outcome State Fault Refusal :=
  if !portUp s n then .next s
  else if !crcOk then .next (bumpSat s (Reg.CZL_PORT_ERR_CTRL_ERR n) 1)
  else
    let x := portOf s n
    let left := match ack with | some a => afterAck x.replay a | none => x.replay
    let s1 := setPort s n { x with replay := left, returned := (List.range 4).map (clsGet credits) }
    let s2 := match nak with
      | some q => resendFrom s1 n (left.dropWhile fun e => e.1 != q)
      | none => s1
    .next (pumpPort s2 n)

/-- MSG_REASSEMBLY_TIMEOUT (R498): the message is discarded and counted; its later flits are dropped silently. -/
def timeoutMsg (s : State) (src msg : Nat) : Option (State × Nat) :=
  match s.reasm.find? fun r => r.src == src && r.msg == msg && !r.dead with
  | some r =>
    if s.lTime < r.since + 500000 then none
    else
      let s1 := { s with reasm := s.reasm.map fun x => if x = r then { x with dead := true } else x }
      some (linkDropped (bumpSat s1 Reg.CZL_DROP2_MSG_TIMEOUT 1), r.ftype)
  | none => none

end Sys2Proof.Machine
end

