-- ==== Sys2Proof/Machine/Faults.lean ====
section
/-! DEFINITION. The fault collector (spec/13): the consequences of each class, page retirement (spec/06, Table 06.6), the
watchdog (spec/02, R82), FAULT_N, the fault log, and the context, partition and tenant resets. -/
namespace Sys2Proof.Machine

/-! ## Chip fault -/

/-- What an update session that closes without a commit leaves (R647): the sectors it erased hold free values, and the slot
is marked unspecified. A session that has written nothing leaves the slot as it was. -/
def spoilSlot (s : State) : State :=
  match s.upd with
  | none => s
  | some u =>
    if u.erased.isEmpty then s
    else
      let e := slotExtent s u.target
      let d := draw (u.erased.foldl (fun a k => garbleFlash a (4096 * k) 4096) s)
      { d.2 with spoiled := (e.1, e.2, d.1) :: d.2.spoiled }

/-- The update session is over. -/
def endUpdate (s : State) : State := setF { s with upd := none } Reg.MGT_UPD_STATE_SESSION 0

/-- An update session is closed before its commit (R647). -/
def closeUpdate (s : State) : State := endUpdate (spoilSlot s)

/-- The running mailbox command receives 0x0703 (R455). -/
def abortCmd (s : State) : State :=
  match runnable s with
  | some c => respond s c 0x0703 []
  | none => s

/-- This device announces that it is lost to each group, formed or forming (R520). -/
def leaveGroups (s : State) : State :=
  (List.range 32).foldl (fun a n => match group? a n with
    | some x => x.peers.foldl (fun b q => sendBare b q.node (.leave (gidOf b n))) a
    | none => a) s

/-- R455: the chip stops. Steps are dropped without expiry, power falls, FAULT_N is asserted, a session closes. -/
def stopChip (s : State) (id : Nat) : State :=
  if chipFaulted s then s
  else
    let second := s.boot.f4Id == id && isSet s Reg.MGT_BOOT_INFO_RESTARTED && !s.boot.up
    let s1 := (List.range 16).foldl (fun a p => dropSteps a p fun _ => true) (leaveGroups s)
    let s2 := setCause (setF s1 Reg.FLT_STATE_CHIP_FAULTED 1) 0
    let s3 := updatePred { s2 with boot := { s2.boot with f4At := some s2.aTime, f4Id := id, stopped := second } }
    abortCmd (closeUpdate s3)

/-- An F4 fault: its record and the stop. -/
def chipFault (s : State) (id part ctx detail : Nat) (lasting promoted : Bool) : State :=
  stopChip (recordFault s id 4 lasting promoted part ctx detail) id

/-! ## Partition fault -/

/-- An F3 fault of partition `p` (R446, R451): its record, the cause PART and the partition reset; F4 in shared-time mode. -/
def partFault (s : State) (id p ctx detail : Nat) : State :=
  if sharedMode s then chipFault s id p ctx detail false true
  else
    let s1 := setCause (recordFault s id 3 false false p ctx detail) 5
    if serving s1 ∧ s1.boot.warm = none then startPartReset s1 p else s1

/-- The partition that owns a grove. -/
def groveOwner (s : State) (g : Nat) : Option Nat :=
  if isSet s (Reg.GRV_STATUS_ASSIGNED g) then some (getF s (Reg.GRV_STATUS_PARTITION g)) else none

/-- A fault whose scope is the partition of a grove; an unassigned grove takes the alternative. -/
def groveFault (s : State) (id g detail : Nat) (other : State → State) : State :=
  match groveOwner s g with
  | some p => partFault s id p nobody detail
  | none => other s

/-! ## Context fault -/

/-- A context teardown, and what waited for its step to leave (R453). -/
def tearCtx (s : State) (t : Nat) : State := afterLeave (teardownCtx s t 0x0701) t

/-- The consequence of an F2 fault in context `g` (R453, R471): a part of a group is lost with its group (R456, R520). -/
def tearFaulted (s : State) (g : Nat) : State :=
  let t := (targetOf s g).getD g
  if !serving s || partResetting s (ctxPart t) || s.boot.warm.isSome then s
  else match ctx? s t with
    | none => s
    | some c =>
      if groupFormed s c.slot then loseGroup s c.slot 0x0701 false else tearCtx s t

/-- An F2 fault of context `g`, charged to the target of a pair (R471). -/
def contextFault (s : State) (id g detail : Nat) (lasting : Bool) : State :=
  let t := (targetOf s g).getD g
  tearFaulted (recordFault s id 2 lasting false (ctxPart t) (ctxLocal t) detail) t

/-! ## DRAM (R203 to R208, R228) -/

/-- DETAIL of a memory fault (Table 13.5). -/
def memDetail (x : Nat) : Nat := x / 32 % 2 ^ 31

/-- PARTITION of a memory fault (R458). -/
def memPart (s : State) (x : Nat) : Nat :=
  if 0x7F000000 ≤ x % 2 ^ 31 then nobody else (groveOwner s (x / 2 ^ 32)).getD nobody

/-- The retired-page list takes an entry, or is full (R208). -/
def listRetired (s : State) (x : Nat) : State :=
  let s1 := raise s Reg.MEM_EVT_STATUS_PAGE_RETIRED
  if 1024 ≤ s1.retired.length then
    raise { s1 with retiredFull := s1.retiredFull ++ [x] } Reg.MEM_EVT_STATUS_RETIRE_LIST_FULL
  else
    let life := { s1.set.life with pages := s1.set.life.pages + 1 }
    { s1 with retired := s1.retired ++ [x], set := { s1.set with life := life, dueAt := some (s1.set.dueAt.getD s1.sTime) } }

/-- The place of a page among those of a request: the slot it is copied to has the same place (R218). -/
def pagePlace (s : State) (h : Nat) (r : Req) : PageUse → Nat
  | .parking _ l k d => (seqPages s h r).findIdx (· == .kv h l k d)
  | u => (seqPages s h r).findIdx (· == u)

/-- An arena page is retired, and a charged one is credited (R207, R214): KV, MASK, and PARKING of a park, whose slot then takes
no charge. -/
def retirePage (s : State) (p i : Nat) : State :=
  let u := (page s p i).use
  let s1 := reusePage s p i .retired
  match (useReq u).bind (reqByHandle s) with
  | none => s1
  | some (j, r) => match u with
    | .kv .. => credit s1 r.tenant 1
    | .mask _ => credit s1 r.tenant 1
    | .parking h _ _ _ =>
      if r.parking then credit (setReq s1 j (some { r with slots := r.slots.eraseIdx (pagePlace s h r u) })) r.tenant 1
      else s1
    | _ => s1

/-- The context that owns a page (R202): its owner, or the context of the request whose MASK page it is. -/
def pageCtx (s : State) (x : Page) : Option Nat :=
  match x.owner with
  | .ctx g => some g
  | .group g => some g
  | .tenant _ => ((useReq x.use).bind (reqByHandle s)).map (·.2.ctx)
  | .none => none

/-- The copies of a request of which a PARKING page is lost are abandoned (Table 06.6). -/
def abandonCopies (s : State) (u : PageUse) : State :=
  match u with
  | .parking h _ _ _ => match reqByHandle s h with
    | some (i, r) => if r.parking || r.unparking then endCopies (dropWaits s (forReq i)) i else s
    | none => s
  | _ => s

/-- A lasting read in arena page `i` (R214, R228, Table 06.6). -/
def arenaFault (s : State) (p i x : Nat) : State :=
  let u := (page s p i).use
  let plain (a : State) : State := recordFault a 0x07 1 true false p nobody (memDetail x)
  match u with
  | .retired => plain s
  | .free => plain (retirePage (listRetired s x) p i)
  | .model n =>
    let gs := slotCtxs s n
    let s1 := retirePage (listRetired s x) p i
    let s2 := gs.foldl (fun a g => recordFault a 0x06 2 true false p (ctxLocal g) (memDetail x)) s1
    if serving s2 ∧ !partResetting s2 p ∧ s2.boot.warm = none then
      evictWhole (gs.foldl (fun a g => stopCtx a g 0x0701) s2) n 0x0701
    else s2
  | _ =>
    let s1 := retirePage (listRetired s x) p i
    match pageCtx s (page s p i) with
    | some g => abandonCopies (contextFault s1 0x06 g (memDetail x) true) u
    | none => plain s1

/-- The context whose save area holds a unit of the save region. -/
def saveOwner (s : State) (p unit : Nat) : Option Nat :=
  (s.ctxs.find? fun e => match e.2 with
    | some c => e.1 / 32 == p && c.saveBase ≤ unit && unit < c.saveBase + c.saveUnits
    | none => false).map (·.1)

/-- A lasting uncorrectable read at a physical address (R205, R228, Table 06.6). -/
def lastingRead (s : State) (x : Nat) : State :=
  let s1 := setF (raise s Reg.MEM_EVT_STATUS_UNCORR_LASTING) Reg.MEM_ERR_ADDR_PHYS x
  if 0x7F000000 ≤ x % 2 ^ 31 then chipFault s1 0x08 nobody nobody (memDetail x) true false
  else match groveOwner s1 (x / 2 ^ 32) with
    | none => recordFault (listRetired s1 x) 0x07 1 true false nobody nobody (memDetail x)
    | some p => match partAddr s1 p x with
      | none => s1
      | some y =>
        if y < 2 ^ 20 * (part s1 p).traceMib then
          let t := traceOf s1 p
          let s2 := setTrace (listRetired s1 x) p { t with skip := y / 65536 :: t.skip }
          recordFault (raise s2 Reg.TRC_STATUS_RING_PAGE_LOST) 0x07 1 true false p nobody (memDetail x)
        else if y < arenaBase s1 p then
          let s2 := listRetired s1 x
          match saveOwner s1 p (y / 65536 - (part s1 p).traceMib * 16) with
          | some g => contextFault s2 0x06 g (memDetail x) true
          | none => recordFault s2 0x06 1 true false p nobody (memDetail x)
        else arenaFault s1 p ((y - arenaBase s1 p) / 65536) x

/-- A read of a DRAM word meets `first` erroneous symbols, and its one retry `retry`, or those that stand in the word if they
are more (R203 to R205): one is corrected, and stands until the word is written; more are uncorrectable. -/
def dramRead (s : State) (x : Nat) (e : EccRead) : State :=
  let ch := x / 2 ^ 31
  let n := max e.first (eccAt s (x / 32))
  let m := max e.retry (eccAt s (x / 32))
  if n = 0 then s
  else if n = 1 then
    recordFault (bumpSat (setEcc s (x / 32) 1) (Reg.MEM_ECC_CNT_CORRECTED ch) 1) 0x04 0 false false (memPart s x) nobody 0
  else if m ≤ 1 then
    let s1 := bumpSat (setEcc s (x / 32) m) (Reg.MEM_ECC_CNT_TRANSIENT ch) 1
    recordFault (raise s1 Reg.MEM_EVT_STATUS_UNCORR_TRANSIENT) 0x05 1 false false (memPart s x) nobody (memDetail x)
  else lastingRead (setEcc s (x / 32) m) x

/-- A read of the `n` bytes from a physical address meets what stands in their 32-byte words (R115, R203). -/
def readWords (s : State) (x n : Nat) : State :=
  if n = 0 then s
  else (List.range ((x + n - 1) / 32 - x / 32 + 1)).foldl (fun a i => dramRead a (32 * (x / 32 + i)) ⟨0, 0⟩) s

/-! ## The patrol scrubber (R206) -/

/-- Ticks in SCRUB_HOURS. -/
def scrubPeriod (s : State) : Nat := 1800000000000 * getF s Reg.MEM_SCRUB_CTL_SCRUB_HOURS

/-- A pass that has read every word gives way to the next when its period is over. -/
def nextPass (s : State) : State :=
  if 2 ^ 31 ≤ s.scrub.next ∧ s.scrub.since + scrubPeriod s ≤ s.mTime then
    { s with scrub := { next := 0, since := s.mTime } }
  else s

/-- The scrubber reads word `w`: it is the next of the pass, in ascending order over the channels (DESIGN CHOICE,
notes/assumptions/69.md); a word with one erroneous symbol is written back with its ECC anew. -/
def scrubWord (s : State) (w : Nat) (e : EccRead) : State :=
  let s0 := nextPass s
  if s0.scrub.next ≠ w then s0
  else
    let s1 := dramRead { s0 with scrub := { s0.scrub with next := w + 1 } } (32 * w) e
    if eccAt s1 w = 1 then setEcc s1 w 0 else s1

/-! ## The watchdog (R82, R83) -/

/-- A watchdog expiry: Heartwood restarts, and the watchdog counts anew; or Heartwood is held in reset when it expires
again within 60 s of a restart, be it that the restart never ended. -/
def watchdogFires (s : State) : State :=
  if 2 ≤ getF s Reg.HST_STATUS_HWD_STATE then s
  else
    let s1 := setF s Reg.MGT_MBX_STATUS_READY 0
    let again := match s.hwd.lastExpiry with | some t => decide (s.aTime ≤ t + 30000000000) | none => false
    if again then
      recordFault (setCause (setF s1 Reg.HST_STATUS_HWD_STATE 2) 1) 0x18 1 true false nobody nobody 0
    else
      setF { s1 with hwd := { s1.hwd with restartAt := some s1.aTime, lastExpiry := some s1.aTime, kickAt := s1.aTime } }
        Reg.HST_STATUS_HWD_STATE 1

/-- WATCHDOG_KICK (R82). -/
def execWatchdogKick (s : State) : Host.Outcome State Fault Refusal :=
  if getF s Reg.HST_STATUS_HWD_STATE = 0 then .next { s with hwd := { s.hwd with kickAt := s.aTime } } else .next s

/-- WATCHDOG_EXPIRY (R82): no kick for 100 ms. It does not run out during a hand-off (R651). -/
def execWatchdogExpiry (s : State) : Host.Outcome State Fault Refusal :=
  if s.hwd.handoff.isSome ∨ s.aTime < s.hwd.kickAt + 50000000 then .next s else .next (watchdogFires s)

/-! ## Classification (Table 13.2) -/

/-- DETAIL of a grove, a cluster and a crossing (Table 13.5). -/
def groveDetail (g l : Nat) : Nat := g * 256 + l
def crossDetail (num unit : Nat) : Nat := unit * 256 + num

/-- A single-bit error is corrected and counted as F0. -/
def corrected (s : State) : State := recordFault s 0 0 false false nobody nobody 0

/-- The context whose step runs on grove `g` of partition `p`: that of the step that holds the groves, or, until the grove
acknowledges ABANDON, of the one that ABANDON stops (Table 04.6). -/
def runningCtx (s : State) (p g : Nat) : Option Nat :=
  let l := lane s p
  match l.cur with
  | some st => some st.ctx
  | none => if l.acks.contains g then l.abandoned else none

/-- The line that a set of a slice holds in a way. -/
def lineIn (s : State) (g set way : Nat) : Option (Nat × L2Line) :=
  s.l2.findSome? fun e => match e.2 with
    | some x => if lineGrove e.1 = g ∧ lineSet e.1 = set ∧ x.way = way then some (e.1, x) else none
    | none => none

/-- A double-bit error in an L2 line: a clean line is invalidated and read again from its channel; a dirty one is lost with
its partition (Table 13.2). -/
def lineFault (s : State) (g set way : Nat) : State :=
  match lineIn s g set way with
  | none => s
  | some (_, x) =>
    if x.dirty then
      groveFault s 0x13 g (groveDetail g 0) fun a => chipFault a 0x13 nobody nobody (groveDetail g 0) false false
    else recordFault (countGrove s g 2 128) 0x12 1 false false ((groveOwner s g).getD nobody) nobody (groveDetail g 0)

/-- A double-bit error in Assay partial state: the slot has no result for the step; counted in TRACE_LOST (R691). -/
def loseAssay (s : State) (p k : Nat) : State :=
  match (lane s p).cur with
  | some st =>
    if st.watch.any fun w => w.1 == k then
      let st1 := { st with watch := st.watch.filter fun w => w.1 != k, assay := st.assay.filter fun a => a.slot != k }
      let s1 := setLane s p { lane s p with cur := some st1 }
      raise (bump s1 (Reg.TRC_PART_COUNT p 6) 1) Reg.TRC_STATUS_RECORD_LOST
    else s
  | none => s

/-- Classification and consequence of what a unit reports (R445, R447). -/
def collect (s : State) : FaultSrc → State
  | .clusterEcc g _ true =>
    corrected (raise (bumpSat s (Reg.GRV_ECC_CNT_CORRECTED g) 1) (Reg.GRV_EVT_STATUS_ECC_CORR g))
  | .clusterEcc g l false =>
    let s1 := raise s (Reg.GRV_EVT_STATUS_ECC_UNCORR g)
    match (groveOwner s1 g).bind fun p => runningCtx s1 p g with
    | some c => contextFault s1 0x01 c (groveDetail g l) false
    | none => recordFault s1 0x01 2 false false ((groveOwner s1 g).getD nobody) nobody (groveDetail g l)
  | .translator c => contextFault (raise s Reg.MEM_EVT_STATUS_XLATE_REFUSED) 0x02 c 0 false
  | .dram x e => dramRead s x e
  | .planBuffer g =>
    groveFault s 0x09 g (groveDetail g 0) fun a => chipFault a 0x09 nobody nobody (groveDetail g 0) false false
  | .crossing _ _ true => corrected s
  | .crossing num unit false =>
    let d := crossDetail num unit
    let f1 (a : State) : State := recordFault a 0x0B 1 true false nobody nobody d
    if 3 ≤ num ∧ num ≤ 7 then groveFault s 0x0B unit d f1
    else if num = 8 then groveFault s 0x0B (unit / 2) d f1
    else if num = 10 ∨ num = 11 ∨ num = 13 then
      portDown (recordFault s 0x0C 1 true false nobody nobody d) unit false 0x0C01
    else if num = 18 ∨ num = 19 then watchdogFires (recordFault s 0x0D 1 false false nobody nobody d)
    else chipFault s 0x0E nobody nobody d false false
  | .lane p => partFault s 0x0F p nobody 0
  | .partState _ true => corrected s
  | .partState p false => partFault s 0x10 p nobody 0
  | .requestEngine _ true => corrected s
  | .requestEngine device false =>
    chipFault (if device then raise s Reg.PRT_STATUS_REG_ECC else s) 0x11 nobody nobody 0 false false
  | .sampler true => corrected (raise s Reg.SMP_STATUS_ECC_CORR)
  | .sampler false => chipFault s 0x11 nobody nobody 0 false false
  | .l2 g set way => lineFault s g set way
  | .imageStore profile =>
    let s1 := recordFault (raise s Reg.CFG_EVT_STATUS_STORE_ECC) 0x20 1 false false nobody nobody 0
    let s2 := { s1 with img := if profile then { s1.img with profileBad := true } else { s1.img with slotBad := true } }
    if !profile && s2.hwd.handoff.isSome then watchdogFires s2 else s2
  | .traceFifo p => dropTrace s p
  | .assay p k => loseAssay s p k
  | .collector true => corrected s
  | .collector false => let d := draw s; chipFault d.2 (Config.freeNat d.1 % 256) nobody nobody 0 false false

/-- FAULT_REPORT (R445, R447). The collector runs from the deassertion of POR_N (R473). A double-bit error of the
collector's own state is an F4 to which Table 13.2 gives no ID: the ID is a free value (R472). -/
def execFaultReport (src : FaultSrc) (s : State) : Host.Outcome State Fault Refusal :=
  if s.boot.por then .next s
  else .next (collect s src)

/-- PLL_LOSS_OF_LOCK (R81, Table 13.2). Domain 8, ACLK, has no PLL. -/
def execPllLossOfLock (b : Nat) (s : State) : Host.Outcome State Fault Refusal :=
  if 8 ≤ b ∨ (getF s Reg.HST_CLK_STATUS_LOCK).testBit b = false then .next s
  else
    let s1 := setBit s Reg.HST_CLK_STATUS_LOCK b false
    if b = 6 then .next (watchdogFires (recordFault s1 0x15 1 false false nobody nobody b))
    else .next (chipFault s1 0x14 nobody nobody b false false)

/-! ## FAULT_N (R466, R467) -/

/-- The holding condition of a cause (Table 13.10). -/
def causeHeld (s : State) (k : Nat) : Bool :=
  if k = 0 then chipFaulted s || s.boot.warm.isSome
  else if k = 1 then true
  else if k = 2 then decide (2 ≤ getF s Reg.FLT_BTN_STATE)
  else if k = 3 then getF s Reg.MEM_CH_STATUS_TRAIN_FAIL != 0 && stage s == 4
  else if k = 4 then
    (List.range 8).any fun d => isSet s (Reg.PWR_SHELF_VALID d) && !isSet s (Reg.PWR_SHELF_REACHABLE d)
  else if k = 6 then
    (List.range 12).any fun n => portState s n == 0 && isSet s (Reg.CZL_PORT_CTL_EXPECTED n)
  else false

/-- A write to FLT_FAULTN: each cause written 1 clears unless its condition holds. -/
def faultnWrite (s : State) (v mask : BitVec 64) : State :=
  let w := (v &&& mask).toNat
  let s1 := withFaultn s fun a => (List.range 7).foldl (fun b k =>
    if w.testBit k && !causeHeld a k then setF b ⟨Reg.FLT_FAULTN, k, 1⟩ 0 else b) a
  if 128 ≤ w then raise s1 Reg.HST_ERR_STATUS_RSV_NONZERO else s1

/-- FAULTN_CLEAR (R467). -/
def execFaultnClear (v : W32) (s : State) : Host.Outcome State Fault Refusal :=
  reach s (Reg.FLT_FAULTN) fun s =>
  .next (faultnWrite s (v.setWidth 64) 0xFFFFFFFF#64)

/-! ## The fault log (R457, R459) -/

/-- Heartwood counts a record in the lifetime counters (R458, R632). -/
def countLife (l : Life) (r : FaultRec) : Life :=
  let c := r.cls % 8
  if c = 1 then { l with f1 := l.f1 + 1 }
  else if c = 2 then { l with f2 := l.f2 + 1 }
  else if c = 3 then { l with f3 := l.f3 + 1 }
  else if c = 4 then { l with f4 := l.f4 + 1 }
  else if c = 5 then { l with group := l.group + 1 }
  else if c = 6 then { l with request := l.request + 1 }
  else l

/-- Heartwood moves the queued records into the log, when it runs (R457, R473). -/
def drainFaults (s : State) : State :=
  if getF s Reg.HST_STATUS_HWD_STATE ≠ 0 ∨ s.fltQueue = [] then s
  else
    let all := s.fltLog ++ s.fltQueue
    let s1 := { s with
      fltLog := all.drop (all.length - 256)
      fltLost := s.fltLost + (all.length - 256)
      set := { s.set with life := s.fltQueue.foldl countLife s.set.life }
      fltQueue := [] }
    setF s1 Reg.FLT_STATE_QUEUED 0

/-- READ_FAULT_LOG (R459): records from the index given, 0 the newest. -/
def execReadFaultLog (s : State) : Host.Outcome State Fault Refusal :=
  runCmd s 0x0714 (fun _ => true) fun c =>
    let s1 := drainFaults s
    let rs := (s1.fltLog.reverse.drop (leAt c.payload 0 2)).take 251
    respond s1 c 0 (leBytes 2 rs.length ++ leBytes 2 s1.fltLog.length ++ leBytes 4 s1.fltLost ++
      List.replicate 8 0#8 ++ rs.flatMap faultBytes)

/-- CLEAR_FAULT_LOG (R459): the log and its count of records lost. -/
def execClearFaultLog (s : State) : Host.Outcome State Fault Refusal :=
  runCmd s 0x0715 (fun _ => true) fun c => respond { drainFaults s with fltLog := [], fltLost := 0 } c 0 []

/-! ## Reset commands (R459) -/

/-- A reset of partition `p` or of the chip is in progress. -/
def resetBusy (s : State) (p : Nat) : Bool := partResetting s p || s.boot.warm.isSome || chipFaulted s

/-- TEARDOWN_CONTEXT (R453, R459), of a group's context too: the group stays. -/
def execTeardownContext (s : State) : Host.Outcome State Fault Refusal :=
  runCmd s 0x0711 (fun _ => true) fun c =>
    let p := leAt c.payload 0 1
    let n := leAt c.payload 1 1
    let g := 32 * p + n
    if 16 ≤ p ∨ 32 ≤ n ∨ (ctx? s g).isNone ∨ isDraft s g = true then respond s c 0x0707 []
    else if resetBusy s p then respond s c 0x0706 []
    else if !serving s then respond s c 0 []
    else respond (tearCtx s g) c 0 []

/-- RESET_PARTITION (R454, R459): answered by PARTITION_RESET_COMPLETE; in shared-time mode it resets partition 0. -/
def execResetPartition (s : State) : Host.Outcome State Fault Refusal :=
  match takeCmd s 0x0712 fun _ => true with
  | none => .next s
  | some c =>
    let p := if sharedMode s then 0 else leAt c.payload 0 1
    if c.started then .next s
    else if 16 ≤ p ∨ partValid s p = false then .next (respond s c 0x0707 [])
    else if resetBusy s p then .next (respond s c 0x0706 [])
    else .next (startPartReset (markStarted s c) p)

/-- The RESET_PARTITION that waits for the reset of `p`. -/
def resetCmd (s : State) (p : Nat) : Option MbxCmd :=
  match runnable s with
  | some c =>
    if c.started ∧ c.opcode = 0x0712 ∧ (if sharedMode s then 0 else leAt c.payload 0 1) = p then some c else none
  | none => none

/-- PARTITION_RESET_COMPLETE (R52, R454 step 6): the records owed are queued, STATE and OPEN return. -/
def execPartitionResetComplete (p : Nat) (s : State) : Host.Outcome State Fault Refusal :=
  if partResetting s p = false ∨ chipFaulted s = true ∨ s.boot.warm.isSome = true then .next s
  else
    let x := part s p
    let s1 := x.owed.foldl (fun a e => queueRec a (e.1 / 4) (e.1 % 4) e.2) (setPart s p { x with owed := [] })
    let st := if x.before = 2 ∨ x.before = 3 then x.before else 1
    let s2 := setBit (setF s1 (Reg.PRT_PART_STATE_STATE p) st) Reg.FLT_STATE_PARTS_RESETTING p false
    let s3 := if st = 1 then resumeOpen s2 p else s2
    match resetCmd s3 p with
    | some c => .next (respond s3 c 0 [])
    | none => .next s3

/-! ## Tenant reset (R461, R285) -/

/-- A live request ends without a record, its parks and unparks without DMA (R54, Table 06.4). -/
def silenceReq (s : State) (i : Nat) : State :=
  match req? s i with
  | none => s
  | some r =>
    let s1 := endReq (setReq s i (some { r with parking := false, unparking := false })) i .cancelled 0 true
    freeWhere s1 (r.ctx / 32) fun u => isParking u && useReq u == some (hnat i r)

/-- A tenant reset (R461). Copies of ended requests are over without DMA (Table 06.4), and ended requests whose records wait
lose them too. -/
def tenantReset (s : State) (t : Nat) : State :=
  let s1 := endCopiesOf ((liveReqs s fun r => r.tenant == t).foldl silenceReq s) fun r => r.tenant == t
  let s2 := (allReqs s1).foldl (fun a e => if e.2.tenant = t then freeEntryOf a e.1 e.2.gen else a) s1
  let s3 := { s2 with
    cohorts := s2.cohorts.filter fun e => match e.2 with | some c => c.tenant != t | none => true
    admQ := spDrop (fun k => k / 4 == t) s2.admQ
    sqs := spDrop (fun k => k / 4 == t) s2.sqs
    arb := { s2.arb with rings := s2.arb.rings.filter fun e => e.1 != t }
    cqs := spDrop (fun k => k / 4 == t) s2.cqs }
  let s4 := resetRegs (setDedup s3 t []) fun k => 0x400000 + 0x1000 * t ≤ k && k < 0x400000 + 0x1000 * (t + 1)
  let s5 := ([Reg.PRT_ACCT_JOBS t, Reg.PRT_ACCT_IN t, Reg.PRT_ACCT_OUT t, Reg.PRT_ACCT_PREEMPTED t] ++
    (List.range 11).map (Reg.PRT_ACCT_REJ t) ++
    (List.range 4).flatMap (fun c => (List.range 16).map (Reg.PRT_ACCT_WAIT t c)) ++
    (List.range 12).map (Reg.TRC_TEN t)).foldl resetReg s4
  let s6 := [Reg.ADM_TEN_RESERVED t, Reg.ADM_TEN_LIVE t, Reg.ADM_TEN_KVRSV t, Reg.ADM_TEN_QUEUED t,
    Reg.ADM_TEN_WAIT t].foldl resetReg s5
  { s6 with parts := s6.parts.map fun e => (e.1, { e.2 with owed := e.2.owed.filter fun x => x.1 / 4 != t }) }

/-- RESET_TENANT (R459, R461). -/
def execResetTenant (s : State) : Host.Outcome State Fault Refusal :=
  runCmd s 0x0710 (fun _ => true) fun c =>
    let t := leAt c.payload 0 1
    if 64 ≤ t then respond s c 0x0707 []
    else if s.boot.warm.isSome then respond s c 0x0706 []
    else respond (tenantReset s t) c 0 []

end Sys2Proof.Machine
end

