-- ==== Sys2Proof/Machine/Nvm.lean ====
section
/-! DEFINITION. The on-chip NVM and the shadow of the settings (spec/18): records, banks and stores, the erase-intent
protocol, owner copies, lifetime snapshots, repair-map copies, and SLOT_STATE (spec/19, Table 19.3). An NVM operation
that a command makes is done whole within that command; a loss of power in the middle of an erase is an operand of
VAON_LOSS (notes/assumptions). -/
namespace Sys2Proof.Machine

/-! ## Records (R614) -/

/-- A record's length. -/
def setRecSize (n : Nat) : Nat := 16 * ceilDiv (12 + n) 16

/-- A record's bytes. -/
def setRecBytes (r : SetRec) : List Byte :=
  let n := r.data.length
  let b := leBytes 2 r.tag ++ leBytes 2 n ++ leBytes 1 r.ver ++ [if r.retained then 1#8 else 0#8, 0#8, 0#8] ++ r.data ++
    List.replicate (setRecSize n - 12 - n) 0#8
  b ++ leBytes 4 (crc32c b).toNat

/-- Sectors that records of these sizes take, placed in order without crossing a sector: 4,080 bytes each (R614, R616). -/
def sectorsFor : List Nat → Nat → Nat → Nat
  | [], used, _ => used
  | x :: xs, used, room => if x ≤ room then sectorsFor xs used (room - x) else sectorsFor xs (used + 1) (4080 - x)

/-- The records of the retired-page list (Table 18.2). -/
def retiredRecs (s : State) : List SetRec :=
  (chunks 500 3 s.retired).map fun xs =>
    { tag := 4, ver := 1, retained := false, data := leBytes 2 xs.length ++ [0#8, 0#8] ++ xs.flatMap (leBytes 8 ·) }

/-- The retired pages that a record holds. -/
def retiredOf (r : SetRec) : List Nat := (List.range (leAt r.data 0 2)).map fun i => leAt r.data (4 + 8 * i) 8

/-- Records in tag order. -/
def insTag (r : SetRec) : List SetRec → List SetRec
  | [] => [r]
  | x :: xs => if r.tag < x.tag then r :: x :: xs else x :: insTag r xs
def byTag (l : List SetRec) : List SetRec := l.foldl (fun a r => insTag r a) []

/-! ## The shadow -/

/-- The MIGRATION record, when there is one. -/
def migration (s : State) : Option SetRec := s.set.dev.find? fun r => r.tag == 5

/-- RELEASE of the running Heartwood firmware, as Table 17.4 packs it. -/
def runningRel (s : State) : Nat := (rd s Reg.HST_FW_VER).toNat

/-- The firmware that runs is the one migrated from: it has fallen back (R624). -/
def fellBack (s : State) : Bool :=
  match migration s with
  | some m => leAt m.data 0 4 == runningRel s
  | none => false

/-- The record of a tag that the running firmware reads: after a fallback the RETAINED one, else the current one. -/
def findRec (s : State) (tag : Nat) : Option SetRec :=
  let l := (s.set.dev ++ s.set.host).filter fun r => r.tag == tag
  match l.find? fun r => r.retained == fellBack s with
  | some r => some r
  | none => l.head?

/-- What a store keeps of a part of the shadow (R624, R625). -/
def cleanPart (s : State) (l : List SetRec) : List SetRec :=
  match migration s with
  | none => l.filter fun r => !r.retained
  | some _ =>
    if fellBack s then
      (l.filter fun r => r.tag != 5 && (r.retained || !l.any fun q => q.tag == r.tag && q.retained)).map
        fun r => { r with retained := false }
    else l

/-- Registers that show the shadow: DIRTY, MIGRATION, the override (R595, R617). -/
def showSet (s : State) : State :=
  let s1 := setF (setF s Reg.NVS_STATE_DIRTY (if s.set.host = s.set.stored then 0 else 1)) Reg.NVS_STATE_MIGRATION
    (if (migration s).isSome then 1 else 0)
  match findRec s1 2 with
  | some r => setF (setF s1 Reg.CFG_STATUS_OVERRIDE_VALID 1) Reg.CFG_STATUS_OVERRIDE (leAt r.data 0 1)
  | none => setF (setF s1 Reg.CFG_STATUS_OVERRIDE_VALID 0) Reg.CFG_STATUS_OVERRIDE 0

/-- A device-owned record has changed: an automatic store is due (R619). -/
def storeDue (s : State) : State := { s with set := { s.set with dueAt := some (s.set.dueAt.getD s.sTime) } }

/-- Put a record in place of the one of its tag that the running firmware reads, or add it. -/
def putRec (s : State) (l : List SetRec) (r : SetRec) : List SetRec :=
  match findRec s r.tag with
  | some old => if l.contains old then l.map fun x => if x = old then r else x else l ++ [r]
  | none => l ++ [r]

/-! ## Erasing (R620) -/

/-- The active bank; none before the first store (R615, R638). -/
def bankActive (s : State) : Option Nat :=
  if getF s Reg.NVS_GENERATION_GENERATION = 0 then none else some (getF s Reg.NVS_STATE_BANK)

/-- The bank whose journal takes intents: the active one, else B, since the first store writes A. -/
def journalOf (s : State) : Nat := (bankActive s).getD 1

/-- SEQ of a sector's valid header. -/
def headerSeq (n : Nvm) (k : Nat) : Nat := match n.headers.find? fun e => e.1 == k with | some e => e.2 | none => 0

/-- Erase sector `k`: intent, erase, header with SEQ q. -/
def eraseSector (s : State) (k : Nat) : State :=
  let q := s.set.seq
  let n := s.nvm
  { s with
    set := { s.set with seq := q + 1 }
    nvm := { n with intents := n.intents ++ [(journalOf s, k, q)], headers := (n.headers.filter fun e => e.1 != k) ++ [(k, q)] } }

/-- Free intent slots of the journal in use. -/
def intentsFree (s : State) : Nat := 255 - (s.nvm.intents.filter fun e => e.1 == journalOf s).length

/-- Erase bank `b` for a set of `used` sectors: those, every sector that is not blank, and the journal (R618, R616). -/
def eraseBank (s : State) (b used : Nat) : State :=
  let dirty := (List.range 16).filter fun i => decide (i < used) || s.nvm.headers.any (·.1 == 16 + 16 * b + i) ||
    (i == 15 && s.nvm.intents.any fun e => e.1 == b)
  let s1 := dirty.foldl (fun a i => eraseSector a (16 + 16 * b + i)) s
  let s2 := { s1 with nvm := { s1.nvm with intents := s1.nvm.intents.filter fun e => e.1 != b } }
  let life := if b = 0 then { s2.set.life with eraseA := s2.set.life.eraseA + 1 }
    else { s2.set.life with eraseB := s2.set.life.eraseB + 1 }
  bump { s2 with set := { s2.set with life := life } } (Reg.NVS_WEAR_CYCLES b) 1

/-! ## Stores (R618) -/

def setBank (n : Nvm) (b : Nat) (x : Bank) : Nvm := if b = 0 then { n with bankA := x } else { n with bankB := x }
def getBank (n : Nvm) (b : Nat) : Bank := if b = 0 then n.bankA else n.bankB

/-- A store of the full set, with the host part or (`auto`) the stored host part; `ok`: every unit reads back. The result
code is 0 when the bank becomes active. -/
def storeCore (s : State) (auto ok : Bool) : State × Nat :=
  let host := cleanPart s (if auto then s.set.stored else s.set.host)
  let dev := cleanPart s s.set.dev
  let recs := byTag (dev ++ retiredRecs s ++ host)
  let used := sectorsFor ((recs.map fun r => setRecSize r.data.length) ++ [32]) 1 4080
  if 15 < used then (s, 0x0902)
  else
    let b := match bankActive s with | some b => 1 - b | none => 0
    let gen := getF s Reg.NVS_GENERATION_GENERATION + 1
    let s1 := eraseBank s b used
    if !ok then
      (raise { s1 with nvm := setBank s1.nvm b Bank.blank, set := { s1.set with dueAt := none } } Reg.NVS_STATUS_STORE_FAILED,
        0x0901)
    else
      let x : Bank := { recs := recs, commit := some (gen, recs.length, runningRel s) }
      let shadow := if auto then cleanPart s s.set.host else host
      let s2 := { s1 with
        nvm := setBank s1.nvm b x
        set := { s1.set with
          dev := dev, host := shadow, stored := host, dueAt := none
          life := { s1.set.life with stores := s1.set.life.stores + 1 } } }
      let s3 := setF (setF s2 Reg.NVS_STATE_BANK b) Reg.NVS_GENERATION_GENERATION gen
      (raise (showSet s3) Reg.NVS_STATUS_STORE_DONE, 0)

/-- Before an erase outside the banks, a journal with fewer than 17 free slots is moved by an automatic store (R620). -/
def makeIntents (s : State) : State := if intentsFree s < 17 then (storeCore s true true).1 else s

/-- Erase sectors outside the banks. -/
def eraseOther (s : State) (ks : List Nat) : State := ks.foldl (fun a k => eraseSector (makeIntents a) k) s

/-! ## Lifetime snapshots (R632) -/

/-- The latest snapshot of each half's newest: of the half whose first sector was erased last. -/
def lifeNow (n : Nvm) : List Life := if headerSeq n 54 < headerSeq n 50 then n.life50 else n.life54
def lifeLatest (n : Nvm) : Option Life := (lifeNow n).getLast?

/-- Sectors of a half: 4 of the lifetime region, 2 of the repair map. -/
def halfSectors (first n : Nat) : List Nat := (List.range n).map (first + ·)

/-- Write a snapshot: 204 of 80 bytes fill a half. -/
def snapshot (s : State) : State :=
  let l := { s.set.life with secs := s.set.secs0 + s.sTime / 500000000 }
  let s1 := { s with set := { s.set with life := l, snapAt := s.sTime } }
  let first := headerSeq s.nvm 54 < headerSeq s.nvm 50
  let blank := headerSeq s.nvm 50 = 0 ∧ headerSeq s.nvm 54 = 0
  if blank ∨ (!first && decide (204 ≤ s.nvm.life54.length)) then
    let s2 := eraseOther s1 (halfSectors 50 4)
    { s2 with nvm := { s2.nvm with life50 := [l] } }
  else if first then
    if 204 ≤ s.nvm.life50.length then
      let s2 := eraseOther s1 (halfSectors 54 4)
      { s2 with nvm := { s2.nvm with life54 := [l] } }
    else { s1 with nvm := { s1.nvm with life50 := s1.nvm.life50 ++ [l] } }
  else { s1 with nvm := { s1.nvm with life54 := s1.nvm.life54 ++ [l] } }

/-- A snapshot's data (R632). -/
def lifeBytes (l : Life) : List Byte :=
  leBytes 8 l.secs ++ leBytes 4 l.cold ++ leBytes 4 l.warm ++ leBytes 4 l.f1 ++ leBytes 4 l.f2 ++ leBytes 4 l.f3 ++
    leBytes 4 l.f4 ++ leBytes 4 l.group ++ leBytes 4 l.request ++ leBytes 4 l.selfTest ++ leBytes 4 l.pages ++
    leBytes 4 l.stores ++ leBytes 4 l.eraseA ++ leBytes 4 l.eraseB ++ leBytes 2 l.maxTd ++ [0#8, 0#8]

/-- A store with the snapshot before it (R618, R632). -/
def store (s : State) (auto ok : Bool) : State × Nat := storeCore (snapshot s) auto ok

/-! ## Owner copies (R627, R630, R631) -/

/-- The valid copy of highest GENERATION. -/
def ownerCur (n : Nvm) : Option OwnerCopy :=
  (n.owner48 ++ n.owner49).foldl (fun a c => match a with
    | none => some c
    | some b => if b.gen < c.gen then some c else a) none

/-- The anti-rollback counter. -/
def arbNow (s : State) : Nat := match ownerCur s.nvm with | some c => c.arb | none => 0

/-- Registers that show the owner copy; without one LOCKED, and OWNER_LOST and ARB_LOST. -/
def showOwner (s : State) : State :=
  let s1 := match ownerCur s.nvm with
    | some c =>
      setF (setF s Reg.MGT_STATUS_OWNER c.state) Reg.NVS_STATE_KEY_PRESENT (if c.key.isEmpty then 0 else 1)
    | none =>
      raise (raise (setF (setF s Reg.MGT_STATUS_OWNER 1) Reg.NVS_STATE_KEY_PRESENT 0) Reg.NVS_STATUS_OWNER_LOST)
        Reg.NVS_STATUS_ARB_LOST
  if getF s1 Reg.MGT_STATUS_OWNER = 1 then setF s1 Reg.HST_DBGWIN_CTL_ENABLE 0 else s1

/-- Append an owner copy; a full sector (31 copies of 128 bytes) gives way to the other. It clears the lost flags, and a
change to LOCKED closes the debug window (R117). -/
def writeOwner (s : State) (c : OwnerCopy) : State :=
  let g := match ownerCur s.nvm with | some x => x.gen + 1 | none => 1
  let d := { c with gen := g }
  let first := headerSeq s.nvm 49 < headerSeq s.nvm 48
  let s1 :=
    if first ∧ s.nvm.owner48.length < 31 then { s with nvm := { s.nvm with owner48 := s.nvm.owner48 ++ [d] } }
    else if first then
      let a := eraseOther s [49]
      { a with nvm := { a.nvm with owner49 := [d] } }
    else if headerSeq s.nvm 49 ≠ 0 ∧ s.nvm.owner49.length < 31 then
      { s with nvm := { s.nvm with owner49 := s.nvm.owner49 ++ [d] } }
    else
      let a := eraseOther s [48]
      { a with nvm := { a.nvm with owner48 := [d] } }
  setF (setF (showOwner s1) Reg.NVS_STATUS_OWNER_LOST 0) Reg.NVS_STATUS_ARB_LOST 0

/-- The owner copy to change: the current one, or a LOCKED one without a key. -/
def ownerBase (s : State) : OwnerCopy := (ownerCur s.nvm).getD { state := 1, gen := 0, arb := 0, key := [] }

/-- Raise the anti-rollback counter (R630). -/
def raiseArb (s : State) (v : Nat) : State :=
  if arbNow s < v then writeOwner s { ownerBase s with arb := v } else s

/-! ## Repair-map copies (R633) -/

/-- The current copy. -/
def mapNow (n : Nvm) : Option MapCopy :=
  (n.map58 ++ n.map60).foldl (fun a c => match a with
    | none => some c
    | some b => if b.gen < c.gen then some c else a) none

/-- Append a copy of the present map of every grove; 4 copies of 1,552 bytes fill a half. -/
def storeMap (s : State) : State :=
  let g := match mapNow s.nvm with | some x => x.gen + 1 | none => 1
  let d : MapCopy := { gen := g, bytes := (List.range 16).flatMap (mapBytes s) }
  let first := headerSeq s.nvm 60 < headerSeq s.nvm 58
  if first ∧ s.nvm.map58.length < 4 then { s with nvm := { s.nvm with map58 := s.nvm.map58 ++ [d] } }
  else if first then
    let a := eraseOther s (halfSectors 60 2)
    { a with nvm := { a.nvm with map60 := [d] } }
  else if headerSeq s.nvm 60 ≠ 0 ∧ s.nvm.map60.length < 4 then
    { s with nvm := { s.nvm with map60 := s.nvm.map60 ++ [d] } }
  else
    let a := eraseOther s (halfSectors 58 2)
    { a with nvm := { a.nvm with map58 := [d] } }

/-! ## Half-erased sectors (R621) -/

/-- The newest intent's sequence of a sector, over both journals. -/
def newestIntent (n : Nvm) (k : Nat) : Option Nat :=
  ((n.intents.filter fun e => e.2.1 == k).map (·.2.2)).max?

/-- A sector is half-erased. -/
def halfErased (n : Nvm) (k : Nat) : Bool :=
  match newestIntent n k with
  | some q => !n.headers.any fun e => e == (k, q)
  | none => false

/-- The contents of a sector's copy are lost. -/
def loseSector (n : Nvm) (k : Nat) : Nvm :=
  if 16 ≤ k ∧ k < 32 then { n with bankA := Bank.blank }
  else if 32 ≤ k ∧ k < 48 then { n with bankB := Bank.blank }
  else if k = 48 then { n with owner48 := [] }
  else if k = 49 then { n with owner49 := [] }
  else if k < 54 then { n with life50 := [] }
  else if k < 58 then { n with life54 := [] }
  else if k < 60 then { n with map58 := [] }
  else { n with map60 := [] }

/-- Erase every half-erased sector again. -/
def repairSectors (s : State) : State :=
  let ks := ((List.range 46).map (16 + ·)).filter (halfErased s.nvm)
  let s1 := ks.foldl (fun a k => eraseSector { a with nvm := loseSector a.nvm k } k) s
  if ks.isEmpty then s1 else raise s1 Reg.NVS_STATUS_HALF_ERASED

/-! ## SLOT_STATE (Table 19.3) -/

/-- The fields of SLOT_STATE. -/
structure SlotSt where
  active : Nat
  /-- Trial slot, 0xFF for none, and TRIAL_STATE: 0 none, 1 COMMITTED, 2 STARTED, 3 FAILED. -/
  trial : Nat
  tstate : Nat
  live : Bool
  svnA : Nat
  svnB : Nat
  relA : Nat
  relB : Nat
  start : Nat
  fail : Nat
  deriving DecidableEq, Repr

/-- SLOT_STATE as the shadow holds it; without a record slot A is active (R665). -/
def slotSt (s : State) : SlotSt :=
  match findRec s 3 with
  | some r =>
    let b := r.data
    { active := leAt b 0 1, trial := leAt b 1 1, tstate := leAt b 2 1, live := (leAt b 3 1).testBit 0, svnA := leAt b 4 4,
      svnB := leAt b 8 4, relA := leAt b 12 4, relB := leAt b 16 4, start := leAt b 20 8, fail := leAt b 28 2 }
  | none =>
    { active := 0, trial := 0xFF, tstate := 0, live := false, svnA := 0, svnB := 0, relA := 0, relB := 0, start := 0,
      fail := 0 }

/-- MGT_UPD_STATE shows the trial. -/
def showTrial (s : State) : State :=
  let x := slotSt s
  setF (setF (setF s Reg.MGT_UPD_STATE_TRIAL_STATE x.tstate) Reg.MGT_UPD_STATE_TRIAL_SLOT (if x.trial = 1 then 1 else 0))
    Reg.MGT_UPD_STATE_LIVE (if x.live then 1 else 0)

/-- Write SLOT_STATE into the shadow; an automatic store follows (R641). -/
def putSlotSt (s : State) (x : SlotSt) : State :=
  let ver := match findRec s 3 with | some r => r.ver | none => 2
  let r : SetRec := {
    tag := 3, ver := ver, retained := false
    data := leBytes 1 x.active ++ leBytes 1 x.trial ++ leBytes 1 x.tstate ++ leBytes 1 (if x.live then 1 else 0) ++
      leBytes 4 x.svnA ++ leBytes 4 x.svnB ++ leBytes 4 x.relA ++ leBytes 4 x.relB ++ leBytes 8 x.start ++
      leBytes 2 x.fail ++ [0#8, 0#8] }
  showTrial (storeDue { s with set := { s.set with dev := putRec s s.set.dev r } })

/-- A trial exists: COMMITTED or STARTED. -/
def trialOn (x : SlotSt) : Bool := x.tstate == 1 || x.tstate == 2

/-- Seconds of the confirmation window (Table 18.2). -/
def confirmWindow (s : State) : Nat := match findRec s 6 with | some r => leAt r.data 0 4 | none => 600

/-! ## Migration (R623) -/

/-- The first start of Heartwood firmware of release `rel` whose current formats convert the records of `conv`. -/
def migrate (s : State) (conv : List SetRec) (from_ rel : Nat) : State :=
  let fits (c : SetRec) (r : SetRec) : Bool := r.tag == c.tag && decide (r.ver < c.ver) && !r.retained
  let cs := conv.filter fun c => (s.set.dev ++ s.set.host).any (fits c)
  if cs.isEmpty then s
  else
    let mark (l : List SetRec) : List SetRec :=
      l.map fun r => if cs.any (fun c => fits c r) = true then ({ r with retained := true } : SetRec) else r
    let mine (l : List SetRec) : List SetRec := cs.filter fun c => l.any (fits c)
    let m : SetRec := { tag := 5, ver := 1, retained := false, data := leBytes 4 from_ ++ leBytes 4 rel }
    let set : Settings := { s.set with
      dev := mark (s.set.dev.filter fun r => r.tag != 5) ++ mine s.set.dev ++ [m]
      host := mark s.set.host ++ mine s.set.host
      stored := mark s.set.stored ++ mine s.set.stored }
    showSet (storeDue { s with set := set })

/-! ## The bytes of the NVM (R5, R611, R613, R614, R616, R620, R627, R632, R633) -/

/-- A sector's header. -/
def headerBytes (k q : Nat) : List Byte :=
  let b := leBytes 4 0x4E564D53 ++ leBytes 4 q ++ leBytes 2 k ++ [0#8, 0#8]
  b ++ leBytes 4 (crc32c b).toNat

/-- An intent record. -/
def intentBytes (k q : Nat) : List Byte :=
  let b := leBytes 2 0x00FE ++ leBytes 2 k ++ leBytes 4 q ++ leBytes 4 0
  b ++ leBytes 4 (crc32c b).toNat

/-- An owner copy: the key's bytes stand as they were installed, the most significant first. -/
def ownerCopyBytes (c : OwnerCopy) : List Byte :=
  let b := leBytes 2 0x0100 ++ leBytes 1 c.state ++ leBytes 1 (if c.key.isEmpty then 0 else 1) ++ leBytes 4 c.gen ++
    leBytes 4 c.arb ++ (if c.key.isEmpty then List.replicate 96 0#8 else c.key) ++ List.replicate 16 0#8
  b ++ leBytes 4 (crc32c b).toNat

/-- The COMMIT of a bank: GENERATION, record count, RELEASE. -/
def commitRec (x : Nat × Nat × Nat) : SetRec :=
  { tag := 1, ver := 1, retained := false, data := leBytes 4 x.1 ++ leBytes 4 x.2.1 ++ leBytes 4 x.2.2 }

/-- A snapshot and a map copy as records (their VERSION: DESIGN CHOICE, notes/assumptions/75.md). -/
def lifeRec (l : Life) : SetRec := { tag := 0x0101, ver := 1, retained := false, data := lifeBytes l }
def mapRec (c : MapCopy) : SetRec := { tag := 0x0102, ver := 1, retained := false, data := leBytes 4 c.gen ++ c.bytes }

/-- Records in sectors, in order, none across a boundary: 4,080 bytes each. -/
def packSectors : List (List Byte) → List Byte → List (List Byte)
  | [], cur => [cur]
  | r :: rs, cur => if cur.length + r.length ≤ 4080 then packSectors rs (cur ++ r) else cur :: packSectors rs r

/-- What follows the header in sector `k` of 16 to 61. -/
def sectorBody (n : Nvm) (k : Nat) : List Byte :=
  let nth (rs : List (List Byte)) (i : Nat) : List Byte := ((packSectors rs [])[i]?).getD []
  let bank (b : Nat) : List Byte :=
    let x := getBank n b
    if k % 16 = 15 then (n.intents.filter fun e => e.1 == b).flatMap fun e => intentBytes e.2.1 e.2.2
    else nth ((x.recs ++ (x.commit.map commitRec).toList).map setRecBytes) (k % 16)
  if k < 32 then bank 0
  else if k < 48 then bank 1
  else if k = 48 then n.owner48.flatMap ownerCopyBytes
  else if k = 49 then n.owner49.flatMap ownerCopyBytes
  else if k < 54 then nth (n.life50.map fun l => setRecBytes (lifeRec l)) (k - 50)
  else if k < 58 then nth (n.life54.map fun l => setRecBytes (lifeRec l)) (k - 54)
  else if k < 60 then nth (n.map58.map fun c => setRecBytes (mapRec c)) (k - 58)
  else nth (n.map60.map fun c => setRecBytes (mapRec c)) (k - 60)

/-- The 4,096 bytes of sector `k`; an erased byte reads 0xFF. -/
def sectorBytes (n : Nvm) (k : Nat) : List Byte :=
  let b :=
    if k < 16 then ((n.root.getD Config.factoryRoot).drop (4096 * k)).take 4096
    else if 62 ≤ k then []
    else match n.headers.find? fun e => e.1 == k with
      | some e => headerBytes k e.2 ++ sectorBody n k
      | none => if k = 31 ∨ k = 47 then List.replicate 16 0xFF#8 ++ sectorBody n k else []
  b ++ List.replicate (4096 - b.length) 0xFF#8

end Sys2Proof.Machine
end

