-- ==== Sys2Proof/Machine/Spdm.lean ====
section
/-! DEFINITION. Attestation over DOE (spec/16, R573 to R575): the DOE Discovery protocol and the SPDM 1.2 responder. The
spec names the protocols and their messages; the layout of a message is DSP0274's and PCI-SIG DOE's (PRESUMED,
notes/assumptions). -/
namespace Sys2Proof.Machine

/-! ## Objects -/

/-- A DOE data object: vendor 0x0001, type, length in 4-byte words, payload padded to whole words. -/
def doeObject (kind : Nat) (b : List Byte) : List Byte :=
  let n := ceilDiv b.length 4
  leBytes 2 1 ++ leBytes 1 kind ++ [0#8] ++ leBytes 4 (2 + n) ++ b ++ List.replicate (4 * n - b.length) 0#8

/-- An SPDM 1.2 message header. -/
def spdmHead (code p1 p2 : Nat) : List Byte := leBytes 1 0x12 ++ leBytes 1 code ++ leBytes 1 p1 ++ leBytes 1 p2

/-- SPDM ERROR codes. -/
def errInvalid : Nat := 0x01
def errUnexpected : Nat := 0x04
def errUnsupported : Nat := 0x07
def spdmError (code data : Nat) : List Byte := spdmHead 0x7F code data

/-- What a request gives: the response, and the responder after it. -/
abbrev SpdmAnswer := State → List Byte → List Byte × State

/-- The responder's record with `f` applied. -/
def withSpdm (s : State) (f : Spdm → Spdm) : State := { s with spdm := f s.spdm }

/-- A request out of its order. -/
def unexpected (s : State) : List Byte × State := (spdmError errUnexpected 0, s)

/-! ## Negotiation (R573) -/

/-- GET_VERSION: 1.2 alone; negotiation begins anew. -/
def answerVersion : SpdmAnswer := fun s req =>
  let r := leBytes 1 0x10 ++ leBytes 1 0x04 ++ [0#8, 0#8, 0#8, 1#8] ++ leBytes 2 0x1200
  (r, withSpdm s fun x => { x with stage := 1, vca := req ++ r, certs := [], meas := [] })

/-- GET_CAPABILITIES: certificates, challenge, and measurements with signature. CTExponent and the sizes are not stated. -/
def answerCapabilities : SpdmAnswer := fun s req =>
  if s.spdm.stage ≠ 1 then unexpected s
  else
    let e := draw s
    let d := draw e.2
    let m := draw d.2
    let r := spdmHead 0x61 0 0 ++ [0#8] ++ leBytes 1 (Config.freeNat e.1) ++ [0#8, 0#8] ++ leBytes 4 0x16 ++
      leBytes 4 (Config.freeNat d.1) ++ leBytes 4 (Config.freeNat m.1)
    (r, withSpdm m.2 fun x => { x with stage := 2, vca := x.vca ++ req ++ r })

/-- NEGOTIATE_ALGORITHMS: ECDSA P-384 and SHA-384, when the requester offers them. -/
def answerAlgorithms : SpdmAnswer := fun s req =>
  if s.spdm.stage ≠ 2 then unexpected s
  else if !((leAt req 8 4).testBit 7 && (leAt req 12 4).testBit 1) then (spdmError errInvalid 0, s)
  else
    let r := spdmHead 0x63 0 0 ++ leBytes 2 36 ++ [1#8, 0#8] ++ leBytes 4 4 ++ leBytes 4 0x80 ++ leBytes 4 2 ++
      List.replicate 16 0#8
    (r, withSpdm s fun x => { x with stage := 3, vca := x.vca ++ req ++ r })

/-! ## Certificates and challenge -/

/-- GET_DIGESTS: slot 0 alone. -/
def answerDigests : SpdmAnswer := fun s req =>
  if s.spdm.stage ≠ 3 then unexpected s
  else
    let r := spdmHead 0x01 0 1 ++ Config.sha384 Config.certChain
    (r, withSpdm s fun x => { x with certs := x.certs ++ req ++ r })

/-- GET_CERTIFICATE: a portion of slot 0's chain. -/
def answerCertificate : SpdmAnswer := fun s req =>
  let off := leAt req 4 2
  let rest := Config.certChain.drop off
  if s.spdm.stage ≠ 3 then unexpected s
  else if leAt req 2 1 % 16 ≠ 0 ∨ rest.isEmpty = true then (spdmError errInvalid 0, s)
  else
    let part := rest.take (leAt req 6 2)
    let r := spdmHead 0x02 0 0 ++ leBytes 2 part.length ++ leBytes 2 (rest.length - part.length) ++ part
    (r, withSpdm s fun x => { x with certs := x.certs ++ req ++ r })

/-- The owner state and anti-rollback counters that are measured: STATE, GENERATION, counter and key of the owner copy. -/
def ownerBytes (s : State) : List Byte :=
  let c := ownerBase s
  leBytes 1 c.state ++ leBytes 4 c.gen ++ leBytes 4 c.arb ++ c.key

/-- The bytes of a measured image or record (Table 16.5). -/
def measured (s : State) (i : Nat) : List Byte :=
  let at_ (k : Nat) : List Byte := (spGet (fun _ => (0, [])) s.loaded k : Nat × List Byte).2
  if i = 1 then at_ 34
  else if i = 2 then at_ 33
  else if i = 3 then at_ 0
  else if i = 4 then at_ 16
  else if i = 5 then at_ 32
  else if i = 6 then
    match s.img.chosen with
    | some (_, _, r) => r.payload
    | none => []
  else ownerBytes s

/-- A measurement block: a DMTF SHA-384 digest; firmware for blocks 1 to 5, configuration for 6 and 7. -/
def measBlock (s : State) (i : Nat) : List Byte :=
  leBytes 1 i ++ [1#8] ++ leBytes 2 51 ++ leBytes 1 (if i ≤ 5 then 1 else 3) ++ leBytes 2 48 ++ Config.sha384 (measured s i)

/-- All seven blocks. -/
def measAll (s : State) : List Byte := (List.range 7).flatMap fun i => measBlock s (i + 1)

/-- CHALLENGE: signed over the negotiation, the certificate messages and this exchange. -/
def answerChallenge : SpdmAnswer := fun s req =>
  if s.spdm.stage ≠ 3 then unexpected s
  else if leAt req 2 1 ≠ 0 then (spdmError errInvalid 0, s)
  else
    let n := draw s
    let g := draw n.2
    let sum := if leAt req 3 1 = 0 then [] else Config.sha384 (measAll s)
    let r := spdmHead 0x03 0 1 ++ Config.sha384 Config.certChain ++ Config.freshBytes n.1 32 ++ sum ++ [0#8, 0#8]
    let sig := Config.spdmSign g.1 (s.spdm.vca ++ s.spdm.certs ++ req ++ r)
    (r ++ sig, withSpdm g.2 fun x => { x with certs := [], meas := [] })

/-- GET_MEASUREMENTS (R574): the count, one block, or all; signed when the request asks for it. -/
def answerMeasurements : SpdmAnswer := fun s req =>
  let op := leAt req 3 1
  let signed := (leAt req 2 1).testBit 0
  if s.spdm.stage ≠ 3 then unexpected s
  else if 7 < op ∧ op ≠ 0xFF then (spdmError errInvalid 0, s)
  else
    let rec_ := if op = 0 then [] else if op = 0xFF then measAll s else measBlock s op
    let n := draw s
    let g := draw n.2
    let r := spdmHead 0x60 (if op = 0 then 7 else 0) 0 ++ leBytes 1 (if op = 0 then 0 else if op = 0xFF then 7 else 1) ++
      leBytes 3 rec_.length ++ rec_ ++ Config.freshBytes n.1 32 ++ [0#8, 0#8]
    let l := s.spdm.meas ++ req ++ r
    if signed then (r ++ Config.spdmSign g.1 (s.spdm.vca ++ l), withSpdm g.2 fun x => { x with meas := [] })
    else (r, withSpdm g.2 fun x => { x with meas := l })

/-- Every request that is not supported (R573). -/
def answerUnsupported : SpdmAnswer := fun s req => (spdmError errUnsupported (leAt req 1 1), s)

/-! ## DOE (R575) -/

/-- A DOE Discovery response: vendor, protocol, next index. -/
def discovery (req : List Byte) : List Byte :=
  if leAt req 0 1 = 0 then leBytes 2 1 ++ [0#8, 1#8] else if leAt req 0 1 = 1 then leBytes 2 1 ++ [1#8, 0#8]
  else leBytes 2 0xFFFF ++ [0#8, 0#8]

/-- Kinds of DOE requests: 0 discovery, else the SPDM request by its code; 1 one that is not supported. -/
def answerOf (kind : Nat) : SpdmAnswer :=
  if kind = 0x84 then answerVersion
  else if kind = 0xE1 then answerCapabilities
  else if kind = 0xE3 then answerAlgorithms
  else if kind = 0x81 then answerDigests
  else if kind = 0x82 then answerCertificate
  else if kind = 0x83 then answerChallenge
  else if kind = 0xE0 then answerMeasurements
  else answerUnsupported

/-- Answer one request. -/
def answerDoe (s : State) (kind : Nat) (req : List Byte) : State :=
  if kind = 0 then emit s (.doe (doeObject 0 (discovery req)))
  else
    let e := answerOf kind s req
    emit e.2 (.doe (doeObject 1 e.1))

/-- READY becomes 1: the DOE requests that waited are answered. -/
def setReady (s : State) : State :=
  let s1 := setF { s with spdm := { s.spdm with waiting := [] } } Reg.MGT_MBX_STATUS_READY 1
  s.spdm.waiting.foldl (fun a e => answerDoe a e.1 e.2) s1

/-- A DOE request: PF0 must be out of PERST_N; while READY is 0 it waits. -/
def doeRequest (kind : Nat) (req : List Byte) (s : State) : Host.Outcome State Fault Refusal :=
  if s.boot.perst then .next s
  else if mbxReady s then .next (answerDoe s kind req)
  else .next { s with spdm := { s.spdm with waiting := s.spdm.waiting ++ [(kind, req)] } }

/-- DOE_DISCOVERY. -/
def execDoeDiscovery (req : List Byte) (s : State) : Host.Outcome State Fault Refusal := doeRequest 0 req s
/-- GET_VERSION. -/
def execGetVersion (req : List Byte) (s : State) : Host.Outcome State Fault Refusal := doeRequest 0x84 req s
/-- GET_CAPABILITIES. -/
def execGetCapabilities (req : List Byte) (s : State) : Host.Outcome State Fault Refusal := doeRequest 0xE1 req s
/-- NEGOTIATE_ALGORITHMS. -/
def execNegotiateAlgorithms (req : List Byte) (s : State) : Host.Outcome State Fault Refusal := doeRequest 0xE3 req s
/-- GET_DIGESTS. -/
def execGetDigests (req : List Byte) (s : State) : Host.Outcome State Fault Refusal := doeRequest 0x81 req s
/-- GET_CERTIFICATE. -/
def execGetCertificate (req : List Byte) (s : State) : Host.Outcome State Fault Refusal := doeRequest 0x82 req s
/-- CHALLENGE. -/
def execChallenge (req : List Byte) (s : State) : Host.Outcome State Fault Refusal := doeRequest 0x83 req s
/-- GET_MEASUREMENTS. -/
def execGetMeasurements (req : List Byte) (s : State) : Host.Outcome State Fault Refusal := doeRequest 0xE0 req s
/-- SPDM_UNSUPPORTED_REQUEST: KEY_EXCHANGE, PSK, sessions, mutual authentication, SET_CERTIFICATE. -/
def execSpdmUnsupportedRequest (req : List Byte) (s : State) : Host.Outcome State Fault Refusal := doeRequest 1 req s

/-- DOE_ABORT (R575): the request in progress is discarded. -/
def execDoeAbort (s : State) : Host.Outcome State Fault Refusal := .next { s with spdm := { s.spdm with waiting := [] } }

end Sys2Proof.Machine
end

