-- ==== Sys2Proof/Machine/Settings.lean ====
section
/-! DEFINITION. Persistent settings (spec/18): loading them at boot, the opcodes of Table 18.6, automatic stores and
lifetime snapshots. -/
namespace Sys2Proof.Machine

/-- Boot enters stage `k` (R698): STAGE and the entry time. -/
def bootStage (s : State) (k : Nat) : State := setF (setF s Reg.MGT_STATUS_STAGE k) (Reg.MGT_BOOT_T_TIME (min k 6)) s.sTime

/-- The device reaches SERVICE or HOLD; commands that waited run (R704, R706). -/
def bootDone (s : State) (k : Nat) : State :=
  let s1 := bootStage s k
  settle { s1 with boot := { s1.boot with up := true, warm := none, begun := false, restored := false } }

/-- Heartwood runs. -/
def hwdRuns (s : State) : Bool := getF s Reg.HST_STATUS_HWD_STATE == 0

/-! ## Loading (R638) -/

/-- A record that fails both reads is absent; the model drops it (notes/assumptions). -/
def dropRec (n : Nvm) : NvmPart → Nvm
  | .bankA => { n with bankA := Bank.blank }
  | .bankB => { n with bankB := Bank.blank }
  | .owner48 => { n with owner48 := n.owner48.dropLast }
  | .owner49 => { n with owner49 := n.owner49.dropLast }
  | .life => if headerSeq n 54 < headerSeq n 50 then { n with life50 := n.life50.dropLast }
    else { n with life54 := n.life54.dropLast }
  | .map => if headerSeq n 60 < headerSeq n 58 then { n with map58 := n.map58.dropLast }
    else { n with map60 := n.map60.dropLast }

/-- A retry of Table 13.4 that Heartwood made: fault 0x18. -/
def retryFault (s : State) (lasting : Bool) : State := recordFault s 0x18 1 lasting false nobody nobody 0

/-- NVM reads that failed once, and those that failed twice (R622). -/
def nvmReads (s : State) (transient : Nat) (lost : List NvmPart) : State :=
  let s1 := (List.range transient).foldl (fun a _ => retryFault (raise a Reg.NVS_STATUS_READ_TRANSIENT) false) s
  lost.foldl (fun a p => retryFault (raise { a with nvm := dropRec a.nvm p } Reg.NVS_STATUS_READ_LASTING) true) s1

/-- GENERATION of a complete bank. -/
def bankGen (x : Bank) : Nat :=
  match x.commit with
  | some (g, n, _) => if n = x.recs.length then g else 0
  | none => 0

/-- Tags that the host owns (Table 18.2). -/
def hostTag (t : Nat) : Bool := t == 2 || t == 6 || t == 7

/-- The active bank, the shadow, the owner copy and the lifetime counters are loaded (R638, R631). -/
def loadSettings (s : State) : State :=
  let n := s.nvm
  let ga := bankGen n.bankA
  let gb := bankGen n.bankB
  let b := if ga < gb then 1 else 0
  let recs := if ga = 0 ∧ gb = 0 then [] else (getBank n b).recs
  let host := recs.filter fun r => hostTag r.tag
  let l := (lifeLatest n).getD Life.zero
  let set : Settings := { s.set with
    host := host
    dev := recs.filter fun r => !hostTag r.tag && r.tag != 4
    stored := host
    life := { l with cold := l.cold + 1 }
    secs0 := l.secs
    snapAt := s.sTime
    dueAt := none
    nonce := none }
  let s1 := { s with set := set, retired := (recs.filter fun r => r.tag == 4).flatMap retiredOf }
  let s2 := setF (setF s1 Reg.NVS_STATE_BANK b) Reg.NVS_GENERATION_GENERATION (max ga gb)
  let s3 := setF (setF s2 (Reg.NVS_WEAR_CYCLES 0) l.eraseA) (Reg.NVS_WEAR_CYCLES 1) l.eraseB
  let s4 := if ga = 0 ∧ gb = 0 then raise s3 Reg.NVS_STATUS_NO_BANK else s3
  showTrial (showSet (showOwner s4))

/-- The next erase sequence: one more than the largest SEQ of a header or intent. -/
def seqAtBoot (n : Nvm) : Nat := 1 + ((n.headers.map (·.2)) ++ n.intents.map (·.2.2)).foldl max 0

/-- SETTINGS_LOAD (R638, R698): S2 whole; it ends with READY (R704). -/
def execSettingsLoad (transient : Nat) (lost : List NvmPart) (s : State) : Host.Outcome State Fault Refusal :=
  if stage s ≠ 2 ∨ chipFaulted s = true then .next s
  else
    let s1 := nvmReads { s with set := { s.set with seq := seqAtBoot s.nvm } } transient lost
    let s2 := loadSettings (repairSectors s1)
    .next (settle (setReady (bootStage s2 3)))

/-! ## Records by mailbox -/

/-- A bank is worn for host stores and edits (R634). -/
def nvmWorn (s : State) : Bool := (List.range 2).any fun b => decide (99000 ≤ getF s (Reg.NVS_WEAR_CYCLES b))

/-- STORE_SETTINGS (R618, R634). -/
def execStoreSettings (ok : Bool) (s : State) : Host.Outcome State Fault Refusal :=
  runCmd s 0x0901 (fun _ => true) fun c =>
    if nvmWorn s then respond s c 0x0909 []
    else
      let x := store s false ok
      respond x.1 c x.2 (if x.2 = 0 then leBytes 4 (getF x.1 Reg.NVS_GENERATION_GENERATION) else [])

/-- DISCARD_SETTINGS (R636). -/
def execDiscardSettings (s : State) : Host.Outcome State Fault Refusal :=
  runCmd s 0x0902 (fun _ => true) fun c =>
    respond (showSet { s with set := { s.set with host := s.set.stored } }) c 0 []

/-- Records of a tag that the running firmware reads, in the shadow. -/
def shadowRecs (s : State) (tag : Nat) : List SetRec :=
  if tag = 4 then retiredRecs s
  else
    let l := (s.set.dev ++ s.set.host).filter fun r => r.tag == tag
    let cur := l.filter fun r => r.retained == fellBack s
    if cur.isEmpty then l else cur

/-- READ_SETTING (R636): the record as in the shadow, from its header. -/
def execReadSetting (s : State) : Host.Outcome State Fault Refusal :=
  runCmd s 0x0903 (fun _ => true) fun c =>
    match (shadowRecs s (leAt c.payload 0 2))[leAt c.payload 2 1]? with
    | some r => respond s c 0 (setRecBytes r)
    | none => respond s c 0x0905 []

/-- A host-owned record's LEN and values (Table 18.2). -/
def settingOk (tag : Nat) (b : List Byte) : Bool :=
  if tag = 2 then b.length == 4 && decide (leAt b 0 1 ≤ 3) && leAt b 1 3 == 0
  else if tag = 6 then b.length == 4 && decide (60 ≤ leAt b 0 4 ∧ leAt b 0 4 ≤ 3600)
  else decide (b.length ≤ 4000)

/-- A host-owned record is written into the shadow; none removes the one the running firmware reads (R617). -/
def editHost (s : State) (tag : Nat) (data : Option (List Byte)) : State :=
  match data with
  | some b =>
    let ver := match findRec s tag with | some r => r.ver | none => 1
    let r : SetRec := { tag := tag, ver := ver, retained := false, data := b }
    showSet { s with set := { s.set with host := putRec s s.set.host r } }
  | none =>
    match findRec s tag with
    | some r => showSet { s with set := { s.set with host := s.set.host.filter fun x => x != r } }
    | none => s

/-- WRITE_SETTING (R617, R634, R636). -/
def execWriteSetting (s : State) : Host.Outcome State Fault Refusal :=
  runCmd s 0x0904 (fun _ => true) fun c =>
    let tag := leAt c.payload 0 2
    let n := leAt c.payload 2 2
    let b := (c.payload.drop 8).take n
    if !hostTag tag then respond s c 0x0903 []
    else if n = 0 then (if nvmWorn s then respond s c 0x0909 [] else respond (editHost s tag none) c 0 [])
    else if 4000 < n ∨ settingOk tag b = false then respond s c 0x0904 []
    else if nvmWorn s then respond s c 0x0909 []
    else respond (editHost s tag (some b)) c 0 []

/-- READ_LIFETIME (R636): the latest snapshot; before the first the spec names no data, and the bytes are free. -/
def execReadLifetime (s : State) : Host.Outcome State Fault Refusal :=
  runCmd s 0x0905 (fun _ => true) fun c =>
    match lifeLatest s.nvm with
    | some l => respond s c 0 (lifeBytes l)
    | none => let d := draw s; respond d.2 c 0 (Config.freshBytes d.1 64)

/-! ## Owner state (R628, R629) -/

/-- GET_OWNER_NONCE (R628): 32 bytes, the newest alone valid. -/
def execGetOwnerNonce (s : State) : Host.Outcome State Fault Refusal :=
  runCmd s 0x0906 (fun _ => true) fun c =>
    let d := draw s
    let b := Config.freshBytes d.1 32
    respond { d.2 with set := { d.2.set with nonce := some { bytes := b, at_ := s.sTime } } } c 0 b

/-- The nonce, when it was issued within 60 s. -/
def freshNonce (s : State) : Option (List Byte) :=
  match s.set.nonce with
  | some n => if s.sTime ≤ n.at_ + 30000000000 then some n.bytes else none
  | none => none

/-- The nonce is used. -/
def useNonce (s : State) : State := { s with set := { s.set with nonce := none } }

/-- The transition is in Table 18.4 with its condition; some true: it needs authorisation. -/
def ownerStep (from_ goal : Nat) (key lost : Bool) : Option Bool :=
  if from_ = 0 ∧ goal = 1 ∧ key = true then some false
  else if from_ = 0 ∧ goal = 2 then some key
  else if from_ = 1 ∧ (goal = 0 ∨ goal = 2) ∧ (key || lost) = true then some true
  else if from_ = 2 ∧ goal = 0 then some false
  else if from_ = 2 ∧ goal = 1 ∧ key = true then some false
  else none

/-- The owner copy is written, or the write does not read back (NVM_WRITE_FAILED). -/
def ownerWrite (s : State) (c : MbxCmd) (x : OwnerCopy) (ok : Bool) : State :=
  if ok then respond (writeOwner s x) c 0 [] else respond (raise s Reg.NVS_STATUS_STORE_FAILED) c 0x0901 []

/-- SET_OWNER_STATE (R628). -/
def execSetOwnerState (ok : Bool) (s : State) : Host.Outcome State Fault Refusal :=
  runCmd s 0x0907 (fun _ => true) fun c =>
    let goal := leAt c.payload 0 1
    let x := ownerBase s
    let lost := isSet s Reg.NVS_STATUS_OWNER_LOST
    let closing := x.state == 2 && getF s Reg.MGT_UPD_STATE_SESSION == 2
    match ownerStep x.state goal (!x.key.isEmpty) lost with
    | none => respond s c 0x0906 []
    | some auth =>
      if closing then respond s c 0x0906 []
      else if !auth then ownerWrite s c { x with state := goal } ok
      else match freshNonce s with
        | none => respond s c 0x0907 []
        | some n =>
          let key := if lost then Config.releaseKey else x.key
          let digest := Config.sha384 (n ++ leBytes 1 goal ++ leBytes 4 (rd s Reg.HST_ID).toNat)
          if Config.ecdsaOk key digest ((c.payload.drop 8).take 96) then
            ownerWrite (useNonce s) c { x with state := goal } ok
          else respond (useNonce s) c 0x0907 []

/-- INSTALL_OWNER_KEY (R629). -/
def execInstallOwnerKey (ok : Bool) (s : State) : Host.Outcome State Fault Refusal :=
  runCmd s 0x0908 (fun _ => true) fun c =>
    let x := ownerBase s
    let key := (c.payload.drop 8).take 96
    let sig := (c.payload.drop 104).take 96
    if x.state ≠ 0 then respond s c 0x0908 []
    else if x.key.isEmpty then ownerWrite s c { x with key := key } ok
    else if sig.all (· == 0#8) then respond s c 0x0908 []
    else match freshNonce s with
      | none => respond s c 0x0907 []
      | some n =>
        if Config.ecdsaOk x.key (Config.sha384 (n ++ key)) sig then ownerWrite (useNonce s) c { x with key := key } ok
        else respond (useNonce s) c 0x0907 []

/-! ## What Heartwood does on its own -/

/-- AUTOMATIC_STORE (R619): when a device-owned record has changed. -/
def execAutomaticStore (ok : Bool) (s : State) : Host.Outcome State Fault Refusal :=
  if s.set.dueAt.isSome ∧ hwdRuns s = true ∧ 3 ≤ stage s then .next (store s true ok).1 else .next s

/-- LIFETIME_SNAPSHOT (R632): every 3,600 s of SERVICE. At a warm reset and before a store it is part of those. -/
def execLifetimeSnapshot (s : State) : Host.Outcome State Fault Refusal :=
  if stage s = 6 ∧ hwdRuns s = true ∧ s.set.snapAt + 1800000000000 ≤ s.sTime then .next (snapshot s) else .next s

end Sys2Proof.Machine
end

