-- ==== Sys2Proof/Machine/Images.lean ====
section
/-! DEFINITION. The attached flash, Hallmark's checks of a region, and the flash and configuration opcodes (spec/17, R583
to R604). -/
namespace Sys2Proof.Machine

/-! ## The flash -/

/-- Erased bytes read 0xFF. -/
def eraseFlash (s : State) (a n : Nat) : State := setFlash (flashCmd s) a (List.replicate n 0xFF#8)

/-- A program clears bits and sets none (serial NOR; notes/assumptions). -/
def programFlash (s : State) (a : Nat) (b : List Byte) : State :=
  setFlash (flashCmd s) a ((numbered a b).map fun e => flashByte s e.1 &&& e.2)

/-- Size of the flash in bytes. -/
def flashSize (s : State) : Nat := 131072 * getF s Reg.CFG_FLASH_DENSITY_MBIT

/-! ## Regions (R587 to R592) -/

/-- The kinds of region that Hallmark checks; the root loader's header is a region header too (R661). -/
inductive RegKind where
  | directory | slot | profile | rootLoader
  deriving DecidableEq, Repr

/-- MAGIC of a kind (Table 17.4, R661). -/
def magicOf : RegKind → Nat
  | .directory => 0x52445842
  | .slot => 0x57465842
  | .profile => 0x46505842
  | .rootLoader => 0x4C525842

/-- A kind that carries firmware: KEY_ID 0 alone, an SVN of its own, the anti-rollback check. -/
def firmwareKind (k : RegKind) : Bool := k == .slot || k == .rootLoader

/-- Split bytes into header and payload; the payload is LENGTH bytes. -/
def regionOf (b : List Byte) : Region := { header := b.take 256, payload := (b.drop 256).take (leAt b 8 4) }

/-- A region of the flash in an extent. -/
def flashRegion (s : State) (off ext : Nat) : Region :=
  let h := flashBytes s off 256
  { header := h, payload := flashBytes s (off + 256) (min (leAt h 8 4) (ext - 256)) }

/-- SVN and RELEASE of a region. -/
def regionSvn (r : Region) : Nat := leAt r.header 0x10 4
def regionRel (r : Region) : Nat := leAt r.header 0x14 4

/-- Bytes of a range are 0. -/
def zeroAt (b : List Byte) (o n : Nat) : Bool := ((b.drop o).take n).all (· == 0#8)

/-- Check 3 of Table 17.5. -/
def formatOk (k : RegKind) (h : List Byte) : Bool :=
  leAt h 0 4 == magicOf k && leAt h 4 2 == 1 && decide (leAt h 6 1 ≤ 1) && (!firmwareKind k || leAt h 6 1 == 0) &&
    zeroAt h 7 1 && zeroAt h 0x18 64 && zeroAt h 0xB8 68 && (firmwareKind k || leAt h 0x10 4 == 0)

/-- Component `i` of a slot payload (R589): offset, length, CRC, RELEASE. -/
def component (p : List Byte) (i : Nat) : Nat × Nat × Nat × Nat :=
  (leAt p (16 * i) 4, leAt p (16 * i + 4) 4, leAt p (16 * i + 8) 4, leAt p (16 * i + 12) 4)
def componentBytes (p : List Byte) (i : Nat) : List Byte := (p.drop (component p i).1).take (component p i).2.1

/-- Check 4. -/
def lengthOk (k : RegKind) (r : Region) (ext : Nat) : Bool :=
  let n := leAt r.header 8 4
  n != 0 && decide (256 + n ≤ ext) && (k != .directory || n == 96) &&
    (k != .slot || (List.range 4).all fun i =>
      let c := component r.payload i
      decide (c.1 + c.2.1 ≤ n))

/-- Check 5. -/
def payloadOk (k : RegKind) (r : Region) : Bool :=
  leAt r.header 12 4 == (crc32c r.payload).toNat &&
    (k != .slot || (List.range 4).all fun i => (component r.payload i).2.2.1 == (crc32c (componentBytes r.payload i)).toNat)

/-- Check 6 (R590). -/
def signatureOk (s : State) (r : Region) : Bool :=
  let digest := Config.sha384 (r.header.take 0x58 ++ r.payload)
  let sig := (r.header.drop 0x58).take 96
  if leAt r.header 6 1 = 0 then Config.ecdsaOk Config.releaseKey digest sig
  else
    let key := (ownerBase s).key
    !key.isEmpty && Config.ecdsaOk key digest sig

/-- The directory's entries. -/
def dirOf (p : List Byte) : List (Nat × Nat × Bool) :=
  (List.range 6).map fun i => (leAt p (16 * i) 4, leAt p (16 * i + 4) 4, (leAt p (16 * i + 8) 1).testBit 0)

/-- Two extents (offset, bytes) have a byte in common. -/
def extentsMeet (a b : Nat × Nat) : Bool := decide (max a.1 b.1 < min (a.1 + a.2) (b.1 + b.2))

/-- The rules of R588 on a directory payload. -/
def dirOk (s : State) (p : List Byte) : Bool :=
  let live := (numbered 0 (dirOf p)).filterMap fun e => if e.2.2.2 then some (e.1, e.2.1, e.2.2.1) else none
  live.all fun e => e.2.1 % 4096 == 0 && e.2.2 % 4096 == 0 && decide (e.2.1 + e.2.2 ≤ flashSize s) &&
    !extentsMeet e.2 (0, 0x20000) && decide (e.2.2 ≤ if e.1 < 2 then 16 * 2 ^ 20 else 2 * 2 ^ 20) &&
    live.all fun f => e.1 == f.1 || !extentsMeet e.2 f.2

/-- The two CRC checks with their one retry (R592): a code, 0 when they pass. The read's outcome is the environment's; a
CRC that the content itself fails mismatches on both reads. -/
def crcCode (k : RegKind) (r : Region) (x : RegionRead) : Nat × Nat :=
  let head := leAt r.header 0xFC 4 == (crc32c (r.header.take 0xFC)).toNat && x != .headerBad
  (if head then 0 else 0x0803, if payloadOk k r && x != .payloadBad then 0 else 0x0806)

/-- Checks 2 to 8 of Table 17.5 in order, but the profile's content (R597): the first failing code, or 0. -/
def regionCode (s : State) (k : RegKind) (r : Region) (ext : Nat) (x : RegionRead) : Nat :=
  let c := crcCode k r x
  if c.1 ≠ 0 then c.1
  else if !formatOk k r.header then 0x0804
  else if !lengthOk k r ext then 0x0805
  else if c.2 ≠ 0 then c.2
  else if !signatureOk s r then 0x0807
  else if firmwareKind k && decide (regionSvn r < arbNow s) then 0x080B
  else if k == .directory && !dirOk s r.payload then 0x0809
  else 0

/-- A slot that a closed session left unspecified fails Hallmark, by which check is a free value (R647). -/
def slotCode (s : State) (off ext code : Nat) : Nat :=
  match s.spoiled.find? fun e => decide (e.1 < off + ext ∧ off < e.1 + e.2.1) with
  | some e => if code = 0 then 0x0803 + Config.freeNat e.2.2 % 5 else code
  | none => code

/-- The reads of a region, and what they leave in the registers and the log (R592): one repeat, transient or lasting, fault
0x18. -/
def regionReads (s : State) (code : Nat) (x : RegionRead) : State :=
  if code = 0x0803 ∨ code = 0x0806 then retryFault (raise (flashCmd (flashCmd s)) Reg.CFG_EVT_STATUS_READ_LASTING) true
  else if x = .retried then retryFault (raise (flashCmd (flashCmd s)) Reg.CFG_EVT_STATUS_READ_TRANSIENT) false
  else flashCmd s

/-! ## Configuration opcodes (R600) -/

/-- GET_CONFIG_STATUS. -/
def execGetConfigStatus (s : State) : Host.Outcome State Fault Refusal :=
  runCmd s 0x0803 (fun _ => true) fun c =>
    let w (k : Nat) : List Byte := leBytes 4 (rd s k).toNat
    respond s c 0 (w Reg.CFG_STATUS ++ w Reg.CFG_DETAIL ++ (List.range 6).flatMap fun n => w (Reg.CFG_RESULT n))

/-- FLASH_INFO. -/
def execFlashInfo (s : State) : Host.Outcome State Fault Refusal :=
  runCmd s 0x0810 (fun _ => true) fun c =>
    respond s c 0 (leBytes 4 (getF s Reg.CFG_FLASH_DENSITY_MBIT) ++ leBytes 1 (getF s Reg.CFG_FLASH_MODE) ++
      leBytes 2 (getF s Reg.CFG_FLASH_MHZ))

/-- A boot read uses the flash (Table 17.12). -/
def flashBusy (s : State) : Bool := stage s == 3

/-- FLASH_READ (R603, R608). -/
def execFlashRead (ok : Bool) (s : State) : Host.Outcome State Fault Refusal :=
  runCmd s 0x0811 (fun _ => true) fun c =>
    let a := leAt c.payload 0 4
    let n := leAt c.payload 4 2
    if flashBusy s then respond s c 0x0810 []
    else if getF s Reg.CFG_FLASH_MODE = 0 then respond s c 0x080F []
    else if n = 0 ∨ 4032 < n ∨ flashSize s < a + n then respond s c 0x080E []
    else if !ok then respond s c 0x080F []
    else respond s c 0 (flashBytes s a n)

/-- The extent of the slot or session that an update writes. -/
def sessionExtent (s : State) : Option (Nat × Nat) :=
  match s.upd with
  | some u => if u.target < 2 then (s.img.dir[u.target]?).map fun e => (e.1, e.2.1) else none
  | none => none

/-- A write of the flash is allowed (R603): anywhere in HOLD; in SERVICE over a PRESENT profile that is not the active
one. The code, or 0. -/
def flashWriteCode (s : State) (a n : Nat) : Nat :=
  let meets (e : Nat × Nat) : Bool := decide (a < e.1 + e.2 ∧ e.1 < a + n)
  if flashBusy s || (match sessionExtent s with | some e => meets e | none => false) then 0x0810
  else if getF s Reg.CFG_FLASH_MODE = 0 then 0x080F
  else if flashSize s < a + n then 0x080E
  else if stage s = 7 then 0
  else
    let active := if getF s Reg.CFG_STATUS_SOURCE = 0 then getF s Reg.MGT_STATUS_PROFILE + 2 else 6
    let fits := (numbered 0 s.img.dir).any fun e =>
      decide (2 ≤ e.1 ∧ e.1 ≠ active ∧ e.2.1 ≤ a ∧ a + n ≤ e.2.1 + e.2.2.1) && e.2.2.2
    if fits then 0 else 0x080D

/-- FLASH_ERASE (R603). -/
def execFlashErase (ok : Bool) (s : State) : Host.Outcome State Fault Refusal :=
  runCmd s 0x0812 (fun _ => true) fun c =>
    let a := leAt c.payload 0 4
    let k := leAt c.payload 4 2
    let code := flashWriteCode s a (4096 * k)
    if a % 4096 ≠ 0 ∨ k = 0 ∨ 256 < k then respond s c 0x080E []
    else if code ≠ 0 then respond s c code []
    else if ok then respond (eraseFlash s a (4096 * k)) c 0 []
    else respond (garbleFlash s a (4096 * k)) c 0x080F []

/-- FLASH_PROGRAM (R603): every page is read back. -/
def execFlashProgram (ok : Bool) (s : State) : Host.Outcome State Fault Refusal :=
  runCmd s 0x0813 (fun _ => true) fun c =>
    let a := leAt c.payload 0 4
    let b := c.payload.drop 8
    let code := flashWriteCode s a b.length
    if a % 256 ≠ 0 then respond s c 0x080E []
    else if code ≠ 0 then respond s c code []
    else if !ok then respond (garbleFlash s a b.length) c 0x080F []
    else
      let s1 := programFlash s a b
      respond s1 c (if flashBytes s1 a b.length = b then 0 else 0x080F) []

/-! ## Profile selection (R595, R601) -/

/-- SELECT_PROFILE: pending, or with PERSIST the override record. A profile number above 3 other than 0xFF is refused as
SETTING_INVALID would be, with PROFILE_ABSENT (notes/assumptions). -/
def execSelectProfile (s : State) : Host.Outcome State Fault Refusal :=
  runCmd s 0x0801 (fun _ => true) fun c =>
    let n := leAt c.payload 0 1
    if 3 < n ∧ n ≠ 0xFF then respond s c 0x0802 []
    else if (leAt c.payload 1 1).testBit 0 then
      if nvmWorn s then respond s c 0x0909 []
      else respond (editHost s 2 (if n = 0xFF then none else some (leBytes 4 n))) c 0 []
    else if n = 0xFF then respond (setF (setF s Reg.CFG_STATUS_PENDING_VALID 0) Reg.CFG_STATUS_PENDING 0) c 0 []
    else respond (setF (setF s Reg.CFG_STATUS_PENDING_VALID 1) Reg.CFG_STATUS_PENDING n) c 0 []

/-- The profile a boot uses (Table 17.6): volatile, and else its number. -/
def profileChoice (s : State) : Option Nat :=
  if isSet s Reg.CFG_STATUS_PENDING_VALID then some (getF s Reg.CFG_STATUS_PENDING)
  else if s.img.volatile.isSome then none
  else if isSet s Reg.CFG_STATUS_OVERRIDE_VALID then some (getF s Reg.CFG_STATUS_OVERRIDE)
  else some (getF s Reg.CFG_STATUS_PINS)

/-! ## Staging (R602) -/

/-- The running LOAD_VOLATILE_CONFIG of operation `op`, in HOLD; elsewhere it is answered NOT_IN_HOLD. -/
def runStaging (s : State) (op : Nat) (f : MbxCmd → State) : Host.Outcome State Fault Refusal :=
  runCmd s 0x0802 (fun b => leAt b 0 1 == op) fun c => if stage s = 7 then f c else respond s c 0x080D []

/-- LOAD_VOLATILE_CONFIG BEGIN. -/
def execLoadVolatileBegin (s : State) : Host.Outcome State Fault Refusal :=
  runStaging s 0 fun c =>
    let n := leAt c.payload 4 4
    let other := match s.img.staging with | some x => x.smbus != c.smbus | none => false
    if other then respond s c 0x0811 []
    else if n < 256 ∨ 2 * 2 ^ 20 < n then respond s c 0x0812 []
    else respond { s with img := { s.img with staging := some { smbus := c.smbus, total := n, bytes := [] } } } c 0 []

/-- The staging that the command's requester holds, or the code that refuses it. -/
def stagingOf (s : State) (c : MbxCmd) : Except Nat Staging :=
  match s.img.staging with
  | some x => if x.smbus = c.smbus then .ok x else .error 0x0811
  | none => .error 0x0812

/-- LOAD_VOLATILE_CONFIG CHUNK. -/
def execLoadVolatileChunk (s : State) : Host.Outcome State Fault Refusal :=
  runStaging s 1 fun c =>
    match stagingOf s c with
    | .error code => respond s c code []
    | .ok x =>
      let b := c.payload.drop 8
      if leAt c.payload 4 4 ≠ x.bytes.length ∨ x.total < x.bytes.length + b.length then respond s c 0x0812 []
      else respond { s with img := { s.img with staging := some { x with bytes := x.bytes ++ b } } } c 0 []

/-- LOAD_VOLATILE_CONFIG CANCEL. -/
def execLoadVolatileCancel (s : State) : Host.Outcome State Fault Refusal :=
  runStaging s 3 fun c =>
    match stagingOf s c with
    | .error code => respond s c code []
    | .ok _ => respond { s with img := { s.img with staging := none } } c 0 []

end Sys2Proof.Machine
end

