-- ==== Sys2Proof/Machine/Completion.lean ====
section
/-! DEFINITION. The completion writer: records, coalescing, MSI-X (spec/07, R268 to R274; spec/16, R572). -/
namespace Sys2Proof.Machine

/-- The 32 bytes of a record, PHASE in bit 15 of FLAGS (Table 07.6). -/
def recBytes (r : Rec) (phase : Nat) : List Byte :=
  leBytes 4 r.handle.toNat ++ leBytes 2 r.status ++ leBytes 2 (r.flags + 2 ^ 15 * phase) ++
    [BitVec.ofNat 8 r.count, 0#8, 0#8, 0#8] ++ r.body

/-- The vector of a completion ring (Table 16.4, R571). -/
def cqMsg (s : State) (t c : Nat) : State :=
  let s1 := chargeTenant s t 1 4
  if pfServed s t then sendMsi s1 0 (128 + 2 * t) else sendMsi s1 (t + 1) c

/-- A record is written: the pending count, the timer at its first record, FIRST_NOW, and the message when the count
reaches COAL_COUNT (R274). -/
def coalesce (s : State) (t c : Nat) (first : Bool) : State :=
  let q := cq s t c
  let q1 := if q.pend = 0 then
      { q with pend := 1, timer := s.qTime, coalCount := getF s (Reg.RQI_CQ_CFG_COAL_COUNT t c),
               coalUs := getF s (Reg.RQI_CQ_COAL_COAL_US t c) }
    else { q with pend := q.pend + 1 }
  let now := first && isSet s (Reg.RQI_CQ_CFG_FIRST_NOW t c)
  if now || q1.coalCount ≤ q1.pend then cqMsg (setCq s t c { q1 with pend := 0 }) t c
  else setCq s t c q1

/-- A DUP record waits while the issue record of its original waits for space (R265). -/
def dupHeld (s : State) (t : Nat) (r : Rec) : Bool :=
  r.status == 0x0101 && (List.range 4).any fun c =>
    (cq s t c).waiting.any fun x => x.status == 0x0104 && x.handle == r.handle

/-- The entry of a request whose FINAL record is written is released (R14), once no copy of its pages is in flight. -/
def releaseEntry (s : State) (r : Rec) : State :=
  if r.flags.testBit 1 then
    match reqByHandle s r.handle.toNat with
    | some (i, q) => if isLive q.st || q.parking || q.unparking then s else freeEntryOf s i q.gen
    | none => s
  else s

/-- COMPLETION_RECORD_WRITE (R271, R272): the first waiting record goes to the ring's tail, in a free slot. -/
def execCompletionRecordWrite (t c : Nat) (s : State) : Host.Outcome State Fault Refusal :=
  match (cq s t c).waiting with
  | [] => .next s
  | r :: rest =>
    if !serving s || !isSet s (Reg.RQI_CQ_CFG_ENABLE t c) || !canDma s (tenantFn s t) || dupHeld s t r then .next s
    else if cqFree s t c = 0 then .next (raise s (Reg.RQI_CQ_STATUS_CQ_FULL t c))
    else
      let tail := getF s (Reg.RQI_CQ_TAIL_TAIL t c)
      let ph := getF s (Reg.RQI_CQ_TAIL_PHASE t c)
      let base := 4096 * getF s (Reg.RQI_CQ_BASE_ADDR t c)
      let s1 := emit (setCq (chargeTenant s t 1 32) t c { cq s t c with waiting := rest })
        (.dma (tenantFn s t) (base + 32 * tail) (recBytes r ph))
      let s2 := setF s1 (Reg.RQI_CQ_TAIL_TAIL t c) ((tail + 1) % cqSize s t c)
      let s3 := if tail + 1 = cqSize s t c then setF s2 (Reg.RQI_CQ_TAIL_PHASE t c) (1 - ph) else s2
      .next (releaseEntry (coalesce s3 t c (r.flags.testBit 0)) r)

/-- COALESCE_TIMEOUT (R274). -/
def execCoalesceTimeout (t c : Nat) (s : State) : Host.Outcome State Fault Refusal :=
  let q := cq s t c
  if q.pend = 0 ∨ s.qTime < q.timer + 500 * q.coalUs then .next s
  else .next (cqMsg (setCq s t c { q with pend := 0 }) t c)

/-- Send a function's pending messages that nothing masks any more (R572). -/
def sendPending (s : State) (n : Nat) : State :=
  let due := (s.vecs.filter fun e => e.1 / 256 == n && e.2.pend && !e.2.masked).map fun e => e.1 % 256
  if (fn s n).fnMask || !(fn s n).msixEn || !canDma s n then s
  else due.foldl (fun a v => emit (setVec a n v { vec a n v with pend := false }) (.msix n v)) s

/-- MSIX_UNMASK (R572): each pending message is sent once. With PCLK stopped no write reaches the function (R76). -/
def execMsixUnmask (n : Nat) (what : MsixPart) (s : State) : Host.Outcome State Fault Refusal :=
  if (getF s Reg.HST_CLK_STATUS_LOCK).testBit 3 = false then .next s else
  let s1 := match what with
    | .vector v => setVec s n v { vec s n v with masked := false }
    | .function => setFn s n { fn s n with fnMask := false }
    | .enable => setFn s n { fn s n with msixEn := true }
  .next (sendPending s1 n)

end Sys2Proof.Machine
end

