-- ==== Sys2Proof/Machine/Models.lean ====
section
/-! DEFINITION. The model cache's commands (spec/11) and the cost table's (spec/08, R296, R297): loading with the fit
rule and eviction, contexts, pins, pairs, and the ends of a transfer. -/
namespace Sys2Proof.Machine

/-! ## The cost table (R296, R297) -/

/-- Entry `k` of an 80-byte cost record (Table 08.3). -/
def costEntryOf (b : List Byte) (k : Nat) : CostEntry :=
  let o := 16 + 12 * k
  { aNs := leAt b o 4, qPs := leAt b (o + 4) 4, tStepUs := leAt b (o + 8) 2, chunkLog2 := leAt b (o + 10) 1 }

/-- A cost record of 80 bytes (Table 08.3). -/
def costRecOf (b : List Byte) : CostRec :=
  { modelId := leAt b 0 8, marginUs := leAt b 12 4, entries := (List.range 5).map (costEntryOf b) }

/-- The record is valid (R296). -/
def costRecOk (b : List Byte) : Bool :=
  let es := (List.range 5).map (costEntryOf b)
  leAt b 8 2 == 1 && leAt b 10 2 == 0 && leAt b 76 4 == 0 && (List.range 5).all (fun k => leAt b (27 + 12 * k) 1 == 0) &&
    (es.any fun e => e.aNs != 0) &&
    es.all fun e => e.aNs == 0 || (8 ≤ e.chunkLog2 && e.chunkLog2 ≤ 14 && e.tStepUs != 0)

/-- A record replaces the one with its MODEL_ID or takes a free slot. -/
def putCost (l : List CostRec) (r : CostRec) : List CostRec :=
  if l.any (·.modelId == r.modelId) then l.map fun x => if x.modelId = r.modelId then r else x else l ++ [r]

/-- Load `n` records, all or none: the table, or the result code (R297). -/
def loadCosts (l : List CostRec) (n : Nat) (b : List Byte) : Except Nat (List CostRec) :=
  let recs := chunks 80 n b
  let new := (recs.map costRecOf).foldl putCost l
  if !recs.all costRecOk then .error 0x0220 else if 64 < new.length then .error 0x0221 else .ok new

/-- LOAD_COST_TABLE (R297). -/
def execLoadCostTable (s : State) : Host.Outcome State Fault Refusal :=
  runCmd s 0x0210 (fun _ => true) fun c =>
    match loadCosts s.costs (leAt c.payload 0 4) (c.payload.drop 4) with
    | .ok l => respond { s with costs := l } c 0 []
    | .error code => respond s c code []

/-- CLEAR_COST_TABLE (R297). -/
def execClearCostTable (s : State) : Host.Outcome State Fault Refusal :=
  runCmd s 0x0211 (fun _ => true) fun c => respond { s with costs := [] } c 0 []

/-! ## The package header (R381, R382) -/

/-- The header's fields (Table 11.2). -/
def pkgOfHeader (b : List Byte) : Pkg :=
  { modelId := leAt b 8 8, tokenizerId := leAt b 16 8, weightBytes := leAt b 24 8, actBytes := leAt b 32 8,
    kvRsv := leAt b 40 4, concCap := leAt b 44 4, vocab := leAt b 48 4, layers := leAt b 52 2, shards := leAt b 54 2,
    kvBytes := leAt b 56 4, pLog2 := leAt b 60 1, batchInvariant := (leAt b 61 1).testBit 0,
    groupPart := (leAt b 61 1).testBit 1, minGroves := leAt b 62 1, groupDevices := leAt b 63 1,
    deviceIndex := leAt b 64 1, limitUs := leAt b 68 4, tokenBudget := leAt b 72 2, seqCap := leAt b 74 2,
    chunkLog2 := leAt b 76 1, cls := leAt b 77 1, programLen := leAt b 80 8, bodyCrc := leAt b 104 4 }

/-- The bytes that Table 11.2 does not name: (offset, size). -/
def pkgUnnamed : List (Nat × Nat) := [(6, 2), (65, 3), (78, 2), (88, 16), (108, 3984)]

/-- R382, step 1. -/
def headerOk (b : List Byte) (len : Nat) : Bool :=
  let k := pkgOfHeader b
  b.length == 4096 && leAt b 0 4 == 0x4C444D52 && leAt b 4 2 == 1 && leAt b 4092 4 == (crc32c (b.take 4092)).toNat &&
    pkgUnnamed.all (fun e => leAt b e.1 e.2 == 0) && leAt b 61 1 < 4 &&
    (4096 ≤ k.programLen && k.programLen ≤ 0x4000000 && k.programLen % 4096 == 0 && k.programLen ≤ k.weightBytes) &&
    len == 4096 + k.weightBytes

/-- The declared shards are SHARDS runs of tokens, ascending and without a gap; those of a package that is no part of a group
cover 0 to V − 1 (R344). A program section that declares other shards is refused as one whose shards are not SHARDS
(DEDUCED, notes/assumptions/72.md). -/
def shardsOk (k : Pkg) (g : ProgInfo) : Bool :=
  g.shards == k.shards && g.bounds.length == k.shards + 1 &&
    (g.bounds.zip (g.bounds.drop 1)).all (fun e => decide (e.1 < e.2)) && g.bounds.all (fun x => decide (x ≤ k.vocab)) &&
    (k.groupPart || (g.firstShard == 0 && g.bounds.head? == some 0 && g.bounds.getLast? == some k.vocab))

/-- R382, step 2, with R209, R137, R159, R527 and Table 04.5. -/
def programOk (k : Pkg) (g : ProgInfo) (groves : Nat) : Bool :=
  let within (lo x hi : Nat) : Bool := lo ≤ x && x ≤ hi
  within 1 k.vocab 262144 && within 1 k.layers 1024 && within 1 k.shards 256 && within 1 k.concCap 245760 &&
    (if k.groupPart then within 2 k.groupDevices 16 else k.groupDevices == 1) && k.deviceIndex < k.groupDevices &&
    within 1 k.minGroves 16 && within 1 k.tokenBudget 16384 && within 1 k.seqCap 8192 && within 8 k.chunkLog2 14 &&
    k.cls ≤ 3 && within 4 k.pLog2 10 && 2 ^ k.pLog2 * k.kvBytes ≤ 65536 && k.minGroves ≤ groves &&
    g.workTable && !g.breaksR137 && g.tileBoundNs ≤ 50000 && g.boundaryAcc ≤ 49152 && g.liveSram ≤ 196608 &&
    shardsOk k g && g.regFile ≤ 49152 && g.scratch ≤ 196608 && g.accum ≤ 49152

/-! ## Footprint and fit (R385 to R388) -/

/-- W, A, F and S in pages. -/
def wPages (k : Pkg) : Nat := ceilDiv k.weightBytes 65536
def aPages (k : Pkg) : Nat := ceilDiv k.actBytes 65536
def footprint (k : Pkg) : Nat := wPages k + aPages k + k.kvRsv
def maxSeqPages (k : Pkg) : Nat := k.layers * ceilDiv 131072 (2 ^ k.pLog2)

/-- Table 11.4 at capacity `c`: none refuses; else the granted KV reserve, the cap, and whether the load is tight. -/
def fitRule (k : Pkg) (noTight : Bool) (c : Nat) : Option (Nat × Nat × Bool) :=
  let f := footprint k
  let left := c - wPages k - aPages k
  if f ≤ c then some (k.kvRsv, k.concCap, false)
  else if 16 * f ≤ 17 * c ∧ maxSeqPages k ≤ left ∧ noTight = false then some (left, k.concCap * left / k.kvRsv, true)
  else none

/-- A resident model is a follower part of a replica group. -/
def isFollower (s : State) (n : Nat) : Bool :=
  match slot? s n with
  | some x => x.pkg.groupPart && x.pkg.deviceIndex != 0
  | none => false

/-- The live count of a context's model (spec/08). -/
def slotLive (s : State) (n : Nat) : Nat := getF s (Reg.MDL_SLOT_LIVE_LIVE n)

/-- The target of a draft context, with a live request of its model or a step. -/
def targetUsed (s : State) (g : Nat) : Bool :=
  match targetOf s g with
  | some t => ctxBusy s t || !(servedReqs s t).isEmpty
  | none => false

/-- A candidate for eviction (spec/11, section Eviction to make room). -/
def isCandidate (s : State) (p n : Nat) : Bool :=
  (slot? s n).isSome && getF s (Reg.MDL_SLOT_PARTITION n) == p && getF s (Reg.MDL_SLOT_STATE n) == 3 &&
    !isSet s (Reg.MDL_SLOT_PINNED n) && !peerSource s n && !isFollower s n &&
    (slotCtxs s n).all fun g => (servedReqs s g).isEmpty && !ctxBusy s g && !targetUsed s g

/-- The candidates of a partition in the order of R388. -/
def candidates (s : State) (p : Nat) : List Nat :=
  let key (n : Nat) : Nat := getF s (Reg.MDL_SLOT_LAST_LAST_STEP n)
  ((List.range 32).filter (isCandidate s p)).foldr
    (fun n acc => acc.takeWhile (fun m => key m < key n) ++ n :: acc.dropWhile (fun m => key m < key n)) []

/-- Evict in order until `ok` of the FREE pages holds: the state and the handles evicted. -/
def evictUntil (p : Nat) (ok : Nat → Bool) : List Nat → State → State × List Nat
  | [], s => (s, [])
  | n :: rest, s =>
    if ok (freePages s p) then (s, [])
    else
      let r := evictUntil p ok rest (evictWhole s n 0x0701)
      (r.1, getF s (Reg.MDL_SLOT_HANDLE n) :: r.2)

/-- R388: make room for a load. -/
def makeRoom (s : State) (p : Nat) (k : Pkg) (noTight : Bool) : State × List Nat :=
  let cands := candidates s p
  let c := freePages s p
  let free := cands.foldl (fun a n => a + getF s (Reg.MDL_SLOT_PAGES_MODEL_PAGES n)) c
  if footprint k ≤ c then (s, [])
  else if footprint k ≤ free then evictUntil p (fun c => decide (footprint k ≤ c)) cands s
  else if (fitRule k noTight free).isSome then evictUntil p (fun c => (fitRule k noTight c).isSome) cands s
  else (s, [])

/-! ## LOAD_MODEL (R384) -/

/-- The generation after `g` of slot `n` (R379). -/
def nextGen (n g : Nat) : Nat := if (if n = 31 then 2046 else 2047) ≤ g then 1 else g + 1

/-- A response that lists evicted handles (Table 11.3). -/
def loadResponse (handle pages kv cap : Nat) (ev : List Nat) : List Byte :=
  leBytes 2 handle ++ leBytes 2 ev.length ++ leBytes 4 pages ++ leBytes 4 kv ++ leBytes 4 cap ++ ev.flatMap (leBytes 2)

/-- A refused load: handle 0 with the models that stay evicted, or no response payload (R384). -/
def refuseLoad (s : State) (c : MbxCmd) (code : Nat) (ev : List Nat) : State :=
  respond s c code (if ev.isEmpty then [] else loadResponse 0 0 0 0 ev)

/-- A load that its source ended before it took anything: fault 0x1E too (R405, Table 16.7). -/
def failSource (s : State) (c : MbxCmd) (p : Nat) : State :=
  refuseLoad (recordFault s 0x1E clsRequest false false p nobody 0) c 0x050B []

/-- Step 6: the slot is LOADING with its pages, save area and context number (R384). -/
def beginLoad (s : State) (n p ctxNo save : Nat) (k : Pkg) (g : ProgInfo) (fit : Nat × Nat × Bool) (pl : List Byte) :
    State :=
  let gen := nextGen n (spGet (fun _ => 0) s.slotGens n)
  let pages := wPages k + aPages k
  let peer := (leAt pl 1 1).testBit 3
  let s1 := (takePages s p (List.replicate pages (.model n)) (.ctx (32 * p + ctxNo))).getD s
  let s2 := setSlot { s1 with slotGens := spPut (fun _ => 0) n gen s1.slotGens } n (some
    { pkg := k, prog := g, fromPeer := if peer then some (leAt pl 10 1, leAt pl 8 2) else none,
      hostAddr := if peer then 0 else leAt pl 8 8, pinOnLoad := (leAt pl 1 1).testBit 1, saveBase := save,
      ctxNo := ctxNo, force := false, peerReads := [] })
  let s3 := setF (setF (setF s2 (Reg.MDL_SLOT_HANDLE n) (gen * 32 + n)) (Reg.MDL_SLOT_STATE n) 1)
    (Reg.MDL_SLOT_PARTITION n) p
  let s4 := setF (setF s3 (Reg.MDL_SLOT_PINNED n) (leAt pl 1 1 / 2 % 2)) (Reg.MDL_SLOT_GROUP n)
    (if k.groupPart then 1 else 0)
  let s5 := setF (setF (setF s4 (Reg.MDL_SLOT_PAGES_MODEL_PAGES n) pages) (Reg.MDL_SLOT_KV_RSV_KV_RSV n) fit.1)
    (Reg.MDL_SLOT_CONC_CONC_CAP n) fit.2.1
  let s6 := if fit.2.2 then raise (setF s5 (Reg.MDL_SLOT_TIGHT n) 1) Reg.MDL_STATUS_TIGHT else s5
  let body := k.weightBytes - k.programLen
  chargeHeld (if peer then s6 else chargeHeld s6 p 1 (.load n) body) p 0 (.load n) body

/-- Steps 3 to 6 in slot `n`, after the models `ev` were evicted. -/
def placeLoad (s : State) (c : MbxCmd) (p n : Nat) (k : Pkg) (g : ProgInfo) (ev : List Nat) : State :=
  let fl := leAt c.payload 1 1
  match freeLocal s p with
  | none => refuseLoad s c 0x0506 ev
  | some ctxNo =>
    let r := if fl.testBit 0 then makeRoom s p k (fl.testBit 2) else (s, [])
    let ev' := ev ++ r.2
    match fitRule k (fl.testBit 2) (freePages r.1 p) with
    | none => refuseLoad r.1 c 0x0501 ev'
    | some fit =>
      match findSave r.1 p (saveArea (grovesOf r.1 p) g.liveSram) with
      | none => refuseLoad r.1 c 0x0507 ev'
      | some save =>
        let s1 := beginLoad r.1 n p ctxNo save k g fit c.payload
        respond s1 c (if fit.2.2 then 0x0502 else 0)
          (loadResponse (getF s1 (Reg.MDL_SLOT_HANDLE n)) (wPages k + aPages k) fit.1 fit.2.1 ev')

/-- LOAD_MODEL (R384, R393, R500): `src` is the header as read and what the program section declares; none when that read
failed. -/
def execLoadModel (src : Option (List Byte × ProgInfo)) (s : State) : Host.Outcome State Fault Refusal :=
  runCmd s 0x0510 (fun _ => true) fun c =>
    let pl := c.payload
    let p := leAt pl 0 1
    let peer := (leAt pl 1 1).testBit 3
    let addr := leAt pl 8 8
    let len := leAt pl 16 8
    if 16 ≤ p ∨ partValid s p = false then respond s c 0x0604 []
    else if partState s p = 2 ∨ partState s p = 4 then respond s c 0x050E []
    else if peer = false ∧ (addr % 4096 ≠ 0 ∨ 2 ^ 57 < addr + len) then respond s c 0x0503 []
    else if peer = true ∧ (64 ≤ leAt pl 10 1 ∨ (routeTo s (leAt pl 10 1)).isNone = true) then failSource s c p
    else
      let s0 := if peer then sendBare s (leAt pl 10 1) (.modelRequest (leAt pl 8 2)) else s
      match src with
      | none => failSource s0 c p
      | some (hdr, g) =>
        let k := pkgOfHeader hdr
        let others := (slotsOf s0 p)
        if !headerOk hdr len then respond s0 c 0x0503 []
        else if !programOk k g (grovesOf s0 p) then respond s0 c 0x0504 []
        else if (k.groupPart && !others.isEmpty) || others.any (fun n => isSet s0 (Reg.MDL_SLOT_GROUP n)) then
          respond s0 c 0x050F []
        else match (List.range 32).find? fun n => (slot? s0 n).isNone with
          | some n => placeLoad s0 c p n k g []
          | none =>
            match if (leAt pl 1 1).testBit 0 then (candidates s0 p).head? else none with
            | none => respond s0 c 0x0505 []
            | some n => placeLoad (evictWhole s0 n 0x0701) c p n k g [getF s0 (Reg.MDL_SLOT_HANDLE n)]

/-! ## The transfer's end -/

/-- The load in slot `n` ends (R405): its pages, save area and slot go back, LOAD_FAILED with the code, fault 0x1E. -/
def endLoad (s : State) (n code : Nat) : State :=
  let h := getF s (Reg.MDL_SLOT_HANDLE n)
  let p := getF s (Reg.MDL_SLOT_PARTITION n)
  failLoad (recordFault (clearGroup (evictSlot s n) n) 0x1E clsRequest false false p nobody h) n code

/-- A slot enters READY (R384, R401). -/
def enterReady (s : State) (n : Nat) : State :=
  raise (setF (setF s (Reg.MDL_SLOT_STATE n) 3) (Reg.MDL_SLOT_LAST_LAST_STEP n) s.qTime) Reg.MDL_STATUS_LOAD_DONE

/-- MODEL_TRANSFER_DONE (R384 step 7, R390, R405): `crc` is the CRC-32C over the program section and the weights
received, `bytes` what they wrote, by partition address. It is not before the last of its bytes has issued (R421). A leader
part waits for its group (R401). -/
def execModelTransferDone (n : Nat) (crc : W32) (bytes : List (Nat × Byte)) (s : State) :
    Host.Outcome State Fault Refusal :=
  match slot? s n with
  | none => .next s
  | some x =>
    if getF s (Reg.MDL_SLOT_STATE n) ≠ 1 ∨ !serving s ∨ (x.fromPeer.isNone ∧ !canDma s 0) ∨
        waitsFor s (getF s (Reg.MDL_SLOT_PARTITION n)) (· == .load n) = true then .next s
    else if crc.toNat ≠ x.pkg.bodyCrc then .next (endLoad s n 0x050C)
    else
      let p := getF s (Reg.MDL_SLOT_PARTITION n)
      let mine := bytes.filter fun e =>
        arenaBase s p ≤ e.1 && (page s p ((e.1 - arenaBase s p) / 65536)).use == .model n
      let s1 := mine.foldl (fun a e => (writePart a p .dma e.1 [e.2]).1) s
      let units := saveArea (grovesOf s p) x.prog.liveSram
      let s2 := createCtx s1 (32 * p + x.ctxNo) n true (headerParams x.pkg) 15 x.saveBase units
      let s3 := setF s2 (Reg.MDL_SLOT_LOAD_LOAD_CODE n) 0
      if x.pkg.groupPart ∧ x.pkg.deviceIndex = 0 then
        .next (setF (setF s3 (Reg.MDL_SLOT_STATE n) 2) (Reg.MDL_SLOT_LAST_LAST_STEP n) s3.qTime)
      else .next (enterReady s3 n)

/-- MODEL_TRANSFER_FAILED (R405): a DMA read of the body or the peer transfer failed. -/
def execModelTransferFailed (n : Nat) (s : State) : Host.Outcome State Fault Refusal :=
  if (slot? s n).isSome ∧ getF s (Reg.MDL_SLOT_STATE n) = 1 then .next (endLoad s n 0x050B) else .next s

/-- The loads that take their package from a node end (R514). -/
def endPeerLoads (s : State) (node : Nat) : State :=
  (List.range 32).foldl (fun a n => match slot? a n with
    | some x => match x.fromPeer with
      | some (m, _) => if m = node ∧ getF a (Reg.MDL_SLOT_STATE n) = 1 then endLoad a n 0x050B else a
      | none => a
    | none => a) s

/-- MSG_REASSEMBLY_TIMEOUT (R498): the message is discarded; a lost MODELXFER ends its load (R514). -/
def execMsgReassemblyTimeout (src msg : Nat) (s : State) : Host.Outcome State Fault Refusal :=
  match timeoutMsg s src msg with
  | none => .next s
  | some (s1, ftype) => .next (if ftype = 0x32 then endPeerLoads s1 src else s1)

/-! ## Contexts, pins, pairs -/

/-- The slot a handle names (R379). -/
def slotByHandle (s : State) (h : Nat) : Option (Nat × Slot) :=
  match slot? s (h % 32) with
  | some x => if getF s (Reg.MDL_SLOT_HANDLE (h % 32)) = h then some (h % 32, x) else none
  | none => none

/-- A new context's parameters are refused (R394, step 3). -/
def ctxParamsBad (s : State) (n mask : Nat) (q : CtxParams) : Bool :=
  let covers (g : Nat) : Bool :=
    let m := getF s (Reg.MDL_CTX_SVC_SVC_MASK g)
    m != 0 && (List.range 4).all fun k => !m.testBit k || mask.testBit k
  mask == 0 || (slotCtxs s n).any covers || 4 ≤ q.cls || q.budget == 0 || 16384 < q.budget ||
    q.seqCap == 0 || 8192 < q.seqCap || q.chunkLog2 < 8 || 14 < q.chunkLog2

/-- Classes of `mask` leave the masks of the model's contexts (R380). -/
def takeClasses (s : State) (n mask : Nat) : State :=
  (slotCtxs s n).foldl (fun a g =>
    let m := getF a (Reg.MDL_CTX_SVC_SVC_MASK g)
    setF a (Reg.MDL_CTX_SVC_SVC_MASK g)
      ((List.range 4).foldl (fun x k => if m.testBit k && !mask.testBit k then x + 2 ^ k else x) 0)) s

/-- ADD_CONTEXT (R394). The service mask is bits [3:0] of its byte (R380); the byte's other bits, which no check of R394 names,
have no effect (DEDUCED, notes/assumptions/72.md). -/
def execAddContext (s : State) : Host.Outcome State Fault Refusal :=
  runCmd s 0x0511 (fun _ => true) fun c =>
    let b := c.payload
    let mask := leAt b 2 1 % 16
    let q : CtxParams :=
      { cls := leAt b 3 1, limitUs := leAt b 4 4, budget := leAt b 8 2, seqCap := leAt b 10 2,
        chunkLog2 := leAt b 12 1 }
    match slotByHandle s (leAt b 0 2) with
    | none => respond s c 0x0508 []
    | some (n, x) =>
      let p := getF s (Reg.MDL_SLOT_PARTITION n)
      let units := saveArea (grovesOf s p) x.prog.liveSram
      if getF s (Reg.MDL_SLOT_STATE n) ≠ 3 then respond s c 0x050E []
      else if isSet s (Reg.MDL_SLOT_GROUP n) then respond s c 0x050F []
      else if isSet s (Reg.MDL_SLOT_DRAFT n) then respond s c 0x050D []
      else if ctxParamsBad s n mask q then respond s c 0x0115 []
      else match freeLocal s p with
        | none => respond s c 0x0506 []
        | some l =>
          if freePages s p < aPages x.pkg then respond s c 0x0501 []
          else match findSave s p units with
            | none => respond s c 0x0507 []
            | some save =>
              let s1 := (takePages s p (List.replicate (aPages x.pkg) (.model n)) (.ctx (32 * p + l))).getD s
              let s2 := bump s1 (Reg.MDL_SLOT_PAGES_MODEL_PAGES n) (aPages x.pkg)
              let s3 := createCtx (takeClasses s2 n mask) (32 * p + l) n false q mask save units
              respond s3 c 0 (leBytes 1 l)

/-- The preempted steps that an eviction of slot `n` discards at once: its contexts', and of the target of a draft of it
(Table 09.5). -/
def discardFor (s : State) (n : Nat) : State :=
  (slotCtxs s n).foldl (fun a g => match targetOf a g with
    | some t => discardPre (discardPre a g) t
    | none => discardPre a g) s

/-- The model's contexts compose no further step. -/
def barSlot (s : State) (n : Nat) : State :=
  (slotCtxs s n).foldl (fun a g => match ctx? a g with
    | some c => setCtx a g (some { c with barred := true })
    | none => a) s

/-- An eviction that nothing live holds back: at once, or when the steps it waits for have left (R397, Table 09.5). -/
def startEvict (s : State) (n : Nat) : State :=
  let s1 := discardFor (barSlot (setF s (Reg.MDL_SLOT_STATE n) 5) n) n
  match slot? s1 n with
  | some x => forceEvict (setSlot s1 n (some { x with force := true })) n
  | none => s1

/-- A model holds no live request, no step and sends no peer transfer: its eviction need not wait. -/
def slotQuiet (s : State) (n : Nat) : Bool :=
  slotLive s n == 0 && !peerSource s n && (slotCtxs s n).all fun g => !ctxBusy s g

/-- The result with which an EVICT_MODEL is refused (R396, R402). -/
def evictRefusal (s : State) (n : Nat) (force : Bool) : Option Nat :=
  let st := getF s (Reg.MDL_SLOT_STATE n)
  if isFollower s n ∧ force = false then some 0x050F
  else if isSet s (Reg.MDL_SLOT_PINNED n) ∧ force = false then some 0x0509
  else if st = 5 ∨ (st = 4 ∧ force = false) then some 0x050E
  else none

/-- EVICT_MODEL with FORCE 0 (R396, R402). -/
def execEvictModel (s : State) : Host.Outcome State Fault Refusal :=
  runCmd s 0x0512 (fun b => !(leAt b 2 1).testBit 0) fun c =>
    match slotByHandle s (leAt c.payload 0 2) with
    | none => respond s c 0x0508 []
    | some (n, _) => match evictRefusal s n false with
      | some code => respond s c code []
      | none =>
        if getF s (Reg.MDL_SLOT_STATE n) = 1 then respond (evictModel s n) c 0 []
        else if slotQuiet s n then respond (startEvict s n) c 0 []
        else respond (setF s (Reg.MDL_SLOT_STATE n) 4) c 0x050A []

/-- EVICT_MODEL with FORCE 1 (R397, R402). -/
def execEvictModelForce (s : State) : Host.Outcome State Fault Refusal :=
  runCmd s 0x0512 (fun b => (leAt b 2 1).testBit 0) fun c =>
    match slotByHandle s (leAt c.payload 0 2) with
    | none => respond s c 0x0508 []
    | some (n, _) => match evictRefusal s n true with
      | some code => respond s c code []
      | none => respond (if getF s (Reg.MDL_SLOT_STATE n) = 1 then evictModel s n else startEvict s n) c 0 []

/-- MODEL_DRAIN_EVICT (R396): a DRAINING model is quiet; or what a forced eviction waited for has ended (R397). -/
def execModelDrainEvict (n : Nat) (s : State) : Host.Outcome State Fault Refusal :=
  let st := getF s (Reg.MDL_SLOT_STATE n)
  if !serving s then .next s
  else if st = 4 ∧ slotQuiet s n then .next (startEvict s n)
  else if st = 5 then .next (forceEvict s n)
  else .next s

/-- PIN_MODEL and UNPIN_MODEL (R395, R402). A model that is being evicted is busy. -/
def setPin (s : State) (c : MbxCmd) (pin : Bool) : State :=
  match slotByHandle s (leAt c.payload 0 2) with
  | none => respond s c 0x0508 []
  | some (n, _) =>
    if isFollower s n then respond s c 0x050F []
    else if 4 ≤ getF s (Reg.MDL_SLOT_STATE n) then respond s c 0x050E []
    else respond (setF s (Reg.MDL_SLOT_PINNED n) (if pin then 1 else 0)) c 0 []

/-- PIN_MODEL with bit 0 set (R395). -/
def execPinModel (s : State) : Host.Outcome State Fault Refusal :=
  runCmd s 0x0513 (fun b => (leAt b 2 1).testBit 0) fun c => setPin s c true

/-- PIN_MODEL with bit 0 clear (R395). -/
def execUnpinModel (s : State) : Host.Outcome State Fault Refusal :=
  runCmd s 0x0513 (fun b => !(leAt b 2 1).testBit 0) fun c => setPin s c false

/-- The target context of a PAIR_DRAFT: a context of the model the target handle names. -/
def pairTarget (s : State) (b : List Byte) (n : Nat) : Option (Nat × Ctx) :=
  let g := 32 * getF s (Reg.MDL_SLOT_PARTITION n) + leAt b 2 1
  if 32 ≤ leAt b 2 1 then none
  else match ctx? s g with
    | some c => if c.slot = n then some (g, c) else none
    | none => none

/-- The pairing conditions of R399 and R500 between target (slot, context) and draft slot. -/
def pairOk (s : State) (tn : Nat) (tx : Slot) (tc : Ctx) (g dn : Nat) (dx : Slot) : Bool :=
  tn != dn && getF s (Reg.MDL_SLOT_STATE tn) == 3 && getF s (Reg.MDL_SLOT_STATE dn) == 3 &&
    getF s (Reg.MDL_SLOT_PARTITION tn) == getF s (Reg.MDL_SLOT_PARTITION dn) && tx.pkg.vocab == dx.pkg.vocab &&
    tx.pkg.tokenizerId == dx.pkg.tokenizerId && slotLive s dn == 0 && !tx.pkg.groupPart && !dx.pkg.groupPart &&
    tc.pair.isNone && !isDraft s g &&
    match slotCtxs s dn with
    | [d] => match ctx? s d with
      | some dc => dc.pair.isNone
      | none => false
    | _ => false

/-- Target context `g` and draft context `d` are a pair (R157, R399). -/
def makePair (s : State) (g d : Nat) : State :=
  match ctx? s g, ctx? s d with
  | some tc, some dc =>
    let p := ctxPart g
    let s1 := setCtx (setCtx s g (some { tc with pair := some (ctxLocal d) })) d
      (some { dc with pair := some (ctxLocal g) })
    let s2 := setF (setF s1 (Reg.CMP_CTX_CFG_PAIR p (ctxLocal g)) (ctxLocal d))
      (Reg.CMP_CTX_CFG_PAIR p (ctxLocal d)) (ctxLocal g)
    let s3 := setF (setF s2 (Reg.CMP_CTX_CFG_DRAFT p (ctxLocal d)) 1) (Reg.MDL_CTX_SVC_SVC_MASK d) 0
    setF (setF s3 (Reg.CMP_CTX_CFG_CLASS p (ctxLocal d)) (classOf s3 g)) (Reg.MDL_SLOT_DRAFT dc.slot) 1
  | _, _ => s

/-- PAIR_DRAFT with a draft handle (R399). -/
def execPairDraft (s : State) : Host.Outcome State Fault Refusal :=
  runCmd s 0x0514 (fun b => leAt b 4 2 != 0) fun c =>
    let b := c.payload
    match slotByHandle s (leAt b 0 2), slotByHandle s (leAt b 4 2) with
    | some (tn, tx), some (dn, dx) => match pairTarget s b tn, slotCtxs s dn with
      | some (g, tc), d :: _ => if pairOk s tn tx tc g dn dx then respond (makePair s g d) c 0 [] else respond s c 0x050D []
      | _, _ => respond s c 0x050D []
    | _, _ => respond s c 0x0508 []

/-- PAIR_DRAFT with draft handle 0 (R400). -/
def execUnpairDraft (s : State) : Host.Outcome State Fault Refusal :=
  runCmd s 0x0514 (fun b => leAt b 4 2 == 0) fun c =>
    let b := c.payload
    match slotByHandle s (leAt b 0 2) with
    | none => respond s c 0x0508 []
    | some (n, _) => match pairTarget s b n with
      | none => respond s c 0x050D []
      | some (g, tc) =>
        if tc.pair.isNone || isDraft s g then respond s c 0x050D [] else respond (unpairCtx s g) c 0 []

end Sys2Proof.Machine
end

