-- ==== Sys2Proof/Machine/RegWrite.lean ====
section
/-! DEFINITION. Register writes (spec/03, R93 to R117, R742): the cards' rules for a register, the registers whose
chapters give a rule of their own, and the commands that are such writes. -/
namespace Sys2Proof.Machine

/-- The state a meaning answers with, when it answers with one. -/
def after (s : State) (o : Host.Outcome State Fault Refusal) : State :=
  match o with
  | .next t => t
  | _ => s

/-- Bits no card names among those written (R96). -/
def flagRsv (s : State) (key : Nat) (data mask : BitVec 64) : State :=
  match cardAt key with
  | some c => if data &&& mask &&& ~~~(namedBits c) ≠ 0#64 then raise s Reg.HST_ERR_STATUS_RSV_NONZERO else s
  | none => s

/-- BAD_VALUE (R97). -/
def badValue (s : State) : State := raise s Reg.HST_ERR_STATUS_BAD_VALUE

/-- The mask without a field's bits. -/
def without (mask : BitVec 64) (f : Fld) : BitVec 64 := putField mask f.lo f.w 0

/-! ## Registers with a rule of their own -/

/-- OPEN is held at 0 (R414): while a hold stands, and while the tenant is unbound. -/
def openHeld (s : State) (t : Nat) : Bool := (tenant s t).hold.isSome || (partOf s t).isNone

/-- ADM_TEN_CTL_t (R414). -/
def writeTenCtl (s : State) (t : Nat) (data mask : BitVec 64) : State :=
  let f := Reg.ADM_TEN_CTL_OPEN t
  if openHeld s t ∧ mask.getLsbD 0 = true then
    let s1 := writeFields s f.key data (without mask f)
    if data.getLsbD 0 then raise s1 Reg.PRT_STATUS_OPEN_HELD
    else match (tenant s1 t).hold with
      | some _ => setTenant s1 t { tenant s1 t with hold := some false }
      | none => s1
  else writeFields s f.key data mask

/-- The sum of QDEPTH over tenants (R304). -/
def qdepthSum (s : State) : Nat := (List.range 64).foldl (fun a t => a + getF s (Reg.ADM_TEN_QDEPTH_QDEPTH t)) 0

/-- A write that `ok` refuses on the values it would leave: the register keeps its value, BAD_VALUE (R304, R338). -/
def writeIf (s : State) (key : Nat) (data mask : BitVec 64) (ok : State → Bool) : State :=
  let s1 := writeFields s key data mask
  if ok s1 then s1 else flagRsv (badValue s) key data mask

/-- PARK_LOW below PARK_HIGH in lane `p` (R338). -/
def parkOk (p : Nat) (s : State) : Bool :=
  decide (getF s (Reg.CMP_PARK_LOW_PARK_LOW p) < getF s (Reg.CMP_PARK_HIGH_PARK_HIGH p))

/-- A pair of fields of one register that the write would leave in breach stays (R742). -/
def writePair (s : State) (key : Nat) (data mask : BitVec 64) (lo hi : Fld) : State :=
  let s1 := writeFields s key data mask
  if getF s1 lo ≤ getF s1 hi then s1
  else badValue (setF (setF s1 lo (getF s lo)) hi (getF s hi))

/-- HST_DB_ROUTE (R556): the bit of a tenant with an enabled ring stays, ROUTE_LOCKED. -/
def writeRoute (s : State) (h : Nat) (data mask : BitVec 64) : State :=
  let f := Reg.HST_DB_ROUTE_PF_ROUTE h
  let old := getF s f
  let new := fieldOf ((rd s f.key &&& ~~~mask) ||| (data &&& mask)) 0 32
  let ringsOn (t : Nat) : Bool := (List.range 4).any fun r =>
    isSet s (Reg.RQI_SQ_CFG_ENABLE t r) || isSet s (Reg.RQI_CQ_CFG_ENABLE t r)
  let locked := (List.range 32).filter fun b => old.testBit b != new.testBit b && ringsOn (32 * h + b)
  let s1 := (List.range 32).foldl (fun a b => if locked.contains b then a else setBit a f b (new.testBit b)) s
  if locked.isEmpty then s1 else raise s1 Reg.HST_PCIE_STATUS_ROUTE_LOCKED

/-- The owner state is LOCKED. -/
def ownerLocked (s : State) : Bool := getF s Reg.MGT_STATUS_OWNER == 1

/-- HST_DBGWIN_CTL (R117). -/
def writeDbgwin (s : State) (data mask : BitVec 64) : State :=
  let f := Reg.HST_DBGWIN_CTL_ENABLE
  if ownerLocked s && data.getLsbD 0 && mask.getLsbD 0 then
    raise (writeFields s f.key data (without mask f)) Reg.HST_ERR_STATUS_DBGWIN_REFUSED
  else writeFields s f.key data mask

/-- CZL_NODE (Table 14.9): NODE_ID is locked while a port trains or is up. -/
def writeNode (s : State) (data mask : BitVec 64) : State :=
  let f := Reg.CZL_NODE_NODE_ID
  let up := (List.range 12).any fun n => portState s n != 0
  if up ∧ fieldOf mask f.lo f.w ≠ 0 then
    raise (writeFields s f.key data (without mask f)) Reg.CZL_STATUS_NODE_LOCKED
  else writeFields s f.key data mask

/-- CZL_PORT_CTL (R484, R489, R523): DISABLE keeps the port DOWN; RETRAIN retrains it as RETRAIN_PORT does. -/
def writePortCtl (s : State) (n : Nat) (data mask : BitVec 64) : State :=
  let s1 := writeFields s (Reg.CZL_PORT_CTL n) data mask
  if isSet s1 (Reg.CZL_PORT_CTL_DISABLE n) then
    (if portState s1 n = 0 then s1 else portDown s1 n true 0x0C01)
  else if (data &&& mask).getLsbD 2 && !portTraining s1 n then startTrain s1 n
  else s1

/-- CMP_CTX_LIMIT, CMP_CTX_CFG and the other registers of local context `n` of lane `p` (R157, R328): without a context
a write has no effect; a draft's class is its target's. -/
def writeCtx (s : State) (p n key : Nat) (data mask : BitVec 64) : State :=
  let g := 32 * p + n
  match ctx? s g with
  | none => flagRsv s key data mask
  | some c =>
    if key = Reg.CMP_CTX_LIMIT p n then
      let s1 := writeFields s key data mask
      setF s1 (Reg.CMP_CTX_LIMIT_LIMIT_US p n) (clampLimit (getF s1 (Reg.CMP_CTX_LIMIT_LIMIT_US p n)))
    else if key = Reg.CMP_CTX_CFG p n then
      if isDraft s g then writeFields s key data (without mask (Reg.CMP_CTX_CFG_CLASS p n))
      else
        let s1 := writeFields s key data mask
        match c.pair with
        | some d => setF s1 (Reg.CMP_CTX_CFG_CLASS p d) (classOf s1 g)
        | none => s1
    else writeFields s key data mask

/-- TRC_ASSAY_CTL (R680): EN set starts the slot's count of steps. -/
def writeAssay (s : State) (p w : Nat) (data mask : BitVec 64) : State :=
  let on := isSet s (Reg.TRC_ASSAY_CTL_EN p w)
  let s1 := writeFields s (Reg.TRC_ASSAY_CTL p w) data mask
  if !on && isSet s1 (Reg.TRC_ASSAY_CTL_EN p w) then
    { s1 with assaySeen := spPut (fun _ => 0) (16 * p + w) 0 s1.assaySeen }
  else s1

/-- The mailbox area (R111). A write reaches the request: its first eight bytes and its payload. RESULT, RESP_LENGTH and the
reserved bytes are the device's (R107): a write leaves them alone. -/
def writeArea (s : State) (key : Nat) (data mask : BitVec 64) : State :=
  if s.mbx.any fun x => !x.smbus then raise s Reg.MGT_MBX_STATUS_AREA_LOCKED
  else if Reg.MGT_MBX_AREA 2 ≤ key ∧ key < Reg.MGT_MBX_AREA 16 then s
  else writeFields s key data mask

/-- MEM_PARK_BASE and MEM_PARK_SLOTS (R217). -/
def writePark (s : State) (t key : Nat) (data mask : BitVec 64) : State :=
  if (slotsInUse s t).isEmpty then writeFields s key data mask
  else raise (flagRsv s key data mask) Reg.MEM_EVT_STATUS_PARK_BUSY

/-- A ring's BASE (R240): a change while ENABLE is 1 has no effect, CFG_LOCKED. -/
def writeBase (s : State) (key : Nat) (on : Bool) (flag : Fld) (data mask : BitVec 64) : State :=
  let s1 := writeFields s key data mask
  if on && rd s1 key != rd s key then raise (flagRsv s key data mask) flag else s1

/-- A register of the RQI page of tenant `t` at offset `o` of the page (spec/07). -/
def writeRing (s : State) (t o key : Nat) (data mask : BitVec 64) : State :=
  let r := o % 0x200 / 0x40
  let x := o % 0x40
  let v := data.setWidth 32
  if o < 0x200 then
    if x = 0 then writeBase s key (isSet s (Reg.RQI_SQ_CFG_ENABLE t r)) (Reg.RQI_SQ_STATUS_CFG_LOCKED t r) data mask
    else if x = 8 then after s (if v.getLsbD 8 then execSqEnable t r v s else execSqDisable t r v s)
    else if x = 0x18 then flagRsv (if data.getLsbD 0 then after s (execFlush t r s) else s) key data mask
    else writeFields s key data mask
  else
    if x = 0 then writeBase s key (isSet s (Reg.RQI_CQ_CFG_ENABLE t r)) (Reg.RQI_CQ_STATUS_CFG_LOCKED t r) data mask
    else if x = 8 then after s (if v.getLsbD 8 then execCqEnable t r v s else execCqDisable t r v s)
    else writeFields s key data mask

/-- A regulator's register (R422): with EN 0 nothing waits, so what waited when EN was 1 issues at once. -/
def writeRegulator (s : State) (key : Nat) (data mask : BitVec 64) : State :=
  let p := (key - 0x902000) / 0x40
  let k := (key - 0x902000) % 0x40 / 0x10
  let s1 := writeFields s key data mask
  if key = Reg.PRT_REG_CTL p k ∧ k < 3 ∧ isSet s1 (Reg.PRT_REG_CTL_EN p k) = false then issueNow s1 p k else s1

/-! ## One register -/

/-- A write of `data` under `mask` to the register at `key`, once it has reached its block. -/
def writeReg (s : State) (key : Nat) (data mask : BitVec 64) : State :=
  let b := key / 0x100000
  if b = 0 then
    if key = Reg.HST_DB_ROUTE 0 ∨ key = Reg.HST_DB_ROUTE 1 then writeRoute s ((key - 0x300) / 4) data mask
    else if key = Reg.HST_DBGWIN_CTL then writeDbgwin s data mask
    else writeFields s key data mask
  else if b = 1 then
    if key = Reg.MGT_MBX_CTL then flagRsv (if data.getLsbD 0 then after s (execMailboxGo s) else s) key data mask
    else if Reg.MGT_MBX_AREA 0 ≤ key then writeArea s key data mask
    else writeFields s key data mask
  else if b = 4 then writeRing s ((key - 0x400000) / 0x1000) (key % 0x1000) key data mask
  else if b = 5 then
    let t := (key - 0x501000) / 0x80
    if key = Reg.ADM_TEN_CTL t then writeTenCtl s t data mask
    else if key = Reg.ADM_TEN_QDEPTH t then writeIf s key data mask fun a => decide (qdepthSum a ≤ 16384)
    else writeFields s key data mask
  else if b = 6 then
    let p := (key - 0x600000) / 0x10000
    let o := key % 0x10000
    if o = 4 ∨ o = 8 then writeIf s key data mask (parkOk p)
    else if 0x100 ≤ o ∧ o < 0x480 then writeCtx s p (o % 0x80 / 4) key data mask
    else writeFields s key data mask
  else if b = 9 ∧ 0x902000 ≤ key ∧ key < 0x902400 then writeRegulator s key data mask
  else if b = 10 then
    let t := (key - 0xA02000) / 0x10
    if 0xA02000 ≤ key ∧ (key = Reg.MEM_PARK_BASE t ∨ key = Reg.MEM_PARK_SLOTS t) then writePark s t key data mask
    else writeFields s key data mask
  else if b = 11 then
    let n := (key - 0xB00100) / 0x40
    if key = Reg.CZL_NODE then writeNode s data mask
    else if n < 12 ∧ key = Reg.CZL_PORT_CTL n then writePortCtl s n data mask
    else writeFields s key data mask
  else if b = 12 then
    if key = Reg.PWR_CAP then writePair s key data mask Reg.PWR_CAP_CAP_W Reg.PWR_CAP_CAP_MAX_W
    else if key = Reg.PWR_DVFS then writePair s key data mask Reg.PWR_DVFS_STEP_MIN Reg.PWR_DVFS_STEP_MAX
    else writeFields s key data mask
  else if b = 13 then
    let p := (key - 0xD08000) / 0x40
    let q := (key - 0xD60000) / 0x800
    let w := (key - 0xD60000) % 0x800 / 0x80
    let v := data.setWidth 32
    if p < 16 ∧ key = Reg.TRC_TCTL p then after s (if v.getLsbD 0 then execTraceEnable p v s else execTraceDisable p v s)
    else if q < 16 ∧ key = Reg.TRC_ASSAY_CTL q w then writeAssay s q w data mask
    else writeFields s key data mask
  else if b = 14 then
    if key = Reg.FLT_FAULTN then faultnWrite s data mask
    else if key = Reg.FLT_CTL then withFaultn s fun a => writeFields a key data mask
    else writeFields s key data mask
  else writeFields s key data mask

/-- The W1C bits of a card: the flags that hardware may set in the cycle of the write. -/
def w1cBits (key : Nat) : Nat :=
  match cardAt key with
  | some c => (c.fields.foldl (fun a f => match f.acc with
      | .w1c => a ||| (BitVec.ofNat 64 (2 ^ f.w - 1) <<< f.lo)
      | _ => a) 0#64).toNat
  | none => 0

/-- Hardware sets flags of the register in the cycle of the write: a cause of FLT_FAULTN drives the pin (R466). -/
def hwSets (s : State) (key written flags : Nat) : State :=
  if flags = 0 then s
  else if key = Reg.FLT_FAULTN then (List.range 7).foldl (fun a k => if flags.testBit k then setCause a k else a) s
  else hwSetDuring s key written flags

/-- A write to one register (R76, R102 to R106, Table 03.6): `hw` are the flags that hardware sets in the same cycle. -/
def hostWrite (s : State) (key : Nat) (data mask : BitVec 64) (hw : Nat) : State :=
  after s (reach s key fun s =>
    let s1 := writeReg s key data mask
    let flags := (BitVec.ofNat 64 hw &&& BitVec.ofNat 64 (w1cBits key)).toNat
    .next (afterWrite (hwSets s1 key (data &&& mask).toNat flags) key))

/-- The register at offset `o` of PF0 BAR0 and the bit its byte 0 has in it: the upper half of a 64-bit register lies 4
above it (R91). -/
def regAt (o : Nat) : Option (Nat × Nat) :=
  if (cardAt o).isSome then some (o, 0)
  else match cardAt (o - 4) with
    | some c => if c.wide && 4 ≤ o then some (o - 4, 32) else none
    | none => none

/-- A 4-byte write at offset `o` of PF0 BAR0 (R95); the trace window, in TCLK, ignores writes (R678). -/
def writeWord (s : State) (o : Nat) (v : BitVec 64) (hw : Nat) : State :=
  if 0xD80000 ≤ o ∧ o < 0xE00000 then ifRunning s 7 id
  else match regAt o with
    | none => raise s Reg.HST_ERR_STATUS_UNMAPPED
    | some (key, sh) => hostWrite s key ((v &&& 0xFFFFFFFF#64) <<< sh) (0xFFFFFFFF#64 <<< sh) hw

/-- A 4-byte or 8-byte write at offset `o` of PF0 BAR0 (R93). Of an 8-byte write to two registers, bits [31:0] and [63:32] of
`hw` are the flags that hardware sets in the lower and in the upper one (R102). -/
def writeBar0 (s : State) (o len : Nat) (v : BitVec 64) (hw : Nat) : State :=
  if len = 4 then writeWord s o v hw
  else match cardAt o with
    | some c => if c.wide then hostWrite s o v 0xFFFFFFFFFFFFFFFF#64 hw
      else writeWord (writeWord s o v (hw % 2 ^ 32)) (o + 4) (v >>> 32) (hw / 2 ^ 32)
    | none => writeWord (writeWord s o v (hw % 2 ^ 32)) (o + 4) (v >>> 32) (hw / 2 ^ 32)

/-! ## BARs -/

/-- Tenant `t` has a VF (R561). -/
def vfExists (s : State) (t : Nat) : Bool := decide (t < getF s Reg.HST_PCIE_LINK_NUM_VFS)

/-- The requester's access gets as far as the BAR (R121, R564): a function's needs Memory Space Enable and D0; Heartwood's
and the SMBus endpoint's need Heartwood. -/
def barOpen (s : State) (who : Requester) (bar : Bar) : Bool :=
  match who, bar with
  | .pf0, .pfBar0 => (fn s 0).mse && !(fn s 0).d3
  | .pf0, .pfBar2 => (fn s 0).mse && !(fn s 0).d3
  | .vf t, .vfBar0 u => t == u && vfExists s t && (fn s (t + 1)).mse && !(fn s (t + 1)).d3
  | .heartwood, .pfBar0 => getF s Reg.HST_STATUS_HWD_STATE == 0
  | .smbus, .pfBar0 => getF s Reg.HST_STATUS_HWD_STATE == 0
  | _, _ => false

/-- A function logs an error in its Status register and AER capability (R576). -/
def logPcie (s : State) (n : Nat) (e : PcieErr) : State :=
  setFn s n { fn s n with errs := if (fn s n).errs.contains e then (fn s n).errs else (fn s n).errs ++ [e] }

/-- A request to a closed BAR is an Unsupported Request, logged by the BAR's function (R564, R576). -/
def refuseBar (s : State) (who : Requester) : State :=
  match who with
  | .pf0 => if s.boot.perst then s else logPcie s 0 .unsupportedRequest
  | .vf t => if vfExists s t then logPcie s (t + 1) .unsupportedRequest else s
  | _ => s

/-- A word of an MSI-X table: entry `o` / 16 of function `n` (PCIe layout), in PCLK (R740). An unmasked vector's message
goes (R572). -/
def writeMsix (s : State) (n o : Nat) (v : BitVec 64) : State :=
  ifRunning s 3 fun s =>
  let k := o / 16
  let e := vec s n k
  let w := (v &&& 0xFFFFFFFF#64).toNat
  if o % 16 = 0 then setVec s n k { e with addr := 2 ^ 32 * (e.addr / 2 ^ 32) + w / 4 * 4 }
  else if o % 16 = 4 then setVec s n k { e with addr := e.addr % 2 ^ 32 + 2 ^ 32 * w }
  else if o % 16 = 8 then setVec s n k { e with data := w }
  else if w % 2 = 1 then setVec s n k { e with masked := true }
  else if e.masked then after s (execMsixUnmask n (.vector k) s)
  else s

/-- A word of a doorbell page of tenant `t` (RQI_SQ_DB_s, RQI_CQ_DB_c), in QCLK. -/
def writeDoorbell (s : State) (t o : Nat) (viaPf : Bool) (v : BitVec 64) : State :=
  ifRunning s 5 fun s =>
  let n := fieldOf v 0 16
  let s1 := if fieldOf v 16 16 ≠ 0 then raise s Reg.HST_ERR_STATUS_RSV_NONZERO else s
  if o < 0x10 then after s1 (execSqDoorbell t (o / 4) viaPf n s1)
  else if o < 0x20 then after s1 (execCqDoorbell t (o / 4 - 4) viaPf n s1)
  else raise s Reg.HST_ERR_STATUS_UNMAPPED

/-- A 4-byte write at offset `o` of PF0 BAR2 (Table 03.1); the pending-bit array, in PCLK, is read-only. -/
def writeBar2 (s : State) (o : Nat) (v : BitVec 64) : State :=
  if o < 0x40000 then writeDoorbell s (o / 0x1000) (o % 0x1000) true v
  else if o < 0x41000 then writeMsix s 0 (o - 0x40000) v
  else if o < 0x41020 then ifRunning s 3 id
  else raise s Reg.HST_ERR_STATUS_UNMAPPED

/-- The read-only register of PF0 BAR0 that VF BAR0 of tenant `t` shows at `o` (Table 12.7, R687); an unbound tenant's
TRC_PART words stand for those of partition 0, which a write changes as little. -/
def vfShown (s : State) (t o : Nat) : Option Nat :=
  if 0x2000 ≤ o ∧ o < 0x2200 then some (0x908000 + 0x200 * t + (o - 0x2000))
  else if 0x2200 ≤ o ∧ o < 0x2300 then some (Reg.TRC_TEN t 0 + (o - 0x2200))
  else if 0x2400 ≤ o ∧ o < 0x2500 then some (Reg.TRC_PART ((partOf s t).getD 0) 0 + (o - 0x2400))
  else none

/-- A 4-byte write at offset `o` of the VF BAR0 of tenant `t`. What it shows read-only keeps its value; the write meets the
domain it lies in (Table 02.9, R740) and reports reserved bits (R96). -/
def writeVf (s : State) (t o : Nat) (v : BitVec 64) (hw : Nat) : State :=
  if o < 0x1000 then writeWord s (0x400000 + 0x1000 * t + o) v hw
  else if o < 0x2000 then writeDoorbell s t (o - 0x1000) false v
  else if 0x8000 ≤ o ∧ o < 0x8200 then writeMsix s (t + 1) (o - 0x8000) v
  else if 0x9000 ≤ o ∧ o < 0x9008 then ifRunning s 3 id
  else if o = 0x3000 then
    ifRunning s 5 fun a => if fieldOf v 10 22 ≠ 0 then raise a Reg.HST_ERR_STATUS_RSV_NONZERO else a
  else if o = 0x3FF0 ∨ o = 0x3FF4 then ifRunning s 1 id
  else match vfShown s t o with
    | some x => writeWord s x v 0
    | none => raise s Reg.HST_ERR_STATUS_UNMAPPED

/-- REGISTER_WRITE (R93): `len` bytes at offset `o` of a BAR; another size or alignment has no effect, BAD_SIZE. -/
def execRegisterWrite (who : Requester) (bar : Bar) (o len : Nat) (v : W64) (hw : Nat) (s : State) :
    Host.Outcome State Fault Refusal :=
  if !barOpen s who bar then .next (refuseBar s who)
  else if (len ≠ 4 ∧ len ≠ 8) ∨ o % len ≠ 0 then .next (raise s Reg.HST_ERR_STATUS_BAD_SIZE)
  else match bar with
    | .pfBar0 => .next (writeBar0 s o len v hw)
    | .pfBar2 =>
      let s1 := writeBar2 s o v
      .next (if len = 8 then writeBar2 s1 (o + 4) (v >>> 32) else s1)
    | .vfBar0 t =>
      if o < 0x1000 ∧ len = 8 then .next (writeBar0 s (0x400000 + 0x1000 * t + o) 8 v hw)
      else
        let s1 := writeVf s t o v (hw % 2 ^ 32)
        .next (if len = 8 then writeVf s1 t (o + 4) (v >>> 32) (hw / 2 ^ 32) else s1)

/-- DB_ROUTE_WRITE (R556): a write of `v` to HST_DB_ROUTE_LO (`h` 0) or HI (`h` 1). -/
def execDbRouteWrite (h : Nat) (v : W32) (s : State) : Host.Outcome State Fault Refusal :=
  if 2 ≤ h then .next s else .next (hostWrite s (Reg.HST_DB_ROUTE h) (v.setWidth 64) 0xFFFFFFFF#64 0)

/-- DBGWIN_CTL_WRITE (R117). -/
def execDbgwinCtlWrite (v : W32) (s : State) : Host.Outcome State Fault Refusal :=
  .next (hostWrite s Reg.HST_DBGWIN_CTL (v.setWidth 64) 0xFFFFFFFF#64 0)

end Sys2Proof.Machine
end

