-- ==== Sys2Proof/Machine/Partitions.lean ====
section
/-! DEFINITION. Partitions and tenants (spec/12, R434 to R440): draining, resuming, reconfiguring, migrating. -/
namespace Sys2Proof.Machine

/-! ## Drain and resume -/

/-- DRAIN_PARTITION (R434, Table 12.9): STATE DRAINING, OPEN held; with FORCE every live request is cancelled. -/
def execDrainPartition (s : State) : Host.Outcome State Fault Refusal :=
  runCmd s 0x0610 (fun _ => true) fun c =>
    let p := leAt c.payload 0 1
    if 16 ≤ p ∨ partValid s p = false then respond s c 0x0604 []
    else if partState s p ≠ 1 then respond s c 0x0601 []
    else
      let s1 := setF s (Reg.PRT_PART_STATE_STATE p) 2
      let s2 := (tenantsOf s1 p).foldl holdOpen s1
      let s3 := if (leAt c.payload 1 1).testBit 0 then (partLive s2 p).foldl cancelReq s2 else s2
      respond s3 c 0 []

/-- The partition has no live request and no step (R434, step 4). -/
def partIdle (s : State) (p : Nat) : Bool :=
  let l := lane s p
  (partLive s p).isEmpty && (stepsOf s p).isEmpty && l.composing.isNone

/-- DRAIN_DONE (R434, step 4). -/
def execDrainDone (p : Nat) (s : State) : Host.Outcome State Fault Refusal :=
  if p < 16 ∧ partState s p = 2 ∧ partIdle s p = true then
    .next (raise (setF s (Reg.PRT_PART_STATE_STATE p) 3) Reg.PRT_STATUS_DRAIN_DONE)
  else .next s

/-- RESUME_PARTITION (R435). -/
def execResumePartition (s : State) : Host.Outcome State Fault Refusal :=
  runCmd s 0x0611 (fun _ => true) fun c =>
    let p := leAt c.payload 0 1
    if 16 ≤ p ∨ partValid s p = false then respond s c 0x0604 []
    else if partState s p = 4 then respond s c 0x0601 []
    else if partState s p = 1 then respond s c 0 []
    else respond (setF (resumeOpen s p) (Reg.PRT_PART_STATE_STATE p) 1) c 0 []

/-! ## Layouts (Table 12.1) -/

/-- A partition entry (Tables 12.3 and 17.7): ID, first grove, groves, TRACE_MIB per grove, SAVE_64K, ACCT_FULL, and
whether its reserved bits are 0. -/
structure PartEntry where
  id : Nat
  first : Nat
  groves : Nat
  trace : Nat
  save : Nat
  full : Bool
  ok : Bool
  deriving DecidableEq, Repr

/-- The 8 bytes of an entry. -/
def partEntryOf (b : List Byte) : PartEntry :=
  let f := leAt b 7 1
  { id := leAt b 0 1, first := leAt b 1 1, groves := leAt b 2 1, trace := leAt b 3 1 + (if f.testBit 1 then 256 else 0),
    save := leAt b 4 3, full := f.testBit 0, ok := decide (f < 4) }

/-- The entry's own bounds: ID, run of groves, an active cluster, TRACE_MIB and the arena left (Table 12.1, R197). -/
def entryOk (s : State) (e : PartEntry) : Bool :=
  e.ok && e.id < 16 && 1 ≤ e.groves && e.first + e.groves ≤ 16 && e.trace ≤ 256 &&
    (List.range e.groves).any (fun k => getF s (Reg.GRV_STATUS_ACTIVE (e.first + k)) != 0) &&
    e.groves * e.trace * 16 + e.save + 1024 ≤ 2 * e.groves * 2032 * 16

/-- Two runs of groves share none, and the IDs differ. -/
def entriesApart (a b : PartEntry) : Bool :=
  a.id != b.id && (a.first + a.groves ≤ b.first || b.first + b.groves ≤ a.first)

/-- Every pair of a list is apart. -/
def allApart : List PartEntry → Bool
  | [] => true
  | e :: es => es.all (entriesApart e) && allApart es

/-- The entry of a partition that exists. -/
def entryNow (s : State) (p : Nat) : PartEntry :=
  { id := p, first := firstGrove s p, groves := grovesOf s p, trace := (part s p).traceMib / grovesOf s p,
    save := saveUnits s p, full := isSet s (Reg.PRT_PART_ACCT_ACCT_FULL p), ok := true }

/-- Partition IDs that exist, ascending. -/
def partIds (s : State) : List Nat := (List.range 16).filter (partValid s)

/-- The layout that a RECONFIGURE would leave is valid (R411, R436). -/
def layoutOk (s : State) (dissolve : Nat) (new : List PartEntry) : Bool :=
  let kept := ((partIds s).filter fun p => !dissolve.testBit p).map (entryNow s)
  let all := kept ++ new
  2 ≤ all.length && all.length ≤ 16 && new.all (entryOk s) && allApart all

/-! ## Reconfiguration (R437) -/

/-- A partition is dissolved: its models go, its lane is freed, its groves are unassigned. -/
def dissolvePart (s : State) (p : Nat) : State :=
  let s1 := clearLane (evictAll s p) p
  let s2 := (groveList s1 p).foldl (fun a g => ownGrove (resetGrove a g) g none) (stopTrace s1 p)
  let s3 := [Reg.PRT_PART_CFG p, Reg.PRT_PART_STATE p, Reg.PRT_PART_ACCT p, Reg.MEM_PART_ARENA p,
    Reg.MEM_PART_SAVE p].foldl resetReg s2
  let s4 := setF s3 Reg.PRT_MODE_PARTS (getF s3 Reg.PRT_MODE_PARTS - 1)
  setPart { s4 with pages := spDrop (fun k => k / 2 ^ 20 == p) s4.pages } p Part.idle

/-- A new partition: laid out and zeroed, regulators reset, DRAINED, its tenants' OPEN held. -/
def formPart (s : State) (e : PartEntry) : State :=
  let s1 := makePart s e.id e.first e.groves (e.groves * e.trace) e.save e.full
  let s2 := setF (resetRegulators s1 e.id true) (Reg.PRT_PART_STATE_STATE e.id) 3
  (tenantsOf s2 e.id).foldl holdOpen s2

/-- A drain or a migration is in progress (R434, R439, Table 12.9). -/
def changeBusy (s : State) : Bool :=
  (partIds s).any (fun p => partState s p == 2) || (List.range 64).any fun t => isSet s (Reg.PRT_TEN_MIGRATING t)

/-- RECONFIGURE (R436, R437). -/
def execReconfigure (s : State) : Host.Outcome State Fault Refusal :=
  runCmd s 0x0612 (fun _ => true) fun c =>
    let d := leAt c.payload 0 2
    let ds := (List.range 16).filter d.testBit
    let new := (chunks 8 16 (c.payload.drop 3)).map partEntryOf
    if sharedMode s then respond s c 0x0603 []
    else if ds.any fun p => !partValid s p then respond s c 0x0604 []
    else if changeBusy s then respond s c 0x0601 []
    else if ds.any fun p => partState s p != 3 then respond s c 0x0606 []
    else if !layoutOk s d new then respond s c 0x0602 []
    else
      let gone := ds.filter fun p => !new.any fun e => e.id == p
      let s1 := ds.foldl dissolvePart s
      let s2 := gone.foldl (fun a p => (tenantsOf a p).foldl unbindTenant a) s1
      let s3 := new.foldl formPart s2
      respond (raise s3 Reg.PRT_STATUS_RECONF_DONE) c 0 []

/-! ## Migration (R439) -/

/-- MIGRATE_TENANT (R439): MIGRATING, OPEN held; with FORCE every live request is cancelled. -/
def execMigrateTenant (s : State) : Host.Outcome State Fault Refusal :=
  runCmd s 0x0613 (fun _ => true) fun c =>
    let t := leAt c.payload 0 1
    let q := leAt c.payload 1 1
    if t < 64 ∧ isSet s (Reg.PRT_TEN_MIGRATING t) = true then respond s c 0x0605 []
    else if sharedMode s then respond s c 0x0603 []
    else if 64 ≤ t ∨ (q ≠ 0xFF ∧ (16 ≤ q ∨ partValid s q = false)) then respond s c 0x0604 []
    else
      let s1 := holdOpen (setF s (Reg.PRT_TEN_MIGRATING t) 1) t
      let s2 := setTenant s1 t { tenant s1 t with migrateTo := q }
      let s3 := if (leAt c.payload 2 1).testBit 0 then (liveReqs s2 fun r => r.tenant == t).foldl cancelReq s2 else s2
      respond s3 c 0 []

/-- MIGRATE_DONE (R439, steps 3 to 5). A destination dissolved meanwhile leaves the tenant unbound. -/
def execMigrateDone (t : Nat) (s : State) : Host.Outcome State Fault Refusal :=
  if 64 ≤ t ∨ isSet s (Reg.PRT_TEN_MIGRATING t) = false ∨ !(liveReqs s fun r => r.tenant == t).isEmpty ∨
      getF s (Reg.ADM_TEN_KVUSE_KVUSE t) ≠ 0 then .next s
  else
    let q := (tenant s t).migrateTo
    let s1 := setTenant s t { tenant s t with migrateTo := 0 }
    let s2 := if q < 16 ∧ partValid s q = true then bindTenant s1 t q 0 else unbindTenant s1 t
    let s3 := if q < 16 ∧ partValid s q = true ∧ partState s q = 1 then restoreOpen s2 t else s2
    .next (raise (setF s3 (Reg.PRT_TEN_MIGRATING t) 0) Reg.PRT_STATUS_MIGRATE_DONE)

end Sys2Proof.Machine
end

