-- ==== Sys2Proof/Machine/Profile.lean ====
section
/-! DEFINITION. A profile's records (spec/17, R597 to R599): reading them, applying them on entry to SERVICE, and the
content check, which applies them to a device at its reset values and watches what a host write would refuse. -/
namespace Sys2Proof.Machine

/-! ## Records -/

/-- A record: payload offset, TAG, data. -/
abbrev ProfRec := Nat × Nat × List Byte

/-- The records of a payload from offset `o`; the offset of one that does not fit is the error (R597). -/
def profRecs : Nat → Nat → List Byte → Except Nat (List ProfRec)
  | 0, o, _ => .error o
  | fuel + 1, o, b =>
    if b.isEmpty then .ok []
    else
      let n := leAt b 2 2
      let size := 8 * ceilDiv (4 + n) 8
      if b.length < size then .error o
      else match profRecs fuel (o + size) (b.drop size) with
        | .ok l => .ok ((o, leAt b 0 2, (b.drop 4).take n) :: l)
        | .error e => .error e

/-- The data of the first record of a tag. -/
def recData (l : List ProfRec) (tag : Nat) : Option (List Byte) := (l.find? fun r => r.2.1 == tag).map (·.2.2)

/-- Entries of a LAYOUT record. -/
def layoutEntries (d : List Byte) : List PartEntry := (chunks 8 16 (d.drop 8)).map partEntryOf

/-- The layout without a profile: one shared-time partition without trace buffers and save region (R605). -/
def holdLayout : List Byte := [0#8, 1#8, 0#8, 0#8, 0#8, 0#8, 0#8, 0#8, 0#8, 0#8, 16#8, 0#8, 0#8, 0#8, 0#8, 0#8]

/-! ## Application -/

/-- The repair map of every grove from the NVM's current copy, or the factory map (R128, R152, R633). -/
def loadRepairMap (s : State) : State :=
  (List.range 16).foldl (fun a g => loadMap a g (match mapNow s.nvm with
    | some c => (c.bytes.drop (96 * g)).take 96
    | none => factoryBytes)) s

/-- LAYOUT: the sharing mode and the partitions, each SERVING (R409, R444). -/
def applyLayout (s : State) (d : List Byte) : State :=
  let s1 := (List.range 16).foldl (fun a g => ownGrove a g none) s
  let s2 := setF (setF s1 Reg.PRT_MODE_MODE (leAt d 0 1)) Reg.PRT_MODE_PARTS 0
  (layoutEntries d).foldl (fun a e =>
    setF (makePart a e.id e.first e.groves (e.groves * e.trace) e.save e.full) (Reg.PRT_PART_STATE_STATE e.id) 1) s2

/-- TENANTS: bindings, BGROUP and route bits; in shared-time mode every tenant is bound to partition 0 (R410, R597). -/
def applyTenants (s : State) (d : Option (List Byte)) : State :=
  (List.range 64).foldl (fun a t =>
    let b := (d.getD []).drop (4 * t)
    let p := if sharedMode a then 0 else if d.isSome then leAt b 0 1 else 0xFF
    let a1 := if p < 16 then bindTenant a t p (leAt b 1 1) else unbindTenant a t
    setBit a1 (Reg.HST_DB_ROUTE_PF_ROUTE (t / 32)) (t % 32) ((leAt b 2 1).testBit 0)) s

/-- SHELVES: the devices polled; each counts as reachable until a transaction fails (R538, R539). -/
def applyShelves (s : State) (d : Option (List Byte)) : State :=
  match d with
  | none => s
  | some b =>
    let s1 := (List.range (min 8 (leAt b 0 1))).foldl (fun a i =>
      setF (setF (setF a (Reg.PWR_SHELF_ADDR i) (leAt b (1 + i) 1)) (Reg.PWR_SHELF_VALID i) 1) (Reg.PWR_SHELF_REACHABLE i) 1) s
    { s1 with power := { s1.power with battCmd := leAt b 9 1, battMask := leAt b 10 2 } }

/-- RAMP_DOMAIN. -/
def applyRamp (s : State) (d : Option (List Byte)) : State :=
  match d with
  | none => s
  | some b =>
    let s1 := setF (setF (setF s Reg.PWR_DOM_DOM_EN 1) Reg.PWR_DOM_DOM_ID (leAt b 0 1)) Reg.PWR_STATE_DOMAIN 1
    setF (setF (setF s1 Reg.PWR_DOM_SLEW_DOM_UP (leAt b 2 2)) Reg.PWR_DOM_SLEW_DOM_DOWN (leAt b 4 2))
      Reg.PWR_DOM_MEMBERS_MEMBERS (leAt b 8 8)

/-- POWER. -/
def applyPower (s : State) (b : List Byte) : State :=
  let s1 := setF (setF (setF s Reg.PWR_CAP_CAP_MAX_W (leAt b 0 2)) Reg.PWR_THERM1_T_LIMIT (leAt b 2 1))
    Reg.PWR_THERM1_T_IN (leAt b 3 1)
  let s2 := setF (setF (setF s1 Reg.PWR_THERM1_RJC (leAt b 4 2)) Reg.PWR_THERM3_RCL (leAt b 6 2))
    Reg.PWR_THERM2_TAU_DIE_MS (leAt b 8 2)
  let s3 := setF (setF s2 Reg.PWR_THERM2_HORIZON_MS (leAt b 10 2)) Reg.PWR_THERM3_TAU_COOL_S (leAt b 12 2)
  (List.range 8).foldl (fun a w => setF a (Reg.PWR_COEF_E w) (leAt b (14 + 2 * w) 2)) s3

/-- Step 1 of R599. -/
def applyFirst (s : State) (l : List ProfRec) : State :=
  let s1 := applyTenants (applyLayout s ((recData l 1).getD holdLayout)) (recData l 2)
  applyPower (applyRamp (applyShelves s1 (recData l 5)) (recData l 6)) ((recData l 4).getD [])

/-- The (offset, value) pairs of a REGWRITE record. -/
def regPairs (d : List Byte) : List (Nat × Nat) := (chunks 8 d.length d).map fun b => (leAt b 0 4, leAt b 4 4)

/-- One REGWRITE pair, with the effect of a host write. -/
def applyPair (s : State) (e : Nat × Nat) : State := writeWord s e.1 (BitVec.ofNat 64 e.2) 0

/-- The CEZLINK record, applied in S5; without it NODE_ID 0, every port disabled, every route 15 (R523, R597). -/
def applyCezlink (s : State) (d : Option (List Byte)) : State :=
  let s0 := resetReg s Reg.CZL_NODE
  match d with
  | none => (List.range 12).foldl (fun a n => setF (setF a (Reg.CZL_PORT_CTL_DISABLE n) 1) (Reg.CZL_PORT_CTL_EXPECTED n) 0)
      ((List.range 64).foldl (fun a n => resetReg a (Reg.CZL_ROUTE n)) s0)
  | some b =>
    let s1 := setF (setF (setF s0 Reg.CZL_NODE_NODE_ID (leAt b 0 1)) Reg.CZL_NODE_MAX_HOPS (leAt b 1 1))
      Reg.CZL_NODE_STAMP_MS (leAt b 2 1)
    let s2 := (List.range 12).foldl (fun a n =>
      setF (setF a (Reg.CZL_PORT_CTL_EXPECTED n) (bits (leAt b 4 2) n 1)) (Reg.CZL_PORT_CTL_DISABLE n) (bits (leAt b 6 2) n 1)) s1
    (List.range 64).foldl (fun a n =>
      setF (setF a (Reg.CZL_ROUTE_PRIMARY n) (leAt b (8 + n) 1 % 16)) (Reg.CZL_ROUTE_ALTERNATE n) (leAt b (8 + n) 1 / 16)) s2

/-! ## Content check (R597, R598) -/

/-- LEN of a tag, given its data (Table 17.7). -/
def recLenOk (tag : Nat) (d : List Byte) : Bool :=
  if tag = 1 then decide (8 ≤ d.length) && d.length == 8 + 8 * leAt d 1 1
  else if tag = 2 then d.length == 256
  else if tag = 3 then decide (4 ≤ d.length) && d.length == 4 + 80 * leAt d 0 4
  else if tag = 4 then d.length == 30
  else if tag = 5 then d.length == 12
  else if tag = 6 then d.length == 16
  else if tag = 7 then d.length == 72
  else tag == 8 && d.length % 8 == 0

/-- LAYOUT's rules: the mode's own, Table 12.1 and R197. -/
def layoutRecOk (s : State) (d : List Byte) : Bool :=
  let es := layoutEntries d
  zeroAt d 2 6 && es.all (entryOk s) &&
    (if leAt d 0 1 = 0 then (match es with | [e] => e.id == 0 && e.first == 0 && e.groves == 16 | _ => false)
    else leAt d 0 1 == 1 && decide (2 ≤ es.length ∧ es.length ≤ 16) && allApart es)

/-- TENANTS' values. -/
def tenantsRecOk (shared : Bool) (ids : List Nat) (d : List Byte) : Bool :=
  (List.range 64).all fun t =>
    let p := leAt d (4 * t) 1
    (p == 0xFF || (if shared then p == 0 else ids.contains p)) && decide (leAt d (4 * t + 1) 1 ≤ 15) &&
      decide (leAt d (4 * t + 2) 1 ≤ 1) && leAt d (4 * t + 3) 1 == 0

/-- A route byte: ports 0 to 11, or 15 (Table 14.5). -/
def routeOk (x : Nat) : Bool :=
  let ok (p : Nat) : Bool := decide (p < 12) || p == 15
  ok (x % 16) && ok (x / 16)

/-- A record's own values; `node` is NODE_ID of the profile. -/
def recValuesOk (s : State) (shared : Bool) (ids : List Nat) (node : Nat) (r : ProfRec) : Bool :=
  let d := r.2.2
  let tag := r.2.1
  if tag = 1 then layoutRecOk s d
  else if tag = 2 then tenantsRecOk shared ids d
  else if tag = 3 then (match loadCosts [] (leAt d 0 4) (d.drop 4) with
    | .ok _ => decide (leAt d 0 4 ≤ 64)
    | .error _ => false)
  else if tag = 4 then decide (leAt d 0 2 ≤ 300) && decide (85 ≤ leAt d 2 1 ∧ leAt d 2 1 ≤ 105)
  else if tag = 5 then decide (leAt d 0 1 ≤ 8) && (List.range (leAt d 0 1)).all fun i => decide (leAt d (1 + i) 1 < 128)
  else if tag = 6 then
    zeroAt d 1 1 && zeroAt d 6 2 && decide (1 ≤ leAt d 2 2 ∧ leAt d 2 2 ≤ 6400 ∧ 1 ≤ leAt d 4 2 ∧ leAt d 4 2 ≤ 6400) &&
      (leAt d 8 8).testBit node && decide (2 ≤ ((List.range 64).filter (leAt d 8 8).testBit).length)
  else if tag = 7 then
    decide (leAt d 0 1 < 64 ∧ 1 ≤ leAt d 1 1 ∧ leAt d 1 1 ≤ 7) && zeroAt d 3 1 &&
      decide (leAt d 4 2 < 4096 ∧ leAt d 6 2 < 4096) && (List.range 64).all fun n => routeOk (leAt d (8 + n) 1)
  else true

/-- The registers a REGWRITE may name (Table 17.8), of copies that belong to partitions of the layout of `s`, to the
tenants bound to them and to their groves. -/
def regAllowed (s : State) (key : Nat) : Bool :=
  let adm (t : Nat) : List Nat := [Reg.ADM_TEN_CTL t, Reg.ADM_TEN_RATE t, Reg.ADM_TEN_BURST t, Reg.ADM_TEN_CONC t,
    Reg.ADM_TEN_KVQ t, Reg.ADM_TEN_QDEPTH t, Reg.ADM_TEN_FLOOR t]
  let own (p : Nat) : List Nat := [Reg.CMP_LANE_CTL p, Reg.CMP_PARK_LOW p, Reg.CMP_PARK_HIGH p, Reg.CMP_SWITCH_CTL p,
    Reg.PRT_PART_ACCT p, Reg.PRT_REG3_CTL p, Reg.PRT_REG3_BURST p] ++
    (List.range 3).flatMap fun k => [Reg.PRT_REG_CTL p k, Reg.PRT_REG_BURST p k]
  ((List.range 64).any fun t => (partOf s t).isSome && (adm t).contains key) ||
    ((partIds s).any fun p => (own p).contains key || (groveList s p).any fun g => key == Reg.MEM_L2_MASK g) ||
    [Reg.MEM_SCRUB_CTL, Reg.PWR_CAP, Reg.PWR_SLEW, Reg.PWR_LIMITS, Reg.PWR_BALLAST, Reg.PWR_DVFS, Reg.FLT_CTL].contains key

/-- A pair is allowed where it stands, and a host write of it would be refused nothing. -/
def regPairOk (s : State) (e : Nat × Nat) : Bool :=
  match regAt e.1 with
  | none => false
  | some (key, _) =>
    let s1 := applyPair s e
    e.1 % 4 == 0 && regAllowed s key && !isSet s1 Reg.HST_ERR_STATUS_BAD_VALUE && !isSet s1 Reg.HST_ERR_STATUS_RSV_NONZERO &&
      !isSet s1 Reg.HST_ERR_STATUS_UNMAPPED && !isSet s1 Reg.PRT_STATUS_OPEN_HELD

/-- The REGWRITEs in order from `s`: the offset of the record that fails. -/
def regWritesFail : List ProfRec → State → Option Nat
  | [], _ => none
  | r :: rs, s =>
    if r.2.1 ≠ 8 then regWritesFail rs s
    else
      let go := (regPairs r.2.2).foldl (fun (a : State × Bool) e => (applyPair a.1 e, a.2 && regPairOk a.1 e)) (s, true)
      if go.2 then regWritesFail rs go.1 else some r.1

/-- A device at its reset values in which every domain runs, with this device's repair map. -/
def scratch (s : State) : State :=
  setF (loadRepairMap { State.reset with nvm := s.nvm }) Reg.HST_CLK_STATUS_LOCK 0x1FF

/-- A tag that may appear once appears again before `r`. -/
def repeated (l : List ProfRec) (r : ProfRec) : Bool :=
  r.2.1 != 8 && l.any fun q => q.2.1 == r.2.1 && decide (q.1 < r.1)

/-- R597: the payload offset of the record that fails; a missing record fails at the payload's end. -/
def profileFail (s : State) (payload : List Byte) : Option Nat :=
  match profRecs (payload.length + 1) 0 payload with
  | .error o => some o
  | .ok l =>
    let lay := (recData l 1).getD []
    let shared := leAt lay 0 1 == 0
    let ids := (layoutEntries lay).map (·.id)
    let node := match recData l 7 with | some d => leAt d 0 1 | none => 0
    match l.find? fun r => decide (r.2.1 = 0 ∨ 8 < r.2.1) || repeated l r || !recLenOk r.2.1 r.2.2 ||
        !recValuesOk (scratch s) shared ids node r with
    | some r => some r.1
    | none =>
      if (recData l 1).isNone || (recData l 4).isNone then some payload.length
      else
        let s1 := applyFirst (scratch s) l
        match regWritesFail l s1 with
        | some o => some o
        | none =>
          let s2 := (l.filter fun r => r.2.1 == 8).foldl (fun a r => (regPairs r.2.2).foldl applyPair a) s1
          if getF s2 Reg.PWR_CAP_CAP_MAX_W < getF s2 Reg.PWR_CAP_CAP_W then
            (l.find? fun r => r.2.1 == 4).map (·.1)
          else none

/-- The records of a region that has passed its check. -/
def regionRecs (r : Region) : List ProfRec :=
  match profRecs (r.payload.length + 1) 0 r.payload with
  | .ok l => l
  | .error _ => []

/-- The active profile is applied on entry to SERVICE (R599, R309): the records, the REGWRITEs in order, the cost table,
and every tenant's level at its BURST. -/
def applyProfile (s : State) (l : List ProfRec) : State :=
  let s1 := (l.filter fun r => r.2.1 == 8).foldl (fun a r => (regPairs r.2.2).foldl applyPair a) (applyFirst s l)
  let s2 := { s1 with
    costs := match recData l 3 with
      | some d => (match loadCosts [] (leAt d 0 4) (d.drop 4) with | .ok c => c | .error _ => [])
      | none => [] }
  (List.range 64).foldl (fun a t => setLevel a t (getF a (Reg.ADM_TEN_BURST_BURST t))) s2

end Sys2Proof.Machine
end

