-- ==== Sys2Proof/Machine/Boot.lean ====
section
/-! DEFINITION. Power-up, the boot stages, warm chip resets, HOLD, the reset inputs and the button (spec/21; spec/13, R459
to R465, R468; spec/02, R84, R85; spec/06, R231 to R233; spec/22, R735, R736). -/
namespace Sys2Proof.Machine

/-! ## Cold reset -/

/-- The device is held in cold reset: POR_N low, VAON below valid, or an undervoltage (R463, R695, R735). -/
def heldCold (s : State) : Bool := s.boot.por || s.boot.vaonLost || s.boot.underV

/-- THERMTRIP_N is asserted (R468). -/
def tripped (s : State) : Bool := isSet s Reg.HST_STATUS_THERMTRIP

/-- Everything but the NVM, the attached flash, what has left the device and the level of PERST_N is as at POR_N (R460);
FAULT_N and THERMTRIP_N are released, SPI_RST_N is low and VID drives the boot code (R725, R736). -/
def coldReset (s : State) : State :=
  let s0 := spoilSlot s
  let s1 := if faultnOn s0 then drive s0 (.pin .faultN true) else s0
  let s2 := if tripped s1 then drive s1 (.pin .thermtripN true) else s1
  let s3 := if s2.boot.spiAt.isSome then drive s2 (.pin .spiRstN false) else s2
  let s4 := if getF s3 Reg.HST_STRAPS_VID = 21 then s3 else drive s3 (.vid 21)
  { State.reset with
    pending := s4.pending, out := s4.out, free := s4.free, nvm := s4.nvm, flash := s4.flash, spoiled := s4.spoiled, tap := s4.tap
    boot := { Boot.held with perst := s4.boot.perst, por := s4.boot.por, vaonLost := s4.boot.vaonLost,
                             underV := s4.boot.underV } }

/-- POR_ASSERT (R463). -/
def execPorAssert (s : State) : Host.Outcome State Fault Refusal :=
  if pinsHeld s then .next s else .next (coldReset { s with boot := { s.boot with por := true } })

/-- The button's stuck state: BTN_STUCK, the cause of FAULT_N, fault 0x1F (Table 13.8). -/
def stickButton (s : State) (st : Nat) : State :=
  let s1 := setF (setF s Reg.FLT_BTN_STATE st) Reg.FLT_BTN_LEVEL 0
  recordFault (setCause (raise s1 Reg.FLT_STATUS_BTN_STUCK) 2) 0x1F 1 true false nobody nobody 0

/-- S0 begins: straps are latched and device time starts at 0 (R594, R696, R723); a button that is low is ignored until it
has been high (Table 13.8). -/
def startBoot (s : State) (profsel smbAddr : Nat) (btnLow : Bool) : State :=
  let s1 := setF (setF (setF s Reg.HST_STRAPS_PROFSEL profsel) Reg.HST_STRAPS_SMB_ADDR smbAddr) Reg.HST_STRAPS_SMB_ADDR7
    (0x60 + smbAddr % 4)
  let s2 := bootStage s1 0
  if btnLow then stickButton s2 3 else setF s2 Reg.FLT_BTN_LEVEL 1

/-- POR_DEASSERT (R696): S0 starts, unless an undervoltage still holds the device. -/
def execPorDeassert (profsel smbAddr : Nat) (btnLow : Bool) (s : State) : Host.Outcome State Fault Refusal :=
  if pinsHeld s || !s.boot.por then .next s
  else
    let s1 := { s with boot := { s.boot with por := false, vaonLost := false } }
    .next (if s1.boot.underV then s1 else startBoot s1 profsel smbAddr btnLow)

/-- UNDERVOLTAGE (R735): as an assertion of POR_N. -/
def execUndervoltage (s : State) : Host.Outcome State Fault Refusal :=
  .next (coldReset { s with boot := { s.boot with underV := true } })

/-- UNDERVOLTAGE_END (R735): a cold boot, unless POR_N is low. -/
def execUndervoltageEnd (profsel smbAddr : Nat) (btnLow : Bool) (s : State) : Host.Outcome State Fault Refusal :=
  if !s.boot.underV then .next s
  else
    let s1 := { s with boot := { s.boot with underV := false } }
    .next (if s1.boot.por || s1.boot.vaonLost then s1 else startBoot s1 profsel smbAddr btnLow)

/-- A sector may be under erase: it belongs to no current copy (R611). -/
def staleSector (s : State) (k : Nat) : Bool :=
  let other (a b : Nat) : Bool := headerSeq s.nvm a < headerSeq s.nvm b
  if 16 ≤ k ∧ k < 48 then bankActive s != some (k / 16 - 1)
  else if k = 48 then other 48 49
  else if k = 49 then other 49 48
  else if k < 54 then other 50 54
  else if k < 58 then other 54 50
  else if k < 60 then other 58 60
  else other 60 58

/-- An erase that power loss interrupts: the intent record stands, the header is not valid (R620, R621). -/
def tearSector (s : State) (k : Nat) : State :=
  if 16 ≤ k ∧ k < 62 ∧ staleSector s k = true then
    let a := eraseSector s k
    { a with nvm := { a.nvm with headers := a.nvm.headers.filter fun e => e.1 != k } }
  else s

/-- VAON_LOSS (R695). -/
def execVaonLoss (torn : List Nat) (s : State) : Host.Outcome State Fault Refusal :=
  let s1 := torn.foldl tearSector s
  .next (coldReset { s1 with boot := { s1.boot with vaonLost := true } })

/-! ## Clocks and firmware -/

/-- The domains of these LOCK bits run, or stop. -/
def setLocks (s : State) (ks : List Nat) (on : Bool) : State := ks.foldl (fun a k => setBit a Reg.HST_CLK_STATUS_LOCK k on) s

/-- Firmware that runs: component, release and content (Table 16.5). -/
def setLoaded (s : State) (k rel : Nat) (b : List Byte) : State :=
  { s with loaded := spPut (fun _ => (0, [])) k (rel, b) s.loaded }
def loadedAt (s : State) (k : Nat) : Nat × List Byte := spGet (fun _ => (0, [])) s.loaded k

/-- RELEASE and content of component `i` of the running slot: 0 Heartwood, 1 grove microcode, 2 lane microcode, 3 sampler
tables (R589). -/
def slotComp (s : State) (i : Nat) : Nat × List Byte :=
  match s.img.slot with
  | some r => ((component r.payload i).2.2.2, componentBytes r.payload i)
  | none => (0, [])

/-- A grove loads the running slot's microcode (R657). -/
def loadGroveUcode (s : State) (g : Nat) : State :=
  let c := slotComp s 1
  setLoaded (wr s (Reg.GRV_UCODE_VER g) (BitVec.ofNat 64 c.1)) g c.1 c.2

/-- A composer lane loads the running slot's microcode. -/
def loadLaneUcode (s : State) (p : Nat) : State := let c := slotComp s 2; setLoaded s (16 + p) c.1 c.2

/-- The sampler loads its tables (R377). -/
def loadTables (s : State) : State :=
  let c := slotComp s 3
  setLoaded (wr s Reg.SMP_TABLE_VER (BitVec.ofNat 64 c.1)) 32 c.1 c.2

/-- S4 begins: CCLK at step 0, MCLK, QCLK and LCLK lock, VID moves to code 5, the groves load their maps, microcode and
tables are loaded (Table 21.2, R152, R377, R589, R736). Without a slot, nothing is loaded. A device that failed its training
holds in S4 (R231). -/
def startS4 (s : State) (trained : Bool) : State :=
  let s1 := setVid (setF (setF (setLocks s [0, 2, 4, 5] true) Reg.HST_CLK_FREQ_CCLK_MHZ 800) Reg.PWR_STATE_STEP 0) 5
  let s2 := (List.range 16).foldl loadGroveUcode (loadRepairMap s1)
  let s3 := loadTables ((List.range 16).foldl loadLaneUcode s2)
  let ok := trained && getF s Reg.MEM_CH_STATUS_TRAIN_FAIL == 0
  bootStage { s3 with boot := { s3.boot with trained := ok, tested := false, settled := false } } 4

/-! ## S0 and S1 -/

/-- SPI_RST_N is driven high at the entry to S1 (R725). -/
def releaseFlash (s : State) : State :=
  if s.boot.spiAt.isSome then s
  else drive { s with boot := { s.boot with spiAt := some s.aTime } } (.pin .spiRstN true)

/-- TCLK_LOCK (R85, Table 02.8): S0 ends; FCLK locks, and PCLK with PERST_N deasserted. -/
def execTclkLock (s : State) : Host.Outcome State Fault Refusal :=
  if heldCold s || tripped s || stage s != 0 || (getF s Reg.HST_CLK_STATUS_LOCK).testBit 7 then .next s
  else
    let s1 := setLocks s ([7, 6, 1] ++ if s.boot.perst then [] else [3]) true
    .next (bootStage (releaseFlash { s1 with boot := { s1.boot with tclkOnce := true } }) 1)

/-- The root loader's bytes; as delivered until an update has written it. -/
def rootBytes (s : State) : List Byte := s.nvm.root.getD Config.factoryRoot

/-- The boot ROM's checks of the root loader (R710). As delivered it passes them. -/
def rootPasses (s : State) (x : RegionRead) : Bool :=
  x != .headerBad && x != .payloadBad && match s.nvm.root with
    | none => true
    | some b =>
      let r := regionOf b
      let c := crcCode .rootLoader r x
      c.1 == 0 && c.2 == 0 && signatureOk s r

/-- Heartwood is held in reset after a lasting failure: only a cold reset restores it (R82, R83). -/
def heldForGood (s : State) : Bool := getF s Reg.HST_STATUS_HWD_STATE == 2

/-- Heartwood stops for a restart of the boot at S1; one held for good stays so (R83). -/
def stopHeartwood (s : State) : State :=
  setF (if heldForGood s then s else setF s Reg.HST_STATUS_HWD_STATE 3) Reg.MGT_MBX_STATUS_READY 0

/-- ROOT_LOADER_CHECK (R710): the root loader starts, or the device stays in S1 for good. -/
def execRootLoaderCheck (x : RegionRead) (s : State) : Host.Outcome State Fault Refusal :=
  if stage s ≠ 1 ∨ s.boot.rootOk = true ∨ s.boot.stopped = true ∨ chipFaulted s = true ∨ heldForGood s = true then .next s
  else if rootPasses s x then
    let s1 := if x = .retried then retryFault s false else s
    let b := rootBytes s1
    let s2 := setLoaded (setF s1 Reg.HST_STATUS_HWD_STATE 0) 34 (leAt b 0x14 4) b
    .next { s2 with boot := { s2.boot with rootOk := true }, hwd := { s2.hwd with kickAt := s2.aTime } }
  else
    let s1 := if x = .clean ∨ x = .retried then s else retryFault s true
    .next { s1 with boot := { s1.boot with stopped := true } }

/-- The device enters HOLD with a cause (R604, R707). -/
def enterHold (s : State) (code : Nat) (recovery : Bool) : State :=
  let s1 := setF (setF (setF s Reg.CFG_STATUS_CAUSE code) Reg.CFG_STATUS_RECOVERY (if recovery then 1 else 0))
    Reg.CFG_STATUS_SOURCE 2
  bootDone (setReady s1) 7

/-- SPI_RST_N has been high for 100 µs, so that the first command may go to the flash (R725). -/
def flashReady (s : State) : Bool :=
  match s.boot.spiAt with
  | some t => decide (t + 50000 ≤ s.aTime)
  | none => false

/-- FLASH_MODE_SELECT (R585, R725): the mode and S2, or recovery HOLD. -/
def execFlashModeSelect (x : Option Sfdp) (s : State) : Host.Outcome State Fault Refusal :=
  if stage s ≠ 1 ∨ s.boot.rootOk = false ∨ chipFaulted s = true ∨ hwdRuns s = false ∨ flashReady s = false then .next s
  else
    let s1 := setF (flashCmd s) Reg.CFG_STATUS_PINS (getF s Reg.HST_STRAPS_PROFSEL)
    match x with
    | none => .next (enterHold s1 0x080C true)
    | some f =>
      if !f.fit ∨ f.densityMbit < 512 ∨ 2048 < f.densityMbit then .next (enterHold s1 0x080C true)
      else
        let m := match f.octalMhz with | some h => (3, min 200 h) | none => (2, min 133 f.quadMhz)
        let s2 := setF (setF (setF s1 Reg.CFG_FLASH_DENSITY_MBIT f.densityMbit) Reg.CFG_FLASH_MODE m.1) Reg.CFG_FLASH_MHZ m.2
        .next (bootStage s2 2)

/-! ## S3 (R593 to R596, R665) -/

/-- A fall-back of the trial (R655): SLOT_STATE FAILED with its code, FALLBACK. -/
def failTrial (s : State) (code : Nat) : State :=
  raise (putSlotSt s { slotSt s with tstate := 3, fail := code }) Reg.MGT_UPD_STATUS_FALLBACK

/-- The slot this boot starts (R665); a STARTED trial falls back at a cold reset (R656). -/
def bootSlot (s : State) : Nat × State :=
  let x := slotSt s
  if x.tstate = 1 then (x.trial, s)
  else if x.tstate = 2 then (if s.boot.warm.isNone then (x.active, failTrial s 3) else (x.trial, s))
  else (x.active, s)

/-- The slot must be read (R596, R649, R655). -/
def slotNeed (s : State) : Bool :=
  s.img.slot.isNone || s.img.slotBad || decide ((bootSlot s).1 ≠ getF s Reg.MGT_STATUS_SLOT)

/-- The profile must be read (R596). -/
def profileNeed (s : State) : Bool :=
  match profileChoice s with
  | none => false
  | some n => s.img.profile.isNone || s.img.profileBad || getF s Reg.CFG_STATUS_SOURCE != 0 ||
      decide (getF s Reg.MGT_STATUS_PROFILE ≠ n)

/-- How the reads of region `k` went. -/
def readOf (reads : List (Nat × RegionRead)) (k : Nat) : RegionRead :=
  match reads.find? fun e => e.1 == k with
  | some e => e.2
  | none => .clean

/-- Check the directory copy at `off`: its entries when it passes. -/
def checkDir (s : State) (off : Nat) (x : RegionRead) : State × Option (List (Nat × Nat × Bool)) :=
  let r := flashRegion s off 65536
  let code := regionCode s .directory r 65536 x
  (regionReads s code x, if code = 0 then some (dirOf r.payload) else none)

/-- Check slot or profile `n` of the directory (0 and 1 slots, 2 to 5 profiles): its code, region and, for a profile, its
content; CFG_RESULT_n takes the code. An entry that is not PRESENT fails: a profile's as ABSENT, a slot's as it has no
extent. -/
def checkEntry (s : State) (n : Nat) (x : RegionRead) : State × Nat × Region :=
  let e := (s.img.dir[n]?).getD (0, 0, false)
  let k := if n < 2 then RegKind.slot else .profile
  let r := flashRegion s e.1 e.2.1
  let base := if !e.2.2 then (if n < 2 then 0x0805 else 0x0802)
    else slotCode s e.1 e.2.1 (regionCode s k r e.2.1 x)
  let bad := if base = 0 ∧ 2 ≤ n then profileFail s r.payload else none
  let code := if bad.isSome then 0x0808 else base
  let s1 := if e.2.2 then regionReads s code x else s
  let s2 := setF (setF s1 (Reg.CFG_RESULT_CODE n) code) (Reg.CFG_RESULT_CHECKED n) 1
  (match bad with | some o => setF s2 Reg.CFG_DETAIL_OFFSET o | none => s2, code, r)

/-- The firmware slot of S3: the one chosen, and when it fails the previous slot (a trial) or the other (R593, R665). The
region is none when both fail. -/
def checkSlots (s : State) (reads : List (Nat × RegionRead)) : State × Option (Nat × Region) :=
  let b := bootSlot s
  let c := checkEntry b.2 b.1 (readOf reads (2 + b.1))
  if c.2.1 = 0 then (setF c.1 Reg.CFG_FLASH_SLOT_FALLBACK 0, some (b.1, c.2.2))
  else
    let x := slotSt c.1
    let s1 := if trialOn x && x.trial == b.1 then failTrial c.1 4 else c.1
    let m := if trialOn x && x.trial == b.1 && x.active != b.1 then x.active else 1 - b.1
    let d := checkEntry s1 m (readOf reads (2 + m))
    if d.2.1 = 0 then (setF d.1 Reg.CFG_FLASH_SLOT_FALLBACK 1, some (m, d.2.2)) else (d.1, none)

/-- A slot's payload enters the image store; another slot's Heartwood than the running one takes over (R651, R705). -/
def storeSlot (s : State) (m : Nat) (r : Region) : State :=
  let other := decide (getF s Reg.MGT_STATUS_SLOT ≠ m) || (loadedAt s 33).2.isEmpty
  let s1 := setF { s with img := { s.img with slot := some r, slotBad := false } } Reg.MGT_STATUS_SLOT m
  if other then setF { s1 with hwd := { s1.hwd with handoff := some (m, r) } } Reg.MGT_MBX_STATUS_READY 0 else s1

/-- The pending selection is used (R595). -/
def usePending (s : State) : State := setF (setF s Reg.CFG_STATUS_PENDING_VALID 0) Reg.CFG_STATUS_PENDING 0

/-- The profile of S3: read and checked when it must be, else from the image store. A failure is the cause of HOLD, with no
active profile; MGT_STATUS names the one that failed (worked case 17.1). -/
def checkProfile (s : State) (reads : List (Nat × RegionRead)) : State :=
  let pick (a : State) (v : Bool) (n : Nat) (r : Option Region) : State :=
    usePending { a with img := { a.img with chosen := r.map fun x => (v, n, x), profileBad := false } }
  match profileChoice s with
  | none => pick s true 0 s.img.volatile
  | some n =>
    if profileNeed s then
      let c := checkEntry s (2 + n) (readOf reads (4 + n))
      if c.2.1 = 0 then pick c.1 false n (some c.2.2)
      else setF (setF (setF (pick c.1 false n none) Reg.CFG_STATUS_CAUSE c.2.1) Reg.CFG_STATUS_SOURCE 2) Reg.MGT_STATUS_PROFILE n
    else pick s false n s.img.profile

/-- The boot stages go on: Heartwood, in whose path they lie, runs (R73, Table 02.6), and the warm reset's first three
steps are over, or none is under way. -/
def bootRuns (s : State) : Bool := (s.boot.warm.isNone || s.boot.restored) && !chipFaulted s && hwdRuns s

/-- IMAGE_CHECK (R593, R596): S3 whole. A warm boot reads only what it must. -/
def execImageCheck (reads : List (Nat × RegionRead)) (s : State) : Host.Outcome State Fault Refusal :=
  if stage s ≠ 3 ∨ bootRuns s = false then .next s
  else
    let trained := s.boot.warm.isSome && getF s Reg.MEM_CH_STATUS_TRAINED != 0
    let s0 := setF (setF (setF s Reg.CFG_STATUS_CAUSE 0) Reg.CFG_STATUS_RECOVERY 0) Reg.CFG_DETAIL_OFFSET 0
    let a := checkDir s0 0 (readOf reads 0)
    let d := match a.2 with
      | some es => (setF a.1 Reg.CFG_FLASH_MIRROR_USED 0, some es)
      | none =>
        let b := checkDir a.1 0x10000 (readOf reads 1)
        (setF b.1 Reg.CFG_FLASH_MIRROR_USED 1, b.2)
    match d.2 with
    | none => .next (enterHold d.1 0x0809 true)
    | some es =>
      let s1 := { d.1 with img := { d.1.img with dir := es } }
      if slotNeed s1 then
        let c := checkSlots s1 reads
        match c.2 with
        | none => .next (enterHold c.1 0x080A true)
        | some (m, r) => .next (startS4 (checkProfile (storeSlot c.1 m r) reads) trained)
      else .next (startS4 (checkProfile s1 reads) trained)

/-! ## Hand-offs of Heartwood (R651, R653, R705) -/

/-- The Heartwood firmware of slot `m` takes over: the image store, HST_FW_VER, migration, READY, and the start of its
trial. -/
def takeOver (s : State) (m : Nat) (r : Region) (conv : List SetRec) : State :=
  let rel := (component r.payload 0).2.2.2
  let from_ := runningRel s
  let s1 := setF { s with img := { s.img with slot := some r, slotBad := false } } Reg.MGT_STATUS_SLOT m
  let s2 := setLoaded (wr s1 Reg.HST_FW_VER (BitVec.ofNat 64 rel)) 33 rel (componentBytes r.payload 0)
  let s3 := migrate s2 conv from_ rel
  let s4 := { s3 with hwd := { s3.hwd with handoff := none, kickAt := s3.aTime } }
  let x := slotSt s4
  let s5 := if x.tstate = 1 ∧ x.trial = m then
      raise (putSlotSt s4 { x with tstate := 2, start := s4.sTime }) Reg.MGT_UPD_STATUS_TRIAL_STARTED
    else s4
  settle (setReady s5)

/-- BOOT_HANDOFF (R705, R122): the root loader hands over to the slot's first Heartwood. -/
def execBootHandoff (conv : List SetRec) (s : State) : Host.Outcome State Fault Refusal :=
  match s.hwd.handoff with
  | some (m, r) =>
    if (loadedAt s 33).2.isEmpty ∧ hwdRuns s = true then
      .next (takeOver (wr s Reg.HST_RL_VER (BitVec.ofNat 64 (leAt (rootBytes s) 0x14 4))) m r conv)
    else .next s
  | none => .next s

/-! ## S4 and S5 -/

/-- CHANNEL_TRAINING_DONE (R231, R449): `first` failed once, `second` failed again as well. -/
def execChannelTrainingDone (first second : Nat) (s : State) : Host.Outcome State Fault Refusal :=
  if stage s ≠ 4 ∨ s.boot.trained = true ∨ bootRuns s = false ∨ getF s Reg.MEM_CH_STATUS_TRAIN_FAIL ≠ 0 then .next s
  else
    let fs := (List.range 32).filter first.testBit
    let bad := fs.filter second.testBit
    let good := (List.range 32).filter fun c => !bad.contains c
    let s1 := good.foldl (fun a c => setBit a Reg.MEM_CH_STATUS_TRAINED c true) s
    let s2 := if fs.isEmpty then s1 else setF s1 Reg.MGT_BOOT_INFO_TRAIN_RETRY 1
    let s3 := (fs.filter fun c => !bad.contains c).foldl (fun a _ => recordFault a 0x19 1 false false nobody nobody 0) s2
    if bad.isEmpty then .next { s3 with boot := { s3.boot with trained := true } }
    else
      let s4 := bad.foldl (fun a c => setBit a Reg.MEM_CH_STATUS_TRAIN_FAIL c true) s3
      let s5 := stopChip (setCause (recordFault s4 0x19 4 true false nobody nobody 0) 3) 0x19
      .next { s5 with boot := { s5.boot with f4At := none, stopped := false } }

/-- A physical cluster fails the self-test (R153): a spare is never mapped, a mapped cluster is retired. -/
def failCluster (s : State) (e : Nat × Nat) : State :=
  let g := e.1
  match (List.range 80).find? fun l => !clusterAbsent s g l && mapEntry s g l % 128 == e.2 with
  | some l => retireCluster s g l
  | none => showGrove (setF s ⟨Reg.GRV_RETIRED g (e.2 / 32), e.2 % 32, 1⟩ 1) g

/-- Failing clusters: spares first, so that no failing spare is mapped, then mapped ones in the operand's order, in which they
take the spares of their grove. Each counts as fault 0x1C, class F0, and in the lifetime counters; one already marked retired
changes nothing and is not counted (both DESIGN CHOICE, notes/assumptions/73.md). -/
def failClusters (s : State) (fails : List (Nat × Nat)) : State :=
  let fs := (fails.filter fun e => e.1 < 16 && e.2 < 84 && !physRetired s e.1 e.2).eraseDups
  let mapped (e : Nat × Nat) : Bool := (List.range 80).any fun l => !clusterAbsent s e.1 l && mapEntry s e.1 l % 128 == e.2
  let s1 := ((fs.filter fun e => !mapped e) ++ fs.filter mapped).foldl
    (fun a e => recordFault (failCluster a e) 0x1C 0 false false nobody nobody 0) s
  let s2 := { s1 with set := { s1.set with life := { s1.set.life with selfTest := s1.set.life.selfTest + fs.length } } }
  if fs.isEmpty then s2 else storeMap s2

/-- GROVE_SELF_TEST (R152, R153). -/
def execGroveSelfTest (fails : List (Nat × Nat)) (s : State) : Host.Outcome State Fault Refusal :=
  if stage s ≠ 4 ∨ s.boot.tested = true ∨ bootRuns s = false then .next s
  else
    let s1 := failClusters s fails
    .next { s1 with boot := { s1.boot with tested := true } }

/-- The records of the profile that the boot has chosen; none in a boot that ends in HOLD. -/
def chosenRecs (s : State) : List ProfRec :=
  match s.img.chosen with
  | some (_, _, r) => regionRecs r
  | none => []

/-- LAYOUT_COMPLETE (R232, R233, R605): DRAM is zero and the regions are laid out; S5 starts and loads the CZL settings,
and every enabled port trains (R523). PRT shows nothing before SERVICE (R444). -/
def execLayoutComplete (s : State) : Host.Outcome State Fault Refusal :=
  if stage s ≠ 4 ∨ s.boot.trained = false ∨ s.boot.tested = false ∨ s.hwd.handoff.isSome = true ∨ bootRuns s = false then
    .next s
  else
    let l := chosenRecs s
    let s0 := { s with dram := [], ecc := [], l2 := [], scrub := { next := 0, since := s.mTime } }
    let s1 := applyLayout s0 ((recData l 1).getD holdLayout)
    let s2 := bootStage (resetRegs s1 fun k => k / 0x100000 == 9) 5
    let s3 := if s2.img.chosen.isSome then applyCezlink s2 (recData l 7) else s2
    .next ((List.range 12).foldl startTrain s3)

/-- CEZLINK_PORTS_SETTLED (R523): S5 ends; after a profile failure the device is in HOLD (R707). -/
def execCezlinkPortsSettled (s : State) : Host.Outcome State Fault Refusal :=
  if stage s ≠ 5 ∨ s.boot.settled = true ∨ bootRuns s = false ∨ (List.range 12).any (portTraining s) = true then .next s
  else if s.img.chosen.isNone then .next (enterHold s (getF s Reg.CFG_STATUS_CAUSE) false)
  else .next { s with boot := { s.boot with settled := true } }

/-- What the always-on domain samples and polls, kept where the Planisher starts anew. -/
def keepSampled (p q : Power) : Power :=
  { q with
    sensors := p.sensors, bbuLow := p.bbuLow, coolLow := p.coolLow, monStale := p.monStale, calmAt := p.calmAt
    battAt := p.battAt, polledAt := p.polledAt, polls := p.polls }

/-- The Planisher at SERVICE entry (R554): P_tgt from P_meas, g 1.0, T_c at T_IN; the bounds until the first period begins
follow from that P_tgt (notes/assumptions). -/
def startPlanisher (s : State) : State :=
  let p := s.power
  let tin := getF s Reg.PWR_THERM1_T_IN
  let q : Power := { Power.idle with
    tC := tin * 2 ^ 32, battCmd := p.battCmd, battMask := p.battMask, kNow := limitInForce s
    contacted := p.contacted, tried := p.tried, period := s.qTime / 50000, accAt := s.qTime }
  let s1 := setF (setF { s with power := keepSampled p q } Reg.PWR_GAIN_GAIN 1024) Reg.PWR_THERM_T_C (8 * tin)
  let tgt := getF s1 Reg.PWR_MEAS_MW
  let s2 := setBounds (setF s1 Reg.PWR_TARGET_MW tgt) tgt (upLocal s1) (downLocal s1)
  let s3 := if p.bbuLow || shelfBatt s2 then beginBattery s2 else s2
  showPower s3

/-- SERVICE_ENTRY (R706): the profile with layout and bindings, the Planisher, STAGE 6, intake, the waiting commands. Memory
was zeroed in S4 (R232) and keeps what it holds since. -/
def execServiceEntry (s : State) : Host.Outcome State Fault Refusal :=
  match s.img.chosen with
  | none => .next s
  | some (v, n, r) =>
    if stage s ≠ 5 ∨ s.boot.settled = false ∨ bootRuns s = false then .next s
    else
      let s0 := applyProfile s (regionRecs r)
      let s1 := { s0 with dram := s.dram, ecc := s.ecc, l2 := s.l2 }
      let s2 := setF (setF s1 Reg.CFG_STATUS_SOURCE (if v then 1 else 0)) Reg.MGT_STATUS_PROFILE (if v then 0 else n)
      let lanes := (List.range 16).flatMap fun p => [Reg.CMP_LANE_CTL p, Reg.CMP_PARK_LOW p, Reg.CMP_PARK_HIGH p, Reg.CMP_SWITCH_CTL p]
      let s3 := { s2 with
        img := { s2.img with profile := if v then s2.img.profile else some r }
        laneInit := lanes.map fun k => (k, rd s2 k)
        refills := s2.qTime / 500000
        regRefills := s2.qTime / 500 }
      .next (startPlanisher (bootDone { s3 with set := { s3.set with snapAt := s3.sTime } } 6))

/-! ## Warm chip reset (R702) -/

/-- A warm chip reset is due by cause `k`; one under way restarts (Table 13.12). -/
def warmDue (s : State) (k : Nat) : State :=
  { s with boot := { s.boot with warm := some k, begun := false, restored := false } }

/-- Registers of a warm chip reset (Table 03.3). What shows a standing fact (locks, link, owner of a function's VFs) keeps
showing it. -/
def warmKept (k : Nat) : Bool :=
  let b := k / 0x100000
  b == 1 || b == 2 || b == 3 || (b == 14 && k != Reg.FLT_STATUS + 4) ||
    [Reg.HST_DEVTIME, Reg.HST_FW_VER, Reg.HST_RL_VER, Reg.HST_STATUS, Reg.HST_STRAPS, Reg.HST_CLK_STATUS, Reg.HST_PCIE_LINK,
      Reg.MEM_CH_STATUS].contains k

/-- FLT fields that are not sticky return to 0; QUEUED shows the queue (Table 03.3). -/
def warmFlt (s : State) : State :=
  let s1 := wr s Reg.FLT_STATUS (rd s Reg.FLT_STATUS &&& 0x64#64)
  setF (setF s1 Reg.FLT_STATE_CHIP_FAULTED 0) Reg.FLT_STATE_PARTS_RESETTING 0

/-- Step 3 of R702: CCLK, MCLK, QCLK and LCLK stop and the blocks are restored. Heartwood, the settings, the fault log and
the image store survive (R460). -/
def warmRestore (s : State) : State :=
  let s1 := warmFlt (resetRegs s fun k => !warmKept k)
  let s2 := setF (setLocks (wr s1 Reg.HST_CLK_STATUS (rd s1 Reg.HST_CLK_STATUS &&& 0x1FF#64)) [0, 2, 4, 5] false)
    Reg.HST_CLK_FREQ_CCLK_MHZ 0
  let p := s.power
  setVid { s2 with
    reqs := [], gens := [], dedup := [], sqs := [], cqs := [], admQ := [], cohorts := [], nextCohort := 0, costs := []
    lanes := [], ctxs := [], slots := [], slotGens := [], pages := [], tens := [], parts := [], held := [], trace := []
    assaySeen := [], groups := [], ports := [], reasm := [], fwd := [], laneInit := [], l2 := [], clusters := [], sram := []
    retiredFull := [], arb := State.reset.arb, scan := State.reset.scan, cancels := []
    power := keepSampled p Power.idle } 21

/-- WARM_CHIP_RESET (R702 step 1): intake and steps stop, groups are left, sessions and staging end, the snapshot of R632,
and MGT_BOOT_INFO for this boot. Recovery HOLD restarts at S1 (Table 17.10). -/
def execWarmChipReset (s : State) : Host.Outcome State Fault Refusal :=
  match s.boot.warm with
  | none => .next s
  | some k =>
    if s.boot.begun || heldCold s || tripped s then .next s
    else
      let hold := stage s == 7
      let recovery := hold && isSet s Reg.CFG_STATUS_RECOVERY
      let s1 := (List.range 16).foldl (fun a p => dropSteps a p fun _ => true) (leaveGroups s)
      let s2 := { closeUpdate s1 with
        img := { s1.img with
          staging := none, slot := if hold then none else s1.img.slot, profile := if hold then none else s1.img.profile }
        set := { s1.set with life := { s1.set.life with warm := s1.set.life.warm + 1 } }
        power := { s1.power with rundown := stage s == 6 } }
      let s3 := if hwdRuns s2 && !recovery then snapshot s2 else s2
      let s4 := match runnable s3 with
        | some c => if c.started then respond s3 c 0x0703 [] else s3
        | none => s3
      let flash := !recovery && (slotNeed s4 || profileNeed s4)
      let s5 := bump (setF (setF (setF s4 Reg.MGT_BOOT_INFO_KIND (min k 5)) Reg.MGT_BOOT_INFO_FLASH_READ
        (if flash || recovery then 1 else 0)) Reg.MGT_STATUS_STAGE (if recovery then 1 else if flash then 3 else 4))
        Reg.MGT_BOOT_INFO_WARM_COUNT 1
      let s6 := (List.range 7).foldl (fun a i => setF a (Reg.MGT_BOOT_T_TIME i) (2 ^ 64 - 1)) s5
      .next { s6 with boot := { s6.boot with begun := true, rootOk := s6.boot.rootOk && !recovery } }

/-- Step 4 of R702 without S3: S4 starts when Heartwood runs (R73), at once or at HEARTWOOD_RESUME; QCLK shows whether it
has. -/
def warmS4 (s : State) : State :=
  if stage s = 4 ∧ s.boot.restored = true ∧ bootRuns s = true ∧ (getF s Reg.HST_CLK_STATUS_LOCK).testBit 5 = false then
    startS4 (checkProfile s []) true
  else s

/-- BALLAST_RUNDOWN_DONE (R548, R702 steps 2 to 4): the blocks are restored, and S3, S4, or S1 from recovery HOLD, runs. -/
def execBallastRundownDone (s : State) : Host.Outcome State Fault Refusal :=
  if s.boot.warm.isNone ∨ s.boot.begun = false ∨ s.boot.restored = true ∨ getF s Reg.PWR_BALLAST_MW_MW ≠ 0 then .next s
  else
    let s1 := warmRestore { s with boot := { s.boot with restored := true } }
    let s2 := if s1.boot.perst then s1 else setLocks s1 [3] true
    if stage s = 1 then
      let s3 := stopHeartwood s2
      .next (bootStage { s3 with loaded := [], hwd := { s3.hwd with handoff := none } } 1)
    else if stage s = 3 then .next (bootStage s2 3)
    else .next (warmS4 s2)

/-- RESET_CHIP (R459): DONE first, then the reset; a second one meets RESET_BUSY (Table 13.12). -/
def execResetChip (s : State) : Host.Outcome State Fault Refusal :=
  runCmd s 0x0713 (fun _ => true) fun c =>
    if s.boot.warm.isSome || s.boot.stopped then respond s c 0x0706 [] else warmDue (respond s c 0 []) 2

/-- F4_HOLD_EXPIRY (R455, R711): the warm chip reset; in a cold boot the restart at S1. -/
def execF4HoldExpiry (s : State) : Host.Outcome State Fault Refusal :=
  match s.boot.f4At with
  | none => .next s
  | some t =>
    let h := getF s Reg.FLT_CTL_F4_HOLD_MS
    if !chipFaulted s || s.boot.stopped || h == 0 || decide (s.aTime < t + 500000 * h) then .next s
    else if s.boot.up then .next (warmDue s 1)
    else
      let s1 := warmRestore s
      let s2 := setF (stopHeartwood s1) Reg.MGT_BOOT_INFO_RESTARTED 1
      let s3 := { s2 with
        loaded := [], img := { s2.img with slot := none, profile := none, chosen := none }
        hwd := { s2.hwd with handoff := none }
        boot := { s2.boot with rootOk := false, trained := false, tested := false, settled := false, f4At := none } }
      .next (bootStage (resetReg s3 Reg.MEM_CH_STATUS) 1)

/-! ## LOAD_VOLATILE_CONFIG END (R602) -/

/-- END: checks 2 to 6 and 8 of the staged bytes; on success the device leaves HOLD through S4 and S5. -/
def execLoadVolatileEnd (s : State) : Host.Outcome State Fault Refusal :=
  runStaging s 2 fun c =>
    match stagingOf s c with
    | .error code => respond s c code []
    | .ok x =>
      let s1 := { s with img := { s.img with staging := none } }
      if x.bytes.length < x.total then respond s1 c 0x0812 []
      else
        let r := regionOf x.bytes
        let base := regionCode s .profile r x.total .clean
        let bad := if base = 0 then profileFail s r.payload else none
        match bad with
        | some o => respond (setF s1 Reg.CFG_DETAIL_OFFSET o) c 0x0808 []
        | none =>
          if base ≠ 0 then respond s1 c base []
          else
            let s2 := warmRestore (respond s1 c 0 [])
            let s3 := setF (setF (setF s2 Reg.CFG_STATUS_CAUSE 0) Reg.CFG_STATUS_RECOVERY 0) Reg.MGT_BOOT_INFO_KIND 5
            let s4 := (List.range 7).foldl (fun a i => setF a (Reg.MGT_BOOT_T_TIME i) (2 ^ 64 - 1)) s3
            startS4 { s4 with
              img := { s4.img with volatile := some r, chosen := some (true, 0, r) }
              boot := { s4.boot with warm := some 5, begun := true, restored := true } } true

/-! ## THERMTRIP -/

/-- THERMTRIP (R468): every domain but ACLK is held in reset and its PLL stops; fault 0x1A; the pin is asserted until
POR_N. CCLK stops, so VID drives the boot code (R718). -/
def execThermtrip (s : State) : Host.Outcome State Fault Refusal :=
  if heldCold s || tripped s then .next s
  else
    let s1 := setCause (recordFault (spoilSlot s) 0x1A 4 false false nobody nobody 0) 0
    let s2 := resetRegs s1 fun k => k / 0x100000 != 14
    let s3 := setF (setF (setF s2 Reg.HST_STATUS_THERMTRIP 1) Reg.HST_STATUS_HWD_STATE 3) Reg.FLT_STATE_CHIP_FAULTED 1
    let keep : State := { State.reset with
      pending := s3.pending, out := s3.out, free := s3.free, nvm := s3.nvm, flash := s3.flash, spoiled := s3.spoiled, tap := s3.tap
      regs := s3.regs, fltQueue := s3.fltQueue, time := s3.time, qTime := s3.qTime, fTime := s3.fTime, lTime := s3.lTime
      cTime := s3.cTime, mTime := s3.mTime, pTime := s3.pTime, aTime := s3.aTime, sTime := s3.sTime
      boot := { Boot.held with por := false, perst := s3.boot.perst, tclkOnce := s3.boot.tclkOnce, spiAt := s3.boot.spiAt,
                               stopped := true } }
    let vid := if getF s Reg.HST_STRAPS_VID = 21 then keep else drive keep (.vid 21)
    .next (drive vid (.pin .thermtripN false))

/-! ## PCIe resets (R462, R562, R697, R741) -/

/-- The PCIe controller is reset: configuration space of every function, MSI-X tables and pending bits, the link, the VFs,
and the DOE and SPDM state. -/
def pcieReset (s : State) : State :=
  resetReg { s with fns := [], vecs := [], spdm := Spdm.idle } Reg.HST_PCIE_LINK

/-- PERST_N is asserted or as good as: the controller is reset and PCLK stops; a device that has booted resets warm, and a
cold boot goes on (R462, Table 21.5). -/
def perstLike (s : State) : State :=
  let s1 := setLocks (pcieReset s) [3] false
  if s1.boot.up && !heldCold s1 && !tripped s1 then warmDue s1 4 else s1

/-- PERST_ASSERT (R462). -/
def execPerstAssert (s : State) : Host.Outcome State Fault Refusal :=
  if pinsHeld s || s.boot.perst then .next s else .next (perstLike { s with boot := { s.boot with perst := true } })

/-- PERST_DEASSERT (R697): PCLK starts, from S1 on. -/
def execPerstDeassert (s : State) : Host.Outcome State Fault Refusal :=
  if pinsHeld s || !s.boot.perst then .next s
  else
    let s1 := { s with boot := { s.boot with perst := false } }
    .next (if (getF s Reg.HST_CLK_STATUS_LOCK).testBit 1 then setLocks s1 [3] true else s1)

/-- HOT_RESET (R562): a Hot Reset or a Link Disable, as an assertion of PERST_N. In a cold boot PCLK starts again at
once. -/
def execHotReset (s : State) : Host.Outcome State Fault Refusal :=
  if s.boot.perst || !(getF s Reg.HST_CLK_STATUS_LOCK).testBit 3 then .next s
  else
    let s1 := perstLike s
    .next (if s1.boot.warm.isSome then s1 else setLocks s1 [3] true)

/-! ## The reset button (R464, R465) -/

/-- STATE of the button. -/
def btnState (s : State) : Nat := getF s Reg.FLT_BTN_STATE

/-- BUTTON_LOW_STABLE. -/
def execButtonLowStable (s : State) : Host.Outcome State Fault Refusal :=
  if pinsHeld s || heldCold s || btnState s != 0 then .next s
  else .next (setF (setF s Reg.FLT_BTN_STATE 1) Reg.FLT_BTN_LEVEL 0)

/-- BUTTON_PRESS: a warm chip reset; ignored during one, and before a cold boot reaches SERVICE or HOLD (R465, Table 21.5). -/
def execButtonPress (s : State) : Host.Outcome State Fault Refusal :=
  if pinsHeld s || heldCold s || btnState s != 1 then .next s
  else
    let s1 := setF (setF s Reg.FLT_BTN_STATE 0) Reg.FLT_BTN_LEVEL 1
    if !s1.boot.up || s1.boot.warm.isSome then .next s1 else .next (warmDue (bump s1 Reg.FLT_BTN_PRESSES 1) 3)

/-- BUTTON_STUCK: low for 8 s. -/
def execButtonStuck (s : State) : Host.Outcome State Fault Refusal :=
  if pinsHeld s || heldCold s || btnState s != 1 then .next s else .next (stickButton s 2)

/-- BUTTON_HONOURED: high for 100 ms after a stuck state. -/
def execButtonHonoured (s : State) : Host.Outcome State Fault Refusal :=
  if pinsHeld s || heldCold s || btnState s < 2 then .next s
  else .next (setF (setF s Reg.FLT_BTN_STATE 0) Reg.FLT_BTN_LEVEL 1)

/-! ## Heartwood's restart (R82) -/

/-- HEARTWOOD_RESUME: Heartwood runs again, the restart counts as F1, half-erased sectors are repaired (R621), and READY
returns once the settings had been loaded. -/
def execHeartwoodResume (s : State) : Host.Outcome State Fault Refusal :=
  if getF s Reg.HST_STATUS_HWD_STATE ≠ 1 then .next s
  else
    let s1 := retryFault (setF (setLocks s [6] true) Reg.HST_STATUS_HWD_STATE 0) false
    let s2 := { s1 with hwd := { s1.hwd with restartAt := none, kickAt := s1.aTime } }
    if 3 ≤ stage s2 ∧ s2.hwd.handoff.isNone = true then
      .next (warmS4 (settle (setReady (repairSectors s2))))
    else .next s2

end Sys2Proof.Machine
end

