-- ==== Sys2Proof/Machine/Clock.lean ====
section
/-! DEFINITION. The passing of device time (spec/02, R61 to R66, R85): what the block does while no command waits. -/
namespace Sys2Proof.Machine

/-- A copy of device time that lags at most `bound` ticks behind `now` and never decreases (R64, R65). -/
def lagged (old now bound lag : Nat) : Nat := max old (now - min bound lag)

/-- Device time advances by a tick, or by the ten ticks of an ACLK cycle until the TCLK PLL first locks (R85); every
domain's copy follows with a lag that is free within its bound (R64, R65). -/
def passTime (s : State) : State :=
  let t := s.time + if s.boot.tclkOnce then 1 else 10
  let k := s.free
  { s with
    time := t
    free := k + 1
    qTime := lagged s.qTime t 3 (Config.lagQ k)
    fTime := lagged s.fTime t 3 (Config.lagF k)
    lTime := lagged s.lTime t 3 (Config.lagL k)
    cTime := lagged s.cTime t 3 (Config.lagC k)
    mTime := lagged s.mTime t 3 (Config.lagM k)
    pTime := lagged s.pTime t 3 (Config.lagP k)
    aTime := lagged s.aTime t 31 (Config.lagA k)
    sTime := lagged s.sTime t 5 (Config.lagS k) }

/-- CANCELs that let the commits of a device time go first take effect when the QCLK copy moves on (R50, R66). -/
def passCancels (before s : State) : State := if s.qTime = before.qTime then s else settleCancels s

/-- One idle step: nothing while the device is held in cold reset; else time advances, waiting heads that an end or an
admission made due are evaluated again (R301), and Heartwood takes the fault records that wait (R457). -/
def tick (s : State) : State :=
  if heldCold s then s else drainFaults (recheckDue (passCancels s (passTime s)))

end Sys2Proof.Machine
end

