-- ==== Sys2Proof/Machine/Cluster.lean ====
section
/-! DEFINITION. What a task does on its cluster (spec/04, R123, R136 to R147; spec/20, R680 to R683): its storage, the values
it reads and writes, its instructions; and the image of a cluster's storage in a save area (spec/05, R172 to R174, R183). -/
namespace Sys2Proof.Machine

/-! ## Storage (R123, R164) -/

def cluster (s : State) (cl : Nat) : Cluster := spGet (fun _ => Cluster.dead) s.clusters cl
def setCluster (s : State) (cl : Nat) (c : Cluster) : State :=
  { s with clusters := spPut (fun _ => Cluster.dead) cl c s.clusters }

/-- Table 04.1: FP32 words of the register file and of the accumulators, bytes of the scratch SRAM. -/
def regWords : Nat := 12288
def accWords : Nat := 12288
def scratchBytes : Nat := 196608

/-- Put an element into a list in ascending number. -/
def putAt {α : Type} (i : Nat) (x : α) : List (Nat × α) → List (Nat × α)
  | [] => [(i, x)]
  | e :: l => if e.1 < i then e :: putAt i x l else if e.1 = i then (i, x) :: l else (i, x) :: e :: l

/-- A word of the register file (store 0) or of the accumulators (1), and a byte of the scratch SRAM; where the task has
written none, dead contents. -/
def wordOf (placement store : Nat) (l : List (Nat × W32)) (i : Nat) : W32 :=
  match l.find? fun e => e.1 == i with
  | some e => e.2
  | none => Config.deadWord placement store i
def scratchOf (c : Cluster) (i : Nat) : Byte :=
  match c.scratch.find? fun e => e.1 == i with
  | some e => e.2
  | none => (Config.deadWord c.placement 2 i).setWidth 8

/-- Write words from word `i` on, below `n`, and scratch bytes; what lies outside the storage is dropped. -/
def putWords (n : Nat) (l : List (Nat × W32)) (i : Nat) (ws : List W32) : List (Nat × W32) :=
  (numbered i ws).foldl (fun a e => if e.1 < n then putAt e.1 e.2 a else a) l
def putScratch (l : List Host.Cell) (i : Nat) (bs : List Byte) : List Host.Cell :=
  (numbered i bs).foldl (fun a e => if e.1 < scratchBytes then putAt e.1 e.2 a else a) l

/-! ## Tensors -/

/-- What writing one tensor gives: element bytes, scale bytes, the values written, and the numeric flags. -/
structure Written where
  elems : List Byte
  scales : List Byte
  vals : List FpVal
  sat : Bool
  scaleNan : Bool
  nanGen : Bool
  deriving DecidableEq, Repr

/-- Write FP32 values in a format (R138 to R143). -/
def writeFormat (f : Format) (xs : List W32) : Written :=
  if isMx f then
    let bs := (chunks 32 xs.length xs).map (mxQuant f)
    let es := bs.flatMap (·.bytes)
    let sc := bs.map fun b => BitVec.ofNat 8 b.scale
    { elems := es, scales := sc, vals := tensorVals f es sc xs.length, sat := bs.any (·.sat), scaleNan := bs.any (·.scaleNan),
      nanGen := bs.any (·.nanGen) }
  else
    let k := elemFmt f
    let cs := xs.map fun x => fpEncode k (f32 x)
    { elems := cs.flatMap fun c => leBytes (k.width / 8) c.1, scales := [], vals := cs.map fun c => fpDecode k c.1,
      sat := cs.any (·.2), scaleNan := false, nanGen := false }

/-- A value as an FP64 word (R681). -/
def toFp64 (v : FpVal) : Nat := (fpEncode fp64 v).1

/-- The statistics of one task's elements of watched tensor `tensor`, from element `first` on (Table 20.6, R682). -/
def assayPiece (slot tensor : Nat) (f : Format) (first : Nat) (w : Written) : AssayPiece :=
  let cnt (f : FpVal → Bool) : Nat := (w.vals.filter f).length
  let fins := w.vals.filter fun v => match v with | .fin .. => true | _ => false
  let nums := (w.vals.filter fun v => v != .nan).map toFp64
  let total (l : List Nat) : Nat := match l with | [] => 0 | x :: xs => xs.foldl add64 x
  { slot := slot, tensor := tensor, fmt := f, first := first, count := w.vals.length,
    nan := cnt (· == .nan), inf := cnt fun v => match v with | .inf _ => true | _ => false,
    zero := cnt fun v => match v with | .fin _ 0 _ => true | _ => false,
    min := nums.foldl (fun a x => if lt64 x a then x else a) 0x7FF0000000000000,
    max := nums.foldl (fun a x => if lt64 a x then x else a) 0xFFF0000000000000,
    sum := total (fins.map toFp64), sumsq := total (fins.map fun v => toFp64 (fpMul v v)),
    bytes := w.elems, scales := w.scales }

/-! ## Instructions -/

/-- A cluster at work: the device, its storage, the step it works for, and whether the translator refused an access
(R195, R230). -/
structure Run where
  s : State
  c : Cluster
  st : Step
  bad : Bool
  deriving DecidableEq, Repr

/-- A numeric event sets its flag in the grove of the cluster (R139, R142, R143). -/
def Run.flag (r : Run) (f : Fld) (on : Bool) : Run := if on then { r with s := raise r.s f } else r
def Run.flags (r : Run) (cl : Nat) (sat nanGen scaleNan : Bool) : Run :=
  ((r.flag (Reg.GRV_EVT_STATUS_SAT (cl / 80)) sat).flag (Reg.GRV_EVT_STATUS_NAN_GEN (cl / 80)) nanGen).flag
    (Reg.GRV_EVT_STATUS_SCALE_NAN (cl / 80)) scaleNan

/-- A byte of `n` from a partition address is refused by the translator. -/
def refusedSpan (s : State) (p a n : Nat) : Bool := decide (n ≠ 0) && (translate s p (a + n - 1)).isNone

/-- Read `n` bytes of partition memory. -/
def Run.load (r : Run) (p a n : Nat) : List Byte × Run :=
  (loadPart r.s p a n, { r with s := touchPart r.s p .part false a n, bad := r.bad || refusedSpan r.s p a n })

/-- Write bytes to partition memory. -/
def Run.store (r : Run) (p a : Nat) (bs : List Byte) : Run :=
  let w := writePart r.s p .part a bs
  { r with s := w.1, bad := r.bad || w.2 }

/-- The format in which a place holds values. -/
def placeFmt : Place → Format
  | .reg _ | .acc _ => .fp32
  | .scratch f _ _ | .mem f _ _ => f

/-- `n` values from a place. -/
def Run.values (r : Run) (p : Nat) (pl : Place) (n : Nat) : List FpVal × Run :=
  match pl with
  | .reg w => ((List.range n).map fun i => f32 (wordOf r.c.placement 0 r.c.regs (w + i)), r)
  | .acc w => ((List.range n).map fun i => f32 (wordOf r.c.placement 1 r.c.acc (w + i)), r)
  | .scratch f e k =>
    (tensorVals f ((List.range (elemBytes f n)).map fun i => scratchOf r.c (e + i))
      ((List.range (scaleBytes f n)).map fun i => scratchOf r.c (k + i)) n, r)
  | .mem f e k =>
    let a := r.load p e (elemBytes f n)
    let b := a.2.load p k (scaleBytes f n)
    (tensorVals f a.1 b.1 n, b.2)

/-- Write FP32 results to a place; a tensor of memory is observed by the watch slots that watch it (R680). -/
def Run.put (r : Run) (p cl : Nat) (pl : Place) (tensor : Option (Nat × Nat)) (ws : List W32) : Run :=
  match pl with
  | .reg w => { r with c := { r.c with regs := putWords regWords r.c.regs w ws } }
  | .acc w => { r with c := { r.c with acc := putWords accWords r.c.acc w ws } }
  | .scratch f e k =>
    let x := writeFormat f ws
    ({ r with c := { r.c with scratch := putScratch (putScratch r.c.scratch e x.elems) k x.scales } } : Run).flags cl x.sat
      x.nanGen x.scaleNan
  | .mem f e k =>
    let x := writeFormat f ws
    let r1 := ((r.store p e x.elems).store p k x.scales).flags cl x.sat x.nanGen x.scaleNan
    match tensor with
    | none => r1
    | some (id, first) =>
      let ps := (r1.st.watch.filter fun e => e.2 == id).map fun e => assayPiece e.1 id f first x
      { r1 with st := { r1.st with assay := r1.st.assay ++ ps } }

/-- Element `i` of each operand as an FP32 word, converted with one rounding (R138). -/
def operandsAt (vs : List (List FpVal)) (i : Nat) : List FpRes :=
  vs.map fun v => let x := (v[i]?).getD (.fin false 0 0); fpRound [x] x

/-- Read several places in order. -/
def Run.sources (r : Run) (p n : Nat) : List Place → List (List FpVal) × Run
  | [] => ([], r)
  | pl :: rest =>
    let a := r.values p pl n
    let b := a.2.sources p n rest
    (a.1 :: b.1, b.2)

/-- Bytes with their addresses from `a` on. -/
def addressed (a : Nat) (bs : List Byte) : List (Nat × Byte) := numbered a bs

/-- Offer bytes to a node of the step's group, 4 MiB a message (R480, R499). -/
def sendTo (s : State) (p : Nat) (st : Step) (kv : Bool) (node dst : Nat) (bs : List Byte) : State :=
  match st.group with
  | none => s
  | some n =>
    (numbered 0 (chunks (4 * 2 ^ 20 - 16) bs.length bs)).foldl (fun a e =>
      let x := addressed (dst + e.1 * (4 * 2 ^ 20 - 16)) e.2
      sendBulk a p n node (if kv then .kvxfer (gidOf a n) st.tag x else .coll (gidOf a n) st.tag x)) s

/-- One instruction of a task on cluster `cl` of partition `p`. -/
def runOp (p cl : Nat) (r : Run) : ClusterOp → Run
  | .mac acc a b n =>
    let x := r.values p a n
    let y := x.2.values p b n
    let e := macRun (wordOf y.2.c.placement 1 y.2.c.acc acc) (macGroup (placeFmt a) (placeFmt b)) (x.1.zip y.1)
    (y.2.put p cl (.acc acc) none [e.w]).flags cl e.sat e.nanGen false
  | .vec f dst srcs n tensor =>
    let x := r.sources p n srcs
    let rs := (List.range n).map fun i =>
      let o := operandsAt x.1 i
      o.foldl (fun a q => thenOp q a) (vecApply f (o.map (·.w)))
    (x.2.put p cl dst tensor (rs.map (·.w))).flags cl (rs.any (·.sat)) (rs.any (·.nanGen)) false
  | .put a bs => r.store p a bs
  | .send kv node src n dst =>
    let x := r.load p src n
    { x.2 with s := sendTo x.2.s p x.2.st kv node dst x.1 }
  | .tile => r

/-- Instructions in order. -/
def runOps (p cl : Nat) (r : Run) (ops : List ClusterOp) : Run := ops.foldl (runOp p cl) r

/-- Bytes of partition memory a place of `n` values covers, and those an instruction reads and writes (Table 12.5). -/
def placeBytes (pl : Place) (n : Nat) : Nat :=
  match pl with
  | .mem f _ _ => elemBytes f n + scaleBytes f n
  | _ => 0
def opBytes : ClusterOp → Nat
  | .mac _ a b n => placeBytes a n + placeBytes b n
  | .vec _ d ss n _ => ss.foldl (fun a x => a + placeBytes x n) (placeBytes d n)
  | .put _ bs => bs.length
  | .send _ _ _ n _ => n
  | .tile => 0
def opsBytes (ops : List ClusterOp) : Nat := ops.foldl (fun a o => a + opBytes o) 0

/-- Where a task that has issued `issued` bytes may stand, by instructions done: anywhere (I mode), or at a tile boundary. -/
def stopsAt (tiles : Bool) (issued : Nat) (ops : List ClusterOp) : List Nat :=
  (List.range (ops.length + 1)).filter fun n =>
    decide (opsBytes (ops.take n) ≤ issued) && (!tiles || (decide (0 < n) && ops[n - 1]? == some .tile))

/-- What a task has done when its cluster stops, and what it has still to do; none where it has no boundary to stop at. How
far the cluster had come is a free choice among those (notes/assumptions/68.md). -/
def stopCut (tiles : Bool) (issued free : Nat) (ops : List ClusterOp) : Option (List ClusterOp × List ClusterOp) :=
  let at_ := stopsAt tiles issued ops
  (at_[Config.freeNat free % max 1 at_.length]?).map fun n => (ops.take n, ops.drop n)

/-! ## The save area (R172, R174, R179, R183) -/

/-- The partition address of a context's save area: the context save region follows the trace buffers (R196). -/
def saveAddr (s : State) (p g : Nat) : Nat :=
  2 ^ 20 * (part s p).traceMib + 65536 * (match ctx? s g with | some c => c.saveBase | none => 0)

/-- The largest live SRAM of the context's program: L. -/
def liveMax (s : State) (g : Nat) : Nat := match slotOf s g with | some x => x.prog.liveSram | none => 0

/-- Where the area of context `g` holds cluster `cl`, and where its dispatch state: 80 clusters a grove, each 96 KiB and L,
then the rest (the layout is DESIGN CHOICE, notes/assumptions/68.md). -/
def saveSlot (s : State) (p g cl : Nat) : Nat :=
  saveAddr s p g + (80 * (cl / 80 - firstGrove s p) + cl % 80) * (98304 + liveMax s g)
def dispatchAt (s : State) (p g : Nat) : Nat := saveAddr s p g + 80 * grovesOf s p * (98304 + liveMax s g)

/-- What a save keeps of a cluster: everything in I mode, with the live SRAM of its kernel, and the boundary accumulators in
T mode. -/
def keptOf (c : Cluster) (t : Task) (modeI : Bool) : Cluster :=
  if modeI then { c with scratch := c.scratch.filter fun e => decide (e.1 < t.liveSram) }
  else { c with regs := [], scratch := [], acc := c.acc.filter fun e => decide (4 * e.1 < t.boundaryAcc) }

/-- Write what is kept of a cluster from an address of partition memory on. -/
def writeKept (s : State) (p a : Nat) (c : Cluster) : State :=
  let s1 := c.regs.foldl (fun x e => (writePart x p .part (a + 4 * e.1) (leBytes 4 e.2.toNat)).1) s
  let s2 := c.acc.foldl (fun x e => (writePart x p .part (a + 49152 + 4 * e.1) (leBytes 4 e.2.toNat)).1) s1
  c.scratch.foldl (fun x e => (writePart x p .part (a + 98304 + e.1) [e.2]).1) s2

/-- Read it back. -/
def readKept (s : State) (p a : Nat) (c : Cluster) : Cluster :=
  let word (o : Nat) : W32 := BitVec.ofNat 32 (leNat (loadPart s p o 4))
  { c with
    regs := c.regs.map fun e => (e.1, word (a + 4 * e.1))
    acc := c.acc.map fun e => (e.1, word (a + 49152 + 4 * e.1))
    scratch := c.scratch.map fun e => (e.1, BitVec.ofNat 8 (leNat (loadPart s p (a + 98304 + e.1) 1))) }

/-- The dispatch state: the tasks not dispatched in program order, and the clusters of those stopped (R172). -/
def dispatchBytes (st : Step) (room : Nat) : List Byte :=
  (leBytes 4 st.held.length ++ st.held.flatMap (fun t => leBytes 4 t.id) ++ leBytes 4 st.stopped.length ++
    st.stopped.flatMap fun e => leBytes 4 e.1 ++ leBytes 4 e.2.id).take room

/-- The save of a step: the storage of each cluster that held a task and the dispatch state go to the area of its context;
the clusters keep nothing (R172, R174). -/
def saveStep (s : State) (p : Nat) (st : Step) (modeI : Bool) : State × Step :=
  let kept := st.stopped.map fun e => (e.1, keptOf (cluster s e.1) e.2 modeI)
  let s1 := kept.foldl (fun a e => writeKept a p (saveSlot a p st.ctx e.1) e.2) s
  let s2 := (writePart s1 p .part (dispatchAt s1 p st.ctx) (dispatchBytes st (grovesOf s p * 65536 + 4096))).1
  (killClusters s2 p fun _ => true, { st with kept := kept })

/-- The reads of what is kept of a cluster, from an address of partition memory on. -/
def touchKept (s : State) (p a : Nat) (c : Cluster) : State :=
  let s1 := c.regs.foldl (fun x e => touchPart x p .part false (a + 4 * e.1) 4) s
  let s2 := c.acc.foldl (fun x e => touchPart x p .part false (a + 49152 + 4 * e.1) 4) s1
  c.scratch.foldl (fun x e => touchPart x p .part false (a + 98304 + e.1) 1) s2

/-- The restore: each cluster's storage comes back from the area (R180). -/
def restoreStep (s : State) (p : Nat) (st : Step) : State :=
  st.kept.foldl (fun a e =>
    let x := saveSlot a p st.ctx e.1
    setCluster (touchKept a p x e.2) e.1 (readKept a p x e.2)) s

end Sys2Proof.Machine
end

