-- ==== Sys2Proof/Machine/Tasks.lean ====
section
/-! DEFINITION. A step in EXECUTE and SAMPLE: placement and tasks (spec/05, R160 to R163; spec/04, R138 to R143), Assay
(spec/20, R680 to R683), candidates, drafts and the merge (spec/10, R350 to R363; spec/14, R504 to R506). -/
namespace Sys2Proof.Machine

/-! ## The step in hand -/

/-- Change the step that holds the groves. -/
def setCur (s : State) (p : Nat) (st : Step) : State := setLane s p { lane s p with cur := some st }

/-- CCLK in MHz, as HST_CLK_FREQ shows it. -/
def cclkMhz (s : State) : Nat := getF s Reg.HST_CLK_FREQ_CCLK_MHZ

/-! ## Placement (R160 to R163) -/

/-- Active clusters of a partition, by global logical number, ascending. -/
def activeClusters (s : State) (p : Nat) : List Nat :=
  (groveList s p).flatMap fun g => ((List.range 80).filter fun l => !clusterAbsent s g l).map (80 * g + ·)

/-- The free active cluster with the lowest number. -/
def freeCluster (s : State) (p : Nat) (st : Step) : Option Nat :=
  (activeClusters s p).find? fun c => !(st.running.any (·.1 == c)) && !(st.stopped.any (·.1 == c))

/-- The memory traffic of a task's instructions waits at the memory regulator (Table 12.5). -/
def offerTask (s : State) (p cl : Nat) (t : Task) : State :=
  if opsBytes t.ops = 0 then s else chargeHeld s p 0 (.task cl) (opsBytes t.ops)

/-- A task takes a cluster, whose storage is its own from now on. The task counts in the grove of the cluster: the spec
leaves open which grove's count a task of another grove's cluster enters (DESIGN CHOICE, notes/assumptions/68.md). -/
def placeTask (s : State) (p c : Nat) (t : Task) : State :=
  let d := draw (bump s (Reg.GRV_DISPATCHED_TASKS (c / 80)) 1)
  offerTask (setCluster d.2 c { Cluster.dead with placement := d.1 }) p c t

/-- Place held tasks in program order while a cluster is free, at most `fuel` of them. -/
def placeTasks (p : Nat) : Nat → State → Step → State × Step
  | 0, s, st => (s, st)
  | n + 1, s, st => match st.held, freeCluster s p st with
    | t :: rest, some c =>
      placeTasks p n (placeTask s p c t)
        { st with held := rest, running := st.running ++ [(c, t, s.cTime)] }
    | _, _ => (s, st)

/-- The dispatcher goes on, unless a preemption is pending (R171). -/
def dispatch (s : State) (p : Nat) : State :=
  let l := lane s p
  match l.cur with
  | some st =>
    if l.preempt.isSome || l.restoreAt.isSome then s
    else let e := placeTasks p st.held.length s st; setCur e.1 p e.2
  | none => s

/-! ## Preemption is raised here, for a debug halt meets a step as it enters EXECUTE -/

/-- Raise a preemption of the holder in T or I mode (R168, R171, R173); an I-mode stop is part of its save (R177). -/
def raisePreempt (s : State) (p : Nat) (by_ : Option Nat) (modeI : Bool) : State :=
  match (lane s p).cur with
  | none => s
  | some st =>
    let empty := st.running.isEmpty
    let start := modeI || empty
    let pr : Preempt :=
      { modeI := modeI, raisedAt := s.qTime, saveAt := if start then some s.qTime else none, waitTicks := 0,
        debug := by_.isNone }
    let s1 := setLane s p { lane s p with cur := some { st with raisedAt := s.qTime, preBy := by_ }, preempt := some pr }
    if start then setGroves s1 p 5 else s1

/-! ## The merge (R352 to R363) -/

/-- A plan item samples: a decode item at each position, a chunk that finishes its prompt at its last (spec/10, section Model). -/
def itemSamples (it : PlanItem) : Bool := !it.prefill || it.last

/-- Sampled positions of a plan in plan order: the sequence's handle and the position in its item. -/
def sampledList (plan : List PlanItem) : List (Nat × Nat) :=
  plan.flatMap fun it =>
    if !itemSamples it then [] else it.seqs.flatMap fun h =>
      (List.range (if it.prefill then 1 else it.n)).map fun j => (h, j)

/-- The release of the sampler tables that the merge stage runs. -/
def tablesVer (s : State) : W64 := rd s Reg.SMP_TABLE_VER

/-- Event 0x0401 to 0x0404: its flag and its count. -/
def eventNonfinite (s : State) (n : Nat) : State :=
  if n = 0 then s else bumpSat (raise s Reg.SMP_STATUS_NONFINITE) Reg.SMP_EVT_CNT_NONFINITE n
def eventNoCandidate (s : State) (n : Nat) : State :=
  if n = 0 then s else bumpSat (raise s Reg.SMP_STATUS_NO_CANDIDATE) Reg.SMP_EVT_CNT_NO_CANDIDATE n
def eventResidual (s : State) (n : Nat) : State :=
  if n = 0 then s else bumpSat (raise s Reg.SMP_STATUS_RESIDUAL_EMPTY) Reg.SMP_EVT_CNT2_RESIDUAL_EMPTY n
def eventLate (s : State) : State :=
  bumpSat (raise s Reg.SMP_STATUS_LATE_CANDIDATE) Reg.SMP_EVT_CNT2_LATE_CANDIDATE 1

/-- The drafts drawn so far for a sequence. -/
def draftsFor (st : Step) (h : Nat) : List (Nat × List (Nat × W32)) :=
  ((st.drafts.find? fun e => e.1 == h).map (·.2)).getD []

/-- The merge of one sequence of an item: what it decides, and its events. -/
def drawSeq (s : State) (st : Step) (it : PlanItem) (h : Nat) : Option (Draw × MergeEvents) :=
  match reqByHandle s h with
  | none => none
  | some (_, r) =>
    let ds := if it.prefill then [] else draftsFor st h
    let vocab := match slotOf s st.ctx with | some x => x.pkg.vocab | none => 0
    let e := verify (tablesVer s) vocab r st.cands h ds [] 0 0
    some ({ req := h, toks := e.1, acc := e.2.1, d := ds.length, n := if it.prefill then 1 else ds.length + 1 }, e.2.2)

/-- Sampled positions at which some shard met a NaN or infinite logit (R351). -/
def nonfiniteCount (st : Step) (draft : Bool) (ps : List (Nat × Nat)) : Nat :=
  (ps.filter fun e => (listsAt st.cands e.1 e.2 draft).any (·.nonfinite)).length

/-- The merge stage decides the plan (R352 to R363); the step is in SAMPLE. -/
def mergeStep (s : State) (p : Nat) (st : Step) : State :=
  let all := st.plan.flatMap fun it =>
    if itemSamples it then it.seqs.filterMap fun h => drawSeq s st it h else []
  let s1 := setCur s p { st with st := .sample, sampleAt := s.qTime, drawn := all.map (·.1) }
  let s2 := eventNonfinite s1 (nonfiniteCount st false (sampledList st.plan))
  let s3 := eventNoCandidate s2 (all.foldl (fun a e => a + e.2.noCand) 0)
  eventResidual s3 (all.foldl (fun a e => a + e.2.residual) 0)

/-- Every shard of the device, and every device of the group, has returned its lists; a plan that samples nothing waits
for its tasks instead. -/
def reduced (st : Step) : Bool :=
  if st.plan.any itemSamples then st.shardsLeft.isEmpty && st.candWait.isEmpty
  else st.held.isEmpty && st.running.isEmpty && st.stopped.isEmpty

/-- EXECUTE to SAMPLE, when the last logits shard has been reduced (Table 01.2). At the deadline the merge does not start
(Table 10.5); a pending preemption comes first. -/
def toSample (s : State) (p : Nat) : State :=
  let l := lane s p
  match l.cur with
  | some st =>
    if st.st == .execute && !st.follower && l.preempt.isNone && l.restoreAt.isNone && reduced st &&
        decide (s.qTime < st.deadline) then mergeStep s p st
    else s
  | none => s

/-! ## STEP_EXECUTE -/

/-- The watch slots of a context, as set when EXECUTE begins (Table 20.9). -/
def watchSlots (s : State) (p g : Nat) : List (Nat × Nat) :=
  ((List.range 16).filter fun k => isSet s (Reg.TRC_ASSAY_CTL_EN p k) &&
    getF s (Reg.TRC_ASSAY_CTL_CTX p k) == ctxLocal g).map fun k => (k, getF s (Reg.TRC_ASSAY_TENSOR_TENSOR_ID p k))

/-- The step may enter EXECUTE: it is in ISSUE and every follower has acknowledged its plan (Table 01.2, R503). -/
def mayExecute (s : State) (p : Nat) (st : Step) : Bool :=
  serving s && !partResetting s p && st.st == .issue && st.ackWait.isEmpty &&
    (st.follower || decide (s.qTime < st.deadline))

/-- A prompt as the composer lane reads it again for a chunk: a token at or above V counts and is taken modulo V (R255). -/
def rereadPrompt (p vocab : Nat) (acc : State × Step) (e : Nat × List W32) : State × Step :=
  match req? acc.1 e.1 with
  | none => acc
  | some r =>
    match acc.2.plan.find? fun it => it.prefill && it.seqs.contains (hnat e.1 r) with
    | none => acc
    | some it =>
      let ts := (e.2.take it.n).map (·.toNat)
      let s1 := chargeOnly acc.1 p 1 (4 * ts.length)
      (bump s1 (Reg.TRC_TEN_COUNT r.tenant 8) (ts.filter fun x => decide (vocab ≤ x)).length,
        { acc.2 with tokens := acc.2.tokens ++ [(e.1, ts.map (· % max 1 vocab))] })

/-- STEP_EXECUTE (R18, R161, R255): the tasks are placed; a halted lane saves the step at once (R173), but for a group's,
which is never preempted (R500). -/
def execStepExecute (p : Nat) (plan : PlanTasks) (s : State) : Host.Outcome State Fault Refusal :=
  match (lane s p).cur with
  | none => .next s
  | some st =>
    if !mayExecute s p st then .next s
    else
      let vocab := match slotOf s st.ctx with | some x => x.pkg.vocab | none => 0
      let e := plan.prompts.foldl (rereadPrompt p vocab)
        (s, { st with st := .execute, held := plan.tasks, watch := watchSlots s p st.ctx })
      let s2 := dispatch (setCur (setGroves e.1 p 1) p e.2) p
      if (lane s2 p).halted && st.group.isNone then .next (raisePreempt s2 p none true) else .next (toSample s2 p)

/-! ## Tasks -/

/-- A T-mode wait is past the 200 µs within which it must reach its save: it escalates (R173, R175). -/
def waitOverdue (pr : Preempt) (now : Nat) : Bool := decide (pr.raisedAt + 100000 < now)

/-- The save begins when the last cluster of a T-mode preemption has stopped (R172). -/
def saveIfStopped (s : State) (p : Nat) : State :=
  let l := lane s p
  match l.cur, l.preempt with
  | some st, some pr =>
    if !pr.modeI && pr.saveAt.isNone && st.running.isEmpty && !waitOverdue pr s.qTime then
      setGroves (setLane s p { l with preempt := some { pr with saveAt := some s.qTime,
                                                                waitTicks := s.qTime - pr.raisedAt } }) p 5
    else s
  | _, _ => s

/-- The clusters stand still: an I-mode stop has had its microsecond (R174). -/
def stoppedI (l : Lane) (now : Nat) : Bool :=
  match l.preempt with
  | some pr => pr.modeI && match pr.saveAt with | some t => decide (t + 500 < now) | none => false
  | none => false

/-- The translator has refused an access of a context: fault 0x02 (R195, R230). -/
def refusedAccess (s : State) (g : Nat) : State :=
  contextFault (raise s Reg.MEM_EVT_STATUS_XLATE_REFUSED) 0x02 g 0 false

/-- TASK_COMPLETE (R68, R161, R162, R171): the task's instructions have taken effect, its cluster is free, and the next task
is placed. A completion with another tag, or of a task that its cluster does not run, is discarded; none comes while its
memory traffic waits (R421), nor from a cluster that an I-mode stop holds. -/
def execTaskComplete (p g l tag task : Nat) (s : State) : Host.Outcome State Fault Refusal :=
  let cl := 80 * g + l
  match (lane s p).cur with
  | none => .next s
  | some st =>
    match st.running.find? fun e => e.1 == cl with
    | none => .next s
    | some (_, t, since) =>
      if st.tag ≠ tag ∨ t.id ≠ task ∨ st.st ≠ .execute ∨ (lane s p).restoreAt.isSome = true ∨
          stoppedI (lane s p) s.qTime = true ∨ waitsFor s p (· == .task cl) = true then .next s
      else
        let s0 := bump s (Reg.TRC_CL_COUNT cl 0) ((s.cTime - since) * cclkMhz s / 500)
        let r := runOps p cl ⟨s0, cluster s0 cl, { st with running := st.running.filter fun x => x.1 != cl }, false⟩ t.ops
        let s1 := setCur (setCluster r.s cl Cluster.dead) p r.st
        if r.bad then .next (refusedAccess s1 st.ctx)
        else .next (toSample (dispatch (saveIfStopped s1 p) p) p)

/-- A task's tile bound in ticks at the present CCLK: declared in ns at the nominal 1,600 MHz (R186). -/
def tileTicks (s : State) (t : Task) : Nat := ceilDiv (800 * t.tileBoundNs) (max 1 (cclkMhz s))

/-- TASK_WATCHDOG (Table 04.7, R190): 50 µs past the tile bound, scaled from nominal CCLK (R186), with no preemption
pending: fault 0x03. -/
def execTaskWatchdog (p cl : Nat) (s : State) : Host.Outcome State Fault Refusal :=
  let l := lane s p
  match l.cur with
  | none => .next s
  | some st =>
    match st.running.find? fun e => e.1 == cl with
    | none => .next s
    | some (_, t, since) =>
      if !t.tiled || st.st != .execute || l.preempt.isSome || l.restoreAt.isSome ||
          decide (s.cTime < since + tileTicks s t + 25000) then .next s
      else .next (contextFault s 0x03 st.ctx (groveDetail (cl / 80) (cl % 80)) false)

/-! ## Candidates -/

/-- The view of a sequence at position `j` of its item: earlier drafts count as emitted (R350). -/
def viewAt (st : Step) (r : Req) (h j : Nat) : SampView := viewOf r ((draftsFor st h).take j |>.map (·.1))

/-- The program whose shards a position's logits come from: the draft's or the target's. -/
def progOf (s : State) (st : Step) (draft : Bool) : Option ProgInfo :=
  (if draft then st.draft.bind (slotOf s) else slotOf s st.ctx).map (·.prog)

/-- The tokens of a shard (R344). -/
def shardTokens (q : ProgInfo) (shard : Nat) : List Nat :=
  match q.bounds[shard - q.firstShard]?, q.bounds[shard - q.firstShard + 1]? with
  | some a, some b => (List.range (b - a)).map (a + ·)
  | _, _ => []

/-- Logits in ascending token order (R351). -/
def inOrder (l : List (Nat × W32)) : List (Nat × W32) := l.foldl (fun a e => putAt e.1 e.2 a) []

/-- The logits of one sampled position are those of every token of the shard, and of no other (R344). -/
def posOk (s : State) (st : Step) (shard : Nat) (x : PosLogits) : Bool :=
  match progOf s st x.draft with
  | some q => (inOrder x.logits).map (·.1) == shardTokens q shard
  | none => false

/-- The vector units that computed a shard's lists flag their events in their grove; which grove of the partition it was
is free (R139, R142, R160). -/
def flagShard (s : State) (p : Nat) (os : List ShardOut) : State :=
  let d := draw s
  let g := firstGrove s p + Config.freeNat d.1 % max 1 (grovesOf s p)
  let s1 := if os.any (·.sat) then raise d.2 (Reg.GRV_EVT_STATUS_SAT g) else d.2
  if os.any (·.nanGen) then raise s1 (Reg.GRV_EVT_STATUS_NAN_GEN g) else s1

/-- The list a shard returns for one sampled position of a plan of this device's own requests. -/
def ownList (s : State) (st : Step) (shard : Nat) (x : PosLogits) : Option ShardOut :=
  match reqByHandle s x.req with
  | some (_, r) =>
    if (sampledList st.plan).contains (x.req, x.pos) then
      some (shardList (viewAt st r x.req x.pos) x.req x.pos shard x.draft (inOrder x.logits))
    else none
  | none => none

/-- The draft tokens of one pass are drawn (R359): from each item that still drafts and has reached this position. -/
def drawDrafts (s : State) (st : Step) : State × Step :=
  let items := st.plan.filter fun it => !it.prefill && decide (0 < it.d)
  let j := items.foldl (fun a it => it.seqs.foldl (fun b h =>
    if st.draftStop.contains h then b else max b (draftsFor st h).length) a) 0
  items.foldl (fun acc it => it.seqs.foldl (fun a h =>
    let n := (draftsFor a.2 h).length
    match reqByHandle a.1 h with
    | some (_, r) =>
      if a.2.draftStop.contains h || it.d ≤ n || n != j then a
      else
        let ls := listsAt a.2.cands h n true
        let ks := keptSet (viewAt a.2 r h n) (mergeAt (tablesVer a.1) ls)
        let s1 := eventNonfinite a.1 (if ls.any (·.nonfinite) then 1 else 0)
        if ks.isEmpty then (s1, { a.2 with draftStop := h :: a.2.draftStop })
        else
          let t := drawFrom ks (randomU r.sub.seed (r.emitted + n) 1)
          (s1, { a.2 with drafts := (a.2.drafts.filter fun e => e.1 != h) ++ [(h, draftsFor a.2 h ++ [(t, ks)])] })
    | none => a) acc) (s, { st with draftShards := [] })

/-- Shards of the draft program of a paired step. -/
def draftShardCount (s : State) (st : Step) : Nat :=
  match progOf s st true with | some q => q.shards | none => 0

/-- The list a follower's shard returns, with the sampling fields of its PLAN and its own copies of history, mask and
bias (R512). -/
def peerList (s : State) (st : Step) (shard : Nat) (x : PosLogits) : Option ShardOut :=
  match st.group.bind (group? s), st.fplan.find? fun q => q.idx == x.req && q.sampled with
  | some grp, some q =>
    match grp.seqs.find? fun e => e.1 == x.req with
    | some (_, f) =>
      let v : SampView :=
        { temp := q.temp, topK := q.topK, topP := one16, minP := 0, repPen := q.repPen, presPen := q.presPen,
          freqPen := q.freqPen, mask := if f.mask.isEmpty then none else some f.mask, bias := f.bias, hist := f.hist }
      some (shardList v x.req 0 shard false (inOrder x.logits))
    | none => none
  | _, _ => none

/-- The lists a follower merges for the leader (R504, Table 14.7). -/
def peerLists (st : Step) : List CandPos :=
  (numbered 0 (st.fplan.filter (·.sampled))).map fun e =>
    let ls := listsAt st.cands e.2.idx 0 false
    let n := if e.2.temp % 2 ^ 15 = 0 then 1 else if e.2.topK ≠ 0 then e.2.topK else 256
    { pos := e.1, nonfinite := ls.any (·.nonfinite), shards := ls.map fun l => (l.m, l.s),
      cands := (topCands (ls.flatMap (·.cands))).take n }

/-- The leader's node of a follower's group. -/
def leaderNode (s : State) (slot : Nat) : Option Nat := (group? s slot).bind fun x => x.peers.head?.map (·.node)

/-- The CAND messages of a follower's lists: one, or more where its records would pass 65,536 flits (R480). -/
def candMsgs (gid tag : Nat) : Nat → List CandPos → List CandPos → List LinkMsg
  | _, [], acc => if acc.isEmpty then [] else [.cand gid tag acc]
  | n, x :: xs, acc =>
    let k := (candBytes x).length
    if 65536 * 240 < 16 + n + k then .cand gid tag acc :: candMsgs gid tag k xs [x]
    else candMsgs gid tag (n + k) xs (acc ++ [x])

/-- A follower that has its last shard's lists sends its CAND (R504). -/
def sendCand (s : State) (p : Nat) (st : Step) : State :=
  match st.group with
  | none => s
  | some slot => match leaderNode s slot with
    | some n =>
      let ls := peerLists st
      let ms := if ls.isEmpty then [.cand (gidOf s slot) st.tag []] else candMsgs (gidOf s slot) st.tag 0 ls []
      ms.foldl (fun a m => sendMsg a p st.ctx st.tag n m) s
    | none => s

/-- CANDIDATE_ARRIVE (R68, R344, R350, R351, R359, R369): lists with a stale tag are discarded and counted; the draft's lists
of a pass draw its draft tokens; the last of the target's lists starts the merge. Logits that are not those of the shard's
tokens come from no shard and have no effect. -/
def execCandidateArrive (p tag shard : Nat) (ps : List PosLogits) (s : State) : Host.Outcome State Fault Refusal :=
  let l := lane s p
  match l.cur with
  | none => .next (eventLate s)
  | some st =>
    if st.tag ≠ tag ∨ st.st ≠ .execute ∨ l.restoreAt.isSome = true then .next (eventLate s)
    else if !ps.all (posOk s st shard) then .next s
    else if st.follower then
      if !st.shardsLeft.contains shard then .next s
      else
        let os := ps.filterMap (peerList s st shard)
        let st1 := { st with
          cands := st.cands ++ os.map (·.list), shardsLeft := st.shardsLeft.filter (· != shard) }
        let s1 := setCur (flagShard s p os) p st1
        if st1.shardsLeft.isEmpty then .next (sendCand s1 p st1) else .next s1
    else if ps.any (·.draft) then
      if st.draftShards.contains shard ∨ draftShardCount s st ≤ shard then .next s
      else
        let os := (ps.filter (·.draft)).filterMap (ownList s st shard)
        let st1 := { st with cands := st.cands ++ os.map (·.list), draftShards := shard :: st.draftShards }
        let s0 := flagShard s p os
        if st1.draftShards.length = draftShardCount s st then
          let e := drawDrafts s0 st1
          .next (setCur e.1 p e.2)
        else .next (setCur s0 p st1)
    else if !st.shardsLeft.contains shard then .next s
    else
      let os := ps.filterMap (ownList s st shard)
      let st1 := { st with cands := st.cands ++ os.map (·.list), shardsLeft := st.shardsLeft.filter (· != shard) }
      .next (toSample (setCur (flagShard s p os) p st1) p)

end Sys2Proof.Machine
end

