-- ==== Sys2Proof/Machine/Commit.lean ====
section
/-! DEFINITION. The commit of a step (spec/01, R22 to R33; spec/06, R212 to R214; spec/08, R289, R292; spec/09, R313,
R326, R327; spec/10, R364 to R368). -/
namespace Sys2Proof.Machine

/-! ## Pages and pointers -/

/-- STAGED pages of a sequence with a committed position enter KV, the others return to FREE (R212); charged, and taken
from the reservation (R214, R292). -/
def commitPages (s : State) (p i : Nat) (r : Req) (pLog2 append : Nat) (draft : Bool) : State :=
  let mine : PageUse → Bool := fun u => match u with | .staged h _ _ d => h == hnat i r && d == draft | _ => false
  let held : PageUse → Bool := fun u => match u with
    | .staged h _ k d => h == hnat i r && d == draft && decide (k * 2 ^ pLog2 < append)
    | _ => false
  let n := (pagesWhere s p held).length
  let s1 := mapPages s p mine fun u => match u with
    | .staged h l k d => if k * 2 ^ pLog2 < append then .kv h l k d else .free
    | _ => u
  useReservation (charge s1 r.tenant n) i n

/-- A sequence's new append pointers, of the target and of the draft, when `adv` target positions commit and `acc` of `d`
drafts were accepted (R326, R327). -/
def newPointers (r : Req) (it : PlanItem) (adv acc d : Nat) : Nat × Nat :=
  if it.prefill then (r.append + adv, if r.sub.draftN ≠ 0 ∧ r.paired = true then r.append + adv else r.dAppend)
  else (r.append + adv, r.dAppend + min (acc + 1) d)

/-- The pages of a sequence at the commit of a step of target `g` and draft `dr`. -/
def commitSeqPages (s : State) (p g : Nat) (dr : Option Nat) (i : Nat) (r : Req) (ptr : Nat × Nat) : State :=
  let s1 := match slotOf s g with
    | some x => commitPages s p i r x.pkg.pLog2 ptr.1 false
    | none => s
  match dr.bind (slotOf s1) with
  | some y => commitPages s1 p i r y.pkg.pLog2 ptr.2 true
  | none => s1

/-! ## Records (R270) -/

/-- The records of a commit of `out` for one request. -/
def tokenRecs (handle : W32) (out : List Nat) (first final spec : Bool) : List Rec :=
  let parts := chunks 5 out.length out
  (numbered 0 parts).map fun e =>
    let fl := (if e.1 ≠ 0 then flagCont else if first then flagFirst else 0) +
      (if final && e.1 + 1 == parts.length then flagFinal else 0) + (if spec then flagSpec else 0)
    { handle := handle, status := 0, flags := fl, count := e.2.length,
      body := (e.2 ++ List.replicate (5 - e.2.length) 0).flatMap (leBytes 4) }

/-! ## Charges -/

/-- The commit's charge to the tenant's level (spec/08, after R289). -/
def chargeLevel (s : State) (t n : Nat) : State := if n = 0 then s else setLevel s t (level s t - n)

/-- Charge and account the prefill positions of a member (R289, Table 20.1). -/
def chargePrefill (s : State) (p : Nat) (r : Req) (n : Nat) : State :=
  match cohort? s r.cohort with
  | some c =>
    let s1 := chargeLevel s r.tenant (c.wPf * n)
    bump (lower s1 (Reg.ADM_TEN_RESERVED_RESERVED r.tenant) (c.wPf * n)) (Reg.TRC_PART_COUNT p 3) n
  | none => bump s (Reg.TRC_PART_COUNT p 3) n

/-- Charge and account emitted tokens (R26, R428, Tables 12.6 and 20.1). -/
def chargeTokens (s : State) (p : Nat) (r : Req) (n : Nat) : State :=
  if n = 0 then s
  else
    let s1 := chargeLevel s r.tenant (getF s (Reg.ADM_TEN_CTL_W_DEC r.tenant) * n)
    let s2 := bump s1 (Reg.TRC_PART_COUNT p 2) n
    if acctFull s2 r.tenant then bump s2 (Reg.PRT_ACCT_OUT_TOKENS_OUT r.tenant) n else s2

/-! ## One sequence -/

/-- The tokens of a sequence's draw take effect (R22, R35, R270, R364 to R367): request state, records, counters, and the
tokens emitted. The commits whose distance R35 measures are those that emit tokens: the first of them sets the time from
which the next is measured, and commits of prefill chunks that do not finish the prompt neither count nor set it (DEDUCED,
notes/assumptions/61.md). -/
def emitSeq (s : State) (p i : Nat) (dr : Draw) : State × List Nat :=
  match req? s i with
  | none => (s, [])
  | some r =>
    let e := emitTokens r dr.toks []
    let out := e.1
    let miss := r.emitted != 0 && r.sub.bttUs != 0 && decide (r.lastCommit + 500 * r.sub.bttUs < s.qTime)
    let acc := min dr.acc out.length
    let s1 := setReq s i (some { e.2.1 with lastCommit := s.qTime, st := .decode })
    let s2 := if miss then bump s1 (Reg.TRC_TEN_COUNT r.tenant 7) 1 else s1
    let s3 := chargeTokens s2 p r out.length
    let s4 := bump (bump s3 (Reg.TRC_TEN_COUNT r.tenant 9) dr.d) (Reg.TRC_TEN_COUNT r.tenant 10) acc
    let s5 := bump (bump s4 Reg.SMP_DRAFT_PROPOSED_PROPOSED dr.d) Reg.SMP_DRAFT_ACCEPTED_ACCEPTED acc
    let s6 := if e.2.2.2 then bump s5 Reg.SMP_STOP_CNT_MATCHES 1 else s5
    let s7 := if e.2.2.1 then leaveLive s6 i { e.2.1 with st := .decode } .done 0 true else writeSampler s6 i
    ((tokenRecs (handleOf i r.gen) out (r.emitted == 0) e.2.2.1 (acc != 0)).foldl
      (fun a x => queueRec a r.tenant r.sub.cq x) s7, out)

/-- A commit under way: the state, what a group's COMMIT names so far (R507), and the tokens emitted and prefill positions
committed (R295). -/
structure Committing where
  s : State
  msgs : List CommitSeq
  out : Nat
  pf : Nat

/-- What a commit does to one sequence of an item, and what the group's COMMIT names of it (R22, R31, R32, R507). -/
def commitSeq (p : Nat) (st : Step) (it : PlanItem) (acc : Committing) (h : Nat) : Committing :=
  let s := acc.s
  match reqByHandle s h with
  | none => acc
  | some (i, r) =>
    if !isLive r.st then acc
    else if pastDeadline r s.qTime then { acc with s := expireReq s i }
    else
      let dr := (st.drawn.find? fun d => d.req == h).getD { req := h, toks := [], acc := 0, d := 0, n := 0 }
      let adv := if it.prefill then it.n else dr.acc + 1
      let ptr := newPointers r it adv dr.acc dr.d
      let s1 := commitSeqPages s p st.ctx st.draft i r ptr
      let s2 := match req? s1 i with
        | some x => setReq s1 i (some { x with append := ptr.1, dAppend := ptr.2, st := if it.prefill then .prefill else x.st })
        | none => s1
      let s3 := if it.prefill then chargePrefill s2 p r it.n else s2
      let s4 := if it.prefill ∧ it.last = true ∧ acctFull s3 r.tenant = true then
          bump s3 (Reg.PRT_ACCT_IN_TOKENS_IN r.tenant) r.sub.promptLen else s3
      let e := if itemSamples it then emitSeq s4 p i dr else (s4, [])
      { s := e.1, msgs := acc.msgs ++ [{ idx := i, tokens := e.2, positions := adv }], out := acc.out + e.2.length,
        pf := acc.pf + if it.prefill then it.n else 0 }

/-- One item: its sequences, then its cohort's committed positions (R16). -/
def commitItem (p : Nat) (st : Step) (acc : Committing) (it : PlanItem) : Committing :=
  let e := it.seqs.foldl (commitSeq p st it) acc
  if it.prefill then
    match cohort? e.s it.cohort with
    | some c => { e with s := setCohort e.s it.cohort (some { c with committed := c.committed + it.n }) }
    | none => e
  else e

/-! ## The step -/

/-- T_est after a commit (R313). -/
def updateEst (s : State) (p : Nat) (st : Step) : State :=
  let t := s.qTime - st.issueAt - st.lost
  setF s (Reg.CMP_CTX_TEST_T_EST p (ctxLocal st.ctx)) ((7 * tEst s st.ctx + t) / 8)

/-- The decode share of a context after a commit that emitted `out` tokens and committed `pf` prefill positions (R295); a
commit of neither has no quotient and leaves s a free value of at most 240 (notes/assumptions/62.md). -/
def updateShare (s : State) (g out pf : Nat) : State :=
  let free := min 240 (Config.freeNat s.free)
  let x := if out + pf = 0 then free else min 240 (256 * out / (out + pf))
  let s1 := if out + pf = 0 then (draw s).2 else s
  setF s1 (Reg.ADM_CTX_DSHARE g) ((15 * getF s1 (Reg.ADM_CTX_DSHARE g) + x) / 16)

/-- Last-step times of the model of a step, and of its draft's if it is paired (spec/11, section Model). -/
def noteLast (s : State) (st : Step) : State :=
  let mark (a : State) (x : Nat) : State := match ctx? a x with
    | some c => setF a (Reg.MDL_SLOT_LAST_LAST_STEP c.slot) a.qTime
    | none => a
  match st.draft with
  | some d => mark (mark s st.ctx) d
  | none => mark s st.ctx

/-- SMP_TIME: ticks from the last list's arrival to COMMIT. -/
def noteTime (s : State) (n : Nat) : State :=
  let v := min n 65535
  let s1 := setF s Reg.SMP_TIME_LAST v
  if getF s1 Reg.SMP_TIME_MAX < v then setF s1 Reg.SMP_TIME_MAX v else s1

/-- The COMMIT messages of a group's step, and the pages its followers free (R502, R507). -/
def sendCommit (s : State) (p : Nat) (st : Step) (cs : List CommitSeq) : State :=
  match st.group.bind fun slot => (group? s slot).map fun x => (slot, x) with
  | none => s
  | some (slot, x) =>
    let back (q : Peer) : Nat := st.plan.foldl (fun a it => it.seqs.foldl (fun b h =>
      if cs.any (fun c => c.idx == h % 2 ^ 18) then b
      else match reqByHandle s h with
        | some (_, r) => b + q.info.layers * (newIdx q.info.pLog2 r.append it.n).length
        | none => b) a) 0
    let s1 := mapPeers s slot fun q => { q with pages := q.pages + back q }
    x.peers.foldl (fun a q => sendMsg a p st.ctx st.tag q.node (.commit (gidOf s slot) st.tag cs)) s1

/-- The step commits (R22, R212, R295, R313, R684). -/
def commitStep (s : State) (p : Nat) (st : Step) : State :=
  let e := st.plan.foldl (commitItem p st) { s := s, msgs := [], out := 0, pf := 0 }
  let s1 := freeStaged (updateShare (sendCommit e.s p st e.msgs) st.ctx e.out e.pf) p st.plan
  let s2 := match ctx? s1 st.ctx with
    | some c => setCtx s1 st.ctx (some { c with lastAbandoned := false })
    | none => s1
  let s3 := noteTime (noteLast (updateEst s2 p st) st) (s.qTime - st.sampleAt)
  let s4 := bump (bump s3 (Reg.TRC_PART_COUNT p 0) 1) Reg.SMP_POSITIONS_POSITIONS (sampledList st.plan).length
  let s5 := assayEnd (stepRecord s4 p st 1) p st false
  afterLeave (setGroves (clearCur s5 p) p 0) st.ctx

/-- STEP_COMMIT (R18, R20, R22): the merge is decided and the commit point precedes the step deadline; a CANCEL applied at
the commit point takes effect after it (Table 01.4). A step composed meanwhile issues. -/
def execStepCommit (p : Nat) (s : State) : Host.Outcome State Fault Refusal :=
  match (lane s p).cur with
  | some st =>
    if st.st ≠ .sample ∨ st.follower = true ∨ st.deadline ≤ s.qTime ∨ serving s = false ∨ partResetting s p = true then
      .next s
    else .next (settleCancels (issueStep (retryWaits (commitStep s p st) (some p)) p))
  | none => .next s

end Sys2Proof.Machine
end

