-- ==== Sys2Proof/Machine/Planisher.lean ====
section
/-! DEFINITION. The Planisher's periods and CCLK steps, battery mode, shelf devices, thermal emergencies, and the RAMP and
STAMP messages (spec/15; spec/14, R515, R516; spec/22, R719). -/
namespace Sys2Proof.Machine

/-! ## Grants of a ramp domain (R534, R535) -/

/-- Insert in ascending order. -/
def insertAsc (x : Nat) : List Nat → List Nat
  | [] => [x]
  | y :: ys => if x ≤ y then x :: y :: ys else y :: insertAsc x ys

/-- The largest λ with Σ min(x, λ) ≤ t, over requests in ascending order whose sum exceeds t. -/
def shareLevel : List Nat → Nat → Nat
  | [], t => t
  | x :: xs, t => if x * (xs.length + 1) ≤ t then shareLevel xs (t - x) else t / (xs.length + 1)

/-- Share requests, in ascending node order, over a total. -/
def shareOver (xs : List (Nat × Nat)) (t : Nat) : List (Nat × Nat) :=
  if xs.foldl (fun a e => a + e.2) 0 ≤ t then xs
  else
    let lam := shareLevel ((xs.map (·.2)).foldr insertAsc []) t
    let left := t - xs.foldl (fun a e => a + min e.2 lam) 0
    (xs.foldl (fun (acc : List (Nat × Nat) × Nat) e =>
      if e.2 ≤ lam then (acc.1 ++ [e], acc.2)
      else if acc.2 = 0 then (acc.1 ++ [(e.1, lam)], 0)
      else (acc.1 ++ [(e.1, lam + 1)], acc.2 - 1)) ([], left)).1

/-- The rise grants and the fall grants of members (node, rise request, fall request) under the two budgets. -/
def rampGrants (xs : List (Nat × Nat × Nat)) (up down : Nat) : List (Nat × Nat) × List (Nat × Nat) :=
  let rises := xs.map fun e => (e.1, e.2.1)
  let falls := xs.map fun e => (e.1, e.2.2)
  let q := rises.foldl (fun a e => a + e.2) 0
  let f := falls.foldl (fun a e => a + e.2) 0
  if up + f < q then (shareOver rises (up + f), falls)
  else if down + q < f then (rises, shareOver falls (down + q))
  else (rises, falls)

/-- The newest message of a member; none yet: a pair of zeros. -/
def rampPeer (s : State) (i : Nat) : RampPeer :=
  (spGet (fun _ => none) s.power.peers i).getD { power := 0, next := 0, raise := 0, fresh := false, missed := 0 }
def setRampPeer (s : State) (i : Nat) (x : RampPeer) : State :=
  { s with power := { s.power with peers := spPut (fun _ => none) i (some x) s.power.peers } }

/-- This device uses a ramp domain, and the members of it. -/
def inDomain (s : State) : Bool := isSet s Reg.PWR_DOM_DOM_EN
def members (s : State) : List Nat := (List.range 64).filter fun i => (getF s Reg.PWR_DOM_MEMBERS_MEMBERS).testBit i

/-- Missed periods after which a member is silent, and absent (R535). -/
def silentAt : Nat := 10
def absentAt : Nat := 1009

/-- At a boundary another member's message is new, or the member is missed (R535). -/
def agePeer (s : State) (i : Nat) : State :=
  if i = myNode s then s
  else
    let x := rampPeer s i
    let bit (a : State) (b : Bool) : State :=
      let v := getF a Reg.PWR_DOM_SILENT_SILENT
      setF a Reg.PWR_DOM_SILENT_SILENT (if v.testBit i = b then v else if b then v + 2 ^ i else v - 2 ^ i)
    if x.fresh then bit (setRampPeer s i { x with fresh := false, missed := 0 }) false
    else
      let m := x.missed + 1
      let s1 := bumpSat (setRampPeer s i { x with missed := min m absentAt }) Reg.PWR_DOM_MISSED_MISSED 1
      if m = silentAt then bit (raise (powerEvent s1 6) Reg.PWR_STATUS_PEER_SILENT) true else s1

/-- The request pair of a member (R534, R535); none for an absent one. -/
def requestOf (s : State) (i : Nat) : Option (Nat × Nat × Nat) :=
  if i = myNode s then
    match s.power.sent with
    | some x => some (i, x.raise, x.power - x.next)
    | none => some (i, 0, 0)
  else
    let x := rampPeer s i
    if absentAt ≤ x.missed then none
    else if silentAt ≤ x.missed then some (i, getF s Reg.PWR_DOM_SLEW_DOM_UP * 100, 0)
    else some (i, x.raise, x.power - x.next)

/-- g_up and g_down of the period that begins; a rundown uses the local fall allowance (R530, R534, R548). -/
def allowancesOf (s : State) : State × Nat × Nat :=
  if inDomain s && stage s == 6 then
    let s1 := (members s).foldl agePeer s
    let g := rampGrants ((members s1).filterMap (requestOf s1)) (getF s1 Reg.PWR_DOM_SLEW_DOM_UP * 100)
      (getF s1 Reg.PWR_DOM_SLEW_DOM_DOWN * 100)
    let mine (l : List (Nat × Nat)) : Nat := ((l.find? fun e => e.1 == myNode s).map (·.2)).getD 0
    let s2 := setF (setF s1 Reg.PWR_DOM_RISE_GRANT (mine g.1)) Reg.PWR_DOM_FALL_GRANT (mine g.2)
    (s2, mine g.1, mine g.2)
  else (s, upLocal s, downLocal s)

/-- The message of the period just ended (spec/15, section Ramp-domain exchange), kept until RAMP_SEND sends it. -/
def nextRamp (s : State) (tgt ballast : Nat) (busy : Bool) : RampPeer :=
  { power := tgt, next := tgt - min (downLocal s) ballast
    raise := if busy then min (upLocal s) (min (limitInForce s) (getF s Reg.PWR_THERM_CAP_MW) - tgt) else 0
    fresh := true, missed := 0 }

/-! ## CCLK steps (R545, R546, R719) -/

/-- CCLK switches to step `k`. -/
def switchTo (s : State) (k : Nat) : State :=
  updatePred (setF (setF s Reg.PWR_STATE_STEP k) Reg.HST_CLK_FREQ_CCLK_MHZ (stepMhz k))

/-- CCLK runs. -/
def cclkOn (s : State) : Bool := (getF s Reg.HST_CLK_STATUS_LOCK).testBit 0

/-- Begin a change to step `k`: up, VID first; down, CCLK first. A change down that meets one under way waits for it. -/
def changeStep (s : State) (k : Nat) : State :=
  let cur := getF s Reg.PWR_STATE_STEP
  if !cclkOn s || k == cur && s.power.rising.isNone then s
  else match s.power.rising with
    | some (_, up) => if k < up then { s with power := { s.power with fallTo := some k } } else s
    | none =>
      let s1 := { s with power := { s.power with lastChange := s.qTime } }
      if cur < k then
        updatePred (setVid { s1 with power := { s1.power with rising := some (s.qTime, k) } } (stepVid k))
      else setVid (switchTo s1 k) (stepVid k)

/-- The highest step allowed (R544). -/
def highestStep (s : State) : Nat := min (getF s Reg.PWR_DVFS_STEP_MAX) (if boostOk s then 10 else 8)

/-- Rule 3's condition on power: static power of the next step, and the dynamic power scaled, within C(n) − 10 W. -/
def fitsUp (s : State) (k tgt ballast : Nat) : Bool :=
  let room := getF s Reg.PWR_CEILING_MW
  let st := staticAt s (k + 1) + 10000
  decide (st ≤ room ∧
    (tgt - staticNow s - ballast) * (stepK (k + 1) * stepMhz (k + 1)) ≤ (room - st) * (stepK k * stepMhz k))

/-- R545 at a period boundary, with P_tgt(n − 1), the ballast in it, and whether R537 requires a step down. -/
def stepRules (s : State) (tgt ballast : Nat) (capped : Bool) : State :=
  let k := getF s Reg.PWR_STATE_STEP
  let q := s.power
  let hi := highestStep s
  let dwell := decide (q.lastChange + 500000 ≤ s.qTime)
  if q.rising.isSome then s
  else if decide (getF s Reg.PWR_CEILING_MW < tgt) || capped || isSet s Reg.PWR_STATE_EMERGENCY || decide (hi < k) then
    (if k = 0 then s else changeStep s (k - 1))
  else if q.hist.length == 10 && q.hist.all (fun e => e.1 || e.2) && decide (getF s Reg.PWR_DVFS_STEP_MIN < k) && dwell then
    changeStep s (k - 1)
  else if !q.hist.any (·.1) && decide (k < hi) && dwell && fitsUp s k tgt ballast then changeStep s (k + 1)
  else s

/-- CCLK_SWITCH (R719): 40 µs after VID rose; a change down that waited follows. -/
def execCclkSwitch (s : State) : Host.Outcome State Fault Refusal :=
  match s.power.rising with
  | none => .next s
  | some (t, k) =>
    if s.qTime < t + 20000 ∨ cclkOn s = false then .next s
    else
      let s1 := switchTo { s with power := { s.power with rising := none, fallTo := none } } k
      .next (match s.power.fallTo with
        | some d => changeStep s1 d
        | none => s1)

/-! ## A period -/

/-- A reading counts (R552). -/
def sensorOk (x : Sensor) : Bool := decide (-320 ≤ x.t8 ∧ x.t8 ≤ 1200) && decide (x.stale < 10)

/-- Half or more of the 32 sensors are invalid: a thermal emergency is held (R552). -/
def sensorsBad (s : State) : Bool := decide ((s.power.sensors.filter fun e => sensorOk e.2).length ≤ 16)

/-- The die sensors of the ended period (R541, R552); with no valid reading T_d stays. -/
def readSensors (s : State) (rs : List (Nat × Int)) : State :=
  let upd (i : Nat) : List (Nat × Sensor) :=
    match rs.find? fun e => e.1 == i with
    | some e => [(i, { t8 := e.2, stale := 0 })]
    | none => (s.power.sensors.filter fun e => e.1 == i).map fun e => (i, { e.2 with stale := min 10 (e.2.stale + 1) })
  let l := (List.range 32).flatMap upd
  let s1 := { s with power := { s.power with sensors := l } }
  let t := (l.filter fun e => sensorOk e.2).foldl (fun a e => match a with
    | none => some e.2.t8
    | some m => some (max m e.2.t8)) (none : Option Int)
  let s2 := match t with
    | some m => setF s1 Reg.PWR_THERM_T_D (BitVec.ofInt 16 m).toNat
    | none => s1
  let top := (BitVec.ofNat 16 s2.set.life.maxTd).toInt
  let s3 := if top < tDie s2 then
      { s2 with set := { s2.set with life := { s2.set.life with maxTd := getF s2 Reg.PWR_THERM_T_D } } }
    else s2
  let calm := decide (tDie s3 + 40 ≤ 8 * (getF s3 Reg.PWR_THERM1_T_LIMIT : Int)) && !sensorsBad s3
  { s3 with power := { s3.power with
      calmAt := if calm then (match s3.power.calmAt with | some x => some x | none => some s3.qTime) else none } }

/-- The rail power monitor (R540, R553). -/
def readMonitor (s : State) (meas : Option Nat) : State :=
  match meas with
  | some m => setF { s with power := { s.power with monStale := 0 } } Reg.PWR_MEAS_MW (min m (2 ^ 32 - 1))
  | none =>
    let n := s.power.monStale + 1
    let s1 := { s with power := { s.power with monStale := min n 10 } }
    if n = 10 then raise s1 Reg.PWR_STATUS_MON_FAIL else s1

/-- g within 0.75 to 1.50, in 1/1024. -/
def clampGain (g : Nat) : Nat := max 768 (min 1536 g)

/-- The excursion rule (R537): whether the ended period requires a step down. A predicted dynamic power of 0 leaves the
new g without a value. -/
def excursion (s : State) (pred : Nat) : State × Bool :=
  let m := getF s Reg.PWR_MEAS_MW
  let above := decide (1000 * getF s Reg.PWR_CAP_CAP_W < m)
  let n := if above then s.power.overBy + 1 else 0
  let brk := decide (330000 < m) || decide (99 < n)
  let s1 := { s with power := { s.power with overBy := n, capping := brk || s.power.capping && above } }
  if 10 ≤ s.power.monStale then (s, false)
  else if !brk then (s1, s1.power.capping)
  else
    let st := staticNow s
    let e := draw s1
    let g := getF s Reg.PWR_GAIN_GAIN
    let s2 := if pred ≤ st then setF e.2 Reg.PWR_GAIN_GAIN (clampGain (Config.freeNat e.1))
      else setF s1 Reg.PWR_GAIN_GAIN (clampGain (g * (m - st) / (pred - st)))
    (powerEvent (raise s2 Reg.PWR_STATUS_CAP_ENFORCED) 1, true)

/-- The coolant estimate (R541), every period and every 100th; without TAU_COOL_S the spec gives the first no value. -/
def coolant (s : State) (hundred : Bool) : State :=
  let q := s.power
  let m : Int := getF s Reg.PWR_MEAS_MW
  let tau := getF s Reg.PWR_THERM3_TAU_COOL_S
  let src : Int := (getF s Reg.PWR_THERM1_T_IN : Int) * 2 ^ 32 + (getF s Reg.PWR_THERM3_RCL : Int) * m * 2 ^ 32 / 4096000
  let e := draw s
  let t1 : Int := if tau = 0 then (Config.freeNat e.1 : Int) else q.tC + (src - q.tC) / (10000 * (tau : Int))
  let s1 := if tau = 0 then e.2 else s
  let goal : Int := tDie s * 2 ^ 29 - (getF s Reg.PWR_THERM1_RJC : Int) * m * 2 ^ 32 / 4096000
  let t2 := if hundred then t1 + (goal - t1) / 4 else t1
  setF { s1 with power := { s1.power with tC := t2 } } Reg.PWR_THERM_T_C (BitVec.ofInt 16 (t2 / 2 ^ 29)).toNat

/-- The gain at the end of every 100th period (R540). -/
def gainStep (s : State) (hundred : Bool) : State :=
  let q := s.power
  let sm : Int := q.sumMeas + ((getF s Reg.PWR_MEAS_MW : Int) - staticNow s) * 50000
  if !hundred then { s with power := { q with sumMeas := sm } }
  else
    let s1 := { s with power := { q with sumMeas := 0, sumPred := 0 } }
    if q.sumPred < 20000 * 100 * 50000 ∨ 10 ≤ q.monStale then s1
    else setF s1 Reg.PWR_GAIN_GAIN (clampGain ((3 * getF s Reg.PWR_GAIN_GAIN * q.sumPred + 1024 * sm) / (4 * q.sumPred)).toNat)

/-- The end of period n − 1: target power and its fall, the rules on measured power, the history. Answers P_tgt(n − 1),
the ballast in it, whether R537 requires a step down, and whether a composition was trimmed or waited. -/
def closePeriod (s : State) : State × Nat × Nat × Bool × Bool :=
  let pred := getF s Reg.PWR_PRED_MW
  let b := getF s Reg.PWR_BALLAST_MW_MW
  let tgt := pred + b
  let s1 := if tgt + s.power.gDown < getF s Reg.PWR_TARGET_MW then raise (powerEvent s 2) Reg.PWR_STATUS_DROP_UNSHAPED else s
  let s2 := updatePred (setF s1 Reg.PWR_TARGET_MW tgt)
  let n := s2.power.count + 1
  let hundred := n % 100 == 0
  let x := excursion (gainStep (coolant { s2 with power := { s2.power with count := n } } hundred) hundred) pred
  let q := x.1.power
  let s3 := { x.1 with power := { q with
    hist := ((q.trimmed, q.waited) :: q.hist).take 10, trimmed := false, waited := false } }
  (s3, tgt, b, x.2, q.trimmed || q.waited)

/-- PLANISHER_PERIOD (R530 to R553): sensors and monitor always; the rest in SERVICE and while ballast runs down. -/
def execPlanisherPeriod (meas : Option Nat) (sensors : List (Nat × Int)) (s : State) :
    Host.Outcome State Fault Refusal :=
  if s.qTime / 50000 ≤ s.power.period then .next s
  else
    let s1 := readMonitor (readSensors { s with power := { s.power with period := s.qTime / 50000 } } sensors) meas
    if stage s ≠ 6 ∧ s.power.rundown = false then .next (showPower s1)
    else
      let c := closePeriod s1
      let a := allowancesOf c.1
      let s2 := setBounds a.1 c.2.1 a.2.1 a.2.2
      if stage s ≠ 6 then .next (showPower s2)
      else
        let s3 := showPower (stepRules (showPower s2) c.2.1 c.2.2.1 c.2.2.2.1)
        let s4 := if inDomain s3 then
            { s3 with power := { s3.power with sent := some (nextRamp s3 c.2.1 c.2.2.1 c.2.2.2.2) } }
          else s3
        .next (retryWaits s4 none)

/-- HANDOVER_HOLD_EXPIRY (R529): 20 µs without a next ISSUE. -/
def execHandoverHoldExpiry (p : Nat) (s : State) : Host.Outcome State Fault Refusal :=
  let l := lane s p
  if l.cur.isSome ∨ l.power = 0 ∨ s.qTime < l.leftAt + 10000 then .next s
  else .next (setPower s p 0)

/-! ## Limits that change -/

/-- The limit in force may have changed: power waits end (R322, R533). -/
def limitChanged (s : State) : State := if serving s then retryWaits (showPower s) none else showPower s

/-- BATTERY_MODE_BEGIN (R536). -/
def execBatteryModeBegin (bbuLow : Bool) (s : State) : Host.Outcome State Fault Refusal :=
  let s1 := if bbuLow && !pinsHeld s then { s with power := { s.power with bbuLow := true } } else s
  if stage s ≠ 6 ∨ isSet s Reg.PWR_STATE_BATTERY = true ∨ (s1.power.bbuLow || shelfBatt s1) = false then .next s1
  else .next (limitChanged (beginBattery s1))

/-- BATTERY_MODE_END (R536): neither indication for 1 s. -/
def execBatteryModeEnd (s : State) : Host.Outcome State Fault Refusal :=
  let s1 := if pinsHeld s then s else { s with power := { s.power with bbuLow := false } }
  if isSet s Reg.PWR_STATE_BATTERY = false ∨ s1.power.bbuLow = true ∨ shelfBatt s1 = true ∨
      s.aTime < s.power.battAt + 500000000 then .next s1
  else .next (limitChanged (setF s1 Reg.PWR_STATE_BATTERY 0))

/-- A LINEAR11 word in thousandths of its unit, rounded down (PMBus 1.3). -/
def linear11 (w : Nat) : Int :=
  let y : Int := (BitVec.ofNat 11 w).toInt * 1000
  let n : Int := (BitVec.ofNat 5 (w / 2048)).toInt
  if 0 ≤ n then y * 2 ^ n.toNat else y / 2 ^ (-n).toNat

/-- The commands of a poll (Table 15.4). -/
def pollCommands (s : State) (tenth : Bool) : List Nat :=
  [0x79, 0x88, 0x89, 0x97, 0x96] ++ (if tenth then [0x8D] else []) ++
    (if s.power.battCmd = 0 then [] else [s.power.battCmd])

/-- Send a read command to device `d`. -/
def pmbusSend (s : State) (d cmd : Nat) : State := emit s (.pmbus (getF s (Reg.PWR_SHELF_ADDR d)) cmd)

/-- A PMBus transaction: when its attempt is NACKed it is repeated once, and a repeat that succeeds counts as F1 (R449,
Table 13.5). -/
def pmbusRead (s : State) (d cmd : Nat) (again : Bool) : State :=
  let s1 := pmbusSend s d cmd
  if again then recordFault (pmbusSend s1 d cmd) 0x18 1 false false nobody nobody d else s1

/-- A transaction with device `d` fails on its attempt and on its repeat: the device becomes unreachable (R539, Table 13.4,
Table 13.10). -/
def shelfLost (s : State) (d cmd : Nat) : State :=
  let s1 := setF (pmbusSend (pmbusSend s d cmd) d cmd) (Reg.PWR_SHELF_REACHABLE d) 0
  setCause (recordFault (raise (powerEvent s1 5) Reg.PWR_STATUS_SHELF_UNREACH) 0x18 1 true false nobody nobody d) 4

/-- A reachable device's STATUS_WORD (Table 15.4); without a BATT_CMD its bit 13 tells of the battery. -/
def showStatus (s : State) (d status : Nat) : State :=
  let s1 := setF (setF s (Reg.PWR_SHELF_STATUS_WORD d) status) (Reg.PWR_SHELF_OVERLOAD d)
    (if status.testBit 14 || status.testBit 4 then 1 else 0)
  if s.power.battCmd = 0 then setF s1 (Reg.PWR_SHELF_BATT d) (if status.testBit 13 then 1 else 0) else s1

/-- What one read of a poll shows (Table 15.4). -/
def showRead (s : State) (d : Nat) (x : ShelfRead) (cmd : Nat) : State :=
  let s1 := if cmd = 0x98 then { s with power := { s.power with contacted := d :: s.power.contacted } }
    else if cmd = 0x79 then showStatus s d x.status
    else if cmd = 0x97 then setF s (Reg.PWR_SHELF_PIN_MW d) (BitVec.ofInt 32 (linear11 x.pin)).toNat
    else if cmd = 0x96 then setF s (Reg.PWR_SHELF_POUT_MW d) (BitVec.ofInt 32 (linear11 x.pout)).toNat
    else s
  if s.power.battCmd ≠ 0 ∧ cmd = s.power.battCmd then
    setF s1 (Reg.PWR_SHELF_BATT d) (if x.batt &&& s.power.battMask != 0 then 1 else 0)
  else s1

/-- The transactions of a poll with a device, in order, up to one that fails. -/
def pollReads (d : Nat) (x : ShelfRead) : List Nat → Nat → State → State
  | [], _, s => s
  | c :: cs, k, s =>
    if x.failed = some k then shelfLost s d c
    else pollReads d x cs (k + 1) (showRead (pmbusRead s d c (x.retried.contains k)) d x c)

/-- One device of a poll. -/
def pollOne (reads : List (Nat × ShelfRead)) (tenth : Bool) (s : State) (d : Nat) : State :=
  if !isSet s (Reg.PWR_SHELF_VALID d) || !isSet s (Reg.PWR_SHELF_REACHABLE d) then s
  else
    let cmds := (if s.power.contacted.contains d then [] else [0x98]) ++ pollCommands s tenth
    match reads.find? fun e => e.1 == d with
    | none => shelfLost s d ((cmds[0]?).getD 0x79)
    | some (_, x) => pollReads d x cmds 0 s

/-- A shelf change takes effect; the last time a shelf reported battery state is noted (R536). -/
def afterShelf (old s : State) : State :=
  limitChanged (if shelfBatt old then { s with power := { s.power with battAt := s.aTime } } else s)

/-- PMBUS_POLL (R538, R539): every 10 ms, every configured device that is reachable. -/
def execPmbusPoll (reads : List (Nat × ShelfRead)) (s : State) : Host.Outcome State Fault Refusal :=
  if s.aTime < s.power.polledAt + 5000000 then .next s
  else
    let n := s.power.polls + 1
    let s1 := { s with power := { s.power with polledAt := s.aTime, polls := n } }
    .next (afterShelf s ((List.range 8).foldl (pollOne reads (n % 10 == 1)) s1))

/-- SHELF_RETRY (R539): once a second; the first success makes the device reachable again. -/
def execShelfRetry (d : Nat) (status : Option (Nat × Bool)) (s : State) : Host.Outcome State Fault Refusal :=
  let at_ := spGet (fun _ => 0) s.power.tried d
  if 8 ≤ d ∨ isSet s (Reg.PWR_SHELF_VALID d) = false ∨ isSet s (Reg.PWR_SHELF_REACHABLE d) = true ∨
      s.aTime < at_ + 500000000 then .next s
  else
    let s1 := { s with power := { s.power with tried := spPut (fun _ => 0) d s.aTime s.power.tried } }
    match status with
    | none => .next (recordFault (pmbusSend (pmbusSend s1 d 0x79) d 0x79) 0x18 1 true false nobody nobody d)
    | some (w, again) =>
      let s2 := pmbusSend (setF (pmbusRead s1 d 0x79 again) (Reg.PWR_SHELF_REACHABLE d) 1) d 0x98
      .next (afterShelf s (showStatus s2 d w))

/-! ## Thermal emergency (R543) -/

/-- THERMAL_EMERGENCY_BEGIN: T_d, COOL_ALERT_N or the sensors (R543, R552), once CCLK runs (Table 21.4); in HOLD
THERM_EMERG is set with CCLK at step 0 (Table 15.6). -/
def execThermalEmergencyBegin (alertLow : Bool) (s : State) : Host.Outcome State Fault Refusal :=
  let s1 := if alertLow && !pinsHeld s then { s with power := { s.power with coolLow := true } } else s
  let hot := decide (8 * (getF s Reg.PWR_THERM1_T_LIMIT : Int) ≤ tDie s)
  if (cclkOn s = false ∧ stage s ≠ 7) ∨ isSet s Reg.PWR_STATE_EMERGENCY = true ∨
      (hot || s1.power.coolLow || sensorsBad s1) = false then
    .next s1
  else
    let s2 := powerEvent (raise (setF s1 Reg.PWR_STATE_EMERGENCY 1) Reg.PWR_STATUS_THERM_EMERG) 3
    let e := thermCap s2
    let s3 := setF e.2 Reg.PWR_THERM_CAP_MW (min e.1 (2 ^ 32 - 1))
    .next (limitChanged (updatePred (changeStep { s3 with power := { s3.power with calmAt := none } } 0)))

/-- THERMAL_EMERGENCY_END: both conditions for 100 ms. -/
def execThermalEmergencyEnd (s : State) : Host.Outcome State Fault Refusal :=
  let s1 := if pinsHeld s then s else { s with power := { s.power with coolLow := false } }
  match s.power.calmAt with
  | none => .next s1
  | some t =>
    if isSet s Reg.PWR_STATE_EMERGENCY = false ∨ s1.power.coolLow = true ∨ sensorsBad s1 = true ∨ s.qTime < t + 50000000 then
      .next s1
    else .next (limitChanged (updatePred (setF s1 Reg.PWR_STATE_EMERGENCY 0)))

/-! ## RAMP and STAMP (R515, R516) -/

/-- RAMP: the newest message of a member is kept for the next boundary; in HOLD it is discarded (R517). -/
def execRamp (src : Nat) (r : RampMsg) (s : State) : Host.Outcome State Fault Refusal :=
  if stage s = 7 then .next (linkDropped s)
  else if stage s ≠ 6 ∨ inDomain s = false ∨ r.dom ≠ getF s Reg.PWR_DOM_DOM_ID ∨ src = myNode s ∨
      (members s).contains src = false then .next s
  else .next (setRampPeer s src { rampPeer s src with power := r.power, next := r.next, raise := r.raise, fresh := true })

/-- RAMP_SEND: the message of the period just ended, to every other member. -/
def execRampSend (s : State) : Host.Outcome State Fault Refusal :=
  match s.power.sent with
  | none => .next s
  | some x =>
    if stage s ≠ 6 ∨ inDomain s = false ∨ x.fresh = false then .next s
    else
      let flags := (if isSet s Reg.PWR_STATE_BATTERY then 1 else 0) + (if isSet s Reg.PWR_STATE_EMERGENCY then 2 else 0) +
        (if fallbackOn s then 4 else 0)
      let m : RampMsg :=
        { dom := getF s Reg.PWR_DOM_DOM_ID, period := s.power.period % 2 ^ 32, power := x.power, next := x.next
          raise := x.raise, flags := flags }
      let s1 := { s with power := { s.power with sent := some { x with fresh := false } } }
      .next (((members s).filter fun i => i != myNode s).foldl (fun a i => sendBare a i (.ramp m)) s1)

/-- LINK records of a STAMP go to every partition's trace (spec/20, section Trace). -/
def traceStamp (s : State) (port peer msg stamp : Nat) (recv : Bool) : State :=
  (List.range 16).foldl (fun a p => traceLink a p 0xFFFF 0 port 0x21 peer msg stamp s.lTime recv) s

/-- STAMP: received; a LINK record where trace is enabled. -/
def execStamp (h : LinkHdr) (time : Nat) (s : State) : Host.Outcome State Fault Refusal :=
  if stage s = 7 then .next (linkDropped s) else .next (traceStamp s h.port h.src h.msg time true)

/-- STAMP_SEND: every STAMP_MS ms, on each active port to the node on its other end. -/
def execStampSend (s : State) : Host.Outcome State Fault Refusal :=
  let ms := getF s Reg.CZL_NODE_STAMP_MS
  if ms = 0 ∨ s.lTime < s.stampAt + 500000 * ms ∨ stage s = 7 then .next s
  else
    .next ((List.range 12).foldl (fun a n =>
      if !portUp a n then a
      else
        let node := getF a (Reg.CZL_PORT_PEER_NODE n)
        let no := a.msgNo
        let m := LinkMsg.stamp a.lTime
        let a1 := queueFlits { a with msgNo := (no + 1) % 65536 } n 12 (flitsOf m (getF a Reg.CZL_NODE_MAX_HOPS) node (myNode a) no)
        emit (traceStamp a1 n node no a.lTime false) (.link node m)) { s with stampAt := s.lTime })

end Sys2Proof.Machine
end

