-- ==== Sys2Proof/Machine/Preempt.lean ====
section
/-! DEFINITION. Preemption, save and restore, debug halts, and abandonment at the step deadline (spec/05, R168 to R189;
spec/09, Table 09.3; spec/14, R509). -/
namespace Sys2Proof.Machine

/-! ## Times (R177, R178) -/

/-- Bytes saved for each cluster that held a task: declared boundary accumulators in T mode, 96 KiB and the live SRAM in
I mode. -/
def savedBytes (st : Step) (modeI : Bool) : List Nat :=
  if modeI then (st.stopped.map (·.2) ++ st.running.map fun e => e.2.1).map fun t => 98304 + t.liveSram
  else st.stopped.map fun e => e.2.boundaryAcc

/-- max(S_cl / 64 GB/s, S_tot / B_p) in ticks, rounded up; B_p is 1,310.72 bytes a tick for each grove. -/
def moveTicks (s : State) (p : Nat) (saved : List Nat) : Nat :=
  let most := saved.foldl max 0
  let total := saved.foldl (· + ·) 0
  max (ceilDiv most 128) (ceilDiv (total * 100) (131072 * max 1 (grovesOf s p)))

/-- The least time of a save and of a restore. -/
def saveTicks (s : State) (p : Nat) (st : Step) (modeI : Bool) : Nat :=
  (if modeI then 1400 else 600) + moveTicks s p (savedBytes st modeI)
def restoreTicks (s : State) (p : Nat) (st : Step) : Nat :=
  (if st.modeI then 1200 else 500) + moveTicks s p st.saved

/-! ## Raising and stopping -/

/-- Contexts with work of a class below the holder's (R168). -/
def rivals (s : State) (p cls : Nat) : List Nat := (ctxsOf s p).filter fun g => hasWork s g && decide (classOf s g < cls)

/-- The rival whose step is composed: of the lowest class, the first after the last holder (R166). -/
def chooseRival (s : State) (p : Nat) (gs : List Nat) : Option Nat :=
  match (gs.map (classOf s)).min? with
  | some c => afterHolder (lane s p).lastHolder (gs.filter fun g => classOf s g == c)
  | none => none

/-- The lane composes the preempting step while the holder is stopped and saved (R170). -/
def composeFor (s : State) (p g : Nat) : State :=
  let l := lane s p
  if l.composing.isSome || l.nextStep.isSome then s
  else setLane s p { l with composing := some (openCompose s p g) }

/-- PREEMPT_RAISE (R168, R171, R173): in I mode with FORCE_I or an untiled task running. A group step is never preempted
(R500). -/
def execPreemptRaise (p : Nat) (s : State) : Host.Outcome State Fault Refusal :=
  let l := lane s p
  match l.cur with
  | none => .next s
  | some st =>
    if !serving s || !isSet s (Reg.CMP_SWITCH_CTL_PREEMPT_EN p) || st.st != .execute || l.preempt.isSome ||
        l.restoreAt.isSome || st.group.isSome || l.halted || decide (3 ≤ l.pre.length) then .next s
    else match chooseRival s p (rivals s p (classOf s st.ctx)) with
      | none => .next s
      | some g =>
        let modeI := isSet s (Reg.CMP_SWITCH_CTL_FORCE_I p) || st.running.any fun e => !e.2.1.tiled
        .next (composeFor (raisePreempt s p (some g) modeI) p g)

/-- The bytes of a task's memory traffic that have issued. -/
def issuedBytes (s : State) (p cl : Nat) (t : Task) : Nat :=
  opsBytes t.ops - (heldOf s p 0).waits.foldl (fun a w => if w.1 = .task cl then a + w.2 else a) 0

/-- A cluster stops: its task has run as far as it has come, and stands among the stopped ones (R171, R174). -/
def stopTask (tiles : Bool) (p : Nat) (r : Run) (e : Nat × Task × Nat) : Run :=
  match stopCut tiles (issuedBytes r.s p e.1 e.2.1) r.s.free e.2.1.ops with
  | none => r
  | some (done, rest) =>
    let s0 := dropWaits (draw r.s).2 (· == .task e.1)
    let x := runOps p e.1 ⟨s0, cluster s0 e.1, r.st, r.bad⟩ done
    let st1 := { x.st with
      running := x.st.running.filter fun y => y.1 != e.1, stopped := x.st.stopped ++ [(e.1, { e.2.1 with ops := rest })] }
    { x with s := setCluster x.s e.1 x.c, st := st1 }

/-- CLUSTER_TILE_STOP (R171, R172): the cluster stops at its next tile boundary; after the last one the save begins. -/
def execClusterTileStop (p cl : Nat) (s : State) : Host.Outcome State Fault Refusal :=
  let l := lane s p
  match l.cur, l.preempt with
  | some st, some pr =>
    match st.running.find? fun e => e.1 == cl with
    | some e =>
      if pr.modeI || pr.saveAt.isSome || waitOverdue pr s.qTime || !e.2.1.tiled then .next s
      else
        let r := stopTask true p ⟨s, Cluster.dead, st, false⟩ e
        let s1 := setCur r.s p r.st
        if r.bad then .next (refusedAccess s1 st.ctx) else .next (saveIfStopped s1 p)
    | none => .next s
  | _, _ => .next s

/-- The stop becomes an I-mode stop. -/
def toModeI (s : State) (p : Nat) (pr : Preempt) : State :=
  setGroves (setLane s p { lane s p with preempt := some { pr with modeI := true, saveAt := some s.qTime } }) p 5

/-- PREEMPT_ESCALATE (R173, R175): 200 µs without reaching the save. A last cluster that stops in that very tick comes first
(Table 05.2). -/
def execPreemptEscalate (p : Nat) (s : State) : Host.Outcome State Fault Refusal :=
  match (lane s p).preempt with
  | some pr =>
    if pr.modeI || pr.saveAt.isSome || !waitOverdue pr s.qTime then .next s
    else .next (raise (toModeI s p { pr with waitTicks := 100000 }) (Reg.CMP_PREEMPT_STATUS_ESCALATED p))
  | none => .next s

/-! ## Save and restore -/

/-- Tenants with a live sequence in a plan. -/
def planTenants (s : State) (plan : List PlanItem) : List Nat :=
  (List.range 64).filter fun t => (planReqs s plan).any fun i => match req? s i with
    | some r => r.tenant == t
    | none => false

/-- The preemption is counted for each tenant in the plan, once for a step (Table 12.6). -/
def countPreempted (s : State) (st : Step) : State :=
  if st.preempted then s
  else (planTenants s st.plan).foldl (fun a t =>
    if acctFull a t then bump a (Reg.PRT_ACCT_PREEMPTED_PREEMPTED t) 1 else a) s

/-- Registers of a completed save. -/
def noteSave (s : State) (p : Nat) (st : Step) (pr : Preempt) (at_ : Nat) : State :=
  let s1 := setF s (Reg.CMP_SWITCH_TIME_SAVE p) (min 65535 (s.qTime - at_))
  let s2 := if pr.waitTicks ≠ 0 ∨ pr.modeI = false then setF s1 (Reg.CMP_WAIT_TIME_WAIT p) (min 131071 pr.waitTicks) else s1
  let s3 := if pr.modeI then bumpSat s2 (Reg.CMP_PREEMPT_CNT_I_SAVES p) 1 else bumpSat s2 (Reg.CMP_PREEMPT_CNT_T_SAVES p) 1
  let s4 := setF s3 (Reg.CMP_CTX_STATE_MODE p (ctxLocal st.ctx)) (if pr.modeI then 1 else 0)
  bump s4 (Reg.TRC_PART_COUNT p 4) 1

/-- The preempting step issues; one of a still lower class that has got work takes its place, be the first composed or still
in COMPOSE (Table 05.2), but not while it waits for power (R322). -/
def issuePreempting (s : State) (p : Nat) : State :=
  let l := lane s p
  match l.nextStep, l.composing with
  | some st, _ =>
    match chooseRival s p (rivals s p (classOf s st.ctx)) with
    | some g =>
      let s1 := discardStep s p st
      composeFor (setLane s1 p { lane s1 p with nextStep := none }) p g
    | none => issueStep s p
  | none, some c =>
    match chooseRival s p (rivals s p (classOf s c.ctx)) with
    | some g => if l.powerWait.isSome then s else composeFor (setLane s p { l with composing := none }) p g
    | none => s
  | none, none => s

/-- Every cluster that holds a task is stopped where an I-mode stop found it (R174). -/
def stopAll (s : State) (p : Nat) (st : Step) : Run :=
  st.running.foldl (stopTask false p) ⟨s, Cluster.dead, st, false⟩

/-- PREEMPT_SAVE_DONE (R172, R174, R177, R179): the step's state is in the save area, and the groves are free. -/
def execPreemptSaveDone (p : Nat) (s : State) : Host.Outcome State Fault Refusal :=
  let l := lane s p
  match l.cur, l.preempt with
  | some st, some pr =>
    match pr.saveAt with
    | none => .next s
    | some t =>
      if s.qTime < t + saveTicks s p st pr.modeI then .next s
      else
        let r := stopAll s p st
        if r.bad then .next (refusedAccess (setCur r.s p r.st) st.ctx)
        else
          let bytes := savedBytes r.st pr.modeI
          let e := saveStep (chargeOnly r.s p 0 (bytes.foldl (· + ·) 0)) p r.st pr.modeI
          let st1 := { e.2 with saved := bytes, modeI := pr.modeI, preAt := t, preempted := true }
          let s1 := setLane e.1 p { lane e.1 p with cur := none, preempt := none, pre := st1 :: l.pre }
          let s2 := noteSave s1 p st1 pr t
          let s3 := stepRecord (countPreempted (setPower (setGroves s2 p 0) p 0) st) p st1 3
          .next (issuePreempting s3 p)
  | _, _ => .next s

/-- The WAIT record of a preemption, from its raise (Table 20.3). -/
def preemptWait (s : State) (p : Nat) (st : Step) (abandoned : Bool) : State :=
  match st.preBy with
  | some g => traceWait s p st.ctx st.tag st.raisedAt s.qTime 5 g (7, st.ctx) (7, g) abandoned
  | none => s

/-- RESTORE_DONE (R178 to R180, R188): the step resumes on the clusters it was saved from, with what their tasks have still to
do; a lasting read failure of the save area is an F2 fault of the context. -/
def execRestoreDone (p : Nat) (bad : Option Nat) (s : State) : Host.Outcome State Fault Refusal :=
  let l := lane s p
  match l.cur, l.restoreAt with
  | some st, some t =>
    match bad with
    | some x => .next (lastingRead s x)
    | none =>
      if s.qTime < t + restoreTicks s p st then .next s
      else
        let st1 := { st with
          running := st.stopped.map (fun e => (e.1, e.2, s.cTime)), stopped := [], lost := st.lost + (s.qTime - st.preAt) }
        let s0 := restoreStep (chargeOnly s p 0 (st.saved.foldl (· + ·) 0)) p st
        let s0b := setLane s0 p { lane s0 p with cur := some { st1 with kept := [] }, restoreAt := none, preempt := none }
        let s1 := setGroves (st.stopped.foldl (fun a e => offerTask a p e.1 e.2) s0b) p 1
        let s2 := setF (setPower s1 p st1.power) (Reg.CMP_SWITCH_TIME_RESTORE p) (min 65535 (s.qTime - t))
        let s3 := dispatch (preemptWait (stepRecord s2 p st1 4) p st1 false) p
        if (lane s3 p).halted then .next (raisePreempt s3 p none true) else .next (toSample s3 p)
  | _, _ => .next s

/-- IMODE_STOP_TIMEOUT (R189): a cluster still runs 10 µs after an I-mode stop: fault 0x0A. -/
def execImodeStopTimeout (p cl : Nat) (s : State) : Host.Outcome State Fault Refusal :=
  let l := lane s p
  match l.cur, l.preempt with
  | some st, some pr =>
    match pr.saveAt with
    | some t =>
      if pr.modeI && st.running.any (fun e => e.1 == cl) && decide (t + 5000 ≤ s.qTime) then
        .next (partFault s 0x0A p (ctxLocal st.ctx) (groveDetail (cl / 80) (cl % 80)))
      else .next s
    | none => .next s
  | _, _ => .next s

/-- SAVE_WRITE_TIMEOUT (R189): a save is not complete 100 µs after its start: fault 0x0A. -/
def execSaveWriteTimeout (p : Nat) (s : State) : Host.Outcome State Fault Refusal :=
  let l := lane s p
  match l.cur, l.preempt with
  | some st, some pr =>
    match pr.saveAt with
    | some t =>
      if t + 50000 ≤ s.qTime then .next (partFault s 0x0A p (ctxLocal st.ctx) (groveDetail (firstGrove s p) 0)) else .next s
    | none => .next s
  | _, _ => .next s

/-! ## Debug halts (R173, R176) -/

/-- DEBUG_HALT: accepted while the owner state is OPEN or SERVICE; the step in EXECUTE is saved in I mode, at once also
from a T-mode wait (Table 05.2). A T-mode save that is already under way goes on and keeps its mode, and a halt adds a step
to three that are preempted already: the spec settles neither (DESIGN CHOICE against R176 and R182,
notes/assumptions/71.md). -/
def execDebugHalt (p : Nat) (s : State) : Host.Outcome State Fault Refusal :=
  if getF s Reg.MGT_STATUS_OWNER = 1 ∨ partValid s p = false ∨ serving s = false then .next s
  else
    let s1 := setLane s p { lane s p with halted := true }
    let l := lane s1 p
    match l.cur, l.preempt with
    | some st, some pr =>
      let s2 := setLane s1 p { l with cur := some { st with preBy := none }, preempt := some { pr with debug := true } }
      if pr.modeI || pr.saveAt.isSome then .next s2 else .next (toModeI s2 p { pr with debug := true })
    | some st, none =>
      if st.st = .execute ∧ l.restoreAt = none ∧ st.group = none then .next (raisePreempt s1 p none true) else .next s1
    | none, _ => .next s1

/-- A preempting step composed before the halt is dropped with its composition: once the halted step is restored, R168 raises
a preemption against it anew (notes/assumptions/71.md). -/
def dropNext (s : State) (p : Nat) : State :=
  let s1 := match (lane s p).nextStep with | some st => discardStep s p st | none => s
  setLane s1 p { lane s1 p with nextStep := none, composing := none, powerWait := none }

/-- DEBUG_HALT_RELEASE: the halted step is restored. -/
def execDebugHaltRelease (p : Nat) (s : State) : Host.Outcome State Fault Refusal :=
  let l := lane s p
  if !l.halted then .next s
  else
    let s1 := setLane s p { l with halted := false }
    match l.pre with
    | z :: rest =>
      if z.preBy.isNone && l.cur.isNone && l.acks.isEmpty then .next (startRestore (dropNext s1 p) p z rest)
      else .next (issueStep s1 p)
    | [] => .next (issueStep s1 p)

/-! ## The deadline -/

/-- The flag of Table 05.2 for a holder that is being stopped, saved or restored at its deadline. -/
def abandonFlag (s : State) (p : Nat) : State :=
  let l := lane s p
  if l.restoreAt.isSome then raise s (Reg.CMP_PREEMPT_STATUS_ABANDON_RESTORE p)
  else match l.preempt with
    | some pr =>
      match pr.saveAt with
      | some t =>
        if pr.modeI ∧ s.qTime < t + 500 then raise s (Reg.CMP_PREEMPT_STATUS_ABANDON_WAIT p)
        else raise s (Reg.CMP_PREEMPT_STATUS_ABANDON_SAVE p)
      | none => raise s (Reg.CMP_PREEMPT_STATUS_ABANDON_WAIT p)
    | none => s

/-- CMP_ABN_LOG STATE at the deadline. -/
def logCode (s : State) (p : Nat) (st : Step) : Nat :=
  if (lane s p).restoreAt.isSome then 3
  else match st.st with | .issue => 0 | .execute => 1 | .sample => 2

/-- The step that holds the groves is abandoned (Table 09.3, R71, R509). -/
def abandonHolder (s : State) (p : Nat) (st : Step) : State :=
  let code := logCode s p st
  let s1 := abandonFlag s p
  let s2 := if (lane s1 p).restoreAt.isSome then preemptWait s1 p st true else s1
  let s3 := abandonGroup (abandonStep s2 p st code) p st
  afterLeave (raiseAbandon (clearCur s3 p) p st.ctx) st.ctx

/-- A preempted step is abandoned; no ABANDON is raised (Table 05.2). -/
def abandonPreempted (s : State) (p : Nat) (st : Step) : State :=
  let s1 := raise s (Reg.CMP_PREEMPT_STATUS_ABANDON_PREEMPTED p)
  let s2 := abandonStep (preemptWait s1 p st true) p st 3
  let l := lane s2 p
  afterLeave (setLane s2 p { l with pre := l.pre.filter (· != st) }) st.ctx

/-- STEP_DEADLINE (R24, R329): of the context with local number `n`; a follower measures no deadline (R503). -/
def execStepDeadline (p n : Nat) (s : State) : Host.Outcome State Fault Refusal :=
  let l := lane s p
  let due (st : Step) : Bool := ctxLocal st.ctx == n && decide (st.deadline ≤ s.qTime) && !st.follower
  if !serving s || partResetting s p then .next s
  else match l.cur.filter due with
    | some st => .next (settleCancels (abandonHolder s p st))
    | none => match l.pre.find? due with
      | some st => .next (abandonPreempted s p st)
      | none => .next s

/-- The last acknowledge is in: ABANDON is lowered, a follower answers its leader, and the next step may issue. -/
def abandonDone (s : State) (p : Nat) : State :=
  let l := lane s p
  if !l.acks.isEmpty || !l.nodeAcks.isEmpty then s
  else
    let s0 := setLane s p { l with abandoned := none }
    let s1 := if l.cur.isNone then setGroves s0 p 0 else s0
    let s2 := match l.ackTo with
      | some (slot, tag) =>
        let s' := setLane s1 p { lane s1 p with ackTo := none }
        match leaderNode s' slot with
        | some n => sendMsg s' p nobody tag n (.abandonAck (gidOf s' slot) tag)
        | none => s'
      | none => s1
    issueStep s2 p

/-- GROVE_ABANDON_ACK (R71, R72). -/
def execGroveAbandonAck (p g : Nat) (s : State) : Host.Outcome State Fault Refusal :=
  let l := lane s p
  if !l.acks.contains g then .next s
  else
    let s1 := abandonDone (setLane s p { l with acks := l.acks.filter (· != g) }) p
    .next (if (lane s1 p).acks.isEmpty && (lane s1 p).nodeAcks.isEmpty then retryWaits s1 (some p) else s1)

/-- COMPOSE_TIMEOUT (R342): fault 0x0F of lane `p`. -/
def execComposeTimeout (p : Nat) (s : State) : Host.Outcome State Fault Refusal :=
  if serving s && composeLate s p then .next (partFault s 0x0F p nobody 0) else .next s

end Sys2Proof.Machine
end

