-- ==== Sys2Proof/Machine/Groups.lean ====
section
/-! DEFINITION. Replica groups and the messages between devices (spec/14, R495 to R514, R520): routes, formation, heartbeats,
the leader's and the followers' sides of a group step, and peer model transfer. -/
namespace Sys2Proof.Machine

/-! ## Routes and groups (Table 14.5) -/

/-- A route nibble names a port or none. -/
def routeNibble (k : Nat) : Bool := decide (k < 12 ∨ k = 15)

/-- The routes of a SET_ROUTES payload are valid (Table 14.4). -/
def routesOk (s : State) (d : Nat) (bs : List Byte) : Bool :=
  decide (d + bs.length ≤ 64) && (numbered d bs).all fun e =>
    let v := e.2.toNat
    routeNibble (v % 16) && routeNibble (v / 16) && (e.1 != myNode s || v == 0xFF)

/-- SET_ROUTES (R497). -/
def execSetRoutes (s : State) : Host.Outcome State Fault Refusal :=
  runCmd s 0x0C10 (fun _ => true) fun c =>
    let d := leAt c.payload 0 1
    let bs := (c.payload.drop 2).take (leAt c.payload 1 1)
    if !routesOk s d bs then respond s c 0x0C03 []
    else
      let s1 := (numbered d bs).foldl (fun a e =>
        setF (setF a (Reg.CZL_ROUTE_PRIMARY e.1) (e.2.toNat % 16)) (Reg.CZL_ROUTE_ALTERNATE e.1) (e.2.toNat / 16)) s
      respond (loseUnrouted (reroute s1)) c 0 []

/-- The leader part with a handle, in LOADING or GROUP_WAIT (Table 14.4). -/
def leaderPart (s : State) (h : Nat) : Option Nat :=
  (List.range 32).find? fun n => match slot? s n with
    | some x => x.pkg.groupPart && x.pkg.deviceIndex == 0 && getF s (Reg.MDL_SLOT_HANDLE n) == h &&
        (getF s (Reg.MDL_SLOT_STATE n) == 1 || getF s (Reg.MDL_SLOT_STATE n) == 2)
    | none => false

/-- A member before it has answered. -/
def newPeer (node now : Nat) : Peer :=
  { node := node
    info := { handle := 0, layers := 0, pLog2 := 0, firstShard := 0, shards := 0, free := 0, concCap := 0 }
    pages := 0, answered := false, heard := now }

/-- CZL_GROUP_s of a group: STATE, ROLE, ID, member count and the nodes this device knows, by device index. -/
def showGroup (s : State) (n st role gid members : Nat) (nodes : List (Nat × Nat)) : State :=
  let s1 := setF (setF (setF (setF s (Reg.CZL_GROUP_STATE n) st) (Reg.CZL_GROUP_ROLE n) role) (Reg.CZL_GROUP_GROUP_ID n) gid)
    (Reg.CZL_GROUP_MEMBERS n) members
  nodes.foldl (fun a e => setF a ⟨Reg.CZL_GROUP_NODES n (e.1 / 4), 8 * (e.1 % 4), 8⟩ e.2) s1

/-- DEFINE_GROUP (R501 step 1). -/
def execDefineGroup (s : State) : Host.Outcome State Fault Refusal :=
  runCmd s 0x0C12 (fun _ => true) fun c =>
    let k := leAt c.payload 2 1
    let nodes := ((c.payload.drop 3).take (k - 1)).map (·.toNat)
    if k < 2 ∨ 16 < k ∨ nodes.any (fun d => decide (64 ≤ d) || (routeTo s d).isNone) = true then respond s c 0x0C03 []
    else match leaderPart s (leAt c.payload 0 2) with
      | none => respond s c 0x0C04 []
      | some n =>
        if (group? s n).isSome then respond s c 0x0C05 []
        else
          let s1 := setGroup s n (some
            { peers := nodes.map fun d => newPeer d s.lTime, formAt := 0, beatAt := s.lTime, ended := [], seqs := [] })
          respond (showGroup s1 n 1 0 (myNode s * 32 + n) k (numbered 0 (myNode s :: nodes))) c 0 []

/-! ## Who is who -/

/-- The group this device leads under a group ID. -/
def ledBy (s : State) (gid : Nat) : Option (Nat × Group) :=
  let n := gid % 32
  match group? s n with
  | some x => if gidOf s n = gid ∧ isSet s (Reg.CZL_GROUP_ROLE n) = false then some (n, x) else none
  | none => none

/-- The group this device follows under a group ID. -/
def followedBy (s : State) (gid : Nat) : Option (Nat × Group) :=
  (List.range 32).findSome? fun n => match group? s n with
    | some x => if gidOf s n = gid ∧ isSet s (Reg.CZL_GROUP_ROLE n) = true then some (n, x) else none
    | none => none

/-- A message of the group came from `node` (R513). -/
def hear (s : State) (slot node : Nat) : State :=
  mapPeers s slot fun q => if q.node = node then { q with heard := s.lTime } else q

/-- Partition and context of a group's slot. -/
def slotPart (s : State) (n : Nat) : Nat := getF s (Reg.MDL_SLOT_PARTITION n)
def slotCtx (s : State) (n : Nat) : Nat := ((slotCtxs s n).head?).getD 0

/-- A received TC1 message is traced in the partition of its group (R516). -/
def heardMsg (s : State) (slot : Nat) (h : LinkHdr) (ftype tag : Nat) : State :=
  traceLink (hear s slot h.src) (slotPart s slot) (slotCtx s slot) tag h.port ftype h.src h.msg 0 s.lTime true

/-- The wait that a message ends (R670, object 2). -/
def linkWait (s : State) (p g tag start : Nat) (waiter : Nat × Nat) (h : LinkHdr) : State :=
  traceWait s p g tag start s.qTime 2 (h.src * 2 ^ 24 + h.msg % 2 ^ 16) waiter (6, h.src) false

/-- A group message: discarded in HOLD (R517), without effect where no service runs, else `f` of its group. -/
def groupMsg (s : State) (g : Option (Nat × Group)) (f : Nat → Group → State) : Host.Outcome State Fault Refusal :=
  if stage s = 7 then .next (linkDropped s)
  else match g with
    | some (n, x) => if serving s then .next (f n x) else .next s
    | none => .next s

/-! ## Formation (R501) -/

/-- The READY part of a model with a device index. -/
def followerPart (s : State) (modelId index : Nat) : Option Nat :=
  (List.range 32).find? fun n => match slot? s n with
    | some x => x.pkg.groupPart && x.pkg.modelId == modelId && x.pkg.deviceIndex == index && index != 0 &&
        getF s (Reg.MDL_SLOT_STATE n) == 3
    | none => false

/-- MGMT_FORM (R501 step 3): the part joins the group as forming and answers; a part of another group does not. -/
def execMgmtForm (h : LinkHdr) (gid modelId index : Nat) (s : State) : Host.Outcome State Fault Refusal :=
  match if serving s then followerPart s modelId index else none with
  | none => .next s
  | some n => match slot? s n with
    | none => .next s
    | some x =>
      if (group? s n).isSome ∧ gidOf s n ≠ gid then .next s
      else
        let s1 := match group? s n with
          | some _ => hear s n h.src
          | none =>
            let s0 := setGroup s n (some
              { peers := [newPeer h.src s.lTime], formAt := 0, beatAt := s.lTime, ended := [], seqs := [] })
            showGroup s0 n 1 1 gid x.pkg.groupDevices [(0, h.src), (index, myNode s)]
        .next (sendBare s1 h.src (.formAck gid
          { handle := getF s1 (Reg.MDL_SLOT_HANDLE n), layers := x.pkg.layers, pLog2 := x.pkg.pLog2
            firstShard := x.prog.firstShard, shards := x.prog.shards, free := freePages s1 (slotPart s1 n)
            concCap := getF s1 (Reg.MDL_SLOT_CONC_CONC_CAP n) }))

/-- The group is formed: its cap is the smallest of its parts', and the leader's slot enters READY (R401, R501). -/
def formGroup (s : State) (n : Nat) (x : Group) : State :=
  let cap := x.peers.foldl (fun a q => min a q.info.concCap) (getF s (Reg.MDL_SLOT_CONC_CONC_CAP n))
  let s1 := setF (setF s (Reg.CZL_GROUP_STATE n) 2) (Reg.MDL_SLOT_CONC_CONC_CAP n) cap
  enterReady (setGroup s1 n (some { x with beatAt := s1.lTime, peers := x.peers.map fun q => { q with heard := s1.lTime } })) n

/-- MGMT_FORM_ACK (R501 step 4, R502). -/
def execMgmtFormAck (h : LinkHdr) (gid : Nat) (info : FormInfo) (s : State) : Host.Outcome State Fault Refusal :=
  match if serving s then ledBy s gid else none with
  | none => .next s
  | some (n, x) =>
    let x1 : Group := { x with peers := x.peers.map fun q =>
      if q.node = h.src then { q with info := info, pages := info.free, answered := true, heard := s.lTime } else q }
    let s1 := setGroup s n (some x1)
    if getF s (Reg.CZL_GROUP_STATE n) = 1 ∧ getF s (Reg.MDL_SLOT_STATE n) = 2 ∧ x1.peers.all (·.answered) = true then
      .next (formGroup s1 n x1)
    else .next s1

/-- FORM_RESEND (R501 step 2): every 10 ms while the part waits. -/
def execFormResend (n : Nat) (s : State) : Host.Outcome State Fault Refusal :=
  match group? s n, slot? s n with
  | some x, some y =>
    if isSet s (Reg.CZL_GROUP_ROLE n) = true ∨ getF s (Reg.CZL_GROUP_STATE n) ≠ 1 ∨ getF s (Reg.MDL_SLOT_STATE n) ≠ 2 ∨
        s.lTime < x.formAt + 5000000 ∨ serving s = false then .next s
    else
      .next ((numbered 1 x.peers).foldl (fun a e => sendBare a e.2.node (.form (gidOf s n) y.pkg.modelId e.1))
        (setGroup s n (some { x with formAt := s.lTime })))
  | _, _ => .next s

/-! ## Heartbeats and loss (R513, R520) -/

/-- MGMT_HEARTBEAT: heard; a follower answers, and knows by it that the group is formed. -/
def execMgmtHeartbeat (h : LinkHdr) (gid : Nat) (answer : Bool) (s : State) : Host.Outcome State Fault Refusal :=
  if serving s = false then .next s
  else if answer then
    match ledBy s gid with
    | some (n, _) => .next (hear s n h.src)
    | none => .next s
  else match followedBy s gid with
    | some (n, _) => .next (sendBare (setF (hear s n h.src) (Reg.CZL_GROUP_STATE n) 2) h.src (.heartbeat gid true))
    | none => .next s

/-- HEARTBEAT_SEND: every 100 µs, to each follower. -/
def execHeartbeatSend (n : Nat) (s : State) : Host.Outcome State Fault Refusal :=
  match group? s n with
  | some x =>
    if groupLeads s n = false ∨ s.lTime < x.beatAt + 50000 ∨ serving s = false then .next s
    else
      .next (x.peers.foldl (fun a q => sendBare a q.node (.heartbeat (gidOf s n) false))
        (setGroup s n (some { x with beatAt := s.lTime })))
  | none => .next s

/-- PEER_LOSS: no message of the group from a peer for 5 ms (R513, R520). -/
def execPeerLoss (n node : Nat) (s : State) : Host.Outcome State Fault Refusal :=
  match group? s n with
  | some x =>
    if groupFormed s n = true ∧ serving s = true ∧
        x.peers.any (fun q => q.node == node && decide (q.heard + 2500000 ≤ s.lTime)) = true then
      .next (loseGroup s n 0x0705 true)
    else .next s
  | none => .next s

/-- MGMT_LEAVE (R402, R520): the group is lost, on a follower also while it does not know yet that it was formed, for the
leader's part has gone. A leader that still forms waits for that follower again. -/
def execMgmtLeave (h : LinkHdr) (gid : Nat) (s : State) : Host.Outcome State Fault Refusal :=
  let lost (x : Group) : Bool := x.peers.any fun q => q.node == h.src
  if serving s = false then .next s
  else match ledBy s gid with
    | some (n, x) =>
      if !lost x then .next s
      else if groupFormed s n then .next (loseGroup s n 0x0705 true)
      else .next (mapPeers s n fun q => if q.node = h.src then { q with answered := false } else q)
    | none => match followedBy s gid with
      | some (n, x) =>
        if lost x then .next (loseGroup s n 0x0705 true) else .next s
      | none => .next s

/-! ## A group step on a follower (R502, R503, R507 to R509) -/

/-- The sequence of an index on this follower; a new one stands at the plan's first position. -/
def fseqOf (x : Group) (idx first : Nat) : FSeq :=
  match x.seqs.find? fun e => e.1 == idx with
  | some e => e.2
  | none => { append := first, hist := [], emitted := 0, page := none, mask := [], bias := [] }
def putFseq (x : Group) (idx : Nat) (f : FSeq) : Group :=
  { x with seqs := (x.seqs.filter fun e => e.1 != idx) ++ [(idx, f)] }

/-- Staged positions of a follower's plan and their attended sum (R528). -/
def peerWork (x : Group) (qs : List PlanSeq) : Nat × Nat :=
  qs.foldl (fun a q => (a.1 + q.n, a.2 + attended (fseqOf x q.idx q.first).append q.n)) (0, 0)

/-- The predicted energy of a follower's part of a step, in fJ (R528). -/
def peerEnergy (s : State) (y : Slot) (x : Group) (qs : List PlanSeq) : Nat :=
  let w := peerWork x qs
  stepK (kStep s) * getF s Reg.PWR_GAIN_GAIN * workSum s y.prog.work w.1 w.2 / (1000 * 1024 * 2 ^ 149)

/-- A STEP record of a follower's step. -/
def peerRecord (s : State) (p : Nat) (st : Step) (ev : Nat) : State :=
  traceStep s p st.ctx st.tag ev st.fplan.length (st.fplan.foldl (fun a q => a + q.n) 0)

/-- The step a follower makes of a plan. -/
def peerStep (s : State) (g n tag : Nat) (y : Slot) (x : Group) (qs : List PlanSeq) : Step :=
  { ctx := g, tag := tag, st := .issue, issueAt := s.qTime, deadline := 0, composeAt := s.qTime, plan := [], drafts := []
    draftStop := [], drawn := [], cands := [], shardsLeft := if qs.any (·.sampled) then shardsOf s g else []
    draftShards := [], sampleAt := 0, held := [], running := [], stopped := [], kept := [], preempted := false
    draft := none, tokens := [], ackWait := [], lost := 0, preAt := 0
    saved := [], modeI := false, power := stepPower (peerEnergy s y x qs) (tEst s g), raisedAt := 0, preBy := none
    assay := [], watch := [], group := some n, follower := true, candWait := [], fplan := qs }

/-- PLAN (R502, R503): the follower takes pages and accepts the plan, or answers SHORT. -/
def execPlan (h : LinkHdr) (gid tag : Nat) (seqs : List PlanSeq) (s : State) : Host.Outcome State Fault Refusal :=
  groupMsg s (followedBy s gid) fun n x =>
    let p := slotPart s n
    let g := slotCtx s n
    let s1 := setF (heardMsg s n h 0x10 tag) (Reg.CZL_GROUP_STATE n) 2
    match slot? s1 n with
    | none => s1
    | some y =>
      if (lane s1 p).cur.isSome || !(lane s1 p).acks.isEmpty then s1
      else
        let us := seqs.flatMap fun q =>
          newUses (peerSeq q.idx) y.pkg.layers y.pkg.pLog2 (fseqOf x q.idx q.first).append q.n false
        match takePages s1 p us (.ctx g) with
        | none =>
          sendMsg (bumpSat s1 (Reg.CZL_GROUP_SHORT_PLAN_SHORT n) 1) p g tag h.src (.planAck gid tag (freePages s1 p) true)
        | some s2 =>
          let x1 := seqs.foldl (fun a q => putFseq a q.idx (fseqOf a q.idx q.first)) ((group? s2 n).getD x)
          let st := peerStep s2 g n tag y x1 seqs
          let s3 := setLane (setGroup s2 n (some x1)) p { lane s2 p with cur := some st, lastHolder := ctxLocal g }
          let s4 := peerRecord (setPower (bump s3 (Reg.CMP_LANE_STEPS_STEPS p) 1) p st.power) p st 0
          sendMsg s4 p g tag h.src (.planAck gid tag (freePages s4 p) false)

/-- The step of a group that holds the groves of its partition, with a tag (R510). -/
def groupStep (s : State) (n tag : Nat) : Option Step :=
  match (lane s (slotPart s n)).cur with
  | some st => if st.group = some n ∧ st.tag = tag then some st else none
  | none => none

/-- What a COMMIT does to one sequence of a follower's plan (R212, R365, R507). -/
def commitPeerSeq (p layersP : Nat) (cs : List CommitSeq) (acc : State × Group) (q : PlanSeq) : State × Group :=
  let f := fseqOf acc.2 q.idx q.first
  let h := peerSeq q.idx
  match cs.find? fun c => c.idx == q.idx with
  | none => (freeWhere acc.1 p (fun u => isStaged u && useReq u == some h), acc.2)
  | some c =>
    let top := f.append + c.positions
    let s1 := mapPages acc.1 p (fun u => isStaged u && useReq u == some h) fun u => match u with
      | .staged r l k d => if k * 2 ^ layersP < top then .kv r l k d else .free
      | other => other
    (s1, putFseq acc.2 q.idx
      { f with append := top, hist := histWith f.hist f.emitted c.tokens, emitted := f.emitted + c.tokens.length })

/-- COMMIT (R507): pointers, pages and histories advance, and the groves are free of the step; one composed meanwhile
issues. -/
def execCommit (h : LinkHdr) (gid tag : Nat) (seqs : List CommitSeq) (s : State) : Host.Outcome State Fault Refusal :=
  groupMsg s (followedBy s gid) fun n x =>
    let p := slotPart s n
    let s1 := heardMsg s n h 0x13 tag
    match groupStep s1 n tag, slot? s1 n with
    | some st, some y =>
      let e := st.fplan.foldl (commitPeerSeq p y.pkg.pLog2 seqs) (s1, (group? s1 n).getD x)
      let s2 := bump (setGroup e.1 n (some e.2)) (Reg.TRC_PART_COUNT p 0) 1
      let s3 := assayEnd (peerRecord s2 p st 1) p st false
      issueStep (retryWaits (afterLeave (setGroves (clearCur s3 p) p 0) st.ctx) (some p)) p
    | _, _ => s1

/-- ABANDON (R509): the groves abandon, staged pages return to FREE, and the acknowledge is owed once every grove has
acknowledged. -/
def execAbandon (h : LinkHdr) (gid tag : Nat) (s : State) : Host.Outcome State Fault Refusal :=
  groupMsg s (followedBy s gid) fun n _ =>
    let p := slotPart s n
    let s1 := heardMsg s n h 0x14 tag
    let s2 := freeWhere s1 p fun u => isStaged u && peerUse u
    let s3 := match groupStep s2 n tag with
      | some st =>
        let a := assayEnd (peerRecord (bump s2 (Reg.TRC_PART_COUNT p 1) 1) p st 2) p st true
        clearCur a p
      | none => s2
    let s4 := raiseAbandon s3 p (slotCtx s3 n)
    setLane s4 p { lane s4 p with ackTo := some (n, tag) }

/-- RELEASE (R508): pages and sampler-page copies of ended requests; staged pages follow their step. -/
def execRelease (h : LinkHdr) (gid : Nat) (idxs : List Nat) (s : State) : Host.Outcome State Fault Refusal :=
  groupMsg s (followedBy s gid) fun n x =>
    let p := slotPart s n
    let s1 := heardMsg s n h 0x16 0
    let mine (u : PageUse) : Bool := match useReq u with
      | some k => idxs.any fun i => peerSeq i == k
      | none => false
    let s2 := freeWhere s1 p fun u => mine u && (!isStaged u || (lane s1 p).cur.isNone)
    let x1 := (group? s2 n).getD x
    setGroup s2 n (some { x1 with seqs := x1.seqs.filter fun e => !idxs.contains e.1 })

/-- SAMPPAGE (R202, R511, R512): a sampler page of this device, zeroed first, holds the copy; without a FREE page the copy is
dropped. -/
def execSamppage (h : LinkHdr) (gid idx : Nat) (mask : List Byte) (bias : List (Nat × W32)) (s : State) :
    Host.Outcome State Fault Refusal :=
  groupMsg s (followedBy s gid) fun n x =>
    let p := slotPart s n
    let s1 := hear s n h.src
    let u := PageUse.mask (peerSeq idx)
    match takePages s1 p [u] (.group (slotCtx s1 n)) with
    | none => s1
    | some s2 =>
      let pg := ((pagesWhere s2 p (· == u)).head?).getD 0
      let b := bias.flatMap fun e => leBytes 4 e.1 ++ leBytes 4 e.2.toNat
      let a := arenaBase s2 p + 65536 * pg
      let s3 := (writePart (writePart (zeroPage s2 p pg) p .sys a mask).1 p .sys (a + 0xC000) b).1
      let x1 := (group? s3 n).getD x
      setGroup s3 n (some (putFseq x1 idx { fseqOf x1 idx 0 with page := some pg, mask := mask, bias := bias }))

/-! ## A group step on the leader -/

/-- PLAN_ACK (R502, R503): the follower's page count, and its acceptance; another tag's is discarded (R510). -/
def execPlanAck (h : LinkHdr) (gid tag free : Nat) (short : Bool) (s : State) : Host.Outcome State Fault Refusal :=
  groupMsg s (ledBy s gid) fun n _ =>
    let p := slotPart s n
    let s1 := heardMsg s n h 0x11 tag
    match groupStep s1 n tag with
    | none => s1
    | some st =>
      let s2 := mapPeers s1 n fun q => if q.node = h.src then { q with pages := free } else q
      let s3 := if st.ackWait.contains h.src then linkWait s2 p st.ctx tag st.issueAt (2, p) h else s2
      if short then s3 else setCur s3 p { st with ackWait := st.ackWait.filter (· != h.src) }

/-- The candidate lists of a CAND, one for each shard of the device (R505, R506). -/
def candLists (st : Step) (info : FormInfo) (ls : List CandPos) : List CandList :=
  let ps := sampledList st.plan
  ls.flatMap fun c => match ps[c.pos]? with
    | none => []
    | some e => (numbered 0 c.shards).map fun k =>
      { req := e.1, pos := e.2, draft := false, shard := info.firstShard + k.1, cands := if k.1 = 0 then c.cands else []
        m := k.2.1, s := k.2.2, nonfinite := c.nonfinite && k.1 == 0 }

/-- The lists of a device have come for every sampled position of the plan. -/
def candWhole (st : Step) (info : FormInfo) : Bool :=
  (sampledList st.plan).all fun e => st.cands.any fun c =>
    c.req == e.1 && c.pos == e.2 && !c.draft && c.shard == info.firstShard

/-- CAND (R480, R504 to R506, R510): the lists of a device, which may come in more than one message; a stale one is discarded
and counted. -/
def execCand (h : LinkHdr) (gid tag : Nat) (lists : List CandPos) (s : State) : Host.Outcome State Fault Refusal :=
  groupMsg s (ledBy s gid) fun n x =>
    let p := slotPart s n
    let s1 := heardMsg s n h 0x12 tag
    match groupStep s1 n tag, x.peers.find? fun q => q.node == h.src with
    | some st, some q =>
      if st.st ≠ .execute then eventLate s1
      else if !st.candWait.contains h.src then s1
      else
        let st0 := { st with cands := st.cands ++ candLists st q.info lists }
        let st1 := if candWhole st0 q.info then { st0 with candWait := st.candWait.filter (· != h.src) } else st0
        toSample (setCur s1 p st1) p
    | _, _ => eventLate s1

/-- ABANDON_ACK (R509). -/
def execAbandonAck (h : LinkHdr) (gid tag : Nat) (s : State) : Host.Outcome State Fault Refusal :=
  groupMsg s (ledBy s gid) fun n _ =>
    let p := slotPart s n
    let s1 := heardMsg s n h 0x15 tag
    let l := lane s1 p
    if !l.nodeAcks.contains h.src then s1
    else
      let s2 := linkWait s1 p (slotCtx s1 n) tag l.ackSince (2, p) h
      let s3 := setLane s2 p { lane s2 p with nodeAcks := l.nodeAcks.filter (· != h.src) }
      let s4 := abandonDone s3 p
      if (lane s4 p).acks.isEmpty && (lane s4 p).nodeAcks.isEmpty then retryWaits s4 (some p) else s4

/-- RELEASE_SEND (R508): the ended requests are named to each follower, and their pages count as free (R502). -/
def execReleaseSend (n : Nat) (s : State) : Host.Outcome State Fault Refusal :=
  match group? s n with
  | some x =>
    if groupLeads s n = false ∨ serving s = false ∨ x.ended.isEmpty = true then .next s
    else
      let back (q : Peer) : Nat := x.ended.foldl (fun a e =>
        a + q.info.layers * ceilDiv e.2.1 (2 ^ q.info.pLog2) + (if e.2.2 ∧ q.info.shards ≠ 0 then 1 else 0)) 0
      let x1 : Group := { x with ended := [], peers := x.peers.map fun q => { q with pages := q.pages + back q } }
      .next (x.peers.foldl (fun a q =>
        sendMsg a (slotPart s n) (slotCtx s n) 0 q.node (.release (gidOf s n) (x.ended.map (·.1)))) (setGroup s n (some x1)))
  | none => .next s

/-! ## Bulk traffic (R510, R514) -/

/-- The group of an ID on this device, leader or follower. -/
def groupBy (s : State) (gid : Nat) : Option (Nat × Group) :=
  match ledBy s gid with
  | some e => some e
  | none => followedBy s gid

/-- First staged position and number of them of the sequence a page names, in a step (R503). -/
def stagedSpan (s : State) (x : Group) (st : Step) (h : Nat) : Nat × Nat :=
  if st.follower then
    match st.fplan.find? fun q => peerSeq q.idx == h with
    | some q => ((fseqOf x q.idx q.first).append, q.n)
    | none => (0, 0)
  else match st.plan.find? fun it => it.seqs.contains h with
    | some it => match reqByHandle s h with
      | some (_, r) => (r.append, it.n)
      | none => (0, 0)
    | none => (0, 0)

/-- A partition address lies in the KV entry of a staged position of the step (R210, R510). -/
def stagedByte (s : State) (p : Nat) (x : Group) (st : Step) (k : Pkg) (a : Nat) : Bool :=
  let o := a - arenaBase s p
  let pos (i : Nat) : Nat := i * 2 ^ k.pLog2 + o % 65536 / max 1 k.kvBytes
  let inside (h i : Nat) : Bool :=
    let e := stagedSpan s x st h
    decide (e.1 ≤ pos i ∧ pos i < e.1 + e.2) && decide (o % 65536 / max 1 k.kvBytes < 2 ^ k.pLog2)
  decide (arenaBase s p ≤ a) && match (page s p (o / 65536)).use with
    | .staged h _ i false => inside h i
    | .kv h _ i false => inside h i
    | _ => false

/-- Bytes that came over Cezlink are offered to the memory regulator, which lets them be written (Table 12.5). -/
def offerBytes (s : State) (p : Nat) (bytes : List (Nat × Byte)) : State :=
  if bytes.isEmpty then s else chargeHeld s p 0 (.store p bytes) bytes.length

/-- KVXFER (R510): the bytes of staged positions are written; a stale one is discarded. -/
def execKvxfer (h : LinkHdr) (gid tag : Nat) (bytes : List (Nat × Byte)) (s : State) : Host.Outcome State Fault Refusal :=
  groupMsg s (groupBy s gid) fun n x =>
    let p := slotPart s n
    let s1 := hear s n h.src
    match groupStep s1 n tag, slot? s1 n with
    | some st, some y =>
      offerBytes s1 p (bytes.filter fun e => stagedByte s1 p x st y.pkg e.1)
    | _, _ => s1

/-- COLL (R510): the tensor bytes are written where the sending program put them; a stale one is discarded. -/
def execColl (h : LinkHdr) (gid : Nat) (x : Tensor) (s : State) : Host.Outcome State Fault Refusal :=
  groupMsg s (groupBy s gid) fun n _ =>
    let s1 := hear s n h.src
    match groupStep s1 n x.tag with
    | some _ => offerBytes s1 (slotPart s n) x.bytes
    | none => s1

/-- Bytes of a package: the 4 KiB header, then the body (Table 11.2). -/
def pkgBytes (k : Pkg) : Nat := 4096 + k.weightBytes

/-- MGMT_PEER_MODEL_REQUEST (R393, R514): the package of a READY model goes to the requester, 4 MiB a message (R480),
charged to its partition; not answered in HOLD (R517). -/
def execMgmtPeerModelRequest (h : LinkHdr) (handle : Nat) (s : State) : Host.Outcome State Fault Refusal :=
  match (List.range 32).find? fun n =>
      (slot? s n).isSome && getF s (Reg.MDL_SLOT_HANDLE n) == handle && getF s (Reg.MDL_SLOT_STATE n) == 3 with
  | none => .next s
  | some n => match slot? s n with
    | none => .next s
    | some y =>
      if serving s = false then .next s
      else
        let size := pkgBytes y.pkg
        let k := ceilDiv size (4 * 2 ^ 20)
        let nos := (List.range k).map fun i => (s.msgNo + i) % 65536
        let s1 := setSlot s n (some { y with peerReads := nos })
        .next ((List.range k).foldl (fun a i =>
          sendBulk a (slotPart s n) n h.src
            (.modelXfer handle (4 * 2 ^ 20 * i) (min (4 * 2 ^ 20) (size - 4 * 2 ^ 20 * i)))) s1)

/-- MODELXFER (R393, R514): package bytes for the load in slot `n` whose source the sender is. -/
def execModelxfer (h : LinkHdr) (n : Nat) (bytes : List (Nat × Byte)) (s : State) : Host.Outcome State Fault Refusal :=
  if stage s = 7 then .next (linkDropped s)
  else match slot? s n with
    | none => .next s
    | some y =>
      if serving s = false ∨ getF s (Reg.MDL_SLOT_STATE n) ≠ 1 ∨ (y.fromPeer.map (·.1)) ≠ some h.src then .next s
      else
        let p := slotPart s n
        let mine := bytes.filter fun e =>
          arenaBase s p ≤ e.1 && (page s p ((e.1 - arenaBase s p) / 65536)).use == .model n
        .next (mine.foldl (fun a e => (writePart a p .dma e.1 [e.2]).1) s)

end Sys2Proof.Machine
end

