-- ==== Sys2Proof/Machine/Park.lean ====
section
/-! DEFINITION. Parking (spec/06, R217 to R221, R227, R229; spec/09, R335 to R338) and the patrol scrubber (R206). -/
namespace Sys2Proof.Machine

/-- Requests of partition `p` that satisfy `f`. -/
def reqsIn (s : State) (p : Nat) (f : Req → Bool) : List (Nat × Req) :=
  (allReqs s).filter fun e => e.2.ctx / 32 == p && f e.2

/-- Slack of a sequence in its context, now (R314). -/
def slackNow (s : State) (r : Req) : Int :=
  slackOf s.qTime (tEst s r.ctx) (getF s (Reg.CMP_CTX_CHUNK_CHUNK_LOG2 (r.ctx / 32) (r.ctx % 32))) r

/-- Free park slots of a tenant (R220). -/
def freeSlots (s : State) (t : Nat) : Nat := getF s (Reg.MEM_PARK_SLOTS_SLOTS t) - (slotsInUse s t).length

/-- The first of two sequences to be parked: larger slack, more pages, higher index (R336). -/
def parkBefore (a b : Int × Nat × Nat) : Bool :=
  if a.1 ≠ b.1 then decide (b.1 < a.1) else if a.2.1 ≠ b.2.1 then decide (b.2.1 < a.2.1) else decide (b.2.2 < a.2.2)

/-- Insert by an order. -/
def insBy {α : Type} (before : α → α → Bool) (x : α) : List α → List α
  | [] => [x]
  | y :: ys => if before x y then x :: y :: ys else y :: insBy before x ys

/-- Sequences in DECODE that could be parked, in the order of R336: slack, pages, index. -/
def parkOrder (s : State) (p : Nat) : List (Int × Nat × Nat) :=
  ((reqsIn s p fun r => r.st == .decode && !r.parking && !r.unparking).filter fun e =>
    !inPlan s e.1 e.2 && (match ctx? s e.2.ctx with | some c => (group? s c.slot).isNone | none => false)).map
    (fun e => (slackNow s e.2, (seqPages s (hnat e.1 e.2) e.2).length, e.1)) |>.foldr (insBy parkBefore) []

/-- The tenant of entry `i` has slots for `n` pages. -/
def slotsFor (s : State) (i n : Nat) : Bool :=
  match req? s i with
  | some r => decide (n ≤ freeSlots s r.tenant)
  | none => false

/-- A page of a sequence that is parked: PARKING, and its copy to a slot offered to the regulators; it leaves when the last of
its bytes has issued (R218, R221, R421). -/
def parkPage (p i h : Nat) (s : State) (e : PageUse × Nat) : State :=
  match (pagesWhere s p (· == e.1)).head?, e.1 with
  | some pg, .kv _ l k d =>
    let s1 := reusePage s p pg (.parking h l k d)
    chargeHeld (chargeHeld s1 p 0 (.park i) 65536) p 1 (.copy i pg e.2) 65536
  | _, _ => s

/-- A sequence is parked (R218): PARKED, a slot for each page, and each page on its way there. -/
def parkSeq (s : State) (p i : Nat) (r : Req) : State :=
  let h := hnat i r
  let uses := seqPages s h r
  let used := slotsInUse s r.tenant
  let slots := pickSlots used (used.length + uses.length) 0 uses.length
  (uses.zip slots).foldl (parkPage p i h)
    (setReq s i (some { r with st := .parked, slots := slots, parking := true }))

/-- PARK_START (R335, R336, R220). -/
def execParkStart (p : Nat) (s : State) : Host.Outcome State Fault Refusal :=
  let parks := (reqsIn s p (·.parking)).length
  let unparks := (reqsIn s p (·.unparking)).length
  let short := decide (freePages s p < getF s (Reg.CMP_PARK_LOW_PARK_LOW p)) || (lane s p).pageSkip
  if !serving s || partResetting s p || !isSet s (Reg.CMP_LANE_CTL_PARK_EN p) || unparks != 0 || decide (4 ≤ parks) ||
      !short then .next s
  else
    let order := parkOrder s p
    let skipped := order.takeWhile fun e => !slotsFor s e.2.2 e.2.1
    let s1 := skipped.foldl (fun a e => match req? a e.2.2 with
      | some r => bumpSat a (Reg.MEM_PARK_CNT_PARK_NO_SLOT r.tenant) 1
      | none => a) s
    match order.find? fun e => slotsFor s e.2.2 e.2.1 with
    | some (_, _, i) => match req? s1 i with
      | some r => .next (parkSeq s1 p i r)
      | none => .next s1
    | none => .next s1

/-- A park or unpark DMA failed (R229): fault 0x1D, the request ends FAILED with 0x0704; what it had still to copy is dropped. -/
def failCopies (s : State) (i : Nat) (r : Req) : State :=
  let s1 := recordFault (dropWaits s (forReq i)) 0x1D clsRequest false false (r.ctx / 32) (r.ctx % 32) (handleOf i r.gen).toNat
  let s2 := if isLive r.st then endReq s1 i .failed 0x0704 false else s1
  endCopies s2 i

/-- The request drafts no more since its copy began: the slots of its draft pages go back with their credits (R214, R400). -/
def trimSlots (s : State) (i : Nat) : State :=
  match req? s i with
  | some r => if r.paired then s else freeDraftSlots s i
  | none => s

/-- PARK_COMPLETE (R218, R214): the last copy is acknowledged, so none waits (R421); the pages return to FREE, their charges
stay with the slots. -/
def execParkComplete (p i : Nat) (ok : Bool) (s : State) : Host.Outcome State Fault Refusal :=
  match req? s i with
  | none => .next s
  | some r =>
    if !r.parking || r.ctx / 32 != p then .next s
    else if !ok then .next (failCopies s i r)
    else if waitsFor s p (forReq i) then .next s
    else if !isLive r.st then .next (endCopies s i)
    else
      let s0 := freeWhere (setReq s i (some { r with parking := false })) p fun u =>
        isParking u && useReq u == some (hnat i r)
      let s1 := trimSlots s0 i
      .next (bump (bumpSat s1 (Reg.CMP_LANE_PARKS_PARKS p) 1) (Reg.TRC_TEN_COUNT r.tenant 11) 1)

/-- Parked sequences in ascending slack, ties under R315: slack, class, arrival, index. -/
def unparkOrder (s : State) (p : Nat) : List (Int × Nat × Nat × Nat) :=
  let before (a b : Int × Nat × Nat × Nat) : Bool :=
    if a.1 ≠ b.1 then decide (a.1 < b.1)
    else if a.2.1 ≠ b.2.1 then decide (a.2.1 < b.2.1)
    else if a.2.2.1 ≠ b.2.2.1 then decide (a.2.2.1 < b.2.2.1)
    else decide (a.2.2.2 < b.2.2.2)
  ((reqsIn s p fun r => r.st == .parked && !r.parking && !r.unparking).map fun e =>
    (slackNow s e.2, e.2.cls, e.2.arrival, e.1)).foldr (insBy before) []

/-- The use a page has while a copy fills it. -/
def parkingUse : PageUse → PageUse
  | .kv h l k d => .parking h l k d
  | u => u

/-- UNPARK_START (R219, R337). -/
def execUnparkStart (p : Nat) (s : State) : Host.Outcome State Fault Refusal :=
  let parks := (reqsIn s p (·.parking)).length
  let unparks := (reqsIn s p (·.unparking)).length
  match unparkOrder s p with
  | [] => .next s
  | (_, _, _, i) :: _ => match req? s i with
    | none => .next s
    | some r =>
      let n := r.slots.length
      if !serving s || partResetting s p || parks != 0 || decide (4 ≤ unparks) ||
          decide (freePages s p < getF s (Reg.CMP_PARK_HIGH_PARK_HIGH p) + n) then .next s
      else
        let us := seqPages s (hnat i r) r
        let t := us.filter fun u => match u with | .kv _ _ _ d => !d | _ => true
        let d := us.filter fun u => match u with | .kv _ _ _ d => d | _ => false
        let s1 := (takePages s p (t.map parkingUse) (.ctx r.ctx)).getD s
        let s2 := (takePages s1 p (d.map parkingUse) (.ctx ((draftOf s r.ctx).getD r.ctx))).getD s1
        let s3 := setReq s2 i (some { r with unparking := true })
        .next (chargeHeld (chargeHeld s3 p 1 (.unpark i) (65536 * n)) p 0 (.unpark i) (65536 * n))

/-- UNPARK_COMPLETE (R219): the last copy has arrived, so none waits (R421); the pages hold what the slots held and are KV, the
slots are released with their charges passed to the pages, and the request enters DECODE. Pages of a draft whose pair has
ended meanwhile return to FREE (R400). -/
def execUnparkComplete (p i : Nat) (ok : Bool) (data : List (List Byte)) (s : State) : Host.Outcome State Fault Refusal :=
  match req? s i with
  | none => .next s
  | some r =>
    if !r.unparking || r.ctx / 32 != p then .next s
    else if !ok then .next (failCopies s i r)
    else if waitsFor s p (forReq i) then .next s
    else if !isLive r.st then .next (endCopies s i)
    else
      let h := hnat i r
      let s1 := ((seqPages s h r).zip data).foldl (fun a e =>
        match (pagesWhere a p (· == parkingUse e.1)).head? with
        | some pg => (writePart a p .dma (arenaBase a p + 65536 * pg) (e.2.take 65536)).1
        | none => a) s
      let s2a := trimSlots (if r.paired then s1 else freeWhere s1 p fun u => match u with
        | .parking x _ _ d => x == h && d
        | _ => false) i
      let s2 := mapPages s2a p (fun u => isParking u && useReq u == some h) fun u => match u with
        | .parking x l k d => .kv x l k d
        | _ => u
      let s3 := setReq s2 i (some { r with unparking := false, slots := [], st := .decode })
      .next (bumpSat s3 (Reg.CMP_LANE_PARKS_UNPARKS p) 1)

/-- SCRUB_READ (R206): the patrol reads its next word; a corrected word is written back, an uncorrectable one is treated under
R205. -/
def execScrubRead (addr : Nat) (e : EccRead) (s : State) : Host.Outcome State Fault Refusal :=
  if s.boot.trained = true ∧ addr < 2 ^ 36 then .next (scrubWord s (addr / 32) e) else .next s

end Sys2Proof.Machine
end

