-- ==== Sys2Proof/Machine/HostIf.lean ====
section
/-! DEFINITION. The host interface (spec/16): function level resets, VF Enable, bus mastering and power states, the link,
and PCIe errors with their consequences. -/
namespace Sys2Proof.Machine

/-- The PCIe controller runs: PERST_N high and PCLK locked (Table 02.9). -/
def pcieUp (s : State) : Bool := !s.boot.perst && (getF s Reg.HST_CLK_STATUS_LOCK).testBit 3

/-- VFs in existence. -/
def numVfs (s : State) : Nat := getF s Reg.HST_PCIE_LINK_NUM_VFS

/-- The functions that `p` names and their MSI-X tables are as after reset. -/
def resetFns (s : State) (p : Nat → Bool) : State :=
  { s with fns := spDrop p s.fns, vecs := spDrop (fun k => p (k / 256)) s.vecs }

/-- Every VF goes, each with a tenant reset of its tenant (R561). -/
def dropVfs (s : State) : State :=
  let s1 := (List.range (numVfs s)).foldl tenantReset s
  resetFns (setFn (setF s1 Reg.HST_PCIE_LINK_NUM_VFS 0) 0 { fn s1 0 with vfEn := false }) fun n => n != 0

/-- VF_FLR (R559): a tenant reset; configuration space and MSI-X table of the VF are reset. -/
def execVfFlr (t : Nat) (s : State) : Host.Outcome State Fault Refusal :=
  if !pcieUp s || !vfExists s t then .next s else .next (resetFns (tenantReset s t) fun n => n == t + 1)

/-- A command in flight of PF0 ends with 0x0703 (R560). -/
def endPf0Cmds (s : State) : State :=
  match s.mbx.find? fun c => !c.smbus with
  | some c => respond s c 0x0703 []
  | none => s

/-- PF0_FLR (R560): VF Enable and the debug window clear, PF0's mailbox commands end, DOE returns to idle. -/
def execPf0Flr (s : State) : Host.Outcome State Fault Refusal :=
  if !pcieUp s then .next s
  else
    let s1 := setF (dropVfs s) Reg.HST_DBGWIN_CTL_ENABLE 0
    .next (resetFns { endPf0Cmds s1 with spdm := Spdm.idle } fun n => n == 0)

/-- VF_ENABLE_SET (R561): the VFs that NumVFs names exist; NumVFs above 64, and any while VF Enable is 1, is ignored
(Table 16.8). -/
def execVfEnableSet (n : Nat) (s : State) : Host.Outcome State Fault Refusal :=
  if !pcieUp s || (fn s 0).vfEn || decide (64 < n) then .next s
  else .next (setF (setFn s 0 { fn s 0 with vfEn := true }) Reg.HST_PCIE_LINK_NUM_VFS n)

/-- VF_ENABLE_CLEAR (R561). -/
def execVfEnableClear (s : State) : Host.Outcome State Fault Refusal :=
  if !pcieUp s then .next s else .next (dropVfs s)

/-- Function `n` exists: PF0, or a VF. -/
def fnExists (s : State) (n : Nat) : Bool := n == 0 || decide (n ≤ numVfs s)

/-- BUS_MASTER_ENABLE: Bus Master Enable, Memory Space Enable and the Device Control fields as written; messages that waited
are sent (R563). -/
def execBusMasterEnable (n : Nat) (cmd : PciCommand) (ctl : DeviceControl) (s : State) : Host.Outcome State Fault Refusal :=
  if !pcieUp s || !fnExists s n then .next s
  else .next (sendPending (setFn s n { fn s n with bme := cmd.bme, mse := cmd.mse, tag10 := ctl.tag10, mrrs := ctl.mrrs }) n)

/-! ## Reads of host memory (R569) -/

/-- The most non-posted requests the device has outstanding. -/
def readLimit (s : State) : Nat := if (fn s 0).tag10 then 768 else 256

/-- The most bytes of one read request of function `n`: Max Read Request Size. -/
def maxRead (s : State) (n : Nat) : Nat := 128 * 2 ^ (fn s n).mrrs

/-- The requests into which a read of `len` bytes is split at the least. -/
def readRequests (s : State) (n len : Nat) : Nat := ceilDiv len (maxRead s n)

/-- Work that reads host memory is in progress: an item, a park's flush, an unpark, a copy at admission, a model body. -/
def reading (s : State) : Bool :=
  (s.sqs.any fun e => e.2.inflight || e.2.waitFor.isSome) ||
  (s.reqs.any fun e => match e.2 with | some r => r.parking || r.unparking | none => false) ||
  (s.cohorts.any fun e => match e.2 with | some c => c.st == .copying | none => false) ||
  s.slots.any fun e => match e.2 with
    | some x => getF s (Reg.MDL_SLOT_STATE e.1) == 1 && x.fromPeer.isNone
    | none => false

/-- The requests outstanding at a moment: any number up to the limit while work reads (a free value,
notes/assumptions/74.md), and none otherwise. -/
def outstanding (s : State) : Nat := if reading s then Config.freeNat s.free % (readLimit s + 1) else 0

/-- D3HOT_ENTRY (R563, R564). No_Soft_Reset is 1: the function's configuration stays (Table 16.2). -/
def execD3hotEntry (n : Nat) (enter : Bool) (s : State) : Host.Outcome State Fault Refusal :=
  if !pcieUp s || !fnExists s n then .next s
  else .next (sendPending (setFn s n { fn s n with d3 := enter }) n)

/-- LINK_SPEED_CHANGE (R558): the link is in L0 at a speed and width. -/
def execLinkSpeedChange (speed width : Nat) (flit : Bool) (s : State) : Host.Outcome State Fault Refusal :=
  if !pcieUp s then .next s
  else
    let old := (getF s Reg.HST_PCIE_LINK_SPEED, getF s Reg.HST_PCIE_LINK_WIDTH)
    let s1 := setF (setF (setF s Reg.HST_PCIE_LINK_SPEED speed) Reg.HST_PCIE_LINK_WIDTH width) Reg.HST_PCIE_LINK_FLIT
      (if flit then 1 else 0)
    let s2 := if old.1 ≠ 0 ∧ old ≠ (speed, width) then raise s1 Reg.HST_PCIE_STATUS_SPEED_CHANGE else s1
    .next (if speed < 4 ∨ width < 4 then raise s2 Reg.HST_PCIE_STATUS_LINK_BELOW_MIN else s2)

/-- PCIE_LINK_DOWN (R581): without PERST_N, a Hot Reset or a Link Disable. -/
def execPcieLinkDown (s : State) : Host.Outcome State Fault Refusal :=
  if !pcieUp s || getF s Reg.HST_PCIE_LINK_SPEED == 0 then .next s
  else .next (chipFault (setF s Reg.HST_PCIE_LINK_SPEED 0) 0x1B nobody nobody 0 false false)

/-- PCIE_FATAL_ERROR (R576, R581). -/
def execPcieFatalError (s : State) : Host.Outcome State Fault Refusal :=
  if !pcieUp s then .next s else .next (chipFault (logPcie s 0 .fatal) 0x1B nobody nobody 0 false false)

/-- The error that a failed read logs, and its KIND (Table 16.6, HST_DMA_LAST_ERR). -/
def dmaErr : DmaKind → PcieErr
  | .timeout => .completionTimeout
  | .ur => .receivedMasterAbort
  | .ca => .receivedTargetAbort
  | .poisoned => .poisonedTlp
  | .ecrc => .ecrc
def dmaKindCode : DmaKind → Nat
  | .timeout => 1
  | .ur => 2
  | .ca => 3
  | .poisoned => 4
  | .ecrc => 5

/-- STRUCT: the row of Table 16.7. -/
def dmaStruct : DmaRead → Nat
  | .ring .. => 1
  | .item .. => 2
  | .prefill .. => 3
  | .admission .. => 4
  | .park .. => 5
  | .package => 6
  | .model .. => 6

/-- The function whose read fails (Table 16.3). -/
def dmaFn (s : State) : DmaRead → Nat
  | .ring t _ => tenantFn s t
  | .item t _ _ => tenantFn s t
  | .prefill co => match cohort? s co with | some c => tenantFn s c.tenant | none => 0
  | .admission i => match req? s i with | some r => tenantFn s r.tenant | none => 0
  | .park _ i => match req? s i with | some r => tenantFn s r.tenant | none => 0
  | .package => 0
  | .model _ => 0

/-- A request whose prompt may still be read (Table 01.1): ADMITTED or PREFILL. -/
def inPrefill (s : State) (i : Nat) : Bool :=
  match req? s i with | some r => r.st == .admitted || r.st == .prefill | none => false

/-- The device has such a read to issue. -/
def dmaLive (s : State) : DmaRead → Bool
  | .ring t r => ringOpen s t r
  | .item t r _ => ringOpen s t r || ((sq s t r).inflight && ringLive s t r)
  | .prefill co => match cohort? s co with | some c => c.members.any (inPrefill s) | none => false
  | .admission i => match req? s i with
    | some r => (match cohort? s r.cohort with | some c => c.st == .copying | none => false)
    | none => false
  | .park p i => match req? s i with | some r => (r.parking || r.unparking) && r.ctx / 32 == p | none => false
  | .package => (takeCmd s 0x0510 fun b => !(leAt b 1 1).testBit 3).isSome
  | .model n => match slot? s n with
    | some x => getF s (Reg.MDL_SLOT_STATE n) == 1 && x.fromPeer.isNone
    | none => false

/-- A prompt read failed during prefill (Table 01.1, Table 16.7): every remaining member ends FAILED; one record names the
first. -/
def failPrefill (s : State) (co : Nat) : State :=
  match cohort? s co with
  | none => s
  | some c =>
    match c.members.find? (inPrefill s) with
    | none => s
    | some i => match req? s i with
      | none => s
      | some r =>
        let s1 := recordFault s 0x1D clsRequest false false (r.ctx / 32) (r.ctx % 32) (handleOf i r.gen).toNat
        (c.members.filter (inPrefill s)).foldl (fun a j => endReq a j .failed 0x0704 false) s1

/-- The consequence of a DMA failure (Table 16.7). -/
def dmaConsequence (s : State) : DmaRead → State
  | .ring t r => raise (setSq s t r { sq s t r with stopped := true }) (Reg.RQI_SQ_STATUS_READ_FAILED t r)
  | .item t r ws => after s (execSubmit t r ws none none 0 s)
  | .prefill co => failPrefill s co
  | .admission i => match req? s i with | some r => rejectCohort s r.cohort 0x0208 | none => s
  | .park p i => match req? s i with
    | some r => if r.parking then after s (execParkComplete p i false s) else after s (execUnparkComplete p i false [] s)
    | none => s
  | .package => after s (execLoadModel none s)
  | .model n => after s (execModelTransferFailed n s)

/-- DMA_READ_FAILED (R577). -/
def execDmaReadFailed (what : DmaRead) (kind : DmaKind) (addr : Nat) (s : State) : Host.Outcome State Fault Refusal :=
  let n := dmaFn s what
  if !serving s || !canDma s n || !dmaLive s what then .next s
  else
    let s1 := logPcie s n (dmaErr kind)
    let s2 := bumpSat s1 (if kind = .timeout then Reg.HST_DMA_ERR_CNT_TIMEOUT else Reg.HST_DMA_ERR_CNT_OTHER) 1
    let s3 := setF (setF (setF s2 Reg.HST_DMA_LAST_ERR_FUNCTION n) Reg.HST_DMA_LAST_ERR_KIND (dmaKindCode kind))
      Reg.HST_DMA_LAST_ERR_STRUCT (dmaStruct what)
    let s4 := raise (setF s3 Reg.HST_DMA_LAST_ADDR_ADDR addr) Reg.HST_PCIE_STATUS_DMA_READ_ERR
    .next (dmaConsequence s4 what)

/-- UNEXPECTED_COMPLETION (Table 16.6): discarded. -/
def execUnexpectedCompletion (n : Nat) (s : State) : Host.Outcome State Fault Refusal :=
  if !pcieUp s || !fnExists s n then .next s
  else .next (raise (logPcie s n .unexpectedCompletion) Reg.HST_PCIE_STATUS_UNEXPECTED_CPL)

end Sys2Proof.Machine
end

