-- ==== Sys2Proof/Machine/RegRead.lean ====
section
/-! DEFINITION. Register reads (spec/03, R86, R87, R92 to R95, R98; spec/13, R743; spec/20, R678, R687) and the debug
window (R115, R116). -/
namespace Sys2Proof.Machine

/-! ## Fields that show what the state holds elsewhere -/

/-- STATE of a context (CMP_CTX_STATE_n). -/
def ctxState (s : State) (g : Nat) : Nat :=
  let l := lane s (ctxPart g)
  let held := match l.cur with | some st => st.ctx == g | none => false
  let saving := match l.preempt with | some x => x.saveAt.isSome | none => false
  if (ctx? s g).isNone then 0
  else if held then (if l.restoreAt.isSome then 6 else if saving then 4 else 3)
  else if l.pre.any fun st => st.ctx == g then 5
  else if hasWork s g then 2
  else 1

/-- BACKLOG_US of a context (R294): 0 for a context without a cost entry. -/
def backlogUs (s : State) (g : Nat) : Nat :=
  match (ctx? s g).bind fun c => pkgOf s c.slot with
  | none => 0
  | some k => match s.costs.find? fun c => c.modelId == k.modelId with
    | none => 0
    | some c => match costEntry c (grovesOf s (ctxPart g)) with
      | some e => min (2 ^ 24 - 1) (backlogOf s g e / 1000)
      | none => 0

/-- Seconds left in the confirmation window (R653). -/
def windowLeft (s : State) : Nat :=
  let x := slotSt s
  if x.tstate = 2 then ceilDiv (x.start + 500000000 * confirmWindow s - s.sTime) 500000000 else 0

/-- What a read of the register at `key` finds (R94): the register, with the fields that follow other state. -/
def viewReg (s : State) (key : Nat) : BitVec 64 :=
  let v := rd s key
  let b := key / 0x100000
  let p := key % 0x10000 / 0x10 % 0x100
  if key = Reg.HST_DEVTIME then BitVec.ofNat 64 s.fTime
  else if key = Reg.HST_STATUS then putField v 2 1 (if faultnOn s then 1 else 0)
  else if key = Reg.MGT_UPD_STATE then putField v 16 12 (windowLeft s)
  else if key = Reg.ADM_ADMITTED then putField v 0 18 (admittedCount s)
  else if key = Reg.ADM_COST_USED then putField v 0 7 s.costs.length
  else if b = 5 ∧ 0x508000 ≤ key then putField v 8 24 (backlogUs s ((key - 0x508000) / 4))
  else if b = 6 ∧ 0x180 ≤ key % 0x10000 ∧ key % 0x10000 < 0x200 then
    putField v 0 3 (ctxState s (32 * ((key - 0x600000) / 0x10000) + key % 0x80 / 4))
  else if b = 9 ∧ 0x902000 ≤ key ∧ key < 0x902400 ∧ key % 0x40 = 0x30 then
    putField (putField v 0 1 1) 8 24 (regRate s ((key - 0x902000) / 0x40) 3)
  else if b = 10 ∧ 0xA01000 ≤ key ∧ key < 0xA01100 ∧ key % 0x10 = 4 then putField v 0 20 (freePages s p)
  else if b = 10 ∧ 0xA01000 ≤ key ∧ key < 0xA01100 ∧ key % 0x10 = 8 then
    putField (putField v 0 16 (min 65535 (pagesWhere s p isStaged).length)) 16 16
      (min 65535 (pagesWhere s p isRetired).length)
  else if b = 10 ∧ 0xA02000 ≤ key ∧ key < 0xA02400 ∧ key % 0x10 = 0xC then
    putField v 0 16 (min 65535 (slotsInUse s ((key - 0xA02000) / 0x10)).length)
  else v

/-- TEN_STATUS (spec/12). -/
def tenStatus (s : State) (t : Nat) : Nat :=
  let bit (b : Bool) (n : Nat) : Nat := if b then 2 ^ n else 0
  match partOf s t with
  | none => bit (isSet s (Reg.ADM_TEN_CTL_OPEN t)) 5 + bit (isSet s (Reg.PRT_TEN_MIGRATING t)) 6 + bit (!sharedMode s) 9
  | some p =>
    p + 16 + bit (isSet s (Reg.ADM_TEN_CTL_OPEN t)) 5 + bit (isSet s (Reg.PRT_TEN_MIGRATING t)) 6 +
      bit (partState s p == 2 || partState s p == 3) 7 + bit (isSet s (Reg.PRT_PART_ACCT_ACCT_FULL p)) 8 +
      bit (!sharedMode s) 9

/-! ## Latches -/

/-- A latch list with `who`'s entry replaced or dropped. -/
def putLatch {α : Type} (l : List (Requester × α)) (who : Requester) (x : Option α) : List (Requester × α) :=
  let rest := l.filter fun e => e.1 != who
  match x with
  | some v => (who, v) :: rest
  | none => rest

/-- A 4-byte read of the lower half (`hi` false) or the upper half of HST_DEVTIME (R86). -/
def readDevtime (s : State) (who : Requester) (hi : Bool) : Nat × State :=
  if hi then
    match s.devLatch.find? fun e => e.1 == who with
    | some e => (e.2, { s with devLatch := putLatch s.devLatch who none })
    | none => (s.fTime % 2 ^ 64 / 2 ^ 32, s)
  else (s.fTime % 2 ^ 32, { s with devLatch := putLatch s.devLatch who (some (s.fTime % 2 ^ 64 / 2 ^ 32)) })

/-- A 4-byte read of word `k` of FLT_LAST (R743). A latch holds words 1 to 3; a word read once is kept under `k + 4`. -/
def readFlt (s : State) (who : Requester) (k : Nat) : Nat × State :=
  let now (j : Nat) : Nat := getF s (Reg.FLT_LAST_RECORD j)
  if k = 0 then (now 0, { s with fltLatch := putLatch s.fltLatch who (some [(1, now 1), (2, now 2), (3, now 3)]) })
  else match s.fltLatch.find? fun e => e.1 == who with
    | none => (now k, s)
    | some e =>
      match e.2.find? fun x => x.1 % 4 == k with
      | none => (now k, s)
      | some x =>
        let l := e.2.map fun y => if y.1 = k then (k + 4, y.2) else y
        let left := l.any fun y => decide (y.1 < 4)
        (x.2, { s with fltLatch := putLatch s.fltLatch who (if left then some l else none) })

/-! ## PF0 BAR0 -/

/-- A 4-byte word of the trace window (R678). -/
def windowWord (s : State) (o : Nat) : Nat :=
  let p := getF s Reg.TRC_WIN_CTL_PART
  let a := 2 ^ 19 * getF s Reg.TRC_WIN_CTL_BASE + (o - 0xD80000)
  if a < ringBytes s p then leNat (loadPart s p a 4) else 0

/-- A read that does not reach its block (R76, Table 03.6). -/
def blocked (s : State) (key : Nat) : Option State :=
  if !domainUp s key then some (raise s Reg.HST_CLK_STATUS_REG_DOMAIN_DOWN)
  else if resettingPart s key then some (raise s Reg.HST_ERR_STATUS_PART_IN_RESET)
  else none

/-- The 64-bit value of a register read, and its side effects. -/
def readReg (s : State) (key : Nat) : BitVec 64 × State := (viewReg s key, clearRc s key)

/-- A 4-byte read at offset `o` of PF0 BAR0 (R92, R95). -/
def readWord (s : State) (who : Requester) (o : Nat) : Nat × State :=
  if 0xD80000 ≤ o ∧ o < 0xE00000 then
    match blocked s o with
    | some s1 => (0xFFFFFFFF, s1)
    | none => (windowWord s o, s)
  else match regAt o with
    | none => (0, s)
    | some (key, sh) => match blocked s key with
      | some s1 => (0xFFFFFFFF, s1)
      | none =>
        if key = Reg.HST_DEVTIME then readDevtime s who (sh == 32)
        else if 0xE00080 ≤ key ∧ key < 0xE00090 then readFlt s who ((key - 0xE00080) / 4)
        else
          let r := readReg s key
          (fieldOf r.1 sh 32, r.2)

/-- Two 4-byte reads, the lower offset first. -/
def twoWords (f : State → Nat → Nat × State) (s : State) (o : Nat) : Nat × State :=
  let a := f s o
  let b := f a.2 (o + 4)
  (a.1 + 2 ^ 32 * b.1, b.2)

/-- A read of 1, 2, 4 or 8 bytes by 4-byte reads: the bytes of the containing register (R92). A read of 1 or 2 bytes of
HST_DEVTIME or FLT_LAST is a 4-byte read with its side effects (R92): that of the word it lies in, so that it sets or uses
the requester's latch (which word of a wide register, DEDUCED: notes/assumptions/64.md). -/
def partWord (f : State → Nat → Nat × State) (s : State) (o len : Nat) : Nat × State :=
  if len = 8 then twoWords f s o
  else
    let a := f s (o / 4 * 4)
    (a.1 / 256 ^ (o % 4) % 256 ^ len, a.2)

/-- A read of `len` bytes at offset `o` of PF0 BAR0; an 8-byte read of a 64-bit register is one read (R94). -/
def readBar0 (s : State) (who : Requester) (o len : Nat) : Nat × State :=
  match cardAt o with
  | some c =>
    if c.wide && len == 8 then
      match blocked s o with
      | some s1 => (2 ^ 64 - 1, s1)
      | none =>
        let r := readReg s o
        (r.1.toNat, r.2)
    else partWord (fun a x => readWord a who x) s o len
  | none => partWord (fun a x => readWord a who x) s o len

/-! ## The other BARs -/

/-- A word in the clock domain with bit `d` of LOCK (R76, R740). -/
def gated (s : State) (d : Nat) (v : Nat) : Nat × State :=
  if clockUp s d then (v, s) else (0xFFFFFFFF, raise s Reg.HST_CLK_STATUS_REG_DOMAIN_DOWN)

/-- A word of the MSI-X table of function `n` (PCIe layout). -/
def msixWord (s : State) (n o : Nat) : Nat :=
  let e := vec s n (o / 16)
  if o % 16 = 0 then e.addr % 2 ^ 32
  else if o % 16 = 4 then e.addr / 2 ^ 32 % 2 ^ 32
  else if o % 16 = 8 then e.data % 2 ^ 32
  else if e.masked then 1 else 0

/-- A word of the pending-bit array of function `n`. -/
def pbaWord (s : State) (n o : Nat) : Nat :=
  (List.range 32).foldl (fun a i => if (vec s n (8 * o + i)).pend then a + 2 ^ i else a) 0

/-- A 4-byte read at offset `o` of PF0 BAR2: doorbells are written only and read 0 (R95). -/
def readBar2 (s : State) (o : Nat) : Nat × State :=
  if o < 0x40000 then gated s 5 0
  else if o < 0x41000 then gated s 3 (msixWord s 0 (o - 0x40000))
  else if o < 0x41020 then gated s 3 (pbaWord s 0 (o - 0x41000))
  else (0, s)

/-- The register of PF0 BAR0 that VF BAR0 of tenant `t` shows at `o` (Table 12.7, R687). -/
def vfReg (s : State) (t o : Nat) : Option Nat :=
  if o < 0x1000 then some (0x400000 + 0x1000 * t + o)
  else if 0x2000 ≤ o ∧ o < 0x2200 then some (0x908000 + 0x200 * t + (o - 0x2000))
  else if 0x2200 ≤ o ∧ o < 0x2300 then some (Reg.TRC_TEN t 0 + (o - 0x2200))
  else if 0x2400 ≤ o ∧ o < 0x2500 then (partOf s t).map fun p => Reg.TRC_PART p 0 + (o - 0x2400)
  else none

/-- A 4-byte read at offset `o` of the VF BAR0 of tenant `t`. -/
def readVf (s : State) (t o : Nat) : Nat × State :=
  match vfReg s t o with
  | some x => readWord s (.vf t) x
  | none =>
    if o < 0x2000 then gated s 5 0
    else if 0x2200 ≤ o ∧ o < 0x3000 then gated s 7 0
    else if o = 0x3000 then gated s 5 (tenStatus s t)
    else if o = 0x3FF0 ∨ o = 0x3FF4 then
      (if clockUp s 1 then readDevtime s (.vf t) (o == 0x3FF4) else gated s 1 0)
    else if 0x8000 ≤ o ∧ o < 0x8200 then gated s 3 (msixWord s (t + 1) (o - 0x8000))
    else if 0x9000 ≤ o ∧ o < 0x9008 then gated s 3 (pbaWord s (t + 1) (o - 0x9000))
    else (0, s)

/-- A read of 1, 2, 4 or 8 bytes of the VF BAR0 of tenant `t`. -/
def readVfBar (s : State) (t o len : Nat) : Nat × State :=
  if o = 0x3FF0 ∧ len = 8 then
    (if clockUp s 1 then (s.fTime % 2 ^ 64, s) else (2 ^ 64 - 1, raise s Reg.HST_CLK_STATUS_REG_DOMAIN_DOWN))
  else match vfReg s t o with
    | some x => if len = 8 then readBar0 s (.vf t) x 8 else partWord (fun a y => readVf a t y) s o len
    | none => partWord (fun a y => readVf a t y) s o len

/-- The read that a BAR serves. -/
def readBar (s : State) (who : Requester) (bar : Bar) (o len : Nat) : Nat × State :=
  match bar with
  | .pfBar0 => readBar0 s who o len
  | .pfBar2 => partWord readBar2 s o len
  | .vfBar0 t => readVfBar s t o len

/-- A read returns its value to the requester. -/
def returnRead (who : Requester) (r : Nat × State) : State := emit r.2 (.readData who r.1)

/-- A read of a closed BAR is completed with Unsupported Request (R564). -/
def refuseRead (s : State) (who : Requester) : State := emit (refuseBar s who) (.unsupportedRequest who)

/-- A read that R92 does not accept is completed with Completer Abort, logged by the function (R578, Table 16.6). -/
def abortRead (s : State) (who : Requester) : State :=
  let s1 := match who with
    | .pf0 => logPcie s 0 .completerAbort
    | .vf t => logPcie s (t + 1) .completerAbort
    | _ => s
  emit s1 (.completerAbort who)

/-- A read of `len` bytes at `o` is one that R92 accepts. -/
def readOk (o len : Nat) : Bool := [1, 2, 4, 8].contains len && o % len == 0

/-! ## The commands -/

/-- REGISTER_READ (R92). -/
def execRegisterRead (who : Requester) (bar : Bar) (o len : Nat) (s : State) : Host.Outcome State Fault Refusal :=
  if !barOpen s who bar then .next (refuseRead s who)
  else if !readOk o len then .next (abortRead s who)
  else .next (returnRead who (readBar s who bar o len))

/-- MALFORMED_READ (R92, R578): a read that R92 does not accept has no side effect on any register. -/
def execMalformedRead (who : Requester) (bar : Bar) (o len : Nat) (s : State) : Host.Outcome State Fault Refusal :=
  if !barOpen s who bar then .next (refuseRead s who)
  else if readOk o len then .next s
  else .next (abortRead s who)

/-- DEVTIME_READ (R86, R87). -/
def execDevtimeRead (who : Requester) (bar : Bar) (len : Nat) (hi : Bool) (s : State) :
    Host.Outcome State Fault Refusal :=
  let o := match bar with | .vfBar0 _ => 0x3FF0 | _ => Reg.HST_DEVTIME
  let x := if hi ∧ len ≠ 8 then o + 4 else o
  if bar = .pfBar2 then .next s
  else if !barOpen s who bar then .next (refuseRead s who)
  else if !readOk x len then .next (abortRead s who)
  else .next (returnRead who (readBar s who bar x len))

/-- FLT_LAST_READ (R743). -/
def execFltLastRead (who : Requester) (k len : Nat) (s : State) : Host.Outcome State Fault Refusal :=
  if 4 ≤ k then .next s
  else if !barOpen s who .pfBar0 then .next (refuseRead s who)
  else if !readOk (0xE00080 + 4 * k) len then .next (abortRead s who)
  else .next (returnRead who (readBar0 s who (0xE00080 + 4 * k) len))

/-- The physical address behind offset `o` of the debug window (R115). -/
def windowAddr (s : State) (o : Nat) : Nat := 2 ^ 32 * getF s Reg.HST_DBGWIN_CTL_BASE + o

/-- The debug window is shut (R116). -/
def windowShut (s : State) : Bool := !isSet s Reg.HST_DBGWIN_CTL_ENABLE || ownerLocked s

/-- DEBUG_WINDOW_ACCESS (R115, R116, R223, R578): reads of up to 512 bytes; writes follow R93. An access passes through ECC
and the L2 slice. Before MCLK runs DRAM answers nothing stated: a free value. -/
def execDebugWindowAccess (o len : Nat) (data : Option (List Byte)) (s : State) : Host.Outcome State Fault Refusal :=
  if !((fn s 0).mse && !(fn s 0).d3) then .next (match data with | some _ => refuseBar s .pf0 | none => refuseRead s .pf0)
  else match data with
    | some bs =>
      if (bs.length ≠ 4 ∧ bs.length ≠ 8) ∨ o % bs.length ≠ 0 then .next (raise s Reg.HST_ERR_STATUS_BAD_SIZE)
      else if windowShut s then .next (raise s Reg.HST_ERR_STATUS_DBGWIN_REFUSED)
      else if !clockUp s 2 then .next s
      else
        let s1 := (numbered 0 bs).foldl (fun a e => storeByte a (windowAddr s (o + e.1)) e.2) s
        .next (touch s1 .sys true (windowAddr s o) bs.length)
    | none =>
      if 512 < len then .next (abortRead s .pf0)
      else if windowShut s then
        .next (emit (raise s Reg.HST_ERR_STATUS_DBGWIN_REFUSED) (.readData .pf0 (256 ^ len - 1)))
      else if !clockUp s 2 then
        let d := draw s
        .next (emit d.2 (.readData .pf0 (Config.freeNat d.1 % 256 ^ len)))
      else
        let s1 := readWords (touch s .sys false (windowAddr s o) len) (windowAddr s o) len
        .next (emit s1 (.readData .pf0 (leNat ((List.range len).map fun i => loadByte s (windowAddr s (o + i))))))

end Sys2Proof.Machine
end

