-- ==== Sys2Proof/Machine/Jtag.lean ====
section
/-! DEFINITION. JTAG (spec/22, R728, R729; spec/18, Table 18.3; spec/21, Table 21.4). -/
namespace Sys2Proof.Machine

/-- The device drives its pins again once no JTAG instruction holds them (R729): FAULT_N, THERMTRIP_N, VID and the
flash's reset and select. -/
def redrive (s : State) : State :=
  let s1 := emit s (.pin .faultN (!faultnOn s))
  let s2 := emit s1 (.pin .thermtripN (!isSet s Reg.HST_STATUS_THERMTRIP))
  let s3 := emit s2 (.vid (getF s Reg.HST_STRAPS_VID))
  emit (emit s3 (.pin .spiRstN s.boot.spiAt.isSome)) (.pin .spiCsN true)

/-- The TAP takes an instruction; leaving one that holds the pins returns them to their functions. -/
def setInstr (s : State) (i : TapInstr) : State :=
  let s1 := { s with tap := { s.tap with instr := i } }
  if pinsHeld s && !pinsHeld s1 then redrive s1 else s1

/-- BYPASS: the one-bit bypass register captures 0. -/
def execBypass (s : State) : Host.Outcome State Fault Refusal := .next (emit (setInstr s .bypass) (.jtag 0))

/-- IDCODE (R728). -/
def execIdcode (s : State) : Host.Outcome State Fault Refusal := .next (emit (setInstr s .idcode) (.jtag 0x2128096B))

/-- SAMPLE_PRELOAD: the pins are captured and shifted out, the boundary register is loaded. -/
def execSamplePreload (pins load : Nat) (s : State) : Host.Outcome State Fault Refusal :=
  let s1 := setInstr s .sample
  .next (emit { s1 with tap := { s1.tap with boundary := load } } (.jtag pins))

/-- EXTEST (R729): outputs follow the boundary register. -/
def execExtest (scan : Option (Nat × Nat)) (s : State) : Host.Outcome State Fault Refusal :=
  let s1 := setInstr s .extest
  match scan with
  | none => .next (emit s1 (.boundary (some s1.tap.boundary)))
  | some (pins, load) =>
    .next (emit (emit { s1 with tap := { s1.tap with boundary := load } } (.jtag pins)) (.boundary (some load)))

/-- CLAMP (R729): outputs follow the boundary register; the bypass register is selected. -/
def execClamp (s : State) : Host.Outcome State Fault Refusal :=
  .next (emit (setInstr s .clamp) (.boundary (some s.tap.boundary)))

/-- HIGHZ (R729): outputs go to high impedance. -/
def execHighz (s : State) : Host.Outcome State Fault Refusal := .next (emit (setInstr s .highz) (.boundary none))

/-- TEST_LOGIC_RESET: the instruction becomes IDCODE (IEEE 1149.1). -/
def execTestLogicReset (s : State) : Host.Outcome State Fault Refusal := .next (setInstr s .idcode)

/-- JTAG debug access is allowed (Tables 18.3 and 21.4): the owner state has been read and is not LOCKED. -/
def debugOpen (s : State) : Bool := decide (3 ≤ stage s) && !ownerLocked s && !heldCold s && !tripped s

/-- JTAG_DEBUG_ACCESS: a read or write of PF0 BAR0; refused without effect. -/
def execJtagDebugAccess (o len : Nat) (data : Option (W64 × Nat)) (s : State) : Host.Outcome State Fault Refusal :=
  if !debugOpen s then .next s
  else
    let s1 := setInstr s .debug
    match data with
    | some (v, hw) =>
      if (len ≠ 4 ∧ len ≠ 8) ∨ o % len ≠ 0 then .next (raise s1 Reg.HST_ERR_STATUS_BAD_SIZE)
      else .next (writeBar0 s1 o len v hw)
    | none =>
      if !readOk o len then .next (abortRead s1 .jtag) else .next (returnRead .jtag (readBar0 s1 .jtag o len))

end Sys2Proof.Machine
end

