-- ==== Sys2Proof/Machine/Update.lean ====
section
/-! DEFINITION. Firmware update and live repair (spec/19): sessions, commits, trials and hand-offs, microcode and cluster
repair. -/
namespace Sys2Proof.Machine

/-- An update command is answered; MGT_UPD_LAST keeps its code and Table 17.1 detail. -/
def updRespond (s : State) (c : MbxCmd) (code detail : Nat) (resp : List Byte) : State :=
  respond (setF (setF s Reg.MGT_UPD_LAST_CODE code) Reg.MGT_UPD_LAST_DETAIL detail) c code resp

/-- The refusal checks of Table 19.4, in order; 0 when none holds (R642). -/
def updRefusal (s : State) (root : Bool) : Nat :=
  let owner := getF s Reg.MGT_STATUS_OWNER
  if root && owner != 2 then 0x0A0A
  else if !root && owner == 1 then 0x0A01
  else if isSet s Reg.PWR_STATE_BATTERY then 0x0A02
  else if changeBusy s then 0x0A03
  else if isSet s Reg.PWR_STATE_EMERGENCY then 0x0A04
  else 0

/-! ## Sessions (R644 to R647) -/

/-- A session opens on a target, 0 or 1 a slot, 2 the root loader, and closes the one it replaces. -/
def openUpdate (s : State) (c : MbxCmd) (target total : Nat) : State :=
  let u : Upd := { target := target, smbus := c.smbus, total := total, next := 0, at_ := s.sTime, erased := [], staged := [] }
  let s1 := { spoilSlot s with upd := some u }
  setF (setF (setF s1 Reg.MGT_UPD_STATE_SESSION (if target = 2 then 2 else 1)) Reg.MGT_UPD_STATE_REQUESTER
    (if c.smbus then 1 else 0)) Reg.MGT_UPD_OFFSET_OFFSET 0

/-- UPDATE_BEGIN (R644, R661). A length beyond the slot's extent is out of range. -/
def execUpdateBegin (s : State) : Host.Outcome State Fault Refusal :=
  runCmd s 0x0A10 (fun _ => true) fun c =>
    let root := leAt c.payload 0 1 == 1
    let total := leAt c.payload 4 4
    let code := updRefusal s root
    let other := match s.upd with | some u => u.smbus != c.smbus | none => false
    let n := 1 - getF s Reg.MGT_STATUS_SLOT
    if code ≠ 0 then updRespond s c code 0 []
    else if other || (!root && trialOn (slotSt s)) then updRespond s c 0x0A08 0 []
    else if 1 < leAt c.payload 0 1 ∨ total < 512 ∨ (if root then 65536 else min (16 * 2 ^ 20) (slotExtent s n).2) < total then
      updRespond s c 0x0A05 0 []
    else updRespond (openUpdate s c (if root then 2 else n) total) c 0 0 (leBytes 1 (if root then 0xFF else n))

/-- The session that a command of the running requester acts on, or the code that refuses it. -/
def sessionOf (s : State) (c : MbxCmd) : Except Nat Upd :=
  match s.upd with
  | some u => if u.smbus = c.smbus then .ok u else .error 0x0A08
  | none => .error 0x0A05

/-- The session has received a command (R647). -/
def touchUpdate (s : State) (u : Upd) : State := { s with upd := some { u with at_ := s.sTime } }

/-- 4 KiB sectors of the flash that a range touches. -/
def sectorsOf (a n : Nat) : List Nat := (List.range (ceilDiv (a % 4096 + n) 4096)).map (a / 4096 + ·)

/-- A slot's chunk goes to the flash (R646): sectors not yet erased in the session, then the pages, padded with 0xFF. The
flag says that every page reads back. -/
def writeChunk (s : State) (u : Upd) (a : Nat) (b : List Byte) : State × List Nat × Bool :=
  let fresh := (sectorsOf a b.length).filter fun k => !u.erased.contains k
  let s1 := fresh.foldl (fun x k => eraseFlash x (4096 * k) 4096) s
  let d := b ++ List.replicate ((256 - b.length % 256) % 256) 0xFF#8
  let s2 := programFlash s1 a d
  (s2, u.erased ++ fresh, flashBytes s2 a d.length == d)

/-- The next expected offset moves on. -/
def advance (s : State) (u : Upd) (n : Nat) : State :=
  setF { s with upd := some { u with next := u.next + n } } Reg.MGT_UPD_OFFSET_OFFSET (u.next + n)

/-- UPDATE_CHUNK (R645, R646): flash failures leave the offset where it is. -/
def execUpdateChunk (ok : Bool) (s : State) : Host.Outcome State Fault Refusal :=
  runCmd s 0x0A11 (fun _ => true) fun c =>
    let root := match s.upd with | some u => u.target == 2 | none => false
    let code := updRefusal s root
    match sessionOf s c with
    | .error e => updRespond s c (if code = 0 then e else code) 0 []
    | .ok u0 =>
      let s0 := touchUpdate s u0
      let u := { u0 with at_ := s.sTime }
      let b := c.payload.drop 8
      let n := b.length
      if code ≠ 0 then updRespond s0 c code 0 []
      else if leAt c.payload 4 4 ≠ u.next ∨ u.total < u.next + n ∨ (n % 256 ≠ 0 ∧ u.next + n ≠ u.total) then
        updRespond s0 c 0x0A05 0 []
      else if u.target = 2 then updRespond (advance s0 { u with staged := u.staged ++ b } n) c 0 0 []
      else
        let a := (slotExtent s0 u.target).1 + u.next
        let w := writeChunk s0 u a b
        let v := { u with erased := w.2.1 }
        if ok && w.2.2 then updRespond (advance w.1 v n) c 0 0 []
        else
          let s1 := if ok then w.1 else garbleFlash w.1 a n
          updRespond (raise { s1 with upd := some v } Reg.MGT_UPD_STATUS_FLASH_FAILED) c 0x0A0B 0 []

/-- UPDATE_ABORT with byte 0 set to 0: the requester's session closes. Values above 1 are out of sequence. -/
def execUpdateAbort (s : State) : Host.Outcome State Fault Refusal :=
  runCmd s 0x0A14 (fun b => leAt b 0 1 != 1) fun c =>
    if leAt c.payload 0 1 ≠ 0 then updRespond s c 0x0A05 0 []
    else match sessionOf s c with
      | .error e => updRespond s c e 0 []
      | .ok _ => updRespond (closeUpdate s) c 0 0 []

/-- SESSION_IDLE_TIMEOUT (R647). -/
def execSessionIdleTimeout (s : State) : Host.Outcome State Fault Refusal :=
  match s.upd with
  | some u =>
    if hwdRuns s ∧ u.at_ + 150000000000 ≤ s.sTime then .next (raise (closeUpdate s) Reg.MGT_UPD_STATUS_SESSION_EXPIRED)
    else .next s
  | none => .next s

/-! ## Commit (R648, R650, R661) -/

/-- MAJOR of a RELEASE. -/
def majorOf (rel : Nat) : Nat := rel / 2 ^ 24

/-- The slot's microcode has the MAJOR that every grove and lane in a partition runs (R650). -/
def liveOk (s : State) (r : Region) : Bool :=
  let m (i : Nat) : Nat := majorOf (component r.payload i).2.2.2
  (partIds s).all fun p => majorOf (loadedAt s (16 + p)).1 == m 2 &&
    (groveList s p).all fun g => getF s (Reg.GRV_UCODE_VER_MAJOR g) == m 1

/-- The slot is committed as the trial (R648). -/
def commitSlot (s : State) (n : Nat) (r : Region) (live : Bool) : State :=
  let x := slotSt s
  let y := if n = 0 then { x with svnA := regionSvn r, relA := regionRel r }
    else { x with svnB := regionSvn r, relB := regionRel r }
  raise (putSlotSt (endUpdate s) { y with trial := n, tstate := 1, live := live, start := 0, fail := 0 })
    Reg.MGT_UPD_STATUS_COMMITTED

/-- A refused image: UPDATE_ROLLBACK, or UPDATE_IMAGE_BAD with the code. -/
def imageBad (s : State) (c : MbxCmd) (code : Nat) : State :=
  if code = 0x080B then updRespond s c 0x0A07 code [] else updRespond s c 0x0A06 code (leBytes 2 code)

/-- The commit of a slot session. In MODE LIVE Heartwood hands off after DONE, once no command is in flight (R651). -/
def commitFlash (s : State) (c : MbxCmd) (u : Upd) (x : RegionRead) (live : Bool) : State :=
  let e := slotExtent s u.target
  let r := flashRegion s e.1 e.2
  let code := regionCode s .slot r e.2 x
  let s1 := setF (setF (regionReads s code x) (Reg.CFG_RESULT_CODE u.target) code) (Reg.CFG_RESULT_CHECKED u.target) 1
  if code ≠ 0 then imageBad s1 c code
  else if live && !liveOk s1 r then updRespond s1 c 0x0A0F 0 []
  else
    let s2 := updRespond (commitSlot s1 u.target r live) c 0 0 []
    if live then fallReady { s2 with hwd := { s2.hwd with handoff := some (u.target, r) } } else s2

/-- The commit of a root-loader session: sectors 0 to 15 are erased and programmed; a write that does not read back leaves
the region at free values (R660, R661). -/
def commitRoot (s : State) (c : MbxCmd) (u : Upd) (x : RegionRead) (ok : Bool) : State :=
  let r := regionOf u.staged
  let code := regionCode s .rootLoader r 65536 x
  let s1 := regionReads s code x
  if code ≠ 0 then imageBad s1 c code
  else if !ok then
    let d := draw s1
    updRespond { d.2 with nvm := { d.2.nvm with root := some (Config.freshBytes d.1 65536) } } c 0x0A0B 0 []
  else
    let s2 := endUpdate { s1 with nvm := { s1.nvm with root := some u.staged } }
    updRespond (raise (wr s2 Reg.HST_RL_VER (BitVec.ofNat 64 (regionRel r))) Reg.MGT_UPD_STATUS_RL_WRITTEN) c 0 0 []

/-- UPDATE_COMMIT in either mode; MODE is ignored for the root loader. -/
def commitUpdate (s : State) (c : MbxCmd) (x : RegionRead) (ok live : Bool) : State :=
  let root := match s.upd with | some u => u.target == 2 | none => false
  let code := updRefusal s root
  match sessionOf s c with
  | .error e => updRespond s c (if code = 0 then e else code) 0 []
  | .ok u =>
    let s1 := touchUpdate s u
    if code ≠ 0 then updRespond s1 c code 0 []
    else if u.next ≠ u.total ∨ (root = false ∧ 1 < leAt c.payload 0 1) then updRespond s1 c 0x0A05 0 []
    else if root then commitRoot s1 c u x ok
    else commitFlash s1 c u x live

/-- UPDATE_COMMIT with MODE RESET (R648, R649); a MODE above 1 is refused as out of range. -/
def execUpdateCommit (x : RegionRead) (ok : Bool) (s : State) : Host.Outcome State Fault Refusal :=
  runCmd s 0x0A12 (fun b => leAt b 0 1 != 1) fun c => commitUpdate s c x ok false

/-- UPDATE_COMMIT with MODE LIVE (R650). -/
def execUpdateCommitLive (x : RegionRead) (ok : Bool) (s : State) : Host.Outcome State Fault Refusal :=
  runCmd s 0x0A12 (fun b => leAt b 0 1 == 1) fun c => commitUpdate s c x ok true

/-! ## Trial (R653 to R656) -/

/-- UPDATE_CONFIRM (R654, R625). -/
def execUpdateConfirm (s : State) : Host.Outcome State Fault Refusal :=
  runCmd s 0x0A13 (fun _ => true) fun c =>
    let x := slotSt s
    if x.tstate ≠ 2 then updRespond s c 0x0A09 0 []
    else
      let s1 := putSlotSt s { x with active := x.trial, trial := 0xFF, tstate := 0 }
      let s2 := raiseArb s1 (if x.trial = 0 then x.svnA else x.svnB)
      let s3 := showSet { s2 with set := { s2.set with dev := s2.set.dev.filter fun r => r.tag != 5 } }
      updRespond (raise s3 Reg.MGT_UPD_STATUS_CONFIRMED) c 0 0 []

/-- The trial falls back (R655): SLOT_STATE, FALLBACK and the warm chip reset, shown as RESET_CHIP's kind. -/
def fallBack (s : State) (code : Nat) : State := warmDue (failTrial s code) 2

/-- UPDATE_ABORT with byte 0 set to 1 (R655). -/
def execUpdateRejectTrial (s : State) : Host.Outcome State Fault Refusal :=
  runCmd s 0x0A14 (fun b => leAt b 0 1 == 1) fun c =>
    if (slotSt s).tstate ≠ 2 then updRespond s c 0x0A09 0 [] else fallBack (updRespond s c 0 0 []) 2

/-- CONFIRM_WINDOW_EXPIRY (R653, R655). -/
def execConfirmWindowExpiry (s : State) : Host.Outcome State Fault Refusal :=
  let x := slotSt s
  if x.tstate = 2 ∧ hwdRuns s = true ∧ s.boot.up = true ∧ x.start + 500000000 * confirmWindow s ≤ s.sTime then
    .next (fallBack s 1)
  else .next s

/-- HEARTWOOD_HANDOFF (R651): another slot's Heartwood takes over from the one that runs. -/
def execHeartwoodHandoff (conv : List SetRec) (s : State) : Host.Outcome State Fault Refusal :=
  match s.hwd.handoff with
  | some (m, r) =>
    if !(loadedAt s 33).2.isEmpty && hwdRuns s && !mbxReady s then .next (takeOver s m r conv) else .next s
  | none => .next s

/-! ## Microcode and repair -/

/-- LOAD_MICROCODE (R657). -/
def execLoadMicrocode (s : State) : Host.Outcome State Fault Refusal :=
  runCmd s 0x0A20 (fun _ => true) fun c =>
    let p := leAt c.payload 0 1
    let code := updRefusal s false
    if code ≠ 0 then updRespond s c code 0 []
    else if 16 ≤ p ∨ partValid s p = false then updRespond s c 0x0604 0 []
    else if partState s p ≠ 3 then updRespond s c 0x0A0C 0 []
    else
      let s1 := loadLaneUcode ((groveList s p).foldl loadGroveUcode s) p
      updRespond s1 c 0 0 (leBytes 4 (slotComp s 1).1)

/-- A change of the repair map, with the copy of it that is stored first (R132, R633). -/
def changeMap (f : State → State) (s : State) : State := storeMap (f s)

/-- The self-test of the spare a logical cluster was given: one that fails is retired, a change of its own, and the next spare
is taken (R659 step 3). -/
def testSpare (fails : List (Nat × Nat)) (g l : Nat) : Nat → State → State
  | 0, s => s
  | k + 1, s =>
    if !clusterAbsent s g l && fails.contains (g, mapEntry s g l) then
      testSpare fails g l k (changeMap (fun a => retireCluster a g l) s)
    else s

/-- Pairs in ascending grove and logical order. -/
def insPair (x : Nat × Nat) : List (Nat × Nat) → List (Nat × Nat)
  | [] => [x]
  | y :: ys => if x.1 < y.1 ∨ (x.1 = y.1 ∧ x.2 ≤ y.2) then x :: y :: ys else y :: insPair x ys

/-- REPAIR_CLUSTERS (R659). -/
def execRepairClusters (fails : List (Nat × Nat)) (s : State) : Host.Outcome State Fault Refusal :=
  runCmd s 0x0A21 (fun _ => true) fun c =>
    let ps := (chunks 2 8 (c.payload.drop 1)).map fun b => (leAt b 0 1, leAt b 1 1)
    let code := updRefusal s false
    let bad := ps.any fun e => decide (16 ≤ e.1 ∨ 80 ≤ e.2) || clusterAbsent s e.1 e.2
    if code ≠ 0 then updRespond s c code 0 []
    else if bad ∨ ps.eraseDups.length ≠ ps.length then updRespond s c 0x0A0D 0 []
    else if ps.any fun e => isSet s (Reg.GRV_STATUS_ASSIGNED e.1) && partState s (getF s (Reg.GRV_STATUS_PARTITION e.1)) != 3 then
      updRespond s c 0x0A0C 0 []
    else
      let qs := ps.foldr insPair []
      let s1 := changeMap (fun a => qs.foldl (fun b e => retireCluster b e.1 e.2) a) s
      let s2 := qs.foldl (fun a e => testSpare fails e.1 e.2 4 a) s1
      updRespond s2 c 0 0 (ps.map fun e => BitVec.ofNat 8 (mapEntry s2 e.1 e.2))

end Sys2Proof.Machine
end

