-- ==== Sys2Proof/Machine/Dispatch.lean ====
section
/-! DEFINITION. The commands and their meanings: one arm for each. -/
namespace Sys2Proof.Machine

def exec (i : Instr) (s : State) : Host.Outcome State Fault Refusal :=
  match i with
  | .sqDoorbell t r viaPf v => Sys2Proof.Machine.execSqDoorbell t r viaPf v s
  | .cqDoorbell t c viaPf v => Sys2Proof.Machine.execCqDoorbell t c viaPf v s
  | .submit t r words prompt ext pick => Sys2Proof.Machine.execSubmit t r words prompt ext pick s
  | .cohort t r words => Sys2Proof.Machine.execCohort t r words s
  | .cancel t r words => Sys2Proof.Machine.execCancel t r words s
  | .fence t r words => Sys2Proof.Machine.execFence t r words s
  | .fencePass t r => Sys2Proof.Machine.execFencePass t r s
  | .itemReread t r words => Sys2Proof.Machine.execItemReread t r words s
  | .flush t r => Sys2Proof.Machine.execFlush t r s
  | .flushDone t r => Sys2Proof.Machine.execFlushDone t r s
  | .sqEnable t r cfg => Sys2Proof.Machine.execSqEnable t r cfg s
  | .sqDisable t r cfg => Sys2Proof.Machine.execSqDisable t r cfg s
  | .cqEnable t c cfg => Sys2Proof.Machine.execCqEnable t c cfg s
  | .cqDisable t c cfg => Sys2Proof.Machine.execCqDisable t c cfg s
  | .completionRecordWrite t c => Sys2Proof.Machine.execCompletionRecordWrite t c s
  | .coalesceTimeout t c => Sys2Proof.Machine.execCoalesceTimeout t c s
  | .msixUnmask fn what => Sys2Proof.Machine.execMsixUnmask fn what s
  | .reservedItemType t r words => Sys2Proof.Machine.execReservedItemType t r words s
  | .admissionEvaluate t c => Sys2Proof.Machine.execAdmissionEvaluate t c s
  | .budgetRefill => Sys2Proof.Machine.execBudgetRefill s
  | .queueDeadlineScan => Sys2Proof.Machine.execQueueDeadlineScan s
  | .maskCopyDone idx mask ext => Sys2Proof.Machine.execMaskCopyDone idx mask ext s
  | .deadlineCheck => Sys2Proof.Machine.execDeadlineCheck s
  | .holderSelect p => Sys2Proof.Machine.execHolderSelect p s
  | .stepCompose p => Sys2Proof.Machine.execStepCompose p s
  | .powerWaitRetry p => Sys2Proof.Machine.execPowerWaitRetry p s
  | .stepExecute p plan => Sys2Proof.Machine.execStepExecute p plan s
  | .taskComplete p g l tag task => Sys2Proof.Machine.execTaskComplete p g l tag task s
  | .taskWatchdog p cl => Sys2Proof.Machine.execTaskWatchdog p cl s
  | .candidateArrive p tag shard positions => Sys2Proof.Machine.execCandidateArrive p tag shard positions s
  | .stepCommit p => Sys2Proof.Machine.execStepCommit p s
  | .stepDeadline p ctx => Sys2Proof.Machine.execStepDeadline p ctx s
  | .groveAbandonAck p g => Sys2Proof.Machine.execGroveAbandonAck p g s
  | .composeTimeout p => Sys2Proof.Machine.execComposeTimeout p s
  | .preemptRaise p => Sys2Proof.Machine.execPreemptRaise p s
  | .clusterTileStop p cl => Sys2Proof.Machine.execClusterTileStop p cl s
  | .preemptEscalate p => Sys2Proof.Machine.execPreemptEscalate p s
  | .preemptSaveDone p => Sys2Proof.Machine.execPreemptSaveDone p s
  | .restoreDone p bad => Sys2Proof.Machine.execRestoreDone p bad s
  | .imodeStopTimeout p cl => Sys2Proof.Machine.execImodeStopTimeout p cl s
  | .saveWriteTimeout p => Sys2Proof.Machine.execSaveWriteTimeout p s
  | .debugHalt p => Sys2Proof.Machine.execDebugHalt p s
  | .debugHaltRelease p => Sys2Proof.Machine.execDebugHaltRelease p s
  | .parkStart p => Sys2Proof.Machine.execParkStart p s
  | .parkComplete p idx ok => Sys2Proof.Machine.execParkComplete p idx ok s
  | .unparkStart p => Sys2Proof.Machine.execUnparkStart p s
  | .unparkComplete p idx ok data => Sys2Proof.Machine.execUnparkComplete p idx ok data s
  | .scrubRead addr ecc => Sys2Proof.Machine.execScrubRead addr ecc s
  | .mailboxGo => Sys2Proof.Machine.execMailboxGo s
  | .smbusMctpRequest opcode tag len payload => Sys2Proof.Machine.execSmbusMctpRequest opcode tag len payload s
  | .smbusSclTimeout => Sys2Proof.Machine.execSmbusSclTimeout s
  | .loadCostTable => Sys2Proof.Machine.execLoadCostTable s
  | .clearCostTable => Sys2Proof.Machine.execClearCostTable s
  | .loadModel src => Sys2Proof.Machine.execLoadModel src s
  | .addContext => Sys2Proof.Machine.execAddContext s
  | .evictModel => Sys2Proof.Machine.execEvictModel s
  | .evictModelForce => Sys2Proof.Machine.execEvictModelForce s
  | .pinModel => Sys2Proof.Machine.execPinModel s
  | .unpinModel => Sys2Proof.Machine.execUnpinModel s
  | .pairDraft => Sys2Proof.Machine.execPairDraft s
  | .unpairDraft => Sys2Proof.Machine.execUnpairDraft s
  | .modelTransferDone n crc bytes => Sys2Proof.Machine.execModelTransferDone n crc bytes s
  | .modelTransferFailed n => Sys2Proof.Machine.execModelTransferFailed n s
  | .modelDrainEvict n => Sys2Proof.Machine.execModelDrainEvict n s
  | .drainPartition => Sys2Proof.Machine.execDrainPartition s
  | .drainDone p => Sys2Proof.Machine.execDrainDone p s
  | .resumePartition => Sys2Proof.Machine.execResumePartition s
  | .reconfigure => Sys2Proof.Machine.execReconfigure s
  | .migrateTenant => Sys2Proof.Machine.execMigrateTenant s
  | .migrateDone t => Sys2Proof.Machine.execMigrateDone t s
  | .faultReport src => Sys2Proof.Machine.execFaultReport src s
  | .partitionResetComplete p => Sys2Proof.Machine.execPartitionResetComplete p s
  | .faultnClear v => Sys2Proof.Machine.execFaultnClear v s
  | .pllLossOfLock b => Sys2Proof.Machine.execPllLossOfLock b s
  | .watchdogKick => Sys2Proof.Machine.execWatchdogKick s
  | .watchdogExpiry => Sys2Proof.Machine.execWatchdogExpiry s
  | .teardownContext => Sys2Proof.Machine.execTeardownContext s
  | .resetPartition => Sys2Proof.Machine.execResetPartition s
  | .resetTenant => Sys2Proof.Machine.execResetTenant s
  | .readFaultLog => Sys2Proof.Machine.execReadFaultLog s
  | .clearFaultLog => Sys2Proof.Machine.execClearFaultLog s
  | .linkTrainStageDone n margins aligned => Sys2Proof.Machine.execLinkTrainStageDone n margins aligned s
  | .linkTrainTimeout n aligned => Sys2Proof.Machine.execLinkTrainTimeout n aligned s
  | .trainExch n node port width stepping => Sys2Proof.Machine.execTrainExch n node port width stepping s
  | .dataFlitReceive n bytes => Sys2Proof.Machine.execDataFlitReceive n bytes s
  | .controlFlitReceive n crcOk ack nak credits => Sys2Proof.Machine.execControlFlitReceive n crcOk ack nak credits s
  | .linkDegradeDone n aligned => Sys2Proof.Machine.execLinkDegradeDone n aligned s
  | .msgReassemblyTimeout src msg => Sys2Proof.Machine.execMsgReassemblyTimeout src msg s
  | .retrainPort => Sys2Proof.Machine.execRetrainPort s
  | .setRoutes => Sys2Proof.Machine.execSetRoutes s
  | .defineGroup => Sys2Proof.Machine.execDefineGroup s
  | .mgmtForm h gid modelId index => Sys2Proof.Machine.execMgmtForm h gid modelId index s
  | .mgmtFormAck h gid info => Sys2Proof.Machine.execMgmtFormAck h gid info s
  | .formResend n => Sys2Proof.Machine.execFormResend n s
  | .mgmtHeartbeat h gid answer => Sys2Proof.Machine.execMgmtHeartbeat h gid answer s
  | .heartbeatSend n => Sys2Proof.Machine.execHeartbeatSend n s
  | .peerLoss n node => Sys2Proof.Machine.execPeerLoss n node s
  | .mgmtLeave h gid => Sys2Proof.Machine.execMgmtLeave h gid s
  | .mgmtPeerModelRequest h handle => Sys2Proof.Machine.execMgmtPeerModelRequest h handle s
  | .plan h gid tag seqs => Sys2Proof.Machine.execPlan h gid tag seqs s
  | .planAck h gid tag free short => Sys2Proof.Machine.execPlanAck h gid tag free short s
  | .cand h gid tag lists => Sys2Proof.Machine.execCand h gid tag lists s
  | .commit h gid tag seqs => Sys2Proof.Machine.execCommit h gid tag seqs s
  | .abandon h gid tag => Sys2Proof.Machine.execAbandon h gid tag s
  | .abandonAck h gid tag => Sys2Proof.Machine.execAbandonAck h gid tag s
  | .release h gid idxs => Sys2Proof.Machine.execRelease h gid idxs s
  | .releaseSend n => Sys2Proof.Machine.execReleaseSend n s
  | .samppage h gid idx mask bias => Sys2Proof.Machine.execSamppage h gid idx mask bias s
  | .coll h gid x => Sys2Proof.Machine.execColl h gid x s
  | .kvxfer h gid tag bytes => Sys2Proof.Machine.execKvxfer h gid tag bytes s
  | .modelxfer h n bytes => Sys2Proof.Machine.execModelxfer h n bytes s
  | .planisherPeriod meas sensors => Sys2Proof.Machine.execPlanisherPeriod meas sensors s
  | .cclkSwitch => Sys2Proof.Machine.execCclkSwitch s
  | .handoverHoldExpiry p => Sys2Proof.Machine.execHandoverHoldExpiry p s
  | .batteryModeBegin bbuLow => Sys2Proof.Machine.execBatteryModeBegin bbuLow s
  | .batteryModeEnd => Sys2Proof.Machine.execBatteryModeEnd s
  | .pmbusPoll reads => Sys2Proof.Machine.execPmbusPoll reads s
  | .shelfRetry d status => Sys2Proof.Machine.execShelfRetry d status s
  | .thermalEmergencyBegin alertLow => Sys2Proof.Machine.execThermalEmergencyBegin alertLow s
  | .thermalEmergencyEnd => Sys2Proof.Machine.execThermalEmergencyEnd s
  | .ramp src r => Sys2Proof.Machine.execRamp src r s
  | .rampSend => Sys2Proof.Machine.execRampSend s
  | .stamp h time => Sys2Proof.Machine.execStamp h time s
  | .stampSend => Sys2Proof.Machine.execStampSend s
  | .regulatorRefill => Sys2Proof.Machine.execRegulatorRefill s
  | .doeDiscovery req => Sys2Proof.Machine.execDoeDiscovery req s
  | .getVersion req => Sys2Proof.Machine.execGetVersion req s
  | .getCapabilities req => Sys2Proof.Machine.execGetCapabilities req s
  | .negotiateAlgorithms req => Sys2Proof.Machine.execNegotiateAlgorithms req s
  | .getDigests req => Sys2Proof.Machine.execGetDigests req s
  | .getCertificate req => Sys2Proof.Machine.execGetCertificate req s
  | .challenge req => Sys2Proof.Machine.execChallenge req s
  | .getMeasurements req => Sys2Proof.Machine.execGetMeasurements req s
  | .spdmUnsupportedRequest req => Sys2Proof.Machine.execSpdmUnsupportedRequest req s
  | .doeAbort => Sys2Proof.Machine.execDoeAbort s
  | .vfFlr t => Sys2Proof.Machine.execVfFlr t s
  | .pf0Flr => Sys2Proof.Machine.execPf0Flr s
  | .vfEnableSet numVfs => Sys2Proof.Machine.execVfEnableSet numVfs s
  | .vfEnableClear => Sys2Proof.Machine.execVfEnableClear s
  | .busMasterEnable fn cmd ctl => Sys2Proof.Machine.execBusMasterEnable fn cmd ctl s
  | .d3hotEntry fn enter => Sys2Proof.Machine.execD3hotEntry fn enter s
  | .linkSpeedChange speed width flit => Sys2Proof.Machine.execLinkSpeedChange speed width flit s
  | .pcieLinkDown => Sys2Proof.Machine.execPcieLinkDown s
  | .pcieFatalError => Sys2Proof.Machine.execPcieFatalError s
  | .dmaReadFailed what kind addr => Sys2Proof.Machine.execDmaReadFailed what kind addr s
  | .unexpectedCompletion fn => Sys2Proof.Machine.execUnexpectedCompletion fn s
  | .malformedRead who bar o len => Sys2Proof.Machine.execMalformedRead who bar o len s
  | .dbRouteWrite h v => Sys2Proof.Machine.execDbRouteWrite h v s
  | .registerWrite who bar o len v hw => Sys2Proof.Machine.execRegisterWrite who bar o len v hw s
  | .registerRead who bar o len => Sys2Proof.Machine.execRegisterRead who bar o len s
  | .devtimeRead who bar len hi => Sys2Proof.Machine.execDevtimeRead who bar len hi s
  | .fltLastRead who k len => Sys2Proof.Machine.execFltLastRead who k len s
  | .dbgwinCtlWrite v => Sys2Proof.Machine.execDbgwinCtlWrite v s
  | .debugWindowAccess o len data => Sys2Proof.Machine.execDebugWindowAccess o len data s
  | .selectProfile => Sys2Proof.Machine.execSelectProfile s
  | .loadVolatileBegin => Sys2Proof.Machine.execLoadVolatileBegin s
  | .loadVolatileChunk => Sys2Proof.Machine.execLoadVolatileChunk s
  | .loadVolatileEnd => Sys2Proof.Machine.execLoadVolatileEnd s
  | .loadVolatileCancel => Sys2Proof.Machine.execLoadVolatileCancel s
  | .getConfigStatus => Sys2Proof.Machine.execGetConfigStatus s
  | .flashInfo => Sys2Proof.Machine.execFlashInfo s
  | .flashRead ok => Sys2Proof.Machine.execFlashRead ok s
  | .flashErase ok => Sys2Proof.Machine.execFlashErase ok s
  | .flashProgram ok => Sys2Proof.Machine.execFlashProgram ok s
  | .settingsLoad transient lost => Sys2Proof.Machine.execSettingsLoad transient lost s
  | .storeSettings ok => Sys2Proof.Machine.execStoreSettings ok s
  | .discardSettings => Sys2Proof.Machine.execDiscardSettings s
  | .readSetting => Sys2Proof.Machine.execReadSetting s
  | .writeSetting => Sys2Proof.Machine.execWriteSetting s
  | .readLifetime => Sys2Proof.Machine.execReadLifetime s
  | .getOwnerNonce => Sys2Proof.Machine.execGetOwnerNonce s
  | .setOwnerState ok => Sys2Proof.Machine.execSetOwnerState ok s
  | .installOwnerKey ok => Sys2Proof.Machine.execInstallOwnerKey ok s
  | .automaticStore ok => Sys2Proof.Machine.execAutomaticStore ok s
  | .lifetimeSnapshot => Sys2Proof.Machine.execLifetimeSnapshot s
  | .updateBegin => Sys2Proof.Machine.execUpdateBegin s
  | .updateChunk ok => Sys2Proof.Machine.execUpdateChunk ok s
  | .updateCommit reads ok => Sys2Proof.Machine.execUpdateCommit reads ok s
  | .updateCommitLive reads ok => Sys2Proof.Machine.execUpdateCommitLive reads ok s
  | .updateConfirm => Sys2Proof.Machine.execUpdateConfirm s
  | .updateAbort => Sys2Proof.Machine.execUpdateAbort s
  | .updateRejectTrial => Sys2Proof.Machine.execUpdateRejectTrial s
  | .sessionIdleTimeout => Sys2Proof.Machine.execSessionIdleTimeout s
  | .confirmWindowExpiry => Sys2Proof.Machine.execConfirmWindowExpiry s
  | .heartwoodHandoff conv => Sys2Proof.Machine.execHeartwoodHandoff conv s
  | .loadMicrocode => Sys2Proof.Machine.execLoadMicrocode s
  | .repairClusters fails => Sys2Proof.Machine.execRepairClusters fails s
  | .traceEnable p v => Sys2Proof.Machine.execTraceEnable p v s
  | .traceDisable p v => Sys2Proof.Machine.execTraceDisable p v s
  | .traceRecordWrite p => Sys2Proof.Machine.execTraceRecordWrite p s
  | .markBegin p cl id => Sys2Proof.Machine.execMarkBegin p cl id s
  | .markEnd p cl id => Sys2Proof.Machine.execMarkEnd p cl id s
  | .porAssert => Sys2Proof.Machine.execPorAssert s
  | .porDeassert profsel smbAddr btnLow => Sys2Proof.Machine.execPorDeassert profsel smbAddr btnLow s
  | .tclkLock => Sys2Proof.Machine.execTclkLock s
  | .rootLoaderCheck reads => Sys2Proof.Machine.execRootLoaderCheck reads s
  | .flashModeSelect sfdp => Sys2Proof.Machine.execFlashModeSelect sfdp s
  | .imageCheck reads => Sys2Proof.Machine.execImageCheck reads s
  | .bootHandoff conv => Sys2Proof.Machine.execBootHandoff conv s
  | .channelTrainingDone first second => Sys2Proof.Machine.execChannelTrainingDone first second s
  | .groveSelfTest fails => Sys2Proof.Machine.execGroveSelfTest fails s
  | .layoutComplete => Sys2Proof.Machine.execLayoutComplete s
  | .cezlinkPortsSettled => Sys2Proof.Machine.execCezlinkPortsSettled s
  | .serviceEntry => Sys2Proof.Machine.execServiceEntry s
  | .warmChipReset => Sys2Proof.Machine.execWarmChipReset s
  | .ballastRundownDone => Sys2Proof.Machine.execBallastRundownDone s
  | .undervoltage => Sys2Proof.Machine.execUndervoltage s
  | .undervoltageEnd profsel smbAddr btnLow => Sys2Proof.Machine.execUndervoltageEnd profsel smbAddr btnLow s
  | .vaonLoss torn => Sys2Proof.Machine.execVaonLoss torn s
  | .thermtrip => Sys2Proof.Machine.execThermtrip s
  | .perstAssert => Sys2Proof.Machine.execPerstAssert s
  | .perstDeassert => Sys2Proof.Machine.execPerstDeassert s
  | .hotReset => Sys2Proof.Machine.execHotReset s
  | .buttonLowStable => Sys2Proof.Machine.execButtonLowStable s
  | .buttonPress => Sys2Proof.Machine.execButtonPress s
  | .buttonStuck => Sys2Proof.Machine.execButtonStuck s
  | .buttonHonoured => Sys2Proof.Machine.execButtonHonoured s
  | .heartwoodResume => Sys2Proof.Machine.execHeartwoodResume s
  | .f4HoldExpiry => Sys2Proof.Machine.execF4HoldExpiry s
  | .resetChip => Sys2Proof.Machine.execResetChip s
  | .bypass => Sys2Proof.Machine.execBypass s
  | .idcode => Sys2Proof.Machine.execIdcode s
  | .samplePreload pins load => Sys2Proof.Machine.execSamplePreload pins load s
  | .extest scan => Sys2Proof.Machine.execExtest scan s
  | .clamp => Sys2Proof.Machine.execClamp s
  | .highz => Sys2Proof.Machine.execHighz s
  | .testLogicReset => Sys2Proof.Machine.execTestLogicReset s
  | .jtagDebugAccess o len data => Sys2Proof.Machine.execJtagDebugAccess o len data s

end Sys2Proof.Machine
end

