-- ==== Sys2Proof/Safety.lean ====
section
/-! DEFINITION. The terms in which claims about the block are stated: a command that completes, the bounds of the copies of
device time (spec/02, R64, R65), the canonical form of memory, and what a command leaves alone. -/
namespace Sys2Proof.Machine

/-- The command answers a next state, of which `P` holds. -/
def Answers (i : Instr) (s : State) (P : State → Prop) : Prop := ∃ t, exec i s = .next t ∧ P t

/-- A copy of device time lags at most `bound` ticks and does not run ahead. -/
def within (now copy bound : Nat) : Prop := copy ≤ now ∧ now ≤ copy + bound

/-- Every domain's copy of device time is within its bound: three ticks over X14, five in SCLK and thirty-one in ACLK over
X15 (R64, R65). -/
def TimesOk (s : State) : Prop :=
  within s.time s.qTime 3 ∧ within s.time s.fTime 3 ∧ within s.time s.lTime 3 ∧ within s.time s.cTime 3 ∧
    within s.time s.mTime 3 ∧ within s.time s.pTime 3 ∧ within s.time s.aTime 31 ∧ within s.time s.sTime 5

/-- Stacked DRAM is in its canonical form. -/
def MemOk (s : State) : Prop := Memory.wf s.dram = true

/-- Every byte of stacked DRAM reads in `t` as it does in `s`. -/
def SameMem (s t : State) : Prop := ∀ a, loadByte t a = loadByte s a

/-- Every register but those whose key satisfies `p` reads in `t` as it does in `s`. -/
def SameRegs (s t : State) (p : Nat → Bool) : Prop := ∀ k, p k = false → rd t k = rd s k

/-- No command of the queue, nor time, changes. -/
def SameClocks (s t : State) : Prop :=
  t.pending = s.pending ∧ t.time = s.time ∧ t.qTime = s.qTime ∧ t.fTime = s.fTime ∧ t.lTime = s.lTime ∧
    t.cTime = s.cTime ∧ t.mTime = s.mTime ∧ t.pTime = s.pTime ∧ t.aTime = s.aTime ∧ t.sTime = s.sTime

/-- An access to the register at `key` reaches its block (R76, Table 03.6). -/
def Reaches (s : State) (key : Nat) : Prop := domainUp s key = true ∧ resettingPart s key = false

/-- The mailbox holds one command, PF0's `c`, and it runs now. -/
def Alone (s : State) (c : MbxCmd) : Prop := s.mbx = [c] ∧ runnable s = some c ∧ c.smbus = false

/-- PF0's command has ended with `result`: RESULT in word 2 of the area, BUSY 0, DONE 1, nothing in flight (R110). -/
def Ended (t : State) (result : Nat) : Prop :=
  t.mbx = [] ∧ getF t (Reg.MGT_MBX_AREA_WORD 2) = result ∧ getF t Reg.MGT_MBX_STATUS_BUSY = 0 ∧
    getF t Reg.MGT_MBX_STATUS_DONE = 1

/-- Byte `i` of the response payload that stands in the mailbox area (R110). -/
def respByte (t : State) (i : Nat) : Nat := getF t ⟨Reg.MGT_MBX_AREA (16 + i / 4), 8 * (i % 4), 8⟩

/-- PF0's command has ended with result 0 and this response payload (R110). -/
def Returned (t : State) (bs : List Byte) : Prop :=
  Ended t 0 ∧ getF t (Reg.MGT_MBX_AREA_WORD 3) = bs.length ∧ ∀ i, i < bs.length → respByte t i = (bs.getD i 0#8).toNat

/-- A fault record of `id` stands in the collector's queue, stamped with the collector's time (R457, R458). -/
def Recorded (s u : State) (id : Nat) : Prop := ∃ r ∈ u.fltQueue, r.id = id ∧ r.time = s.aTime

/-- The step that holds the groves of partition `p` after a command, of which `P` holds. -/
def Holds (u : State) (p : Nat) (P : Step → Prop) : Prop := ∃ st, (lane u p).cur = some st ∧ P st

/-- The spans of partition memory, each an address and a length, that an instruction of a task writes (R136, R138). -/
def opWrites : ClusterOp → List (Nat × Nat)
  | .put a bs => [(a, bs.length)]
  | .vec _ (.mem f e k) _ n _ => [(e, elemBytes f n), (k, scaleBytes f n)]
  | _ => []

/-- No bytes from Cezlink wait at a regulator of partition `p` to be stored (R421, R510). -/
def NoStoreWaits (s : State) (p : Nat) : Prop :=
  waitsFor s p (fun f => match f with | .store .. => true | _ => false) = false

/-- What follows a composition `c` of partition `p`, from its plan and from what the allowance leaves of it (R316, R320 to
R322, R170): nothing to compose; a power wait; a step that waits for the groves; or a step that issues at once. -/
def Composed (s : State) (p : Nat) (c : Composing) (u : State) : Prop :=
  let b := buildPlan s c
  let plan := trimPlan s c (trimFuel b.plan) b.plan
  let made (st : Step) : Prop := st.ctx = c.ctx ∧ st.plan = plan ∧ st.st = .issue ∧ st.composeAt = c.since
  let busy : Bool := (lane s p).cur.isSome || !(lane s p).acks.isEmpty || !(lane s p).nodeAcks.isEmpty ||
    (lane s p).restoreAt.isSome || (lane s p).halted
  (b.plan = [] → (lane u p).composing = none ∧ (lane u p).nextStep = (lane s p).nextStep ∧ c.ctx ∈ (lane u p).stalled ∧
    SameMem s u) ∧
  (b.plan ≠ [] → plan = [] → (lane u p).composing = some c ∧ (lane u p).powerWait = some s.qTime ∧
    isSet u (Reg.CMP_STATUS_POWER_WAIT p) = true ∧ SameMem s u) ∧
  (plan ≠ [] → (lane u p).composing = none ∧ (lane u p).powerWait = none ∧
    (busy = true → (lane u p).cur = (lane s p).cur ∧ ∃ st, (lane u p).nextStep = some st ∧ made st) ∧
    (busy = false → (lane u p).nextStep = none ∧ Holds u p fun st => made st ∧ st.issueAt = s.qTime ∧
      st.deadline = s.qTime + 500 * getF s (Reg.CMP_CTX_LIMIT_LIMIT_US p (ctxLocal c.ctx)) ∧
      ∃ x, ctx? s c.ctx = some x ∧ st.tag = x.tag))

end Sys2Proof.Machine
end

