-- ==== Sys2Proof/WellFormed.lean ====
section
/-! DEFINITION. Well-formed commands: every operand within the range the spec gives it (spec/00, spec/01: 64 tenants,
4 rings each, 16 partitions, 16 groves of 80 logical and 84 physical clusters, 32 model slots, 12 Cezlink ports, 64 nodes,
65 PCIe functions, 262,144 Request Table entries). A command outside its range stands for no event of the device; its
meaning is total all the same. -/
namespace Sys2Proof

/-- A tenant number. -/
def tenantOk (t : Nat) : Bool := decide (t < 64)
/-- A ring number of a tenant. -/
def ringOk (r : Nat) : Bool := decide (r < 4)
/-- A partition number. -/
def partOk (p : Nat) : Bool := decide (p < 16)
/-- A grove number. -/
def groveOk (g : Nat) : Bool := decide (g < 16)
/-- A global logical cluster number. -/
def clusterOk (c : Nat) : Bool := decide (c < 1280)
/-- A physical cluster of a grove. -/
def physClusterOk (e : Nat × Nat) : Bool := decide (e.1 < 16 ∧ e.2 < 84)
/-- A model slot. -/
def slotOk (n : Nat) : Bool := decide (n < 32)
/-- A Cezlink port. -/
def portOk (n : Nat) : Bool := decide (n < 12)
/-- A node ID. -/
def nodeOk (n : Nat) : Bool := decide (n < 64)
/-- A PCIe function: PF0, or VF n. -/
def fnOk (n : Nat) : Bool := decide (n ≤ 64)
/-- A Request Table index. -/
def entryOk (i : Nat) : Bool := decide (i < 262144)
/-- A shelf device. -/
def shelfOk (d : Nat) : Bool := decide (d < 8)
/-- A physical byte address of stacked DRAM, 64 GiB. -/
def physOk (a : Nat) : Bool := decide (a < 2 ^ 36)
/-- A physical address, when there is one. -/
def physOpt (a : Option Nat) : Bool := match a with | some x => physOk x | none => true
/-- Ring words of one item: at least its first, at most sixteen (spec/07, Table 07.2). -/
def wordsOk (ws : List W128) : Bool := decide (1 ≤ ws.length ∧ ws.length ≤ 16)
/-- Where a message came in. -/
def hdrOk (h : LinkHdr) : Bool := portOk h.port && nodeOk h.src && decide (h.msg < 65536)

/-- A vector of function `fn` (Table 16.2). -/
def vectorOk (fn : Nat) (what : MsixPart) : Bool :=
  match what with
  | .vector v => if fn = 0 then decide (v < 256) else decide (v < 32)
  | .function => true
  | .enable => true

/-- A BAR the requester reaches, and an offset inside it (Table 03.1). -/
def barOk (who : Requester) (bar : Bar) (o : Nat) : Bool :=
  match who, bar with
  | .vf t, .vfBar0 u => tenantOk t && t == u && decide (o < 2 ^ 16)
  | .vf _, _ => false
  | _, .vfBar0 _ => false
  | .pf0, .pfBar2 => decide (o < 2 ^ 19)
  | _, .pfBar2 => false
  | _, .pfBar0 => decide (o < 2 ^ 26)

/-- A read that can fail (Table 16.7). -/
def dmaOk (w : DmaRead) : Bool :=
  match w with
  | .ring t r => tenantOk t && ringOk r
  | .item t r ws => tenantOk t && ringOk r && wordsOk ws
  | .prefill _ => true
  | .admission i => entryOk i
  | .park p i => partOk p && entryOk i
  | .package => true
  | .model n => slotOk n

/-- A source of a fault report (Table 13.2). -/
def srcOk (x : FaultSrc) : Bool :=
  match x with
  | .clusterEcc g l _ => groveOk g && decide (l < 80)
  | .translator c => decide (c < 512)
  | .dram a _ => physOk a
  | .planBuffer g => groveOk g
  | .crossing num unit _ => decide (1 ≤ num ∧ num ≤ 24 ∧ unit < 32)
  | .lane p => partOk p
  | .partState p _ => partOk p
  | .requestEngine _ _ => true
  | .sampler _ => true
  | .l2 g set way => groveOk g && decide (set < 2048 ∧ way < 16)
  | .imageStore _ => true
  | .traceFifo p => partOk p
  | .assay p k => partOk p && decide (k < 16)
  | .collector _ => true

/-- The command's operands lie in their ranges. -/
def Instr.wf (i : Instr) : Bool :=
  match i with
  | .sqDoorbell t s _ v => tenantOk t && ringOk s && decide (v < 65536)
  | .cqDoorbell t c _ v => tenantOk t && ringOk c && decide (v < 65536)
  | .submit t s words _ _ pick => tenantOk t && ringOk s && wordsOk words && entryOk pick
  | .cohort t s words => tenantOk t && ringOk s && wordsOk words
  | .cancel t s words => tenantOk t && ringOk s && wordsOk words
  | .fence t s words => tenantOk t && ringOk s && wordsOk words
  | .fencePass t s => tenantOk t && ringOk s
  | .itemReread t s words => tenantOk t && ringOk s && wordsOk words
  | .flush t s => tenantOk t && ringOk s
  | .flushDone t s => tenantOk t && ringOk s
  | .sqEnable t s cfg => tenantOk t && ringOk s && cfg.getLsbD 8
  | .sqDisable t s cfg => tenantOk t && ringOk s && !cfg.getLsbD 8
  | .cqEnable t c cfg => tenantOk t && ringOk c && cfg.getLsbD 8
  | .cqDisable t c cfg => tenantOk t && ringOk c && !cfg.getLsbD 8
  | .completionRecordWrite t c => tenantOk t && ringOk c
  | .coalesceTimeout t c => tenantOk t && ringOk c
  | .msixUnmask fn what => fnOk fn && vectorOk fn what
  | .reservedItemType t s words => tenantOk t && ringOk s && wordsOk words
  | .admissionEvaluate t c => tenantOk t && ringOk c
  | .budgetRefill => true
  | .queueDeadlineScan => true
  | .maskCopyDone idx _ _ => entryOk idx
  | .deadlineCheck => true
  | .holderSelect p => partOk p
  | .stepCompose p => partOk p
  | .powerWaitRetry p => partOk p
  | .stepExecute p w => partOk p && w.prompts.all fun e => entryOk e.1
  | .taskComplete p g l tag _ => partOk p && groveOk g && decide (l < 80) && decide (tag < 65536)
  | .taskWatchdog p cl => partOk p && clusterOk cl
  | .candidateArrive p tag _ _ => partOk p && decide (tag < 65536)
  | .stepCommit p => partOk p
  | .stepDeadline p ctx => partOk p && decide (ctx < 32)
  | .groveAbandonAck p g => partOk p && groveOk g
  | .composeTimeout p => partOk p
  | .preemptRaise p => partOk p
  | .clusterTileStop p cl => partOk p && clusterOk cl
  | .preemptEscalate p => partOk p
  | .preemptSaveDone p => partOk p
  | .restoreDone p bad => partOk p && physOpt bad
  | .imodeStopTimeout p cl => partOk p && clusterOk cl
  | .saveWriteTimeout p => partOk p
  | .debugHalt p => partOk p
  | .debugHaltRelease p => partOk p
  | .parkStart p => partOk p
  | .parkComplete p idx _ => partOk p && entryOk idx
  | .unparkStart p => partOk p
  | .unparkComplete p idx _ _ => partOk p && entryOk idx
  | .scrubRead addr _ => physOk addr
  | .mailboxGo => true
  | .smbusMctpRequest opcode tag len payload =>
    decide (opcode < 65536 ∧ tag < 65536 ∧ len < 2 ^ 32 ∧ payload.length ≤ 4032)
  | .smbusSclTimeout => true
  | .loadCostTable => true
  | .clearCostTable => true
  | .loadModel _ => true
  | .addContext => true
  | .evictModel => true
  | .evictModelForce => true
  | .pinModel => true
  | .unpinModel => true
  | .pairDraft => true
  | .unpairDraft => true
  | .modelTransferDone n _ _ => slotOk n
  | .modelTransferFailed n => slotOk n
  | .modelDrainEvict n => slotOk n
  | .drainPartition => true
  | .drainDone p => partOk p
  | .resumePartition => true
  | .reconfigure => true
  | .migrateTenant => true
  | .migrateDone t => tenantOk t
  | .faultReport src => srcOk src
  | .partitionResetComplete p => partOk p
  | .faultnClear _ => true
  | .pllLossOfLock b => decide (b < 8)
  | .watchdogKick => true
  | .watchdogExpiry => true
  | .teardownContext => true
  | .resetPartition => true
  | .resetTenant => true
  | .readFaultLog => true
  | .clearFaultLog => true
  | .linkTrainStageDone n margins aligned => portOk n && decide (margins < 2 ^ 64) && decide (aligned < 2 ^ 16)
  | .linkTrainTimeout n aligned => portOk n && decide (aligned < 2 ^ 16)
  | .trainExch n node port width _ => portOk n && nodeOk node && portOk port && decide (width ≤ 16)
  | .dataFlitReceive n bytes => portOk n && decide (bytes.length = 256)
  | .controlFlitReceive n _ _ _ credits => portOk n && decide (credits.length = 4)
  | .linkDegradeDone n aligned => portOk n && decide (aligned < 2 ^ 16)
  | .msgReassemblyTimeout src msg => nodeOk src && decide (msg < 65536)
  | .retrainPort => true
  | .setRoutes => true
  | .defineGroup => true
  | .mgmtForm h gid _ _ => hdrOk h && decide (gid < 65536)
  | .mgmtFormAck h gid _ => hdrOk h && decide (gid < 65536)
  | .formResend n => slotOk n
  | .mgmtHeartbeat h gid _ => hdrOk h && decide (gid < 65536)
  | .heartbeatSend n => slotOk n
  | .peerLoss n node => slotOk n && nodeOk node
  | .mgmtLeave h gid => hdrOk h && decide (gid < 65536)
  | .mgmtPeerModelRequest h _ => hdrOk h
  | .plan h gid tag _ => hdrOk h && decide (gid < 65536) && decide (tag < 65536)
  | .planAck h gid tag _ _ => hdrOk h && decide (gid < 65536) && decide (tag < 65536)
  | .cand h gid tag _ => hdrOk h && decide (gid < 65536) && decide (tag < 65536)
  | .commit h gid tag _ => hdrOk h && decide (gid < 65536) && decide (tag < 65536)
  | .abandon h gid tag => hdrOk h && decide (gid < 65536) && decide (tag < 65536)
  | .abandonAck h gid tag => hdrOk h && decide (gid < 65536) && decide (tag < 65536)
  | .release h _ idxs => hdrOk h && idxs.all entryOk
  | .releaseSend n => slotOk n
  | .samppage h _ idx _ _ => hdrOk h && entryOk idx
  | .coll h gid x => hdrOk h && decide (gid < 65536) && decide (x.tag < 65536)
  | .kvxfer h gid tag _ => hdrOk h && decide (gid < 65536) && decide (tag < 65536)
  | .modelxfer h n _ => hdrOk h && slotOk n
  | .planisherPeriod _ sensors => sensors.all fun e => decide (e.1 < 32)
  | .cclkSwitch => true
  | .handoverHoldExpiry p => partOk p
  | .batteryModeBegin _ => true
  | .batteryModeEnd => true
  | .pmbusPoll reads => reads.all fun e => shelfOk e.1
  | .shelfRetry d _ => shelfOk d
  | .thermalEmergencyBegin _ => true
  | .thermalEmergencyEnd => true
  | .ramp src _ => nodeOk src
  | .rampSend => true
  | .stamp h _ => hdrOk h
  | .stampSend => true
  | .regulatorRefill => true
  | .doeDiscovery _ => true
  | .getVersion _ => true
  | .getCapabilities _ => true
  | .negotiateAlgorithms _ => true
  | .getDigests _ => true
  | .getCertificate _ => true
  | .challenge _ => true
  | .getMeasurements _ => true
  | .spdmUnsupportedRequest _ => true
  | .doeAbort => true
  | .vfFlr t => tenantOk t
  | .pf0Flr => true
  | .vfEnableSet n => decide (n < 2 ^ 16)
  | .vfEnableClear => true
  | .busMasterEnable fn _ ctl => fnOk fn && decide (ctl.mrrs < 6)
  | .d3hotEntry fn _ => fnOk fn
  | .linkSpeedChange speed width _ => decide (1 ≤ speed ∧ speed ≤ 6) && [1, 2, 4, 8, 16].contains width
  | .pcieLinkDown => true
  | .pcieFatalError => true
  | .dmaReadFailed what _ addr => dmaOk what && decide (addr < 2 ^ 57)
  | .unexpectedCompletion fn => fnOk fn
  | .malformedRead who bar o len => barOk who bar o && !([1, 2, 4, 8].contains len && o % len == 0)
  | .dbRouteWrite h _ => decide (h < 2)
  | .registerWrite who bar o _ _ hw => barOk who bar o && decide (hw < 2 ^ 24)
  | .registerRead who bar o len => barOk who bar o && [1, 2, 4, 8].contains len && o % len == 0
  | .devtimeRead who bar len _ => barOk who bar 0 && bar != .pfBar2 && [4, 8].contains len
  | .fltLastRead who k len => barOk who .pfBar0 0 && decide (k < 4) && (len == 4 || len == 8 && k % 2 == 0)
  | .dbgwinCtlWrite _ => true
  | .debugWindowAccess o _ _ => decide (o < 2 ^ 32)
  | .selectProfile => true
  | .loadVolatileBegin => true
  | .loadVolatileChunk => true
  | .loadVolatileEnd => true
  | .loadVolatileCancel => true
  | .getConfigStatus => true
  | .flashInfo => true
  | .flashRead _ => true
  | .flashErase _ => true
  | .flashProgram _ => true
  | .settingsLoad _ _ => true
  | .storeSettings _ => true
  | .discardSettings => true
  | .readSetting => true
  | .writeSetting => true
  | .readLifetime => true
  | .getOwnerNonce => true
  | .setOwnerState _ => true
  | .installOwnerKey _ => true
  | .automaticStore _ => true
  | .lifetimeSnapshot => true
  | .updateBegin => true
  | .updateChunk _ => true
  | .updateCommit _ _ => true
  | .updateCommitLive _ _ => true
  | .updateConfirm => true
  | .updateAbort => true
  | .updateRejectTrial => true
  | .sessionIdleTimeout => true
  | .confirmWindowExpiry => true
  | .heartwoodHandoff _ => true
  | .loadMicrocode => true
  | .repairClusters fails => fails.all physClusterOk
  | .traceEnable p v => partOk p && v.getLsbD 0
  | .traceDisable p v => partOk p && !v.getLsbD 0
  | .traceRecordWrite p => partOk p
  | .markBegin p cl id => partOk p && clusterOk cl && decide (id < 2 ^ 16)
  | .markEnd p cl id => partOk p && clusterOk cl && decide (id < 2 ^ 16)
  | .porAssert => true
  | .porDeassert profsel smbAddr _ => decide (profsel < 4 ∧ smbAddr < 4)
  | .tclkLock => true
  | .rootLoaderCheck _ => true
  | .flashModeSelect _ => true
  | .imageCheck reads => reads.all fun e => decide (e.1 < 8)
  | .bootHandoff _ => true
  | .channelTrainingDone first second => decide (first < 2 ^ 32 ∧ second < 2 ^ 32)
  | .groveSelfTest fails => fails.all physClusterOk
  | .layoutComplete => true
  | .cezlinkPortsSettled => true
  | .serviceEntry => true
  | .warmChipReset => true
  | .ballastRundownDone => true
  | .undervoltage => true
  | .undervoltageEnd profsel smbAddr _ => decide (profsel < 4 ∧ smbAddr < 4)
  | .vaonLoss torn => torn.all fun x => decide (x < 64)
  | .thermtrip => true
  | .perstAssert => true
  | .perstDeassert => true
  | .hotReset => true
  | .buttonLowStable => true
  | .buttonPress => true
  | .buttonStuck => true
  | .buttonHonoured => true
  | .heartwoodResume => true
  | .f4HoldExpiry => true
  | .resetChip => true
  | .bypass => true
  | .idcode => true
  | .samplePreload _ _ => true
  | .extest _ => true
  | .clamp => true
  | .highz => true
  | .testLogicReset => true
  | .jtagDebugAccess o _ _ => decide (o < 2 ^ 26)

end Sys2Proof
end

