-- ==== Sys2Proof/Certificates/Slice0/Obligations.lean ====
section
/-! DEFINITION. The statements about the block, for the provers: what each command does where the spec says it executes,
the rules of the spec over all states, and the invariants every step keeps. -/
open Sys2Proof Sys2Proof.Machine

/-- A doorbell through the selected route moves the tail of a submission ring, or the head of a completion ring -/
def Obligations.DoorbellsMoveTailAndHead : Prop :=
  ∀ (s : State) (t r v : Nat) (viaPf : Bool), (Instr.sqDoorbell t r viaPf v).wf = true → viaPf = routePf s t →
    (Reaches s (Reg.RQI_SQ_TAIL t r) → (sq s t r).flushing = false → v < sqSize s t r →
      Answers (.sqDoorbell t r viaPf v) s fun u =>
        sqTail u t r = v ∧ (sq u t r).lastRead = none ∧ SameMem s u ∧ SameRegs s u (· == Reg.RQI_SQ_TAIL t r)) ∧
    (Reaches s (Reg.RQI_CQ_TAIL t r) → isSet s (Reg.RQI_CQ_CFG_ENABLE t r) = true → v < cqSize s t r →
      (v + cqSize s t r - (cq s t r).head) % cqSize s t r ≤
        (getF s (Reg.RQI_CQ_TAIL_TAIL t r) + cqSize s t r - (cq s t r).head) % cqSize s t r →
      Answers (.cqDoorbell t r viaPf v) s fun u =>
        (cq u t r).head = v ∧ SameMem s u ∧ SameRegs s u fun _ => false)

/-- A SUBMIT outside a cohort that is whole and whose turn it is: a valid one becomes an ARRIVED request in a queued cohort of
one, a duplicate only gets its record, a bad one is refused with its code; the head passes it -/
def Obligations.SubmitCreatesRequest : Prop :=
  ∀ (s : State) (t r pick : Nat) (ws : List W128) (prompt : Option (List W32)) (ext : Option (List Byte)),
    (Instr.submit t r ws prompt ext pick).wf = true → readSubmit s t r ws = .ready → itemType ws = 1 →
    (sq s t r).cohort = none → cqRoom s t [refusalCq s t (submitFields ws).cq] = true → itsTurn s t r = true →
    getF s (Reg.RQI_SQ_CFG_SIZE_LOG2 t r) ≤ 16 →
    let code := submitCode s t r ws prompt ext none
    let passed (u : State) : Prop := sqHead u t r = (sqHead s t r + ws.length) % sqSize s t r ∧ SameMem s u
    (code = 0 → dedupMatch s t (submitFields ws).token = none →
      Answers (.submit t r ws prompt ext pick) s fun u => passed u ∧ ∃ i q c,
        req? u i = some q ∧ q.st = .arrived ∧ q.tenant = t ∧ q.cls = r ∧ q.sub = submitFields ws ∧ q.arrival = s.qTime ∧
        cohort? u s.nextCohort = some c ∧ c.members = [i] ∧ c.st = .queued ∧
        admQueue u t r = admQueue s t r ++ [s.nextCohort]) ∧
    (∀ h, code = 0 → dedupMatch s t (submitFields ws).token = some h →
      Answers (.submit t r ws prompt ext pick) s fun u => passed u ∧ u.reqs = s.reqs ∧ ∃ x,
        (cq u t (submitFields ws).cq).waiting = (cq s t (submitFields ws).cq).waiting ++ [x] ∧ x.status = 0x0101 ∧
        x.handle = BitVec.ofNat 32 h) ∧
    (code ≠ 0 →
      Answers (.submit t r ws prompt ext pick) s fun u => passed u ∧ u.reqs = s.reqs ∧ ∃ x,
        (cq u t (refusalCq s t (submitFields ws).cq)).waiting = (cq s t (refusalCq s t (submitFields ws).cq)).waiting ++ [x] ∧
        x.status = code)

/-- COHORT opens a cohort; CANCEL ends a live request, or lets its step's commit of the same device time go first, or answers
that there is none; FENCE holds its ring; a reserved type is refused; the head passes each -/
def Obligations.RingItemsTakeEffect : Prop :=
  ∀ (s : State) (t r : Nat) (ws : List W128), (Instr.cohort t r ws).wf = true → readItem s t r ws = .ready →
    (sq s t r).cohort = none → itsTurn s t r = true → getF s (Reg.RQI_SQ_CFG_SIZE_LOG2 t r) ≤ 16 →
    let w := wordAt ws 0
    let passed (u : State) : Prop := sqHead u t r = (sqHead s t r + ws.length) % sqSize s t r
    (itemType ws = 2 → ws.length = 2 → wbits w 19 1 = 0 → wbits w 40 83 = 0 → wbits (wordAt ws 1) 64 59 = 0 →
      1 ≤ wbits w 12 7 → wbits w 12 7 ≤ 64 → wbits w 36 4 ≤ 9 →
      Answers (.cohort t r ws) s fun u => passed u ∧ SameMem s u ∧ ∃ c, (sq u t r).cohort = some c ∧ c.members = wbits w 12 7 ∧
        c.model = wbits w 20 16 ∧ c.bucket = 256 * 2 ^ wbits w 36 4 ∧ c.consumed = []) ∧
    (itemType ws = 3 → ws.length = 1 → wbits w 14 18 = 0 → wbits w 64 59 = 0 →
      (∀ i q, reqByHandle s (wbits w 32 32) = some (i, q) → q.tenant = t → isLive q.st = true →
        cancelDue s (wbits w 32 32) = false → cqRoom s t [q.sub.cq] = true →
        (mayCommitNow s i q = false → Answers (.cancel t r ws) s fun u => passed u ∧ ∃ q', req? u i = some q' ∧ q'.st = .cancelled) ∧
        (mayCommitNow s i q = true → Answers (.cancel t r ws) s fun u => passed u ∧ u.reqs = s.reqs ∧ wbits w 32 32 ∈ u.cancels)) ∧
      (cancelTarget s t (wbits w 32 32) = none → isSet s (Reg.RQI_CQ_CFG_ENABLE t (wbits w 12 2)) = true →
        cqRoom s t [wbits w 12 2] = true → Answers (.cancel t r ws) s fun u => passed u ∧ u.reqs = s.reqs ∧ ∃ x,
          (cq u t (wbits w 12 2)).waiting = (cq s t (wbits w 12 2)).waiting ++ [x] ∧ x.status = 0x0102)) ∧
    (itemType ws = 4 → ws.length = 1 → wbits w 19 104 = 0 →
      (wbits w 18 1 = 1 → cqRoom s t [wbits w 16 2] = true) →
      Answers (.fence t r ws) s fun u => passed u ∧ SameMem s u ∧ ∃ f, (sq u t r).fence = some f ∧ f.cq = wbits w 16 2 ∧
        f.notify = (wbits w 18 1 == 1)) ∧
    ((itemType ws = 0 ∨ 4 < itemType ws) → cqRoom s t [0] = true →
      Answers (.reservedItemType t r ws) s fun u => passed u ∧ SameMem s u ∧
        ∃ x, (cq u t 0).waiting = (cq s t 0).waiting ++ [x] ∧ x.status = 0x0110)

/-- Rings are enabled, disabled and flushed, and those that wait go on -/
def Obligations.RingsAreSetUpAndGoOn : Prop :=
  (∀ (s : State) (t r : Nat) (cfg : W32), (Instr.flush t r).wf = true →
    (Reaches s (Reg.RQI_SQ_CFG t r) → cfg.getLsbD 8 = true → isSet s (Reg.RQI_SQ_CFG_ENABLE t r) = false →
      isSet s (Reg.RQI_CQ_CFG_ENABLE t 0) = true →
      Answers (.sqEnable t r cfg) s fun u => sqHead u t r = 0 ∧ getF u (Reg.RQI_SQ_HEAD_PHASE t r) = 1 ∧ sqTail u t r = 0 ∧
        isSet u (Reg.RQI_SQ_CFG_ENABLE t r) = true ∧ SameMem s u) ∧
    (Reaches s (Reg.RQI_CQ_CFG t r) → cfg.getLsbD 8 = true → isSet s (Reg.RQI_CQ_CFG_ENABLE t r) = false →
      Answers (.cqEnable t r cfg) s fun u => getF u (Reg.RQI_CQ_TAIL_TAIL t r) = 0 ∧
        getF u (Reg.RQI_CQ_TAIL_PHASE t r) = 1 ∧ (cq u t r).head = 0 ∧ isSet u (Reg.RQI_CQ_CFG_ENABLE t r) = true ∧
        SameMem s u) ∧
    (Reaches s (Reg.RQI_SQ_CFG t r) → cfg.getLsbD 8 = false → isSet s (Reg.RQI_SQ_CFG_ENABLE t r) = true →
      Answers (.sqDisable t r cfg) s fun u => (sq u t r).flushing = true ∧ (sq u t r).disabling = true ∧ SameMem s u) ∧
    (Reaches s (Reg.RQI_CQ_CFG t r) → cfg.getLsbD 8 = false → cqInUse s t r = false →
      Answers (.cqDisable t r cfg) s fun u => isSet u (Reg.RQI_CQ_CFG_ENABLE t r) = false ∧ SameMem s u) ∧
    (Reaches s (Reg.RQI_SQ_CTL t r) → Answers (.flush t r) s fun u => (sq u t r).flushing = true ∧ SameMem s u ∧
      SameRegs s u fun _ => false) ∧
    ((sq s t r).flushing = true → Answers (.flushDone t r) s fun u => (sq u t r).flushing = false ∧
      sqTail u t r = sqHead s t r ∧ sqHead u t r = sqHead s t r ∧ sqEpoch u t r = (sqEpoch s t r + 1) % 16 ∧
      isSet u (Reg.RQI_SQ_STATUS_FLUSH_DONE t r) = true ∧ SameMem s u)) ∧
  (∀ (s : State) (t r : Nat) (ws : List W128) (a : Nat) (f : FenceWait),
    ((sq s t r).lastRead = some a → ringOpen s t r = true → a + 25000 ≤ s.qTime → itemReady s t r ws = true →
      Answers (.itemReread t r ws) s fun u => (sq u t r).lastRead = none ∧ SameMem s u ∧ SameRegs s u fun _ => false) ∧
    (f.notify = false → (sq s t r).fence = some f → serving s = true → f.left.all (fun e => e.2 == 0) = true →
      Answers (.fencePass t r) s fun u => (sq u t r).fence = none ∧ SameMem s u ∧ SameRegs s u fun _ => false) ∧
    (f.notify = true → (sq s t r).fence = some f → serving s = true → f.left.all (fun e => e.2 == 0) = true →
      Answers (.fencePass t r) s fun u => (sq u t r).fence = none ∧
        (∃ x, (cq u t f.cq).waiting = (cq s t f.cq).waiting ++ [x] ∧ x.status = 0x0106) ∧
        SameMem s u ∧ SameRegs s u fun _ => false))

/-- The first waiting record goes to the tail of its ring, whose phase turns at its end; a coalescing timer that runs out and an
unmask send the messages due, or leave one pending that something masks -/
def Obligations.CompletionRecordsAreWrittenInOrder : Prop :=
  (∀ (s : State) (t c : Nat), (Instr.completionRecordWrite t c).wf = true →
    (∀ x rest, (cq s t c).waiting = x :: rest → serving s = true → isSet s (Reg.RQI_CQ_CFG_ENABLE t c) = true →
      canDma s (tenantFn s t) = true → dupHeld s t x = false → cqFree s t c ≠ 0 →
      getF s (Reg.RQI_CQ_CFG_SIZE_LOG2 t c) ≤ 16 →
      let tail := getF s (Reg.RQI_CQ_TAIL_TAIL t c)
      let phase := getF s (Reg.RQI_CQ_TAIL_PHASE t c)
      Answers (.completionRecordWrite t c) s fun u => (cq u t c).waiting = rest ∧
        Tx.dma (tenantFn s t) (4096 * getF s (Reg.RQI_CQ_BASE_ADDR t c) + 32 * tail) (recBytes x phase) ∈ u.out ∧
        getF u (Reg.RQI_CQ_TAIL_TAIL t c) = (tail + 1) % cqSize s t c ∧
        getF u (Reg.RQI_CQ_TAIL_PHASE t c) = (if tail + 1 = cqSize s t c then 1 - phase else phase) ∧ SameMem s u) ∧
    ((cq s t c).pend ≠ 0 → (cq s t c).timer + 500 * (cq s t c).coalUs ≤ s.qTime →
      let n := if pfServed s t then 0 else t + 1
      let v := if pfServed s t then 128 + 2 * t else c
      let held := (vec s n v).masked || (fn s n).fnMask || !(fn s n).msixEn || !canDma s n
      Answers (.coalesceTimeout t c) s fun u => (cq u t c).pend = 0 ∧ SameMem s u ∧
        (held = true → (vec u n v).pend = true) ∧ (held = false → u.out.getLast? = some (.msix n v)))) ∧
  (∀ (s : State) (n : Nat) (what : MsixPart), (Instr.msixUnmask n what).wf = true →
    (getF s Reg.HST_CLK_STATUS_LOCK).testBit 3 = true →
    let sent (u : State) (v : Nat) : Prop := canDma s n = true → Tx.msix n v ∈ u.out ∧ (vec u n v).pend = false
    Answers (.msixUnmask n what) s fun u => SameMem s u ∧ (SameRegs s u fun _ => false) ∧
      (∀ v, what = .vector v → (vec u n v).masked = false ∧
        ((fn s n).msixEn = true → (fn s n).fnMask = false → (vec s n v).pend = true → sent u v)) ∧
      (what = .function → (fn u n).fnMask = false ∧ ∀ v, v < 256 → (fn s n).msixEn = true → (vec s n v).pend = true →
        (vec s n v).masked = false → sent u v) ∧
      (what = .enable → (fn u n).msixEn = true ∧ ∀ v, v < 256 → (fn s n).fnMask = false → (vec s n v).pend = true →
        (vec s n v).masked = false → sent u v))

/-- The scan comes to the head of a queue and decides it whole by the verdict of Table 08.2: admitted, or its masks copied first,
or rejected, also when its wait is over, or held -/
def Obligations.AdmissionDecidesTheHead : Prop :=
  ∀ (s : State) (t c co : Nat) (h : Cohort), (Instr.admissionEvaluate t c).wf = true → serving s = true →
    let a := (scanQueues s (scanPath s t c).dropLast).1
    (scanQueues s (scanPath s t c).dropLast).2 ≠ some t →
    (admQueue a t c).head? = some co → cohort? a co = some h → h.tenant = t → h.cls = c →
    let due := h.hold ≠ 0 ∧ waitOver a h = true
    let gone (u : State) : Prop := cohort? u co = none ∧ co ∉ admQueue u t c ∧
      ∀ i ∈ h.members, ∀ r, req? a i = some r → r.st = .arrived → ∃ r', req? u i = some r' ∧ r'.st = .rejected
    (¬due → evaluate a h = .accept → Answers (.admissionEvaluate t c) s fun u => co ∉ admQueue u t c ∧
      ((arrivedMembers a h).all (fun e => e.2.sub.maskAddr == 0) = true → (∃ h', cohort? u co = some h' ∧ h'.st = .admitted) ∧
        ∀ i ∈ h.members, ∀ r, req? a i = some r → r.st = .arrived → ∃ r', req? u i = some r' ∧ r'.st = .admitted) ∧
      ((arrivedMembers a h).all (fun e => e.2.sub.maskAddr == 0) = false →
        (∃ h', cohort? u co = some h' ∧ h'.st = .copying) ∨ gone u)) ∧
    ((due ∨ ∃ code, evaluate a h = .refuse code) → Answers (.admissionEvaluate t c) s gone) ∧
    (∀ x, ¬due → evaluate a h = .wait x → Answers (.admissionEvaluate t c) s fun u => getF u (holdFld t c) = x ∧
      admQueue u t c = admQueue a t c ∧
      ∃ h', cohort? u co = some h' ∧ h'.hold = x ∧ h'.waitSince = if h.hold = 0 then a.qTime else h.waitSince)

/-- The refill tops up every level and has waiting heads evaluated again; the scans leave no late cohort queued and no late
request outside a step; the last mask copied admits its cohort, a failed copy rejects it -/
def Obligations.AdmissionTimersAct : Prop :=
  (∀ s, serving s = true → s.refills < s.qTime / 500000 →
    let a := { refillLevels s with refills := s.refills + 1 }
    let waits := ((refillLevels s).admQ.filter fun e => e.2 != []).map (·.1)
    Answers .budgetRefill s (fun u => u = recheckHeads a waits) ∧ SameMem s a ∧
    (∀ t, t < 64 → -(2 ^ 47) ≤ level s t → level s t + getF s (Reg.ADM_TEN_RATE_RATE t) < 2 ^ 31 →
      level a t = min (level s t + getF s (Reg.ADM_TEN_RATE_RATE t)) (getF s (Reg.ADM_TEN_BURST_BURST t))) ∧
    ((∀ t c, t < 64 → c < 4 → headHold s (admQueue s t c) = 0) → Answers .budgetRefill s fun u => u = a)) ∧
  (∀ s, serving s = true → Answers .queueDeadlineScan s fun u =>
    (∀ co c, cohort? u co = some c → c.st = .queued → (arrivedMembers u c).any (fun x => pastQueueDeadline x.2 s.qTime) = false) ∧
    ((∀ e ∈ s.cohorts, ∀ c, e.2 = some c → c.st = .queued →
      (arrivedMembers s c).any (fun x => pastQueueDeadline x.2 s.qTime) = false) → u = s) ∧
    (∀ co c, s.cohorts = [(co, some c)] → c.st = .queued → (arrivedMembers s c).any (fun x => pastQueueDeadline x.2 s.qTime) = true →
      cohort? u co = none ∧ ∀ i ∈ c.members, ∀ r, req? s i = some r → r.st = .arrived → ∃ r', req? u i = some r' ∧ r'.st = .rejected)) ∧
  (∀ s, serving s = true → Answers .deadlineCheck s fun u =>
    ∀ i r, req? s i = some r → ∃ r', req? u i = some r' ∧
      (isAdmitted r.st = true → inPlan s i r = false → inCompose s i r = false → pastDeadline r s.qTime = true → r'.st = .expired) ∧
      (pastDeadline r s.qTime = false ∨ isAdmitted r.st = false → r' = r)) ∧
  (∀ s i r c k, req? s i = some r → cohort? s r.cohort = some c → pkgOf s r.slot = some k → c.st = .copying → r.st = .arrived →
    r.maskReady = false → canDma s (tenantFn s r.tenant) = true → i ∈ c.members →
    (∀ mb ext, copyWaits s i r = false → (r.sub.extAddr = 0 ∨ ext.isSome = true) → ledGroup s r.ctx = none →
      (∀ j ∈ c.members, j ≠ i → ∀ x, req? s j = some x → x.maskReady = true) →
      Answers (.maskCopyDone i (some mb) ext) s fun u => (∃ c', cohort? u r.cohort = some c' ∧ c'.st = .admitted) ∧
        (∀ j ∈ c.members, ∀ x, req? s j = some x → x.st = .arrived → ∃ x', req? u j = some x' ∧ x'.st = .admitted) ∧
        ∃ r', req? u i = some r' ∧ r'.mask = mb.take (ceilDiv k.vocab 8) ∧ r'.maskReady = true) ∧
    (∀ ext, Answers (.maskCopyDone i none ext) s fun u => cohort? u r.cohort = none ∧
      ∀ j ∈ c.members, ∀ x, req? s j = some x → x.st = .arrived → ∃ x', req? u j = some x' ∧ x'.st = .rejected))

/-- At a step boundary the lane chooses a context with work of the lowest effective class, the first of them after the last
holder, unless the step preempted last is of no higher class: then that step is restored -/
def Obligations.HolderIsChosenByClass : Prop :=
  ∀ (s : State) (p : Nat), (Instr.holderSelect p).wf = true → serving s = true → partValid s p = true →
    (partState s p = 1 ∨ partState s p = 2) → atBoundary (lane s p) = true →
    let all := (ctxsOf s p).filter (hasWork s)
    let fresh := all.filter fun g => !(lane s p).stalled.contains g
    let work := if fresh = [] ∧ (lane s p).pre = [] then all else fresh
    (∀ m, (∃ g ∈ work, effClass s g = m) → (∀ g ∈ work, m ≤ effClass s g) →
      (∀ z rest, (lane s p).pre = z :: rest → m < classOf s z.ctx) →
      Answers (.holderSelect p) s fun u => ∃ c, (lane u p).composing = some c ∧ c.since = s.qTime ∧
        afterHolder (lane s p).lastHolder (work.filter fun g => effClass s g == m) = some c.ctx ∧
        (lane u p).cur = none ∧ (lane u p).pre = (lane s p).pre ∧ SameMem s u ∧ SameRegs s u fun _ => false) ∧
    (∀ z rest, (lane s p).pre = z :: rest → (lane s p).acks = [] → (∀ g ∈ work, classOf s z.ctx ≤ effClass s g) →
      Answers (.holderSelect p) s fun u => (lane u p).cur = some z ∧ (lane u p).pre = rest ∧
        (lane u p).restoreAt = some s.qTime ∧ SameMem s u ∧
        SameRegs s u fun k => decide (0x1000000 ≤ k) && decide (k % 0x40000 = 0)) ∧
    (work = [] → (lane s p).pre = [] → Answers (.holderSelect p) s fun u => (lane u p).cur = none ∧
      (lane u p).composing = none ∧ SameMem s u ∧ SameRegs s u fun _ => false)

/-- A composition makes its plan, trimmed to the allowance, a step: it issues at once, or waits while the groves are not free;
with nothing in the plan its context is passed over; a plan trimmed to nothing waits 50 us for power and composes again -/
def Obligations.ComposedPlanWaitsToIssue : Prop :=
  ∀ (s : State) (p : Nat) (c : Composing), (Instr.stepCompose p).wf = true → (lane s p).composing = some c → serving s = true →
    ((ctx? s c.ctx).isSome = true → (lane s p).powerWait = none → Answers (.stepCompose p) s (Composed s p c)) ∧
    (∀ t, (lane s p).powerWait = some t → t + 25000 ≤ s.qTime →
      (mayCompose s c.ctx = true → Answers (.powerWaitRetry p) s
        (Composed (setLane s p { lane s p with powerWait := none }) p (openCompose s p c.ctx))) ∧
      (mayCompose s c.ctx = false → Answers (.powerWaitRetry p) s fun u =>
        (lane u p).composing = none ∧ (lane u p).powerWait = none))

/-- A step in ISSUE enters EXECUTE and its tasks are placed in program order; a task that ends frees its cluster and has
written its bytes where the translator puts them, and no other byte of memory; one the translator refuses is a fault 0x02;
a completion of another tag or task is discarded -/
def Obligations.TasksRunAndWriteWhatTheyWrite : Prop :=
  (∀ (s : State) (p : Nat) (plan : PlanTasks) (st : Step),
    (Instr.stepExecute p plan).wf = true → (lane s p).cur = some st → mayExecute s p st = true →
    Answers (.stepExecute p plan) s fun u => (NoStoreWaits s p → SameMem s u) ∧
      Holds u p fun x => x.ctx = st.ctx ∧ x.tag = st.tag ∧ x.st ≠ .issue ∧ x.plan = st.plan ∧
        x.running.map (·.2.1) ++ x.held = st.running.map (·.2.1) ++ plan.tasks) ∧
  (∀ (s : State) (p g l tag task : Nat) (st : Step) (t : Task) (b : Nat), (Instr.taskComplete p g l tag task).wf = true →
    let cl := 80 * g + l
    (lane s p).cur = some st → st.tag = tag → st.st = .execute → (lane s p).restoreAt = none →
    stoppedI (lane s p) s.qTime = false → waitsFor s p (· == .task cl) = false →
    st.running.find? (fun e => e.1 == cl) = some (cl, t, b) → t.id = task →
    let s0 := bump s (Reg.TRC_CL_COUNT cl 0) ((s.cTime - b) * cclkMhz s / 500)
    let r0 : Run := ⟨s0, cluster s0 cl, { st with running := st.running.filter fun x => x.1 != cl }, false⟩
    let r := runOps p cl r0 t.ops
    (r.bad = false → Answers (.taskComplete p g l tag task) s fun u =>
      Holds u p (fun x => x.ctx = st.ctx ∧ x.tag = st.tag ∧ x.assay = r.st.assay ∧
        x.running.map (·.2.1) ++ x.held = (st.running.filter fun e => e.1 != cl).map (·.2.1) ++ st.held) ∧
      (NoStoreWaits s p →
        (∀ a, (∀ op ∈ t.ops, ∀ w ∈ opWrites op, ∀ j, j < w.2 → translate s p (w.1 + j) ≠ some a) →
          loadByte u a = loadByte s a) ∧
        (∀ a bs, t.ops = [.put a bs] → ∀ j x, j < bs.length → translate s p (a + j) = some x →
          loadByte u x = bs.getD j 0#8) ∧
        (∀ f fmt e k ps n w, t.ops = [.vec f (.mem fmt e k) ps n w] → isMx fmt = false →
          let ws := (List.range n).map fun i => (vecApply f ((operandsAt (r0.sources p n ps).1 i).map (·.w))).w
          ∀ j x, j < (writeFormat fmt ws).elems.length → translate s p (e + j) = some x →
            loadByte u x = (writeFormat fmt ws).elems.getD j 0#8))) ∧
    (r.bad = true → s.fltQueue.length < 16 → Answers (.taskComplete p g l tag task) s fun u => Recorded s u 0x02)) ∧
  (∀ (s : State) (p g l tag task : Nat) (st : Step), (Instr.taskComplete p g l tag task).wf = true → (lane s p).cur = some st →
    (∀ e ∈ st.running, e.1 = 80 * g + l → st.tag ≠ tag ∨ e.2.1.id ≠ task) →
    Answers (.taskComplete p g l tag task) s fun u => u = s)

/-- Timeouts of a step are recorded with their causes; a debug halt stops the step in I mode and holds the lane until its
release, which restores it -/
def Obligations.TimeoutsAndHaltsOfSteps : Prop :=
  (∀ (s : State) (p cl : Nat), s.fltQueue.length < 16 → (Instr.taskWatchdog p cl).wf = true →
    (serving s = true → composeLate s p = true → Answers (.composeTimeout p) s fun u => Recorded s u 0x0F) ∧
    (∀ st pr t, (lane s p).cur = some st → (lane s p).preempt = some pr → pr.saveAt = some t →
      (pr.modeI = true → st.running.any (fun e => e.1 == cl) = true → t + 5000 ≤ s.qTime →
        Answers (.imodeStopTimeout p cl) s fun u => Recorded s u 0x0A) ∧
      (t + 50000 ≤ s.qTime → Answers (.saveWriteTimeout p) s fun u => Recorded s u 0x0A)) ∧
    (∀ st t since, (lane s p).cur = some st → st.st = .execute → (lane s p).preempt = none → (lane s p).restoreAt = none →
      st.running.find? (fun e => e.1 == cl) = some (cl, t, since) → t.tiled = true →
      since + tileTicks s t + 25000 ≤ s.cTime →
      Answers (.taskWatchdog p cl) s fun u => Recorded s u 0x03)) ∧
  (∀ (s : State) (p : Nat), (Instr.debugHalt p).wf = true →
    (getF s Reg.MGT_STATUS_OWNER ≠ 1 → partValid s p = true → serving s = true →
      Answers (.debugHalt p) s fun u => (lane u p).halted = true ∧ SameMem s u ∧
        (∀ st, (lane s p).cur = some st → st.st = .execute → (lane s p).preempt = none → (lane s p).restoreAt = none →
          st.group = none → ∃ pr, (lane u p).preempt = some pr ∧ pr.modeI = true ∧ pr.saveAt = some s.qTime ∧ pr.debug = true) ∧
        (∀ st q, (lane s p).cur = some st → (lane s p).preempt = some q → ∃ pr, (lane u p).preempt = some pr ∧ pr.debug = true ∧
          (q.modeI = false → q.saveAt = none → pr.modeI = true ∧ pr.saveAt = some s.qTime))) ∧
    ((lane s p).halted = true →
      Answers (.debugHaltRelease p) s fun u => (lane u p).halted = false ∧
        ∀ z rest, (lane s p).pre = z :: rest → z.preBy = none → (lane s p).cur = none → (lane s p).acks = [] →
          (lane u p).cur = some z ∧ (lane u p).pre = rest ∧ (lane u p).restoreAt = some s.qTime ∧
          (lane u p).nextStep = none ∧ (lane u p).composing = none))

/-- A shard's lists with the tag of the step in EXECUTE are taken once; the last starts the merge; a stale tag is counted and
its lists are discarded -/
def Obligations.CandidatesOfTheTagReachTheMerge : Prop :=
  ∀ (s : State) (p tag shard : Nat) (ps : List PosLogits), (Instr.candidateArrive p tag shard ps).wf = true →
    ((∀ st, (lane s p).cur = some st → st.tag ≠ tag ∨ st.st ≠ .execute ∨ (lane s p).restoreAt.isSome = true) →
      Answers (.candidateArrive p tag shard ps) s fun u => isSet u Reg.SMP_STATUS_LATE_CANDIDATE = true ∧ u.lanes = s.lanes ∧
        getF u Reg.SMP_EVT_CNT2_LATE_CANDIDATE =
          min (2 ^ Reg.SMP_EVT_CNT2_LATE_CANDIDATE.w - 1) (getF s Reg.SMP_EVT_CNT2_LATE_CANDIDATE + 1) ∧ SameMem s u) ∧
    (∀ st, (lane s p).cur = some st → st.tag = tag → st.st = .execute → (lane s p).restoreAt = none →
      ps.all (posOk s st shard) = true → ps.any (·.draft) = false →
      (shard ∈ st.shardsLeft → Answers (.candidateArrive p tag shard ps) s fun u => SameMem s u ∧
        Holds u p fun x => x.ctx = st.ctx ∧ x.tag = tag ∧ x.plan = st.plan ∧
          x.shardsLeft = st.shardsLeft.filter (· != shard) ∧
          (st.follower = false → x.cands = st.cands ++ (ps.filterMap (ownList s st shard)).map (·.list)) ∧
          (st.follower = false → x.shardsLeft = [] → st.candWait = [] → st.plan.any itemSamples = true →
            (lane s p).preempt = none → s.qTime < st.deadline → x.st = .sample ∧ x.sampleAt = s.qTime)) ∧
      (shard ∉ st.shardsLeft → Answers (.candidateArrive p tag shard ps) s fun u => u = s))

/-- A step in SAMPLE commits before its deadline: it leaves the groves, for a step that waited if there is one, and a decoded
token advances its sequence -/
def Obligations.CommitAdvancesAndFreesTheGroves : Prop :=
  ∀ (s : State) (p : Nat) (st : Step), (Instr.stepCommit p).wf = true → (lane s p).cur = some st → st.st = .sample →
    st.follower = false → s.qTime < st.deadline → serving s = true → partResetting s p = false →
    Answers (.stepCommit p) s fun u =>
      ((lane u p).cur = none ∨ Holds u p fun x => x.st = .issue ∧ x.issueAt = s.qTime) ∧
      ((lane s p).nextStep = none → (lane u p).cur = none) ∧ u.cancels = [] ∧
      (∀ it h i r d c, st.plan = [it] → it.prefill = false → it.seqs = [h] → reqByHandle s h = some (i, r) → isLive r.st = true →
        pastDeadline r s.qTime = false → st.drawn.find? (fun d => d.req == h) = some d → d.toks.length = 1 → d.acc = 0 → d.d = 0 →
        (emitTokens r d.toks []).2.2.1 = false → ctx? s st.ctx = some c → c.pair = none → c.unpair = false → st.group = none →
        st.draft = none → s.cancels = [] →
        (∀ x, slot? s c.slot = some x → x.force = false) → (∀ q, (lane s q).powerWait = none) →
        ∃ r', req? u i = some r' ∧ r'.st = .decode ∧ r'.append = r.append + 1 ∧ r'.emitted = r.emitted + 1 ∧
          r'.lastCommit = s.qTime)

/-- A holder at its deadline is abandoned, logged, and ABANDON is raised; with the last acknowledge the groves are idle -/
def Obligations.DeadlineAbandonsTheHolder : Prop :=
  (∀ (s : State) (p n : Nat) (st : Step), (Instr.stepDeadline p n).wf = true → serving s = true → partResetting s p = false →
    (lane s p).cur = some st → ctxLocal st.ctx = n → st.deadline ≤ s.qTime → st.follower = false →
    let k := getF s (Reg.CMP_ABN_PTR_NEXT p)
    Answers (.stepDeadline p n) s fun u => (lane u p).cur = none ∧ (lane u p).acks = groveList s p ∧
      isSet u (Reg.CMP_STATUS_ABANDONED p) = true ∧ getF u (Reg.CMP_ABN_PTR_NEXT p) = (k + 1) % 16 ∧
      getF u (Reg.CMP_ABN_LOG_CODE p k) = 0x0303 ∧ getF u (Reg.CMP_ABN_LOG_CTX p k) = n ∧
      getF u (Reg.CMP_ABN_LOG_TAG p k) = st.tag % 65536) ∧
  (∀ (s : State) (p g : Nat), (Instr.groveAbandonAck p g).wf = true → g ∈ (lane s p).acks →
    Answers (.groveAbandonAck p g) s fun u => (lane u p).acks = (lane s p).acks.filter (· != g) ∧
      ((lane s p).acks = [g] → (lane s p).nodeAcks = [] → (lane s p).cur = none → (lane s p).nextStep = none →
        ∀ x ∈ groveList s p, getF u (Reg.GRV_STATUS_STATE x) = 0))

/-- A preemption is raised in the mode the tasks ask for, while its step is composed; it stops each cluster at a tile boundary,
escalates past 200 us, saves the step and restores it -/
def Obligations.PreemptionSavesAndRestores : Prop :=
  ∀ (s : State) (p cl : Nat), (Instr.clusterTileStop p cl).wf = true → ∀ st, (lane s p).cur = some st →
    (∀ g, serving s = true → isSet s (Reg.CMP_SWITCH_CTL_PREEMPT_EN p) = true → st.st = .execute → (lane s p).preempt = none →
      (lane s p).restoreAt = none → st.group = none → (lane s p).halted = false → (lane s p).pre.length < 3 →
      chooseRival s p (rivals s p (classOf s st.ctx)) = some g →
      Answers (.preemptRaise p) s fun u => (∃ pr, (lane u p).preempt = some pr ∧ pr.raisedAt = s.qTime ∧
        pr.modeI = (isSet s (Reg.CMP_SWITCH_CTL_FORCE_I p) || st.running.any fun e => !e.2.1.tiled)) ∧ SameMem s u ∧
        ((lane s p).composing = none → (lane s p).nextStep = none → ∃ c, (lane u p).composing = some c ∧ c.ctx = g)) ∧
    (∀ pr, (lane s p).preempt = some pr →
      (∀ t b, st.running.find? (fun e => e.1 == cl) = some (cl, t, b) → pr.modeI = false → pr.saveAt = none →
        waitOverdue pr s.qTime = false → t.tiled = true →
        let s0 := dropWaits (draw s).2 (· == .task cl)
        let stops := stopsAt true (issuedBytes s p cl t) t.ops
        stops ≠ [] → (∀ n ∈ stops, (runOps p cl ⟨s0, cluster s0 cl, st, false⟩ (t.ops.take n)).bad = false) →
        Answers (.clusterTileStop p cl) s fun u =>
          Holds u p (fun x => (∃ n ∈ stops, (cl, { t with ops := t.ops.drop n }) ∈ x.stopped) ∧
            x.running = st.running.filter fun e => e.1 != cl) ∧
          (st.running = [(cl, t, b)] → ∃ q, (lane u p).preempt = some q ∧ q.saveAt = some s.qTime) ∧
          (NoStoreWaits s p → ∀ a, (∀ op ∈ t.ops, ∀ w ∈ opWrites op, ∀ j, j < w.2 → translate s p (w.1 + j) ≠ some a) →
            loadByte u a = loadByte s a)) ∧
      (pr.modeI = false → pr.saveAt = none → pr.raisedAt + 100000 < s.qTime →
        Answers (.preemptEscalate p) s fun u =>
          (∃ q, (lane u p).preempt = some q ∧ q.modeI = true ∧ q.saveAt = some s.qTime) ∧
          isSet u (Reg.CMP_PREEMPT_STATUS_ESCALATED p) = true ∧ SameMem s u) ∧
      (∀ t, pr.saveAt = some t → t + saveTicks s p st pr.modeI ≤ s.qTime → (stopAll s p st).bad = false →
        Answers (.preemptSaveDone p) s fun u => (lane u p).preempt = none ∧
          ((lane u p).cur = none ∨ Holds u p fun x => x.st = .issue ∧ x.issueAt = s.qTime) ∧
          ∃ x, (lane u p).pre = x :: (lane s p).pre ∧ x.ctx = st.ctx ∧ x.tag = st.tag ∧ x.plan = st.plan ∧
            x.modeI = pr.modeI ∧ x.preAt = t)) ∧
    (∀ t, (lane s p).restoreAt = some t → t + restoreTicks s p st ≤ s.qTime →
      Answers (.restoreDone p none) s fun u => (lane u p).restoreAt = none ∧
        Holds u p fun x => x.ctx = st.ctx ∧ x.tag = st.tag ∧ x.plan = st.plan ∧ x.lost = st.lost + (s.qTime - st.preAt))

/-- A park takes a slot for each page, and its copies, once done, free the pages; an unpark begins where pages suffice, and its
copies, once done, return the sequence to DECODE; a copy that fails is recorded as fault 0x1D -/
def Obligations.ParkingMovesTheSequenceOut : Prop :=
  (∀ (s : State) (p i : Nat) (r : Req) (e : Int × Nat × Nat), (Instr.parkStart p).wf = true → serving s = true →
    partResetting s p = false → isSet s (Reg.CMP_LANE_CTL_PARK_EN p) = true → (reqsIn s p (·.unparking)) = [] →
    (reqsIn s p (·.parking)).length < 4 →
    (freePages s p < getF s (Reg.CMP_PARK_LOW_PARK_LOW p) ∨ (lane s p).pageSkip = true) →
    (parkOrder s p).find? (fun e => slotsFor s e.2.2 e.2.1) = some e → e.2.2 = i → req? s i = some r →
    Answers (.parkStart p) s fun u => (NoStoreWaits s p → SameMem s u) ∧
      ∃ r', req? u i = some r' ∧ r'.st = .parked ∧ r'.parking = true ∧
        r'.slots.length = (seqPages s (hnat i r) r).length ∧ ∀ n ∈ r'.slots, n ∉ slotsInUse s r.tenant) ∧
  (∀ (s : State) (p i : Nat) (r : Req), (Instr.parkComplete p i true).wf = true → req? s i = some r → r.parking = true →
    r.ctx / 32 = p →
    (waitsFor s p (forReq i) = false →
      Answers (.parkComplete p i true) s fun u =>
        (∀ pg, pg < 2 ^ 20 → isParking (page u p pg).use = true → useReq (page u p pg).use ≠ some (hnat i r)) ∧
        (isLive r.st = true → (∃ r', req? u i = some r' ∧ r'.st = r.st ∧ r'.parking = false ∧
            (r.paired = true → r'.slots = r.slots)) ∧
          getF u (Reg.TRC_TEN_COUNT r.tenant 11) = (getF s (Reg.TRC_TEN_COUNT r.tenant 11) + 1) % 2 ^ 64) ∧
        (isLive r.st = false → ∀ r', req? u i = some r' → r'.parking = false ∧ r'.slots = [])) ∧
    (s.fltQueue.length < 16 → Answers (.parkComplete p i false) s fun u => Recorded s u 0x1D)) ∧
  (∀ (s : State) (p i : Nat) (r : Req) (e : Int × Nat × Nat × Nat) (rest : List (Int × Nat × Nat × Nat)),
    (Instr.unparkStart p).wf = true → unparkOrder s p = e :: rest → e.2.2.2 = i → req? s i = some r → serving s = true →
    partResetting s p = false → (reqsIn s p (·.parking)) = [] → (reqsIn s p (·.unparking)).length < 4 →
    getF s (Reg.CMP_PARK_HIGH_PARK_HIGH p) + r.slots.length ≤ freePages s p →
    Answers (.unparkStart p) s fun u => ∃ r', req? u i = some r' ∧ r'.st = r.st ∧ r'.unparking = true ∧ r'.slots = r.slots) ∧
  (∀ (s : State) (p i : Nat) (data : List (List Byte)) (r : Req), (Instr.unparkComplete p i true data).wf = true →
    req? s i = some r → r.unparking = true → r.ctx / 32 = p →
    (waitsFor s p (forReq i) = false →
      Answers (.unparkComplete p i true data) s fun u =>
        (isLive r.st = true → ∃ r', req? u i = some r' ∧ r'.st = .decode ∧ r'.unparking = false ∧ r'.slots = []) ∧
        (isLive r.st = false → ∀ r', req? u i = some r' → r'.unparking = false ∧ r'.slots = [])) ∧
    (s.fltQueue.length < 16 → Answers (.unparkComplete p i false data) s fun u => Recorded s u 0x1D))

/-- The patrol reads its next word: a clean one passes, one erroneous symbol is counted and written back, a transient error is
recorded, and the FREE arena page of a word that stays uncorrectable is retired -/
def Obligations.ScrubReadsAreTreatedByTheirEcc : Prop :=
  ∀ (s : State) (x : Nat) (e : EccRead), (Instr.scrubRead x e).wf = true → s.boot.trained = true →
    let a := nextPass s
    let w := x / 32
    let n := max e.first (eccAt s w)
    let m := max e.retry (eccAt s w)
    let ch := 32 * w / 2 ^ 31
    (a.scrub.next ≠ w → Answers (.scrubRead x e) s fun u => u = a) ∧
    (a.scrub.next = w → Answers (.scrubRead x e) s fun u => u.scrub = { a.scrub with next := w + 1 } ∧
      (n = 0 → u = { a with scrub := { a.scrub with next := w + 1 } }) ∧
      (n = 1 → eccAt u w = 0 ∧ SameMem s u ∧
        getF u (Reg.MEM_ECC_CNT_CORRECTED ch) = min 65535 (getF s (Reg.MEM_ECC_CNT_CORRECTED ch) + 1)) ∧
      (2 ≤ n → m ≤ 1 → s.fltQueue.length < 16 → eccAt u w = 0 ∧ SameMem s u ∧ Recorded s u 0x05 ∧
        getF u (Reg.MEM_ECC_CNT_TRANSIENT ch) = min 65535 (getF s (Reg.MEM_ECC_CNT_TRANSIENT ch) + 1)) ∧
      (2 ≤ n → 2 ≤ m → s.fltQueue.length < 16 → 0x7F000000 ≤ 32 * w % 2 ^ 31 → Recorded s u 0x08) ∧
      (∀ p y, 2 ≤ n → 2 ≤ m → 32 * w % 2 ^ 31 < 0x7F000000 → groveOwner s (32 * w / 2 ^ 32) = some p →
        partAddr s p (32 * w) = some y → arenaBase s p ≤ y →
        (page s p ((y - arenaBase s p) / 65536)).use = .free → s.retired.length < 1024 → s.fltQueue.length < 16 →
        (page u p ((y - arenaBase s p) / 65536)).use = .retired ∧ 32 * w ∈ u.retired ∧ Recorded s u 0x07 ∧ SameMem s u))

/-- A GO takes the request in the area, or sets the flag that says why not; an SMBus request joins it, or is answered that it
cannot; LOAD_COST_TABLE loads all or none, CLEAR_COST_TABLE empties it -/
def Obligations.CommandsEnterTheMailboxAndTheCostTable : Prop :=
  ((∀ s : State, Reaches s Reg.MGT_MBX_CTL →
    let q := areaRequest s
    ((s.mbx.any fun x => !x.smbus) = true → Answers .mailboxGo s fun u => u.mbx = s.mbx ∧
      isSet u Reg.MGT_MBX_STATUS_GO_WHILE_BUSY = true) ∧
    ((s.mbx.any fun x => !x.smbus) = false →
      (canStart s = false → Answers .mailboxGo s fun u => u.mbx = s.mbx ∧
        isSet u Reg.MGT_MBX_STATUS_REFUSED_NOT_READY = true) ∧
      (canStart s = true → q.opcode / 256 < 1 ∨ 12 < q.opcode / 256 → Answers .mailboxGo s fun u => u.mbx = s.mbx ∧
        isSet u Reg.MGT_MBX_STATUS_BAD_OPCODE = true) ∧
      (canStart s = true → 1 ≤ q.opcode / 256 → q.opcode / 256 ≤ 12 → (∀ x ∈ s.mbx, refusalOf s x = none) →
        (refusalOf s q = none → Answers .mailboxGo s fun u => u.mbx = s.mbx ++ [q] ∧ getF u Reg.MGT_MBX_STATUS_BUSY = 1) ∧
        (∀ code, refusalOf s q = some code → s.mbx = [] → (stage s = 6 ∨ stage s = 7) →
          Answers .mailboxGo s fun u => Ended u code)))) ∧
  (∀ (s : State) (op tag len : Nat) (pl : List Byte), (Instr.smbusMctpRequest op tag len pl).wf = true →
    smbusSilent s = false →
    let q : MbxCmd := ⟨true, op, tag, len, pl.take 4032, false⟩
    ((s.mbx.any fun x => x.smbus) = false → canStart s = true → 1 ≤ op / 256 → op / 256 ≤ 12 →
      (∀ x ∈ s.mbx, refusalOf s x = none) → refusalOf s q = none →
      Answers (.smbusMctpRequest op tag len pl) s fun u => u.mbx = s.mbx ++ [q] ∧ u.regs = s.regs) ∧
    ((s.mbx.any fun x => x.smbus) = true ∨ canStart s = false →
      Answers (.smbusMctpRequest op tag len pl) s fun u => u = emit s (.smbusPldm pldmNotReady))) ∧
  (∀ s, exec .smbusSclTimeout s = .next s)) ∧
  (∀ (s : State) (c : MbxCmd), Alone s c →
    (c.opcode = 0x0210 →
      let b := c.payload.drop 4
      let recs := chunks 80 (leAt c.payload 0 4) b
      let new := (recs.map costRecOf).foldl putCost s.costs
      (recs.all costRecOk = true → new.length ≤ 64 → Answers .loadCostTable s fun u => u.costs = new ∧ Ended u 0) ∧
      (recs.all costRecOk = false → Answers .loadCostTable s fun u => u.costs = s.costs ∧ Ended u 0x0220) ∧
      (recs.all costRecOk = true → 64 < new.length → Answers .loadCostTable s fun u => u.costs = s.costs ∧ Ended u 0x0221)) ∧
    (c.opcode = 0x0211 → Answers .clearCostTable s fun u => u.costs = [] ∧ Ended u 0))

/-- A LOAD_MODEL from host memory that passes every step takes a slot in LOADING with its package -/
def Obligations.AcceptedLoadsBegin : Prop :=
  ∀ (s : State) (c : MbxCmd) (hdr : List Byte) (g : ProgInfo) (n l save : Nat) (fit : Nat × Nat × Bool),
    (Instr.loadModel (some (hdr, g))).wf = true → Alone s c → c.opcode = 0x0510 →
    let p := leAt c.payload 0 1
    p < 16 → partValid s p = true → partState s p ≠ 2 → partState s p ≠ 4 → (leAt c.payload 1 1).testBit 3 = false →
    (leAt c.payload 1 1).testBit 0 = false → leAt c.payload 8 8 % 4096 = 0 → leAt c.payload 8 8 + leAt c.payload 16 8 ≤ 2 ^ 57 →
    headerOk hdr (leAt c.payload 16 8) = true → programOk (pkgOfHeader hdr) g (grovesOf s p) = true →
    ((pkgOfHeader hdr).groupPart = false ∨ slotsOf s p = []) → (slotsOf s p).any (fun m => isSet s (Reg.MDL_SLOT_GROUP m)) = false →
    (List.range 32).find? (fun m => (slot? s m).isNone) = some n → freeLocal s p = some l →
    fitRule (pkgOfHeader hdr) ((leAt c.payload 1 1).testBit 2) (freePages s p) = some fit →
    findSave s p (saveArea (grovesOf s p) g.liveSram) = some save →
    Answers (.loadModel (some (hdr, g))) s fun u => getF u (Reg.MDL_SLOT_STATE n) = 1 ∧ getF u (Reg.MDL_SLOT_PARTITION n) = p ∧
      (∃ x, slot? u n = some x ∧ x.pkg = pkgOfHeader hdr ∧ x.prog = g ∧ x.ctxNo = l ∧ x.saveBase = save) ∧
      (∀ m, m ≠ n → slot? u m = slot? s m) ∧ Ended u (if fit.2.2 then 0x0502 else 0)

/-- A transfer whose CRC matches makes the model READY with its first context; one that fails gives the slot back -/
def Obligations.TransfersEndInReadyOrGo : Prop :=
  ∀ (s : State) (n : Nat) (x : Slot) (crc : W32) (bytes : List (Nat × Byte)), (Instr.modelTransferDone n crc bytes).wf = true →
    slot? s n = some x → getF s (Reg.MDL_SLOT_STATE n) = 1 →
    let issued := waitsFor s (getF s (Reg.MDL_SLOT_PARTITION n)) (· == .load n) = false
    (serving s = true → (x.fromPeer.isSome = true ∨ canDma s 0 = true) → issued → crc.toNat = x.pkg.bodyCrc →
      Answers (.modelTransferDone n crc bytes) s fun u =>
        (∃ k, ctx? u (32 * getF s (Reg.MDL_SLOT_PARTITION n) + x.ctxNo) = some k ∧ k.slot = n ∧ k.first = true) ∧
        getF u (Reg.MDL_SLOT_STATE n) = (if x.pkg.groupPart = true ∧ x.pkg.deviceIndex = 0 then 2 else 3) ∧
        (¬(x.pkg.groupPart = true ∧ x.pkg.deviceIndex = 0) → isSet u Reg.MDL_STATUS_LOAD_DONE = true)) ∧
    (serving s = true → (x.fromPeer.isSome = true ∨ canDma s 0 = true) → issued → crc.toNat ≠ x.pkg.bodyCrc → s.fltQueue.length < 16 →
      Answers (.modelTransferDone n crc bytes) s fun u => slot? u n = none ∧ getF u (Reg.MDL_SLOT_LOAD_LOAD_CODE n) = 0x050C ∧
        isSet u Reg.MDL_STATUS_LOAD_FAILED = true ∧ Recorded s u 0x1E) ∧
    (s.fltQueue.length < 16 →
      Answers (.modelTransferFailed n) s fun u => slot? u n = none ∧ getF u (Reg.MDL_SLOT_LOAD_LOAD_CODE n) = 0x050B ∧
        isSet u Reg.MDL_STATUS_LOAD_FAILED = true ∧ Recorded s u 0x1E)

/-- EVICT_MODEL of a quiet model, or with FORCE, releases its slot; a busy one drains until it is quiet -/
def Obligations.EvictionsReleaseTheSlot : Prop :=
  (∀ (s : State) (c : MbxCmd) (n : Nat) (x : Slot), Alone s c → c.opcode = 0x0512 → slotByHandle s (leAt c.payload 0 2) = some (n, x) →
    groupFormed s n = false → group? s n = none →
    ((leAt c.payload 2 1).testBit 0 = false → evictRefusal s n false = none → getF s (Reg.MDL_SLOT_STATE n) ≠ 1 →
      (slotQuiet s n = true → slotIdle s n = true →
        Answers .evictModel s fun u => slot? u n = none ∧ isSet u Reg.MDL_STATUS_EVICTED = true ∧ Ended u 0 ∧ SameMem s u) ∧
      (slotQuiet s n = false →
        Answers .evictModel s fun u => slot? u n = some x ∧ getF u (Reg.MDL_SLOT_STATE n) = 4 ∧ Ended u 0x050A)) ∧
    ((leAt c.payload 2 1).testBit 0 = true → evictRefusal s n true = none → getF s (Reg.MDL_SLOT_STATE n) ≠ 1 →
      slotIdle s n = true → peerSource s n = false →
      Answers .evictModelForce s fun u => slot? u n = none ∧ isSet u Reg.MDL_STATUS_EVICTED = true ∧ Ended u 0)) ∧
  (∀ (s : State) (n : Nat), (Instr.modelDrainEvict n).wf = true → serving s = true → (slot? s n).isSome = true →
    getF s (Reg.MDL_SLOT_STATE n) = 4 → slotQuiet s n = true → slotIdle s n = true → groupFormed s n = false → group? s n = none →
    Answers (.modelDrainEvict n) s fun u => slot? u n = none ∧ isSet u Reg.MDL_STATUS_EVICTED = true)

/-- ADD_CONTEXT makes a context, PIN_MODEL sets and clears PINNED, PAIR_DRAFT makes and ends a pair -/
def Obligations.ContextsPinsAndPairs : Prop :=
  ∀ (s : State) (c : MbxCmd) (n : Nat) (x : Slot), Alone s c → slotByHandle s (leAt c.payload 0 2) = some (n, x) →
    (∀ l save, c.opcode = 0x0511 → getF s (Reg.MDL_SLOT_STATE n) = 3 → isSet s (Reg.MDL_SLOT_GROUP n) = false →
      isSet s (Reg.MDL_SLOT_DRAFT n) = false →
      ctxParamsBad s n (leAt c.payload 2 1 % 16) ⟨leAt c.payload 3 1, leAt c.payload 4 4, leAt c.payload 8 2, leAt c.payload 10 2,
        leAt c.payload 12 1⟩ = false →
      freeLocal s (getF s (Reg.MDL_SLOT_PARTITION n)) = some l → aPages x.pkg ≤ freePages s (getF s (Reg.MDL_SLOT_PARTITION n)) →
      findSave s (getF s (Reg.MDL_SLOT_PARTITION n)) (saveArea (grovesOf s (getF s (Reg.MDL_SLOT_PARTITION n))) x.prog.liveSram) =
        some save →
      Answers .addContext s fun u =>
        (∃ k, ctx? u (32 * getF s (Reg.MDL_SLOT_PARTITION n) + l) = some k ∧ k.slot = n ∧ k.first = false ∧ k.saveBase = save) ∧
        getF u (Reg.MDL_CTX_SVC_SVC_MASK (32 * getF s (Reg.MDL_SLOT_PARTITION n) + l)) = leAt c.payload 2 1 % 16 ∧
        Ended u 0) ∧
    (c.opcode = 0x0513 → isFollower s n = false → getF s (Reg.MDL_SLOT_STATE n) < 4 →
      ((leAt c.payload 2 1).testBit 0 = true → Answers .pinModel s fun u => isSet u (Reg.MDL_SLOT_PINNED n) = true ∧ Ended u 0) ∧
      ((leAt c.payload 2 1).testBit 0 = false → Answers .unpinModel s fun u => isSet u (Reg.MDL_SLOT_PINNED n) = false ∧
        Ended u 0)) ∧
    (∀ dn dx g tc d rest, c.opcode = 0x0514 → leAt c.payload 4 2 ≠ 0 → slotByHandle s (leAt c.payload 4 2) = some (dn, dx) →
      pairTarget s c.payload n = some (g, tc) → slotCtxs s dn = d :: rest → pairOk s n x tc g dn dx = true →
      Answers .pairDraft s fun u => (∃ k, ctx? u g = some k ∧ k.pair = some (ctxLocal d)) ∧
        (∃ k, ctx? u d = some k ∧ k.pair = some (ctxLocal g)) ∧ isSet u (Reg.CMP_CTX_CFG_DRAFT (ctxPart g) (ctxLocal d)) = true ∧
        Ended u 0) ∧
    (∀ g tc, c.opcode = 0x0514 → leAt c.payload 4 2 = 0 → pairTarget s c.payload n = some (g, tc) → tc.pair ≠ none →
      isDraft s g = false → ctxPreempted s g = false → ctxBusy s g = false →
      Answers .unpairDraft s fun u => (∃ k, ctx? u g = some k ∧ k.pair = none) ∧ Ended u 0)

/-- DRAIN_PARTITION holds OPEN and drains, cancelling with FORCE; the drained partition resumes with OPEN as recorded -/
def Obligations.PartitionsDrainAndResume : Prop :=
  (∀ (s : State) (c : MbxCmd), Alone s c → leAt c.payload 0 1 < 16 → partValid s (leAt c.payload 0 1) = true →
    (c.opcode = 0x0610 → partState s (leAt c.payload 0 1) = 1 →
      Answers .drainPartition s fun u => partState u (leAt c.payload 0 1) = 2 ∧ Ended u 0 ∧
        (∀ t, t < 64 → partOf s t = some (leAt c.payload 0 1) → (tenant s t).hold = none →
          isSet u (Reg.ADM_TEN_CTL_OPEN t) = false) ∧
        ((leAt c.payload 1 1).testBit 0 = true → ∀ i r, req? s i = some r → isLive r.st = true →
          partOf s r.tenant = some (leAt c.payload 0 1) → ∃ r', req? u i = some r' ∧ r'.st = .cancelled)) ∧
    (c.opcode = 0x0611 → (partState s (leAt c.payload 0 1) = 2 ∨ partState s (leAt c.payload 0 1) = 3) →
      Answers .resumePartition s fun u => partState u (leAt c.payload 0 1) = 1 ∧ Ended u 0 ∧
        ∀ t b, t < 64 → partOf s t = some (leAt c.payload 0 1) → isSet s (Reg.PRT_TEN_MIGRATING t) = false →
          (tenant s t).hold = some b → isSet u (Reg.ADM_TEN_CTL_OPEN t) = b ∧ (tenant u t).hold = none)) ∧
  (∀ (s : State) (p : Nat), (Instr.drainDone p).wf = true → partState s p = 2 → partIdle s p = true →
    Answers (.drainDone p) s fun u => partState u p = 3 ∧ isSet u Reg.PRT_STATUS_DRAIN_DONE = true ∧ SameMem s u)

/-- RECONFIGURE dissolves drained partitions and makes the new ones DRAINED; a migration holds OPEN and binds the tenant anew -/
def Obligations.ReconfigureAndMigrate : Prop :=
  (∀ (s : State) (c : MbxCmd), Alone s c → sharedMode s = false →
    (c.opcode = 0x0612 →
      let d := leAt c.payload 0 2
      let new := (chunks 8 16 (c.payload.drop 3)).map partEntryOf
      (∀ p, p < 16 → d.testBit p = true → partValid s p = true ∧ partState s p = 3) → changeBusy s = false →
      layoutOk s d new = true →
      Answers .reconfigure s fun u => isSet u Reg.PRT_STATUS_RECONF_DONE = true ∧ Ended u 0 ∧
        (∀ e ∈ new, partValid u e.id = true ∧ partState u e.id = 3 ∧ firstGrove u e.id = e.first ∧ grovesOf u e.id = e.groves) ∧
        ∀ p, p < 16 → d.testBit p = true → (∀ e ∈ new, e.id ≠ p) → partValid u p = false) ∧
    (c.opcode = 0x0613 →
      let t := leAt c.payload 0 1
      let q := leAt c.payload 1 1
      t < 64 → isSet s (Reg.PRT_TEN_MIGRATING t) = false → (q = 0xFF ∨ (q < 16 ∧ partValid s q = true)) →
      Answers .migrateTenant s fun u => isSet u (Reg.PRT_TEN_MIGRATING t) = true ∧ (tenant u t).migrateTo = q ∧ Ended u 0 ∧
        ((tenant s t).hold = none → isSet u (Reg.ADM_TEN_CTL_OPEN t) = false))) ∧
  (∀ (s : State) (t : Nat), (Instr.migrateDone t).wf = true → isSet s (Reg.PRT_TEN_MIGRATING t) = true →
    (liveReqs s fun r => r.tenant == t) = [] → getF s (Reg.ADM_TEN_KVUSE_KVUSE t) = 0 →
    Answers (.migrateDone t) s fun u => isSet u (Reg.PRT_TEN_MIGRATING t) = false ∧ isSet u Reg.PRT_STATUS_MIGRATE_DONE = true ∧
      partOf u t = if (tenant s t).migrateTo < 16 ∧ partValid s (tenant s t).migrateTo = true then some (tenant s t).migrateTo
        else none)

/-- What a unit reports is recorded with the ID of Table 13.2; a corrected error is counted as F0 only; trace state that is lost is
no fault -/
def Obligations.FaultReportsAreClassified : Prop :=
  ∀ (s : State) (src : FaultSrc), (Instr.faultReport src).wf = true → s.boot.por = false → s.fltQueue.length < 16 →
    let gives (id : Nat) : Prop := Answers (.faultReport src) s fun u => Recorded s u id
    let counted : Prop := Answers (.faultReport src) s fun u =>
      getF u (Reg.FLT_CNT_COUNT 0) = (getF s (Reg.FLT_CNT_COUNT 0) + 1) % 2 ^ 32 ∧ u.fltQueue = s.fltQueue
    (∀ g l, src = .clusterEcc g l false → gives 0x01) ∧
    (∀ c, src = .translator c → gives 0x02) ∧
    (∀ x e, src = .dram x e → 2 ≤ max e.first (eccAt s (x / 32)) →
      (max e.retry (eccAt s (x / 32)) ≤ 1 → gives 0x05) ∧
      (2 ≤ max e.retry (eccAt s (x / 32)) → 0x7F000000 ≤ x % 2 ^ 31 → gives 0x08) ∧
      (2 ≤ max e.retry (eccAt s (x / 32)) → x % 2 ^ 31 < 0x7F000000 → groveOwner s (x / 2 ^ 32) = none → gives 0x07)) ∧
    (∀ g, src = .planBuffer g → gives 0x09) ∧
    (∀ num k, src = .crossing num k false → 3 ≤ num → num ≤ 8 → gives 0x0B) ∧
    (∀ num k, src = .crossing num k false → num = 10 ∨ num = 11 ∨ num = 13 → gives 0x0C) ∧
    (∀ num k, src = .crossing num k false → num = 18 ∨ num = 19 → gives 0x0D) ∧
    (∀ p, src = .lane p → gives 0x0F) ∧
    (∀ p, src = .partState p false → gives 0x10) ∧
    (∀ d, src = .requestEngine d false → gives 0x11) ∧
    (src = .sampler false → gives 0x11) ∧
    (∀ g set way k x, src = .l2 g set way → lineIn s g set way = some (k, x) →
      if x.dirty = true then gives 0x13 else gives 0x12) ∧
    (∀ b, src = .imageStore b → gives 0x20) ∧
    (src = .collector false → Answers (.faultReport src) s fun u => chipFaulted u = true) ∧
    ((∃ g l, src = .clusterEcc g l true) ∨ (∃ num k, src = .crossing num k true) ∨ (∃ p, src = .partState p true) ∨
      (∃ d, src = .requestEngine d true) ∨ src = .sampler true ∨ src = .collector true ∨
      (∃ x e, src = .dram x e ∧ max e.first (eccAt s (x / 32)) = 1) → counted) ∧
    ((∃ g set way, src = .l2 g set way ∧ lineIn s g set way = none) ∨ (∃ x e, src = .dram x e ∧ max e.first (eccAt s (x / 32)) = 0) →
      exec (.faultReport src) s = .next s) ∧
    (∀ p, src = .traceFifo p → Answers (.faultReport src) s fun u => u.fltQueue = s.fltQueue ∧
      (traceOf u p).fifo = (traceOf s p).fifo.tail) ∧
    (∀ p k, src = .assay p k → Answers (.faultReport src) s fun u => u.fltQueue = s.fltQueue ∧
      ∀ st, (lane s p).cur = some st → Holds u p fun st' => st'.watch = st.watch.filter (fun w => w.1 != k) ∧
        ((st.watch.any fun w => w.1 == k) = true → st'.assay = st.assay.filter fun a => a.slot != k))

/-- Clearing a cause of FAULT_N, a PLL that loses lock, a kick of the watchdog and its expiry act as R81, R82 and R467 say; the
fault log is read newest first, and cleared -/
def Obligations.CausesWatchdogAndFaultLog : Prop :=
  ((∀ (s : State) (v : W32), Reaches s Reg.FLT_FAULTN →
    Answers (.faultnClear v) s fun u => SameMem s u ∧ (faultnOn u ≠ faultnOn s → Tx.pin .faultN (!faultnOn u) ∈ u.out) ∧
      ∀ k, k < 7 → getF u ⟨Reg.FLT_FAULTN, k, 1⟩ =
        if v.toNat.testBit k = true ∧ causeHeld s k = false then 0 else getF s ⟨Reg.FLT_FAULTN, k, 1⟩) ∧
  (∀ (s : State) (b : Nat), (Instr.pllLossOfLock b).wf = true → (getF s Reg.HST_CLK_STATUS_LOCK).testBit b = true →
    s.fltQueue.length < 16 →
    Answers (.pllLossOfLock b) s fun u => (getF u Reg.HST_CLK_STATUS_LOCK).testBit b = false ∧
      (b = 6 → Recorded s u 0x15) ∧ (b ≠ 6 → Recorded s u 0x14 ∧ chipFaulted u = true)) ∧
  (∀ s, getF s Reg.HST_STATUS_HWD_STATE = 0 → Answers .watchdogKick s fun u => u.hwd.kickAt = s.aTime ∧ u.regs = s.regs) ∧
  (∀ s, getF s Reg.HST_STATUS_HWD_STATE < 2 → s.hwd.handoff = none → s.hwd.kickAt + 50000000 ≤ s.aTime →
    Answers .watchdogExpiry s fun u => getF u Reg.MGT_MBX_STATUS_READY = 0 ∧ SameMem s u ∧
      ((∀ t, s.hwd.lastExpiry = some t → t + 30000000000 < s.aTime) →
        getF u Reg.HST_STATUS_HWD_STATE = 1 ∧ u.hwd.restartAt = some s.aTime) ∧
      (∀ t, s.hwd.lastExpiry = some t → s.aTime ≤ t + 30000000000 → s.fltQueue.length < 16 →
        getF u Reg.HST_STATUS_HWD_STATE = 2 ∧ Recorded s u 0x18))) ∧
  (∀ (s : State) (c : MbxCmd), Alone s c →
    (c.opcode = 0x0714 →
      let d := drainFaults s
      let rs := (d.fltLog.reverse.drop (leAt c.payload 0 2)).take 251
      Answers .readFaultLog s fun u => u.fltLog = d.fltLog ∧ u.fltQueue = d.fltQueue ∧
        Returned u (leBytes 2 rs.length ++ leBytes 2 d.fltLog.length ++ leBytes 4 d.fltLost ++ List.replicate 8 0#8 ++
          rs.flatMap faultBytes)) ∧
    (c.opcode = 0x0715 → Answers .clearFaultLog s fun u => Ended u 0 ∧ u.fltLog = [] ∧ u.fltLost = 0))

/-- A teardown fails what a context serves; a partition resets and returns; a tenant reset leaves the tenant no request -/
def Obligations.ResetsOfContextPartitionAndTenant : Prop :=
  (∀ (s : State) (c : MbxCmd), Alone s c →
    (∀ k, c.opcode = 0x0711 → leAt c.payload 0 1 < 16 → leAt c.payload 1 1 < 32 →
      ctx? s (32 * leAt c.payload 0 1 + leAt c.payload 1 1) = some k →
      isDraft s (32 * leAt c.payload 0 1 + leAt c.payload 1 1) = false → resetBusy s (leAt c.payload 0 1) = false →
      serving s = true →
      Answers .teardownContext s fun u => Ended u 0 ∧ ∀ i r, req? s i = some r →
        r.ctx = 32 * leAt c.payload 0 1 + leAt c.payload 1 1 → isAdmitted r.st = true →
        ∃ r', req? u i = some r' ∧ r'.st = .failed) ∧
    (c.opcode = 0x0712 → c.started = false → sharedMode s = false → leAt c.payload 0 1 < 16 →
      partValid s (leAt c.payload 0 1) = true → resetBusy s (leAt c.payload 0 1) = false →
      Answers .resetPartition s fun u => partResetting u (leAt c.payload 0 1) = true ∧ partState u (leAt c.payload 0 1) = 4 ∧
        u.mbx = [{ c with started := true }]) ∧
    (c.opcode = 0x0710 → leAt c.payload 0 1 < 64 → s.boot.warm = none →
      Answers .resetTenant s fun u => Ended u 0 ∧ dedupOf u (leAt c.payload 0 1) = [] ∧
        (∀ i r, req? u i = some r → r.tenant ≠ leAt c.payload 0 1) ∧
        ∀ i k, cohort? u i = some k → k.tenant ≠ leAt c.payload 0 1)) ∧
  (∀ (s : State) (p : Nat), (Instr.partitionResetComplete p).wf = true → partResetting s p = true → chipFaulted s = false →
    s.boot.warm = none →
    Answers (.partitionResetComplete p) s fun u => partResetting u p = false ∧
      partState u p = if (part s p).before = 2 ∨ (part s p).before = 3 then (part s p).before else 1)

/-- A port goes through the training stages of Table 14.6, ends ACTIVE or narrowed, or goes DOWN; a degrade retrain aligns the
better half, exchanges, and ends narrowed or DOWN -/
def Obligations.PortsTrainAndRetrain : Prop :=
  (∀ (s : State) (n margins aligned : Nat), (Instr.linkTrainStageDone n margins aligned).wf = true →
    (portState s n = 1 → Answers (.linkTrainStageDone n margins aligned) s fun u => portState u n = 2) ∧
    (portState s n = 2 → Answers (.linkTrainStageDone n margins aligned) s fun u => portState u n = 3 ∧
      getF u (Reg.CZL_PORT_MARGIN_LANES n) = margins % 2 ^ 32) ∧
    (portState s n = 3 → aligned % 256 = 255 → Answers (.linkTrainStageDone n margins aligned) s fun u => portState u n = 4 ∧
      (portOf u n).narrow = false) ∧
    (portState s n = 3 → aligned % 256 ≠ 255 →
      (∀ h, betterHalf s n aligned = some h → Answers (.linkTrainStageDone n margins aligned) s fun u => portState u n = 4 ∧
        (portOf u n).narrow = true ∧ getF u (Reg.CZL_PORT_HALF n) = h) ∧
      (betterHalf s n aligned = none → Answers (.linkTrainStageDone n margins aligned) s fun u => portState u n = 0)) ∧
    (portState s n = 4 → isSet s (Reg.CZL_PORT_PEER_VALID n) = true →
      Answers (.linkTrainStageDone n margins aligned) s fun u => portState u n = if (portOf s n).narrow = true then 6 else 5) ∧
    ((portOf s n).since + stageLimit (portState s n) ≤ s.lTime →
      (portState s n = 2 → Answers (.linkTrainTimeout n aligned) s fun u => portState u n = 3) ∧
      (portState s n = 1 ∨ portState s n = 4 ∨ portState s n = 7 →
        Answers (.linkTrainTimeout n aligned) s fun u => portState u n = 0 ∧ (portOf u n).replay = [] ∧ (portOf u n).queue = [])) ∧
    (portState s n = 7 → (portOf s n).exch = false →
      (∀ h, betterHalf s n aligned = some h →
        (Answers (.linkTrainStageDone n margins aligned) s fun u => portState u n = 7 ∧ (portOf u n).exch = true ∧
          (portOf u n).narrow = true ∧ getF u (Reg.CZL_PORT_HALF n) = h) ∧
        (Answers (.linkDegradeDone n aligned) s fun u => getF u (Reg.CZL_PORT_HALF n) = h ∧ (portOf u n).narrow = true ∧
          portState u n = if isSet s (Reg.CZL_PORT_PEER_VALID n) = true then 6 else 7)) ∧
      (betterHalf s n aligned = none → Answers (.linkDegradeDone n aligned) s fun u => portState u n = 0)) ∧
    (portState s n = 7 → (portOf s n).exch = true → (portOf s n).narrow = true →
      isSet s (Reg.CZL_PORT_PEER_VALID n) = true → Answers (.linkDegradeDone n aligned) s fun u => portState u n = 6)) ∧
  (∀ (s : State) (n node port width stepping : Nat), (Instr.trainExch n node port width stepping).wf = true →
    (portState s n = 4 ∨ portState s n = 7) →
    (node ≠ myNode s → Answers (.trainExch n node port width stepping) s fun u => isSet u (Reg.CZL_PORT_PEER_VALID n) = true ∧
      getF u (Reg.CZL_PORT_PEER_NODE n) = node ∧ getF u (Reg.CZL_PORT_PEER_PORT n) = port) ∧
    (node = myNode s → Answers (.trainExch n node port width stepping) s fun u =>
      isSet u Reg.CZL_STATUS_NODE_CONFLICT = true ∧ portState u n = 0)) ∧
  (∀ (s : State) (c : MbxCmd), Alone s c → c.opcode = 0x0C11 → c.started = false → leAt c.payload 0 1 < 12 →
    isSet s (Reg.CZL_PORT_CTL_DISABLE (leAt c.payload 0 1)) = false → portTraining s (leAt c.payload 0 1) = false →
    Answers .retrainPort s fun u => portState u (leAt c.payload 0 1) = 1 ∧ u.mbx = [{ c with started := true }])

/-- A data flit in sequence is counted and acknowledged, a bad one NAKed; a control flit frees the
replay buffer; a late message dies -/
def Obligations.FlitsAreSequencedAndAcknowledged : Prop :=
  (∀ (s : State) (n : Nat) (bs : List Byte), (Instr.dataFlitReceive n bs).wf = true → portUp s n = true →
    (∀ f, readFlit bs = some ((portOf s n).rxSeq, f) →
      Answers (.dataFlitReceive n bs) s fun u => (portOf u n).rxSeq = ((portOf s n).rxSeq + 1) % 65536 ∧
        (portOf u n).failed = (portOf s n).failed.filter (· != (portOf s n).rxSeq) ∧
        getF u (Reg.CZL_PORT_RX_FLITS n) = (getF s (Reg.CZL_PORT_RX_FLITS n) + 1) % 2 ^ 64 ∧
        .flit n (.control (((portOf u n).rxSeq + 65535) % 65536) none (portOf s n).freed) ∈ u.out) ∧
    (∀ k f, readFlit bs = some (k, f) → k ≠ (portOf s n).rxSeq → exec (.dataFlitReceive n bs) s = .next s) ∧
    (readFlit bs = none → leAt bs 2 2 ∉ (portOf s n).failed →
      Answers (.dataFlitReceive n bs) s fun u => (portOf u n).failed = (portOf s n).failed ++ [leAt bs 2 2] ∧
        (portOf u n).rxSeq = (portOf s n).rxSeq ∧
        u.out = s.out ++ [.flit n (.control (((portOf s n).rxSeq + 65535) % 65536) (some (leAt bs 2 2)) (portOf s n).freed)])) ∧
  (∀ (s : State) (n : Nat) (ack nak : Option Nat) (credits : List Nat),
    (Instr.controlFlitReceive n true ack nak credits).wf = true → portUp s n = true →
    (Answers (.controlFlitReceive n false ack nak credits) s fun u =>
      getF u (Reg.CZL_PORT_ERR_CTRL_ERR n) = min 255 (getF s (Reg.CZL_PORT_ERR_CTRL_ERR n) + 1) ∧ u.ports = s.ports) ∧
    (Answers (.controlFlitReceive n true ack nak credits) s fun u => (portOf u n).returned = (List.range 4).map (clsGet credits) ∧
      (∃ new, (portOf u n).replay =
        (match ack with | some a => afterAck (portOf s n).replay a | none => (portOf s n).replay) ++ new))) ∧
  (∀ (s : State) (src msg : Nat) (r : Reasm), (Instr.msgReassemblyTimeout src msg).wf = true →
    s.reasm.find? (fun r => r.src == src && r.msg == msg && !r.dead) = some r → r.since + 500000 ≤ s.lTime →
    Answers (.msgReassemblyTimeout src msg) s fun u => { r with dead := true } ∈ u.reasm ∧
      isSet u Reg.CZL_STATUS_DROPPED = true ∧
      getF u Reg.CZL_DROP2_MSG_TIMEOUT = min 65535 (getF s Reg.CZL_DROP2_MSG_TIMEOUT + 1))

/-- SET_ROUTES writes each route it names; DEFINE_GROUP makes the leader's group of the nodes it names -/
def Obligations.RoutesAndGroupsAreDefined : Prop :=
  ∀ (s : State) (c : MbxCmd), Alone s c →
    (c.opcode = 0x0C10 →
      let d := leAt c.payload 0 1
      let bs := (c.payload.drop 2).take (leAt c.payload 1 1)
      routesOk s d bs = true →
      Answers .setRoutes s fun u => Ended u 0 ∧ ∀ k b, bs[k]? = some b →
        getF u (Reg.CZL_ROUTE_PRIMARY (d + k)) = b.toNat % 16 ∧ getF u (Reg.CZL_ROUTE_ALTERNATE (d + k)) = b.toNat / 16) ∧
    (∀ n, c.opcode = 0x0C12 →
      let k := leAt c.payload 2 1
      let nodes := ((c.payload.drop 3).take (k - 1)).map (·.toNat)
      2 ≤ k → k ≤ 16 → nodes.any (fun d => decide (64 ≤ d) || (routeTo s d).isNone) = false →
      leaderPart s (leAt c.payload 0 2) = some n → group? s n = none →
      Answers .defineGroup s fun u => Ended u 0 ∧ getF u (Reg.CZL_GROUP_STATE n) = 1 ∧
        getF u (Reg.CZL_GROUP_GROUP_ID n) = myNode s * 32 + n ∧
        ∃ x, group? u n = some x ∧ x.peers.map (·.node) = nodes ∧ x.peers.all (fun q => !q.answered) = true)

/-- Formation: FORM joins a follower, the last FORM_ACK forms the group; heartbeats stamp the peer and are answered -/
def Obligations.GroupsFormAndBeat : Prop :=
  (∀ (s : State) (h : LinkHdr) (gid model idx n : Nat) (x : Slot), (Instr.mgmtForm h gid model idx).wf = true → serving s = true →
    followerPart s model idx = some n → slot? s n = some x → group? s n = none →
    Answers (.mgmtForm h gid model idx) s fun u => getF u (Reg.CZL_GROUP_STATE n) = 1 ∧ isSet u (Reg.CZL_GROUP_ROLE n) = true ∧
      ∃ g, group? u n = some g ∧ g.peers.map (·.node) = [h.src]) ∧
  (∀ (s : State) (h : LinkHdr) (gid : Nat) (info : FormInfo) (n : Nat) (x : Group), (Instr.mgmtFormAck h gid info).wf = true →
    serving s = true → ledBy s gid = some (n, x) →
    Answers (.mgmtFormAck h gid info) s fun u =>
      (∃ g, group? u n = some g ∧ ∀ q ∈ g.peers, q.node = h.src → q.answered = true ∧ q.info = info ∧ q.pages = info.free) ∧
      (getF s (Reg.CZL_GROUP_STATE n) = 1 → getF s (Reg.MDL_SLOT_STATE n) = 2 →
        x.peers.all (fun q => q.answered || q.node == h.src) = true →
        getF u (Reg.CZL_GROUP_STATE n) = 2 ∧ getF u (Reg.MDL_SLOT_STATE n) = 3)) ∧
  (∀ (s : State) (n : Nat) (x : Group) (y : Slot), (Instr.formResend n).wf = true → group? s n = some x → serving s = true →
    (slot? s n = some y → isSet s (Reg.CZL_GROUP_ROLE n) = false → getF s (Reg.CZL_GROUP_STATE n) = 1 →
      getF s (Reg.MDL_SLOT_STATE n) = 2 → x.formAt + 5000000 ≤ s.lTime →
      Answers (.formResend n) s fun u => ∃ g, group? u n = some g ∧ g.formAt = s.lTime ∧ g.peers = x.peers) ∧
    (groupLeads s n = true → x.beatAt + 50000 ≤ s.lTime →
      Answers (.heartbeatSend n) s fun u => ∃ g, group? u n = some g ∧ g.beatAt = s.lTime ∧ g.peers = x.peers)) ∧
  (∀ (s : State) (h : LinkHdr) (gid n : Nat) (x : Group), (Instr.mgmtHeartbeat h gid true).wf = true → serving s = true →
    (ledBy s gid = some (n, x) → Answers (.mgmtHeartbeat h gid true) s fun u =>
      ∃ g, group? u n = some g ∧ ∀ q ∈ g.peers, q.node = h.src → q.heard = s.lTime) ∧
    (followedBy s gid = some (n, x) → Answers (.mgmtHeartbeat h gid false) s fun u => groupFormed u n = true ∧
      ((routeTo s h.src).isSome = true → .link h.src (.heartbeat gid true) ∈ u.out) ∧
      ∃ g, group? u n = some g ∧ ∀ q ∈ g.peers, q.node = h.src → q.heard = s.lTime))

/-- A formed group ends when a peer is silent for 5 ms or leaves: its part is evicted and GROUP_LOST is set; a follower's part
goes with its leader's also before it knows of the formation, and a leader that still forms awaits the follower anew -/
def Obligations.GroupsAreLost : Prop :=
  (∀ (s : State) (n node : Nat) (x : Group), (Instr.peerLoss n node).wf = true → group? s n = some x → groupFormed s n = true →
    serving s = true → x.peers.any (fun q => q.node == node && decide (q.heard + 2500000 ≤ s.lTime)) = true →
    Answers (.peerLoss n node) s fun u => group? u n = none ∧ slot? u n = none ∧ getF u (Reg.CZL_GROUP_STATE n) = 3 ∧
      isSet u Reg.CZL_STATUS_GROUP_LOST = true ∧ (s.fltQueue.length < 16 → Recorded s u 0x17)) ∧
  (∀ (s : State) (h : LinkHdr) (gid n : Nat) (x : Group), (Instr.mgmtLeave h gid).wf = true → serving s = true →
    x.peers.any (fun q => q.node == h.src) = true →
    ((ledBy s gid = some (n, x) ∧ groupFormed s n = true) ∨ (ledBy s gid = none ∧ followedBy s gid = some (n, x)) →
      Answers (.mgmtLeave h gid) s fun u => group? u n = none ∧ slot? u n = none ∧ getF u (Reg.CZL_GROUP_STATE n) = 3 ∧
        isSet u Reg.CZL_STATUS_GROUP_LOST = true ∧ (s.fltQueue.length < 16 → Recorded s u 0x17)) ∧
    (groupFormed s n = false → ledBy s gid = some (n, x) →
      Answers (.mgmtLeave h gid) s fun u => slot? u n = slot? s n ∧ SameMem s u ∧
        ∃ g, group? u n = some g ∧ g.peers = x.peers.map fun q => if q.node = h.src then { q with answered := false } else q))

/-- A follower takes the plan or answers SHORT, frees the groves at COMMIT and ABANDON, releases ended sequences and keeps
sampler pages -/
def Obligations.FollowersRunTheLeadersSteps : Prop :=
  ∀ (s : State) (h : LinkHdr) (gid tag n : Nat) (x : Group), serving s = true → followedBy s gid = some (n, x) →
    (∀ seqs y, (Instr.plan h gid tag seqs).wf = true → slot? s n = some y → (lane s (slotPart s n)).cur = none →
      (lane s (slotPart s n)).acks = [] →
      let us := seqs.flatMap fun q => newUses (peerSeq q.idx) y.pkg.layers y.pkg.pLog2 (fseqOf x q.idx q.first).append q.n false
      (us.length ≤ freePages s (slotPart s n) →
        Answers (.plan h gid tag seqs) s fun u => Holds u (slotPart s n) fun st => st.follower = true ∧ st.tag = tag ∧
          st.group = some n ∧ st.fplan = seqs ∧ st.st = .issue) ∧
      (freePages s (slotPart s n) < us.length →
        Answers (.plan h gid tag seqs) s fun u => (lane u (slotPart s n)).cur = none ∧ SameMem s u ∧
          getF u (Reg.CZL_GROUP_SHORT_PLAN_SHORT n) = min 65535 (getF s (Reg.CZL_GROUP_SHORT_PLAN_SHORT n) + 1))) ∧
    (∀ seqs st y, (Instr.commit h gid tag seqs).wf = true → groupStep s n tag = some st → slot? s n = some y →
      (lane s (slotPart s n)).nextStep = none →
      Answers (.commit h gid tag seqs) s fun u => (lane u (slotPart s n)).cur = none) ∧
    ((Instr.abandon h gid tag).wf = true →
      Answers (.abandon h gid tag) s fun u => (lane u (slotPart s n)).acks = groveList s (slotPart s n) ∧
        (lane u (slotPart s n)).ackTo = some (n, tag) ∧
        (∀ st, groupStep s n tag = some st → (lane u (slotPart s n)).cur = none)) ∧
    (∀ idxs, (Instr.release h gid idxs).wf = true →
      Answers (.release h gid idxs) s fun u => (∃ g, group? u n = some g ∧ ∀ e ∈ g.seqs, e.1 ∉ idxs) ∧
        ∀ pg i, pg < 2 ^ 20 → i ∈ idxs → useReq (page u (slotPart s n) pg).use = some (peerSeq i) →
          isStaged (page u (slotPart s n) pg).use = true) ∧
    (∀ idx mask bias, (Instr.samppage h gid idx mask bias).wf = true → 1 ≤ freePages s (slotPart s n) →
      Answers (.samppage h gid idx mask bias) s fun u => ∃ g f, group? u n = some g ∧ (idx, f) ∈ g.seqs ∧ f.mask = mask ∧
        f.bias = bias)

/-- A leader strikes off each PLAN_ACK, each device whose CAND is whole, and each ABANDON_ACK; a stale CAND is counted; RELEASE_SEND empties
the list -/
def Obligations.LeadersGatherWhatFollowersSend : Prop :=
  ∀ (s : State) (h : LinkHdr) (gid tag n : Nat) (x : Group), serving s = true → ledBy s gid = some (n, x) →
    (∀ free st, (Instr.planAck h gid tag free false).wf = true → groupStep s n tag = some st →
      (Answers (.planAck h gid tag free false) s fun u => Holds u (slotPart s n) fun y => y.tag = tag ∧
        y.ackWait = st.ackWait.filter (· != h.src)) ∧
      (Answers (.planAck h gid tag free true) s fun u => (lane u (slotPart s n)).cur = some st)) ∧
    (∀ lists, (Instr.cand h gid tag lists).wf = true →
      (∀ st q, groupStep s n tag = some st → x.peers.find? (fun q => q.node == h.src) = some q → st.st = .execute →
        h.src ∈ st.candWait →
        Answers (.cand h gid tag lists) s fun u => Holds u (slotPart s n) fun y => y.tag = tag ∧
          y.candWait = if candWhole { st with cands := st.cands ++ candLists st q.info lists } q.info = true
            then st.candWait.filter (· != h.src) else st.candWait) ∧
      (groupStep s n tag = none →
        Answers (.cand h gid tag lists) s fun u => isSet u Reg.SMP_STATUS_LATE_CANDIDATE = true ∧ u.lanes = s.lanes)) ∧
    ((Instr.abandonAck h gid tag).wf = true → h.src ∈ (lane s (slotPart s n)).nodeAcks →
      Answers (.abandonAck h gid tag) s fun u =>
        (lane u (slotPart s n)).nodeAcks = (lane s (slotPart s n)).nodeAcks.filter (· != h.src)) ∧
    (groupLeads s n = true → x.ended ≠ [] →
      Answers (.releaseSend n) s fun u => ∃ g, group? u n = some g ∧ g.ended = [])

/-- Bulk messages: COLL and KVXFER bytes, KVXFER's only of staged positions, are written, or wait while the memory regulator
holds them; a stale one is discarded; MODELXFER writes a loading model's pages; a request has the package's messages offered -/
def Obligations.BulkTrafficIsTaken : Prop :=
  (∀ (s : State) (h : LinkHdr) (gid tag n a : Nat) (b : Byte) (x : Group), serving s = true →
    groupBy s gid = some (n, x) → group? s n = some x →
    let p := slotPart s n
    let taken (i : Instr) : Prop :=
      (∀ z, translate s p a = some z → (heldOf s p 0).waits = [] →
        (isSet s (Reg.PRT_REG_CTL_EN p 0) = false ∨ 0 < regLevel s p 0) →
        Answers i s fun u => loadByte u z = b ∧ ∀ z', z' ≠ z → loadByte u z' = loadByte s z') ∧
      ((heldOf s p 0).waits = [] → isSet s (Reg.PRT_REG_CTL_EN p 0) = true → regLevel s p 0 ≤ 0 → partValid s p = true →
        Answers i s fun u => (heldOf u p 0).waits = [(.store p [(a, b)], 1)] ∧ SameMem s u)
    let stale (i : Instr) : Prop := Answers i s fun u => SameMem s u ∧
      ∃ g, group? u n = some g ∧ ∀ q ∈ g.peers, q.node = h.src → q.heard = s.lTime
    ((Instr.coll h gid ⟨tag, [(a, b)]⟩).wf = true →
      (∀ st, groupStep s n tag = some st → taken (.coll h gid ⟨tag, [(a, b)]⟩)) ∧
      (groupStep s n tag = none → stale (.coll h gid ⟨tag, [(a, b)]⟩))) ∧
    ((Instr.kvxfer h gid tag [(a, b)]).wf = true →
      (∀ st y, groupStep s n tag = some st → slot? s n = some y →
        (stagedByte s p x st y.pkg a = true → taken (.kvxfer h gid tag [(a, b)])) ∧
        (stagedByte s p x st y.pkg a = false → stale (.kvxfer h gid tag [(a, b)]))) ∧
      (groupStep s n tag = none → stale (.kvxfer h gid tag [(a, b)])))) ∧
  (∀ (s : State) (h : LinkHdr) (n a z : Nat) (b : Byte) (y : Slot) (k : Nat), (Instr.modelxfer h n [(a, b)]).wf = true →
    slot? s n = some y → serving s = true → getF s (Reg.MDL_SLOT_STATE n) = 1 → y.fromPeer = some (h.src, k) →
    arenaBase s (slotPart s n) ≤ a → (page s (slotPart s n) ((a - arenaBase s (slotPart s n)) / 65536)).use = .model n →
    translate s (slotPart s n) a = some z →
    Answers (.modelxfer h n [(a, b)]) s fun u => loadByte u z = b ∧ ∀ z', z' ≠ z → loadByte u z' = loadByte s z') ∧
  (∀ (s : State) (h : LinkHdr) (handle n : Nat) (y : Slot), (Instr.mgmtPeerModelRequest h handle).wf = true → serving s = true →
    (List.range 32).find? (fun m => (slot? s m).isSome && getF s (Reg.MDL_SLOT_HANDLE m) == handle &&
      getF s (Reg.MDL_SLOT_STATE m) == 3) = some n → slot? s n = some y →
    let p := slotPart s n
    let k := ceilDiv (pkgBytes y.pkg) (4 * 2 ^ 20)
    Answers (.mgmtPeerModelRequest h handle) s fun u => u.msgNo = (s.msgNo + k) % 65536 ∧
      (∃ y', slot? u n = some y' ∧ y'.pkg = y.pkg ∧ y'.peerReads.length = k) ∧
      ((heldOf s p 2).waits = [] → isSet s (Reg.PRT_REG_CTL_EN p 2) = true → regLevel s p 2 ≤ 0 → partValid s p = true →
        (heldOf u p 2).waits.map (·.1) = (List.range k).map fun i => .msg n h.src ((s.msgNo + i) % 65536)
          (.modelXfer handle (4 * 2 ^ 20 * i) (min (4 * 2 ^ 20) (pkgBytes y.pkg - 4 * 2 ^ 20 * i)))))

/-- A period sets ceiling and floor from the target of the last; a raised rail ends in its step; an emergency begins and ends -/
def Obligations.PowerPeriodsAndStepsRun : Prop :=
  (∀ (s : State) (meas : Option Nat) (sensors : List (Nat × Int)), (Instr.planisherPeriod meas sensors).wf = true →
    s.power.period < s.qTime / 50000 →
    Answers (.planisherPeriod meas sensors) s fun u => u.power.period = s.qTime / 50000 ∧
      (stage s = 6 → s.power.kNow < 2 ^ 32 → (∀ p, p < 16 → (lane s p).powerWait = none) →
        SameMem s u ∧ getF u Reg.PWR_FLOOR_MW ≤ getF u Reg.PWR_CEILING_MW ∧
        (inDomain s = false → getF s Reg.PWR_PRED_MW + getF s Reg.PWR_BALLAST_MW_MW < 2 ^ 32 →
          getF u Reg.PWR_TARGET_MW = getF s Reg.PWR_PRED_MW + getF s Reg.PWR_BALLAST_MW_MW ∧
          getF u Reg.PWR_CEILING_MW ≤ getF u Reg.PWR_TARGET_MW + upLocal s))) ∧
  (∀ (s : State) (t k : Nat), s.power.rising = some (t, k) → k ≤ 10 → t + 20000 ≤ s.qTime → cclkOn s = true →
    (s.power.fallTo = none → Answers .cclkSwitch s fun u => getF u Reg.PWR_STATE_STEP = k ∧
      getF u Reg.HST_CLK_FREQ_CCLK_MHZ = 800 + 100 * k ∧ u.power.rising = none) ∧
    (∀ d, s.power.fallTo = some d → d < k → Answers .cclkSwitch s fun u => getF u Reg.PWR_STATE_STEP = d ∧
      u.power.rising = none ∧ getF u Reg.HST_STRAPS_VID = stepVid d)) ∧
  (∀ (s : State) (alert : Bool), cclkOn s = true → isSet s Reg.PWR_STATE_EMERGENCY = false →
    (8 * (getF s Reg.PWR_THERM1_T_LIMIT : Int) ≤ tDie s ∨ (alert = true ∧ pinsHeld s = false) ∨ sensorsBad s = true) →
    Answers (.thermalEmergencyBegin alert) s fun u => isSet u Reg.PWR_STATE_EMERGENCY = true ∧
      isSet u Reg.PWR_STATUS_THERM_EMERG = true ∧
      (s.power.rising = none → getF u Reg.PWR_STATE_STEP = 0) ∧
      (∀ t k, s.power.rising = some (t, k) → 0 < k → u.power.fallTo = some 0)) ∧
  (∀ (s : State) (t : Nat), isSet s Reg.PWR_STATE_EMERGENCY = true → pinsHeld s = false → sensorsBad s = false →
    s.power.calmAt = some t → t + 50000000 ≤ s.qTime →
    Answers .thermalEmergencyEnd s fun u => isSet u Reg.PWR_STATE_EMERGENCY = false)

/-- Battery mode begins and ends; a poll shows each shelf device or makes it unreachable; retries; the hand-over hold ends -/
def Obligations.PowerSourcesAreWatched : Prop :=
  (∀ s : State, stage s = 6 → isSet s Reg.PWR_STATE_BATTERY = false → pinsHeld s = false →
    Answers (.batteryModeBegin true) s fun u => isSet u Reg.PWR_STATE_BATTERY = true ∧ isSet u Reg.PWR_STATUS_ON_BATTERY = true) ∧
  (∀ s : State, isSet s Reg.PWR_STATE_BATTERY = true → pinsHeld s = false → shelfBatt s = false →
    s.power.battAt + 500000000 ≤ s.aTime →
    Answers .batteryModeEnd s fun u => isSet u Reg.PWR_STATE_BATTERY = false) ∧
  (∀ (s : State) (reads : List (Nat × ShelfRead)), (Instr.pmbusPoll reads).wf = true → s.power.polledAt + 5000000 ≤ s.aTime →
    Answers (.pmbusPoll reads) s fun u => u.power.polledAt = s.aTime ∧
      ∀ d, d < 8 → isSet s (Reg.PWR_SHELF_VALID d) = true → isSet s (Reg.PWR_SHELF_REACHABLE d) = true →
        (reads.find? (fun e => e.1 == d) = none → isSet u (Reg.PWR_SHELF_REACHABLE d) = false ∧
          isSet u Reg.PWR_STATUS_SHELF_UNREACH = true) ∧
        ∀ x, reads.find? (fun e => e.1 == d) = some (d, x) →
          (x.failed = none → isSet u (Reg.PWR_SHELF_REACHABLE d) = true ∧
            getF u (Reg.PWR_SHELF_STATUS_WORD d) = x.status % 65536) ∧
          (∀ k, x.failed = some k → k < (if s.power.contacted.contains d = true then 0 else 1) +
              (pollCommands s ((s.power.polls + 1) % 10 == 1)).length →
            isSet u (Reg.PWR_SHELF_REACHABLE d) = false ∧ isSet u Reg.PWR_STATUS_SHELF_UNREACH = true)) ∧
  (∀ (s : State) (d : Nat), (Instr.shelfRetry d none).wf = true → isSet s (Reg.PWR_SHELF_VALID d) = true →
    isSet s (Reg.PWR_SHELF_REACHABLE d) = false → spGet (fun _ => 0) s.power.tried d + 500000000 ≤ s.aTime →
    (s.fltQueue.length < 16 → Answers (.shelfRetry d none) s fun u => Recorded s u 0x18 ∧
      isSet u (Reg.PWR_SHELF_REACHABLE d) = false) ∧
    ∀ w again, (Instr.shelfRetry d (some (w, again))).wf = true → Answers (.shelfRetry d (some (w, again))) s fun u =>
      isSet u (Reg.PWR_SHELF_REACHABLE d) = true ∧ getF u (Reg.PWR_SHELF_STATUS_WORD d) = w % 65536 ∧
      (again = true → s.fltQueue.length < 16 → Recorded s u 0x18)) ∧
  (∀ (s : State) (p : Nat), (Instr.handoverHoldExpiry p).wf = true → (lane s p).cur = none → (lane s p).power ≠ 0 →
    (lane s p).leftAt + 10000 ≤ s.qTime →
    Answers (.handoverHoldExpiry p) s fun u => (lane u p).power = 0 ∧ getF u (Reg.PWR_PART_MW_MW p) = 0)

/-- RAMP messages are kept and sent once; STAMP makes LINK records and is sent on time; a refill raises LEVEL to at most BURST -/
def Obligations.RampStampAndRefill : Prop :=
  (∀ (s : State) (src : Nat) (r : RampMsg), (Instr.ramp src r).wf = true →
    (stage s = 6 → inDomain s = true → r.dom = getF s Reg.PWR_DOM_DOM_ID → src ≠ myNode s → src ∈ members s →
      Answers (.ramp src r) s fun u => rampPeer u src =
        { rampPeer s src with power := r.power, next := r.next, raise := r.raise, fresh := true }) ∧
    (stage s = 7 → Answers (.ramp src r) s fun u => isSet u Reg.CZL_STATUS_DROPPED = true ∧ u.power = s.power)) ∧
  (∀ (s : State) (x : RampPeer), stage s = 6 → inDomain s = true → s.power.sent = some x → x.fresh = true →
    Answers .rampSend s fun u => u.power.sent = some { x with fresh := false } ∧ SameMem s u) ∧
  (∀ (s : State) (h : LinkHdr) (time : Nat), (Instr.stamp h time).wf = true →
    (stage s = 7 → Answers (.stamp h time) s fun u => isSet u Reg.CZL_STATUS_DROPPED = true ∧ u.trace = s.trace) ∧
    (stage s ≠ 7 → Answers (.stamp h time) s fun u => ∀ p, p < 16 → traceOn s p 4 = true → fifoUnits (traceOf s p) < 512 → (traceOf s p).lost = 0 →
      ∃ b, (traceOf u p).fifo = (traceOf s p).fifo ++ [b] ∧ b.length = 32 ∧ leAt b 8 8 = s.lTime % 2 ^ 64 ∧
        leAt b 24 8 = time % 2 ^ 64)) ∧
  (∀ s : State, getF s Reg.CZL_NODE_STAMP_MS ≠ 0 → s.stampAt + 500000 * getF s Reg.CZL_NODE_STAMP_MS ≤ s.lTime → stage s ≠ 7 →
    Answers .stampSend s fun u => u.stampAt = s.lTime ∧ SameMem s u) ∧
  (∀ s : State, stage s = 6 → s.regRefills < s.qTime / 500 →
    Answers .regulatorRefill s fun u => u.regRefills = s.regRefills + 1 ∧ ∀ p k, p < 16 → k < 4 → partValid s p = true →
      (heldOf s p k).waits = [] → regBurst s p k < 2 ^ 31 →
      regLevel u p k = min (regLevel s p k + regRate s p k) (regBurst s p k))

/-- A register write takes each field by its access type; bad sizes, unmapped offsets, reserved bits and values set their flags -/
def Obligations.RegisterWritesFollowTheirCards : Prop :=
  (∀ (s : State) (who : Requester) (bar : Bar) (o len : Nat) (v : W64) (hw : Nat), (Instr.registerWrite who bar o len v hw).wf = true →
    barOpen s who bar = true → (len ≠ 4 ∧ len ≠ 8 ∨ o % len ≠ 0) →
    exec (.registerWrite who bar o len v hw) s = .next (raise s Reg.HST_ERR_STATUS_BAD_SIZE)) ∧
  (∀ (s : State) (who : Requester) (o : Nat) (v : W64) (hw : Nat), (Instr.registerWrite who .pfBar0 o 4 v hw).wf = true →
    barOpen s who .pfBar0 = true → o % 4 = 0 → (o < 0xD80000 ∨ 0xE00000 ≤ o) → regAt o = none →
    exec (.registerWrite who .pfBar0 o 4 v hw) s = .next (raise s Reg.HST_ERR_STATUS_UNMAPPED)) ∧
  (∀ (s : State) (who : Requester) (key : Nat) (c : Card) (v : W64), (Instr.registerWrite who .pfBar0 key 4 v 0).wf = true →
    barOpen s who .pfBar0 = true → Reaches s key → cardAt key = some c → c.wide = false → key / 0x100000 ∈ [2, 3, 7, 8, 9] →
    (0x902000 ≤ key → key < 0x902400 → ∀ k, k < 4 → (heldOf s ((key - 0x902000) / 0x40) k).waits = []) →
    let refused (f : CardField) : Bool := f.acc == .rw && !(decide (f.vmin ≤ fieldOf v f.lo f.w) && decide (fieldOf v f.lo f.w ≤ f.vmax))
    Answers (.registerWrite who .pfBar0 key 4 v 0) s fun u =>
      (∀ f ∈ c.fields, fieldOf (rd u key) f.lo f.w =
        if f.acc = .rw ∧ refused f = false then fieldOf v f.lo f.w
        else if f.acc = .w1c then fieldOf (rd s key &&& ~~~v) f.lo f.w
        else fieldOf (rd s key) f.lo f.w) ∧
      (c.fields.any refused = true → isSet u Reg.HST_ERR_STATUS_BAD_VALUE = true) ∧
      (v &&& 0xFFFFFFFF#64 &&& ~~~(namedBits c) ≠ 0#64 → isSet u Reg.HST_ERR_STATUS_RSV_NONZERO = true) ∧
      SameRegs s u (fun k => k == key || k == Reg.HST_ERR_STATUS) ∧ SameMem s u ∧ SameClocks s u) ∧
  (∀ (s : State) (h : Nat) (v : W32), (Instr.dbRouteWrite h v).wf = true → Reaches s (Reg.HST_DB_ROUTE h) →
    let busy (b : Nat) : Bool := (List.range 4).any fun r => isSet s (Reg.RQI_SQ_CFG_ENABLE (32 * h + b) r) ||
      isSet s (Reg.RQI_CQ_CFG_ENABLE (32 * h + b) r)
    Answers (.dbRouteWrite h v) s fun u =>
      (∀ b, b < 32 → routePf u (32 * h + b) = if busy b then routePf s (32 * h + b) else v.getLsbD b) ∧
      ∀ b, b < 32 → busy b = true → routePf s (32 * h + b) ≠ v.getLsbD b →
        isSet u Reg.HST_PCIE_STATUS_ROUTE_LOCKED = true) ∧
  (∀ (s : State) (v : W32), (Instr.dbgwinCtlWrite v).wf = true → Reaches s Reg.HST_DBGWIN_CTL →
    Answers (.dbgwinCtlWrite v) s fun u => getF u Reg.HST_DBGWIN_CTL_BASE = v.toNat / 16 % 16 ∧
      (ownerLocked s = true ∧ v.getLsbD 0 = true → getF u Reg.HST_DBGWIN_CTL_ENABLE = getF s Reg.HST_DBGWIN_CTL_ENABLE ∧
        isSet u Reg.HST_ERR_STATUS_DBGWIN_REFUSED = true) ∧
      (ownerLocked s = false ∨ v.getLsbD 0 = false → getF u Reg.HST_DBGWIN_CTL_ENABLE = v.toNat % 2))

/-- A W1C flag that hardware sets in the cycle of the write that clears it reads 1 after the write -/
def Obligations.AFlagSetDuringItsClearStaysSet : Prop :=
  ∀ (s : State) (who : Requester) (bar : Bar) (o key : Nat) (c : Card) (f : CardField) (i : Nat) (v : W64) (hw : Nat),
    (Instr.registerWrite who bar o 4 v hw).wf = true → barOpen s who bar = true → Reaches s key → cardAt key = some c →
    (bar = .pfBar0 ∧ o = key ∨ ∃ t, bar = .vfBar0 t ∧ o < 0x1000 ∧ key = 0x400000 + 0x1000 * t + o) →
    f ∈ c.fields → f.acc = .w1c → f.lo ≤ i → i < f.lo + f.w → v.getLsbD i = true → hw.testBit i = true →
    Answers (.registerWrite who bar o 4 v hw) s fun u => (rd u key).getLsbD i = true

/-- A write to a status register or its enable that leaves STATUS AND INT_EN nonzero sends the message again -/
def Obligations.WritesToStatusSendTheMessageAgain : Prop :=
  ∀ (s : State) (who : Requester) (bar : Bar) (o key st n k : Nat) (v : W64) (hw : Nat),
    (Instr.registerWrite who bar o 4 v hw).wf = true → barOpen s who bar = true → Reaches s key →
    (bar = .pfBar0 ∧ o = key ∨ ∃ t, bar = .vfBar0 t ∧ o < 0x1000 ∧ key = 0x400000 + 0x1000 * t + o) →
    statusVec s st = some (n, k) → (key = st ∨ key = st + 4) → (cardAt key).isSome = true →
    Answers (.registerWrite who bar o 4 v hw) s fun u => irqLevel u st ≠ 0 →
      let held := (vec u n k).masked || (fn u n).fnMask || !(fn u n).msixEn || !canDma u n
      (held = true → (vec u n k).pend = true) ∧ (held = false → u.out.getLast? = some (.msix n k))

/-- HST_DEVTIME: 8 bytes from one value; the lower half latches the upper for its requester, whose next read takes it once -/
def Obligations.DeviceTimeReadsAreWhole : Prop :=
  ∀ (s : State) (who : Requester) (bar : Bar), (Instr.devtimeRead who bar 4 false).wf = true → barOpen s who bar = true →
    bar ≠ .pfBar2 → clockUp s 1 = true →
    let latch (u : State) (w : Requester) : Option Nat := (u.devLatch.find? fun e => e.1 == w).map (·.2)
    Answers (.devtimeRead who bar 8 false) s (fun u => u.out = s.out ++ [.readData who (s.fTime % 2 ^ 64)] ∧ ∀ w, latch u w = latch s w) ∧
    Answers (.devtimeRead who bar 4 false) s (fun u => u.out = s.out ++ [.readData who (s.fTime % 2 ^ 32)] ∧
      latch u who = some (s.fTime % 2 ^ 64 / 2 ^ 32) ∧ ∀ w, w ≠ who → latch u w = latch s w) ∧
    (∀ x, latch s who = some x → x < 2 ^ 32 → Answers (.devtimeRead who bar 4 true) s fun u => u.out = s.out ++ [.readData who x] ∧
      latch u who = none ∧ ∀ w, w ≠ who → latch u w = latch s w) ∧
    (latch s who = none → Answers (.devtimeRead who bar 4 true) s fun u =>
      u.out = s.out ++ [.readData who (s.fTime % 2 ^ 64 / 2 ^ 32)] ∧ ∀ w, latch u w = latch s w)

/-- A register read returns the register and clears its RC fields; other reads are aborted; the debug window reads words without
an error in them, and writes DRAM; shut, it does neither -/
def Obligations.ReadsReturnAndClear : Prop :=
  (∀ (s : State) (who : Requester) (bar : Bar) (o len : Nat), (Instr.malformedRead who bar o len).wf = true → barOpen s who bar = true →
    Answers (.malformedRead who bar o len) s fun u => u.out = s.out ++ [.completerAbort who] ∧ u.regs = s.regs ∧ SameMem s u ∧
      u.devLatch = s.devLatch ∧ u.fltLatch = s.fltLatch) ∧
  (∀ (s : State) (who : Requester) (key : Nat), (Instr.registerRead who .pfBar0 key 4).wf = true → barOpen s who .pfBar0 = true →
    (∀ c, cardAt key = some c → c.wide = false → key < 0xD80000 ∨ 0xE00000 ≤ key →
      (key < 0xE00080 ∨ 0xE00090 ≤ key) →
      (Reaches s key → Answers (.registerRead who .pfBar0 key 4) s fun u =>
        u.out = s.out ++ [.readData who (fieldOf (viewReg s key) 0 32)] ∧ SameRegs s u (fun k => k == key) ∧
        ∀ f ∈ c.fields, fieldOf (rd u key) f.lo f.w = if f.acc = .rc then 0 else fieldOf (rd s key) f.lo f.w) ∧
      (domainUp s key = false → Answers (.registerRead who .pfBar0 key 4) s fun u =>
        u.out.getLast? = some (.readData who 0xFFFFFFFF) ∧ isSet u Reg.HST_CLK_STATUS_REG_DOMAIN_DOWN = true)) ∧
    (regAt key = none → key < 0xD80000 ∨ 0xE00000 ≤ key →
      Answers (.registerRead who .pfBar0 key 4) s fun u => u.out = s.out ++ [.readData who 0] ∧ u.regs = s.regs)) ∧
  (∀ (s : State) (who : Requester) (k : Nat), (Instr.fltLastRead who k 4).wf = true → barOpen s who .pfBar0 = true →
    Reaches s (0xE00080 + 4 * k) →
    (k = 0 ∨ s.fltLatch.find? (fun e => e.1 == who) = none → Answers (.fltLastRead who k 4) s fun u =>
      u.out = s.out ++ [.readData who (getF s (Reg.FLT_LAST_RECORD k))] ∧ u.regs = s.regs) ∧
    (∀ l x, k ≠ 0 → s.fltLatch.find? (fun e => e.1 == who) = some (who, l) → l.find? (fun y => y.1 % 4 == k) = some (k, x) →
      x < 2 ^ 32 → Answers (.fltLastRead who k 4) s fun u => u.out = s.out ++ [.readData who x] ∧ u.regs = s.regs)) ∧
  (∀ (s : State) (o len : Nat) (bs : List Byte), (fn s 0).mse = true → (fn s 0).d3 = false →
    (windowShut s = false → clockUp s 2 = true →
      ((Instr.debugWindowAccess o len none).wf = true → len ≤ 512 →
        (∀ i, i < len → eccAt s ((2 ^ 32 * getF s Reg.HST_DBGWIN_CTL_BASE + o + i) / 32) = 0) →
        Answers (.debugWindowAccess o len none) s fun u => u.out = s.out ++ [.readData .pf0 (leNat ((List.range len).map fun i => loadByte s (2 ^ 32 * getF s Reg.HST_DBGWIN_CTL_BASE + o + i)))] ∧
        u.dram = s.dram) ∧
      ((Instr.debugWindowAccess o len (some bs)).wf = true → (bs.length = 4 ∨ bs.length = 8) → o % bs.length = 0 →
        Answers (.debugWindowAccess o len (some bs)) s fun u => ∀ a, loadByte u a =
          let base := 2 ^ 32 * getF s Reg.HST_DBGWIN_CTL_BASE + o
          if base ≤ a ∧ a < base + bs.length then bs.getD (a - base) 0#8 else loadByte s a)) ∧
    (windowShut s = true →
      ((Instr.debugWindowAccess o len none).wf = true → len ≤ 512 → Answers (.debugWindowAccess o len none) s fun u =>
        u.out.getLast? = some (.readData .pf0 (256 ^ len - 1)) ∧ isSet u Reg.HST_ERR_STATUS_DBGWIN_REFUSED = true) ∧
      ((Instr.debugWindowAccess o len (some bs)).wf = true → (bs.length = 4 ∨ bs.length = 8) → o % bs.length = 0 →
        Answers (.debugWindowAccess o len (some bs)) s fun u => u.dram = s.dram ∧
          isSet u Reg.HST_ERR_STATUS_DBGWIN_REFUSED = true)))

/-- FLRs, VF Enable, function enables, the link and PCIe errors change functions, tenants and flags as the spec says -/
def Obligations.FunctionsAndLinkFollowTheHost : Prop :=
  ∀ s : State, pcieUp s = true →
    (∀ t, (Instr.vfFlr t).wf = true → vfExists s t = true → Answers (.vfFlr t) s fun u => fn u (t + 1) = Fn.idle ∧
      (∀ v, v < 256 → vec u (t + 1) v = Vec.idle) ∧ ∀ r, r < 4 → isSet u (Reg.RQI_SQ_CFG_ENABLE t r) = false ∧
        isSet u (Reg.RQI_CQ_CFG_ENABLE t r) = false) ∧
    (Answers .pf0Flr s fun u => fn u 0 = Fn.idle ∧ numVfs u = 0 ∧ isSet u Reg.HST_DBGWIN_CTL_ENABLE = false ∧
      u.spdm = Spdm.idle ∧ ∀ c, s.mbx = [c] → c.smbus = false → Ended u 0x0703) ∧
    (∀ n, (Instr.vfEnableSet n).wf = true → (fn s 0).vfEn = false → n ≤ 64 → Answers (.vfEnableSet n) s fun u =>
      numVfs u = n ∧ (fn u 0).vfEn = true) ∧
    (Answers .vfEnableClear s fun u => numVfs u = 0 ∧ (fn u 0).vfEn = false ∧ (∀ n, n ≠ 0 → fn u n = Fn.idle) ∧
      ∀ t r, t < numVfs s → r < 4 → isSet u (Reg.RQI_SQ_CFG_ENABLE t r) = false) ∧
    (∀ n cmd ctl, (Instr.busMasterEnable n cmd ctl).wf = true → fnExists s n = true →
      Answers (.busMasterEnable n cmd ctl) s fun u =>
        fn u n = { fn s n with bme := cmd.bme, mse := cmd.mse, tag10 := ctl.tag10, mrrs := ctl.mrrs }) ∧
    (∀ n d, (Instr.d3hotEntry n d).wf = true → fnExists s n = true →
      Answers (.d3hotEntry n d) s fun u => fn u n = { fn s n with d3 := d }) ∧
    (∀ speed width flit, (Instr.linkSpeedChange speed width flit).wf = true → Answers (.linkSpeedChange speed width flit) s fun u =>
      getF u Reg.HST_PCIE_LINK_SPEED = speed ∧ getF u Reg.HST_PCIE_LINK_WIDTH = width ∧
      isSet u Reg.HST_PCIE_LINK_FLIT = flit ∧ (speed < 4 ∨ width < 4 → isSet u Reg.HST_PCIE_STATUS_LINK_BELOW_MIN = true) ∧
      (getF s Reg.HST_PCIE_LINK_SPEED ≠ 0 → getF s Reg.HST_PCIE_LINK_SPEED ≠ speed → isSet u Reg.HST_PCIE_STATUS_SPEED_CHANGE = true)) ∧
    (getF s Reg.HST_PCIE_LINK_SPEED ≠ 0 → Answers .pcieLinkDown s fun u => chipFaulted u = true ∧
      (s.fltQueue.length < 16 → Recorded s u 0x1B)) ∧
    (Answers .pcieFatalError s fun u => chipFaulted u = true ∧ PcieErr.fatal ∈ (fn u 0).errs ∧
      (s.fltQueue.length < 16 → Recorded s u 0x1B)) ∧
    (∀ what kind addr, (Instr.dmaReadFailed what kind addr).wf = true → serving s = true → canDma s (dmaFn s what) = true →
      dmaLive s what = true → Answers (.dmaReadFailed what kind addr) s fun u => isSet u Reg.HST_PCIE_STATUS_DMA_READ_ERR = true ∧
        getF u Reg.HST_DMA_LAST_ERR_KIND = dmaKindCode kind ∧ getF u Reg.HST_DMA_LAST_ERR_STRUCT = dmaStruct what ∧
        getF u Reg.HST_DMA_LAST_ERR_FUNCTION = dmaFn s what % 128 ∧ getF u Reg.HST_DMA_LAST_ADDR_ADDR = addr ∧
        dmaErr kind ∈ (fn u (dmaFn s what)).errs ∧
        ∀ t r, what = .ring t r → (sq u t r).stopped = true ∧ isSet u (Reg.RQI_SQ_STATUS_READ_FAILED t r) = true) ∧
    (∀ n, (Instr.unexpectedCompletion n).wf = true → fnExists s n = true → Answers (.unexpectedCompletion n) s fun u =>
      PcieErr.unexpectedCompletion ∈ (fn u n).errs ∧ isSet u Reg.HST_PCIE_STATUS_UNEXPECTED_CPL = true)

/-- DOE: requests wait for READY; discovery and SPDM 1.2 requests are answered in the protocol's order; others get an error -/
def Obligations.AttestationAnswersInOrder : Prop :=
  ∀ (s : State) (q : List Byte), s.boot.perst = false →
    (mbxReady s = false → Answers (.getVersion q) s (fun u => u = { s with spdm := { s.spdm with waiting := s.spdm.waiting ++ [(0x84, q)] } }) ∧
      Answers (.getMeasurements q) s (fun u => u = { s with spdm := { s.spdm with waiting := s.spdm.waiting ++ [(0xE0, q)] } })) ∧
    (Answers .doeAbort s fun u => u.spdm.waiting = [] ∧ u.out = s.out ∧ u.spdm.stage = s.spdm.stage) ∧
    (mbxReady s = true →
      let one (u : State) (kind code : Nat) : Prop := ∃ r, u.out = s.out ++ [.doe (doeObject kind r)] ∧ leAt r 1 1 = code
      let late (u : State) : Prop := one u 1 0x7F ∧ u.spdm = s.spdm ∧ u.regs = s.regs
      Answers (.doeDiscovery q) s (fun u => u.out = s.out ++ [.doe (doeObject 0 (discovery q))] ∧ u.spdm = s.spdm) ∧
      Answers (.getVersion q) s (fun u => one u 1 0x04 ∧ u.spdm.stage = 1 ∧ u.spdm.meas = []) ∧
      (s.spdm.stage = 1 → Answers (.getCapabilities q) s fun u => one u 1 0x61 ∧ u.spdm.stage = 2) ∧
      (s.spdm.stage ≠ 1 → Answers (.getCapabilities q) s late) ∧
      (s.spdm.stage = 2 → (leAt q 8 4).testBit 7 = true → (leAt q 12 4).testBit 1 = true →
        Answers (.negotiateAlgorithms q) s fun u => one u 1 0x63 ∧ u.spdm.stage = 3) ∧
      (s.spdm.stage ≠ 2 → Answers (.negotiateAlgorithms q) s late) ∧
      (s.spdm.stage = 3 → Answers (.getDigests q) s (fun u => one u 1 0x01 ∧ u.spdm.stage = 3) ∧
        (leAt q 2 1 % 16 = 0 → Answers (.getCertificate q) s fun u => u.spdm.stage = 3 ∧
          one u 1 (if leAt q 4 2 < Config.certChain.length then 0x02 else 0x7F)) ∧
        (leAt q 2 1 = 0 → Answers (.challenge q) s fun u => one u 1 0x03 ∧ u.spdm.meas = [] ∧ u.spdm.certs = []) ∧
        (leAt q 3 1 ≤ 7 ∨ leAt q 3 1 = 0xFF → Answers (.getMeasurements q) s fun u => one u 1 0x60 ∧
          ((leAt q 2 1).testBit 0 = true → u.spdm.meas = []))) ∧
      (s.spdm.stage ≠ 3 → Answers (.getDigests q) s late ∧ Answers (.getCertificate q) s late ∧ Answers (.challenge q) s late ∧
        Answers (.getMeasurements q) s late) ∧
      Answers (.spdmUnsupportedRequest q) s (fun u => u.spdm = s.spdm ∧
        u.out = s.out ++ [.doe (doeObject 1 [0x12#8, 0x7F#8, 7#8, BitVec.ofNat 8 (leAt q 1 1)])]))

/-- JTAG: IDCODE and BYPASS shift out their registers, EXTEST, CLAMP and HIGHZ hold the pins, debug access reaches BAR0 -/
def Obligations.JtagInstructionsAct : Prop :=
  ∀ s : State,
    let still (u : State) : Prop := u.regs = s.regs ∧ u.dram = s.dram ∧ SameClocks s u
    let back : List Tx := [.pin .faultN (!faultnOn s), .pin .thermtripN (!isSet s Reg.HST_STATUS_THERMTRIP), .vid (getF s Reg.HST_STRAPS_VID),
      .pin .spiRstN s.boot.spiAt.isSome, .pin .spiCsN true]
    let pre : List Tx := if pinsHeld s then back else []
    Answers .idcode s (fun u => u.tap = { s.tap with instr := .idcode } ∧ u.out = s.out ++ pre ++ [.jtag 0x2128096B] ∧ still u) ∧
    Answers .bypass s (fun u => u.tap = { s.tap with instr := .bypass } ∧ u.out = s.out ++ pre ++ [.jtag 0] ∧ still u) ∧
    (∀ pins load, Answers (.samplePreload pins load) s fun u => u.tap = ⟨.sample, load⟩ ∧ u.out = s.out ++ pre ++ [.jtag pins] ∧ still u) ∧
    Answers (.extest none) s (fun u => pinsHeld u = true ∧ u.out = s.out ++ [.boundary (some s.tap.boundary)] ∧ still u) ∧
    (∀ pins load, Answers (.extest (some (pins, load))) s fun u => pinsHeld u = true ∧ u.tap.boundary = load ∧
      u.out = s.out ++ [.jtag pins, .boundary (some load)] ∧ still u) ∧
    Answers .clamp s (fun u => pinsHeld u = true ∧ u.out = s.out ++ [.boundary (some s.tap.boundary)] ∧ still u) ∧
    Answers .highz s (fun u => pinsHeld u = true ∧ u.out = s.out ++ [.boundary none] ∧ still u) ∧
    Answers .testLogicReset s (fun u => u.tap = { s.tap with instr := .idcode } ∧ u.out = s.out ++ pre ∧ still u) ∧
    (∀ o data, (Instr.jtagDebugAccess o 4 data).wf = true → debugOpen s = false →
      Answers (.jtagDebugAccess o 4 data) s fun u => u = s) ∧
    (∀ v : W64, debugOpen s = true → Reaches s Reg.HST_SCRATCH →
      Answers (.jtagDebugAccess Reg.HST_SCRATCH 4 (some (v, 0))) s fun u => getF u Reg.HST_SCRATCH_VALUE = v.toNat % 2 ^ 32 ∧
        SameRegs s u fun k => k == Reg.HST_SCRATCH) ∧
    (debugOpen s = true → Reaches s Reg.HST_SCRATCH →
      Answers (.jtagDebugAccess Reg.HST_SCRATCH 4 none) s fun u =>
        u.out.getLast? = some (.readData .jtag (getF s Reg.HST_SCRATCH_VALUE)) ∧ u.regs = s.regs)

/-- Profile selection, staging in HOLD, and the flash opcodes do what the configuration opcodes say -/
def Obligations.ConfigurationAndFlashCommands : Prop :=
  ∀ (s : State) (c : MbxCmd), Alone s c →
    let b := c.payload
    (c.opcode = 0x0801 → (leAt b 0 1 ≤ 3 ∨ leAt b 0 1 = 0xFF) →
      ((leAt b 1 1).testBit 0 = false → Answers .selectProfile s fun u => Ended u 0 ∧
        getF u Reg.CFG_STATUS_PENDING_VALID = (if leAt b 0 1 = 0xFF then 0 else 1) ∧
        (leAt b 0 1 ≤ 3 → getF u Reg.CFG_STATUS_PENDING = leAt b 0 1)) ∧
      ((leAt b 1 1).testBit 0 = true → nvmWorn s = false → leAt b 0 1 ≤ 3 → Answers .selectProfile s fun u => Ended u 0 ∧
        ∃ r ∈ u.set.host, r.tag = 2 ∧ r.data = leBytes 4 (leAt b 0 1))) ∧
    (c.opcode = 0x0802 → stage s = 7 →
      (leAt b 0 1 = 0 → 256 ≤ leAt b 4 4 → leAt b 4 4 ≤ 2 * 2 ^ 20 → s.img.staging = none →
        Answers .loadVolatileBegin s fun u => Ended u 0 ∧ u.img.staging = some ⟨false, leAt b 4 4, []⟩) ∧
      (∀ x, s.img.staging = some x → x.smbus = false →
        (leAt b 0 1 = 1 → leAt b 4 4 = x.bytes.length → x.bytes.length + (b.drop 8).length ≤ x.total →
          Answers .loadVolatileChunk s fun u => Ended u 0 ∧ u.img.staging = some { x with bytes := x.bytes ++ b.drop 8 }) ∧
        (leAt b 0 1 = 3 → Answers .loadVolatileCancel s fun u => Ended u 0 ∧ u.img.staging = none) ∧
        (leAt b 0 1 = 2 → x.bytes.length < x.total → Answers .loadVolatileEnd s fun u => Ended u 0x0812 ∧ u.img.staging = none ∧
          stage u = 7) ∧
        (leAt b 0 1 = 2 → x.total ≤ x.bytes.length → Answers .loadVolatileEnd s fun u => u.img.staging = none ∧
          let r := regionOf x.bytes
          if regionCode s .profile r x.total .clean = 0 ∧ profileFail s r.payload = none then
            u.img.volatile = some r ∧ stage u = 4 ∧ getF u Reg.MGT_BOOT_INFO_KIND = 5
          else stage u = 7 ∧ u.img.volatile = s.img.volatile))) ∧
    (c.opcode = 0x0803 → Answers .getConfigStatus s fun u => Returned u
      ((Reg.CFG_STATUS :: Reg.CFG_DETAIL :: (List.range 6).map Reg.CFG_RESULT).flatMap fun k => leBytes 4 (rd s k).toNat)) ∧
    (c.opcode = 0x0810 → Answers .flashInfo s fun u => Returned u (leBytes 4 (getF s Reg.CFG_FLASH_DENSITY_MBIT) ++
      leBytes 1 (getF s Reg.CFG_FLASH_MODE) ++ leBytes 2 (getF s Reg.CFG_FLASH_MHZ))) ∧
    (c.opcode = 0x0811 → flashBusy s = false → getF s Reg.CFG_FLASH_MODE ≠ 0 → leAt b 4 2 ≠ 0 → leAt b 4 2 ≤ 4032 →
      leAt b 0 4 + leAt b 4 2 ≤ flashSize s →
      Answers (.flashRead true) s (fun u => Returned u (flashBytes s (leAt b 0 4) (leAt b 4 2))) ∧
      Answers (.flashRead false) s fun u => Ended u 0x080F) ∧
    (c.opcode = 0x0812 → leAt b 0 4 % 4096 = 0 → leAt b 4 2 ≠ 0 → leAt b 4 2 ≤ 256 →
      flashWriteCode s (leAt b 0 4) (4096 * leAt b 4 2) = 0 →
      Answers (.flashErase true) s (fun u => Ended u 0 ∧ ∀ a, flashByte u a =
        if leAt b 0 4 ≤ a ∧ a < leAt b 0 4 + 4096 * leAt b 4 2 then 0xFF#8 else flashByte s a) ∧
      Answers (.flashErase false) s fun u => Ended u 0x080F) ∧
    (c.opcode = 0x0813 → leAt b 0 4 % 256 = 0 → flashWriteCode s (leAt b 0 4) (b.drop 8).length = 0 →
      Answers (.flashProgram true) s fun u =>
        (∀ a, flashByte u a = if leAt b 0 4 ≤ a ∧ a < leAt b 0 4 + (b.drop 8).length then
          flashByte s a &&& (b.drop 8).getD (a - leAt b 0 4) 0#8 else flashByte s a) ∧
        Ended u (if flashBytes u (leAt b 0 4) (b.drop 8).length = b.drop 8 then 0 else 0x080F))

/-- Settings load, store, are edited and read in the shadow; owner state and key change as authorised; lifetime is snapshotted -/
def Obligations.SettingsAndOwnerCommands : Prop :=
  (∀ (s : State) (n : Nat) (lost : List NvmPart), (Instr.settingsLoad n lost).wf = true → stage s = 2 → chipFaulted s = false →
    Answers (.settingsLoad n lost) s fun u => stage u = 3 ∧ mbxReady u = true ∧ u.set.host = u.set.stored ∧
      (n ≠ 0 → isSet u Reg.NVS_STATUS_READ_TRANSIENT = true) ∧
      (lost = [] → ((List.range 46).map (16 + ·)).filter (halfErased s.nvm) = [] →
        getF u Reg.NVS_GENERATION_GENERATION = max (bankGen s.nvm.bankA) (bankGen s.nvm.bankB) % 2 ^ 32)) ∧
  (∀ (s : State) (c : MbxCmd), Alone s c →
    let b := c.payload
    let x := ownerBase s
    (c.opcode = 0x0901 → nvmWorn s = false →
      ((store s false true).2 = 0 → Answers (.storeSettings true) s fun u => Ended u 0 ∧ isSet u Reg.NVS_STATUS_STORE_DONE = true ∧
        getF u Reg.NVS_GENERATION_GENERATION = (getF (snapshot s) Reg.NVS_GENERATION_GENERATION + 1) % 2 ^ 32 ∧
        getF u Reg.NVS_STATE_DIRTY = 0) ∧
      ((store s false true).2 = 0 → Answers (.storeSettings false) s fun u => Ended u 0x0901 ∧
        isSet u Reg.NVS_STATUS_STORE_FAILED = true ∧
        getF u Reg.NVS_GENERATION_GENERATION = getF (snapshot s) Reg.NVS_GENERATION_GENERATION)) ∧
    (c.opcode = 0x0902 → Answers .discardSettings s fun u => Ended u 0 ∧ u.set.host = s.set.stored ∧
      getF u Reg.NVS_STATE_DIRTY = 0) ∧
    (c.opcode = 0x0903 →
      (∀ r, (shadowRecs s (leAt b 0 2))[leAt b 2 1]? = some r → (setRecBytes r).length ≤ 4032 →
        Answers .readSetting s fun u => Returned u (setRecBytes r)) ∧
      ((shadowRecs s (leAt b 0 2))[leAt b 2 1]? = none → Answers .readSetting s fun u => Ended u 0x0905)) ∧
    (c.opcode = 0x0904 → leAt b 2 2 ≠ 0 → leAt b 2 2 ≤ 4000 → hostTag (leAt b 0 2) = true →
      settingOk (leAt b 0 2) ((b.drop 8).take (leAt b 2 2)) = true → nvmWorn s = false →
      Answers .writeSetting s fun u => Ended u 0 ∧ u.set.stored = s.set.stored ∧
        ∃ r ∈ u.set.host, r.tag = leAt b 0 2 ∧ r.data = (b.drop 8).take (leAt b 2 2)) ∧
    (∀ l, c.opcode = 0x0905 → lifeLatest s.nvm = some l → Answers .readLifetime s fun u => Returned u (lifeBytes l)) ∧
    (c.opcode = 0x0906 → Answers .getOwnerNonce s fun u => ∃ q, u.set.nonce = some ⟨q, s.sTime⟩ ∧ q.length = 32 ∧ Returned u q) ∧
    (c.opcode = 0x0907 → ¬(x.state = 2 ∧ getF s Reg.MGT_UPD_STATE_SESSION = 2) →
      let done (u : State) : Prop := Ended u 0 ∧ getF u Reg.MGT_STATUS_OWNER = leAt b 0 1 ∧
        (ownerCur u.nvm).map (fun y => (y.state, y.key)) = some (leAt b 0 1, x.key)
      (ownerStep x.state (leAt b 0 1) (!x.key.isEmpty) (isSet s Reg.NVS_STATUS_OWNER_LOST) = some false →
        Answers (.setOwnerState true) s done ∧ Answers (.setOwnerState false) s fun u => Ended u 0x0901 ∧ u.nvm = s.nvm) ∧
      (ownerStep x.state (leAt b 0 1) (!x.key.isEmpty) (isSet s Reg.NVS_STATUS_OWNER_LOST) = some true →
        (freshNonce s = none → Answers (.setOwnerState true) s fun u => Ended u 0x0907 ∧ u.nvm = s.nvm) ∧
        (∀ q, freshNonce s = some q → Answers (.setOwnerState true) s fun u => u.set.nonce = none ∧
          let key := if isSet s Reg.NVS_STATUS_OWNER_LOST = true then Config.releaseKey else x.key
          if Config.ecdsaOk key (Config.sha384 (q ++ leBytes 1 (leAt b 0 1) ++ leBytes 4 (rd s Reg.HST_ID).toNat))
              ((b.drop 8).take 96) = true then done u
          else Ended u 0x0907 ∧ u.nvm = s.nvm))) ∧
    (c.opcode = 0x0908 → x.state = 0 → x.key = [] → Answers (.installOwnerKey true) s fun u => Ended u 0 ∧
      (ownerCur u.nvm).map (fun y => (y.state, y.key)) = some (0, (b.drop 8).take 96))) ∧
  (∀ s : State, s.set.dueAt.isSome = true → hwdRuns s = true → 3 ≤ stage s → (store s true true).2 = 0 →
    Answers (.automaticStore true) s fun u => u.set.dueAt = none ∧ isSet u Reg.NVS_STATUS_STORE_DONE = true) ∧
  (∀ s : State, stage s = 6 → hwdRuns s = true → s.set.snapAt + 1800000000000 ≤ s.sTime →
    Answers .lifetimeSnapshot s fun u => u.set.snapAt = s.sTime ∧
      ∃ l ∈ u.nvm.life50 ++ u.nvm.life54, l.secs = s.set.secs0 + s.sTime / 500000000)

/-- An update session opens, takes chunks in order, commits what Hallmark accepts; a trial is confirmed or falls back -/
def Obligations.UpdatesRunThroughASessionAndATrial : Prop :=
  (∀ (s : State) (c : MbxCmd), Alone s c →
    let b := c.payload
    (c.opcode = 0x0A10 →
      let root := leAt b 0 1 == 1
      let n := 1 - getF s Reg.MGT_STATUS_SLOT
      (updRefusal s root ≠ 0 → Answers .updateBegin s fun u => Ended u (updRefusal s root) ∧ u.upd = s.upd) ∧
      (updRefusal s root = 0 → s.upd = none → (root = true ∨ trialOn (slotSt s) = false) → leAt b 0 1 ≤ 1 → 512 ≤ leAt b 4 4 →
        leAt b 4 4 ≤ (if root then 65536 else min (16 * 2 ^ 20) (slotExtent s n).2) →
        Answers .updateBegin s fun u => Ended u 0 ∧ getF u Reg.MGT_UPD_STATE_SESSION = (if root then 2 else 1) ∧
          u.upd = some ⟨if root then 2 else n, false, leAt b 4 4, 0, s.sTime, [], []⟩)) ∧
    (∀ x, s.upd = some x → x.smbus = false → updRefusal s (x.target == 2) = 0 →
      (c.opcode = 0x0A11 → leAt b 4 4 = x.next → b.drop 8 ≠ [] → (b.drop 8).length ≤ 3840 → x.next + (b.drop 8).length ≤ x.total →
        ((b.drop 8).length % 256 = 0 ∨ x.next + (b.drop 8).length = x.total) →
        (x.target = 2 → Answers (.updateChunk true) s fun u => Ended u 0 ∧ u.upd = some { x with
          at_ := s.sTime, next := x.next + (b.drop 8).length, staged := x.staged ++ b.drop 8 }) ∧
        (x.target < 2 → Answers (.updateChunk true) s fun u =>
          let w := writeChunk (touchUpdate s x) { x with at_ := s.sTime } ((slotExtent s x.target).1 + x.next) (b.drop 8)
          if w.2.2 = true then Ended u 0 ∧ u.flash = w.1.flash ∧ u.upd = some { x with
            at_ := s.sTime, next := x.next + (b.drop 8).length, erased := w.2.1 }
          else Ended u 0x0A0B ∧ isSet u Reg.MGT_UPD_STATUS_FLASH_FAILED = true)) ∧
      (c.opcode = 0x0A12 → x.next = x.total → ∀ y,
        let e := slotExtent s x.target
        let r := if x.target = 2 then regionOf x.staged else flashRegion s e.1 e.2
        let code := regionCode s (if x.target = 2 then .rootLoader else .slot) r (if x.target = 2 then 65536 else e.2) y
        let bad (u : State) : Prop := Ended u (if code = 0x080B then 0x0A07 else 0x0A06) ∧ u.upd.isSome = true
        (x.target = 2 → Answers (if leAt b 0 1 = 1 then .updateCommitLive y true else .updateCommit y true) s fun u =>
          if code = 0 then Ended u 0 ∧ u.upd = none ∧ u.nvm.root = some x.staged ∧ isSet u Reg.MGT_UPD_STATUS_RL_WRITTEN = true
          else bad u ∧ u.nvm.root = s.nvm.root) ∧
        (x.target < 2 → leAt b 0 1 = 0 → Answers (.updateCommit y true) s fun u => if code = 0 then Ended u 0 ∧ u.upd = none ∧
          isSet u Reg.MGT_UPD_STATUS_COMMITTED = true ∧ (fellBack s = false → (slotSt u).tstate = 1 ∧ (slotSt u).trial = x.target)
          else bad u) ∧
        (x.target < 2 → leAt b 0 1 = 1 → Answers (.updateCommitLive y true) s fun u =>
          if code ≠ 0 then bad u
          else if liveOk s r = true then Ended u 0 ∧ u.hwd.handoff = some (x.target, r) ∧ mbxReady u = false
          else Ended u 0x0A0F)) ∧
      (c.opcode = 0x0A14 → leAt b 0 1 = 0 → Answers .updateAbort s fun u => Ended u 0 ∧ u.upd = none ∧ (x.erased = [] → u.flash = s.flash) ∧
        getF u Reg.MGT_UPD_STATE_SESSION = 0)) ∧
    ((slotSt s).tstate = 2 → fellBack s = false →
      (c.opcode = 0x0A13 → Answers .updateConfirm s fun u => Ended u 0 ∧ isSet u Reg.MGT_UPD_STATUS_CONFIRMED = true ∧
        (slotSt u).tstate = 0 ∧ (slotSt u).active = (slotSt s).trial) ∧
      (c.opcode = 0x0A14 → leAt b 0 1 = 1 → Answers .updateRejectTrial s fun u => Ended u 0 ∧ (slotSt u).tstate = 3 ∧
        isSet u Reg.MGT_UPD_STATUS_FALLBACK = true ∧ u.boot.warm = some 2))) ∧
  (∀ (s : State) (x : Upd), s.upd = some x → hwdRuns s = true → x.at_ + 150000000000 ≤ s.sTime →
    Answers .sessionIdleTimeout s fun u => u.upd = none ∧ isSet u Reg.MGT_UPD_STATUS_SESSION_EXPIRED = true) ∧
  (∀ s : State, (slotSt s).tstate = 2 → fellBack s = false → hwdRuns s = true → s.boot.up = true →
    (slotSt s).start + 500000000 * confirmWindow s ≤ s.sTime →
    Answers .confirmWindowExpiry s fun u => (slotSt u).tstate = 3 ∧ isSet u Reg.MGT_UPD_STATUS_FALLBACK = true ∧
      u.boot.warm = some 2)

/-- A hand-off starts the other slot's Heartwood; microcode is loaded in a DRAINED partition; named clusters are retired -/
def Obligations.FirmwareIsLoadedAndClustersRepaired : Prop :=
  (∀ (s : State) (m : Nat) (r : Region) (conv : List SetRec), s.hwd.handoff = some (m, r) → m < 2 → hwdRuns s = true →
    mbxReady s = false → (loadedAt s 33).2 ≠ [] → Answers (.heartwoodHandoff conv) s fun u => u.hwd.handoff = none ∧ mbxReady u = true ∧
      getF u Reg.MGT_STATUS_SLOT = m ∧ u.img.slot = some r ∧ loadedAt u 33 = ((component r.payload 0).2.2.2, componentBytes r.payload 0)) ∧
  (∀ (s : State) (c : MbxCmd), Alone s c → updRefusal s false = 0 →
    (∀ p, c.opcode = 0x0A20 → p = leAt c.payload 0 1 → p < 16 → partValid s p = true →
      (partState s p = 3 → Answers .loadMicrocode s fun u => Returned u (leBytes 4 (slotComp s 1).1) ∧ partState u p = 3 ∧
        ∀ g ∈ groveList s p, g < 16 → rd u (Reg.GRV_UCODE_VER g) = BitVec.ofNat 64 (slotComp s 1).1) ∧
      (partState s p ≠ 3 → Answers .loadMicrocode s fun u => Ended u 0x0A0C)) ∧
    (∀ fails, (Instr.repairClusters fails).wf = true → c.opcode = 0x0A21 →
      let ps := (chunks 2 8 (c.payload.drop 1)).map fun b => (leAt b 0 1, leAt b 1 1)
      ps.eraseDups.length = ps.length → (∀ e ∈ ps, e.1 < 16 ∧ e.2 < 80 ∧ mapEntry s e.1 e.2 < 84) →
      (∀ e ∈ ps, isSet s (Reg.GRV_STATUS_ASSIGNED e.1) = false ∨ partState s (getF s (Reg.GRV_STATUS_PARTITION e.1)) = 3) →
      Answers (.repairClusters fails) s fun u => getF u (Reg.MGT_MBX_AREA_WORD 2) = 0 ∧ u.mbx = [] ∧
        (∀ e ∈ ps, physRetired u e.1 (mapEntry s e.1 e.2) = true) ∧
        (mapNow u.nvm).map (·.bytes) = some ((List.range 16).flatMap (mapBytes u)) ∧
        (fails = [] → (mapNow u.nvm).map (·.gen) = some (((mapNow s.nvm).map (·.gen)).getD 0 + 1))))

/-- A cold reset leaves reset values but the NVM and the flash, but for sectors that an open session had erased; its end
latches straps; S0 and S1 lead to S2 or to recovery HOLD -/
def Obligations.ColdResetsStartTheBoot : Prop :=
  (∀ s : State,
    let cold (u : State) : Prop := u.regs = State.reset.regs ∧ u.dram = [] ∧ u.reqs = [] ∧ u.lanes = [] ∧ u.slots = [] ∧ u.mbx = [] ∧
      u.time = 0 ∧ ((∀ x, s.upd = some x → x.erased = []) → u.flash = s.flash) ∧ u.nvm = s.nvm ∧ heldCold u = true
    (pinsHeld s = false → Answers .porAssert s fun u => cold u ∧ u.boot.por = true) ∧
    Answers .undervoltage s (fun u => cold u ∧ u.boot.underV = true) ∧
    Answers (.vaonLoss []) s (fun u => cold u ∧ u.boot.vaonLost = true)) ∧
  (∀ (s : State) (p a : Nat) (low : Bool), p < 4 → a < 4 →
    let began (u : State) : Prop := stage u = 0 ∧ getF u Reg.HST_STRAPS_PROFSEL = p ∧ getF u Reg.HST_STRAPS_SMB_ADDR = a ∧
      heldCold u = false ∧ (low = true → getF u Reg.FLT_BTN_STATE = 3 ∧ isSet u Reg.FLT_STATUS_BTN_STUCK = true) ∧
      (low = false → getF u Reg.FLT_BTN_LEVEL = 1)
    (pinsHeld s = false → s.boot.por = true → s.boot.underV = false → Answers (.porDeassert p a low) s began) ∧
    (s.boot.underV = true → s.boot.por = false → s.boot.vaonLost = false → Answers (.undervoltageEnd p a low) s began)) ∧
  (∀ s : State, heldCold s = false → tripped s = false → stage s = 0 → (getF s Reg.HST_CLK_STATUS_LOCK).testBit 7 = false →
    Answers .tclkLock s fun u => stage u = 1 ∧ (∀ k ∈ [1, 6, 7], (getF u Reg.HST_CLK_STATUS_LOCK).testBit k = true) ∧
      (s.boot.perst = false → (getF u Reg.HST_CLK_STATUS_LOCK).testBit 3 = true) ∧ u.boot.spiAt = some (s.boot.spiAt.getD s.aTime)) ∧
  (∀ (s : State) (x : RegionRead), stage s = 1 → s.boot.rootOk = false → s.boot.stopped = false → chipFaulted s = false →
    heldForGood s = false →
    Answers (.rootLoaderCheck x) s fun u => if rootPasses s x = true then u.boot.rootOk = true ∧ getF u Reg.HST_STATUS_HWD_STATE = 0
      else u.boot.stopped = true ∧ ((x = .headerBad ∨ x = .payloadBad) → s.fltQueue.length < 16 → Recorded s u 0x18)) ∧
  (∀ (s : State) (x : Option Sfdp), stage s = 1 → s.boot.rootOk = true → chipFaulted s = false → hwdRuns s = true →
    flashReady s = true → Answers (.flashModeSelect x) s fun u =>
      let fit (f : Sfdp) : Prop := f.fit = true ∧ 512 ≤ f.densityMbit ∧ f.densityMbit ≤ 2048
      (∀ f, x = some f → fit f → stage u = 2 ∧ getF u Reg.CFG_FLASH_DENSITY_MBIT = f.densityMbit ∧
        (∀ h, f.octalMhz = some h → getF u Reg.CFG_FLASH_MODE = 3 ∧ getF u Reg.CFG_FLASH_MHZ = min 200 h) ∧
        (f.octalMhz = none → getF u Reg.CFG_FLASH_MODE = 2 ∧ getF u Reg.CFG_FLASH_MHZ = min 133 f.quadMhz)) ∧
      ((∀ f, x = some f → ¬fit f) → stage u = 7 ∧ getF u Reg.CFG_STATUS_CAUSE = 0x080C ∧ isSet u Reg.CFG_STATUS_RECOVERY = true ∧
        mbxReady u = true))

/-- S3 checks the directory and goes to S4 or recovery HOLD; S4 trains and tests; S5 settles the ports; SERVICE or HOLD follows -/
def Obligations.TheBootReachesService : Prop :=
  (∀ (s : State) (reads : List (Nat × RegionRead)), (Instr.imageCheck reads).wf = true → stage s = 3 → bootRuns s = true →
    Answers (.imageCheck reads) s fun u =>
      let r (k : Nat) : Region := flashRegion s (0x10000 * k) 65536
      let good (k : Nat) : Bool := regionCode s .directory (r k) 65536 (readOf reads k) == 0
      if good 0 = true ∨ good 1 = true then u.img.dir = dirOf (r (if good 0 then 0 else 1)).payload ∧
        (stage u = 4 ∨ stage u = 7 ∧ getF u Reg.CFG_STATUS_CAUSE = 0x080A ∧ isSet u Reg.CFG_STATUS_RECOVERY = true)
      else stage u = 7 ∧ getF u Reg.CFG_STATUS_CAUSE = 0x0809 ∧ isSet u Reg.CFG_STATUS_RECOVERY = true) ∧
  (∀ (s : State) (m : Nat) (r : Region) (conv : List SetRec), s.hwd.handoff = some (m, r) → m < 2 → hwdRuns s = true →
    (loadedAt s 33).2 = [] → Answers (.bootHandoff conv) s fun u => u.hwd.handoff = none ∧ mbxReady u = true ∧
      getF u Reg.MGT_STATUS_SLOT = m ∧ loadedAt u 33 = ((component r.payload 0).2.2.2, componentBytes r.payload 0)) ∧
  (∀ (s : State) (a b : Nat), (Instr.channelTrainingDone a b).wf = true → stage s = 4 → s.boot.trained = false → bootRuns s = true →
    getF s Reg.MEM_CH_STATUS_TRAIN_FAIL = 0 → Answers (.channelTrainingDone a b) s fun u =>
      u.boot.trained = decide (a &&& b = 0) ∧ getF u Reg.MEM_CH_STATUS_TRAIN_FAIL = a &&& b ∧
      (a ≠ 0 → isSet u Reg.MGT_BOOT_INFO_TRAIN_RETRY = true) ∧ (a &&& b ≠ 0 → chipFaulted u = true) ∧
      ∀ c, c < 32 → ¬(a.testBit c = true ∧ b.testBit c = true) → (getF u Reg.MEM_CH_STATUS_TRAINED).testBit c = true) ∧
  (∀ (s : State) (fails : List (Nat × Nat)), (Instr.groveSelfTest fails).wf = true → stage s = 4 → s.boot.tested = false →
    bootRuns s = true → Answers (.groveSelfTest fails) s fun u => u.boot.tested = true ∧
      ∀ e ∈ fails, physRetired u e.1 e.2 = true) ∧
  (∀ s : State, stage s = 4 → s.boot.trained = true → s.boot.tested = true → s.hwd.handoff = none → bootRuns s = true →
    Answers .layoutComplete s fun u => stage u = 5 ∧ ∀ a, loadByte u a = 0#8) ∧
  (∀ s : State, stage s = 5 → s.boot.settled = false → bootRuns s = true → (List.range 12).any (portTraining s) = false →
    (s.img.chosen.isSome = true → Answers .cezlinkPortsSettled s fun u => u.boot.settled = true ∧ stage u = 5) ∧
    (s.img.chosen = none → Answers .cezlinkPortsSettled s fun u => stage u = 7 ∧ isSet u Reg.CFG_STATUS_RECOVERY = false ∧
      getF u Reg.CFG_STATUS_CAUSE = getF s Reg.CFG_STATUS_CAUSE ∧ u.boot.up = true)) ∧
  (∀ (s : State) (v : Bool) (n : Nat) (r : Region), s.img.chosen = some (v, n, r) → n < 4 → stage s = 5 → s.boot.settled = true →
    bootRuns s = true → Answers .serviceEntry s fun u => stage u = 6 ∧ u.boot.up = true ∧ u.boot.warm = none ∧ SameMem s u ∧
      getF u Reg.CFG_STATUS_SOURCE = (if v then 1 else 0) ∧ getF u Reg.MGT_STATUS_PROFILE = (if v then 0 else n))

/-- Warm chip resets stop the steps and restore the blocks; PERST_N, the button, F4 and the thermal trip cause what they cause -/
def Obligations.WarmResetsAndTheButton : Prop :=
  (∀ (s : State) (k : Nat), s.boot.warm = some k → s.boot.begun = false → heldCold s = false → tripped s = false →
    Answers .warmChipReset s fun u => u.boot.begun = true ∧ u.boot.warm = some k ∧ u.upd = none ∧ u.img.staging = none ∧
      getF u Reg.MGT_BOOT_INFO_KIND = min k 5 ∧ (∀ p, p < 16 → (lane u p).cur = none) ∧
      getF u Reg.MGT_BOOT_INFO_WARM_COUNT = (getF s Reg.MGT_BOOT_INFO_WARM_COUNT + 1) % 65536) ∧
  (∀ s : State, s.boot.warm.isSome = true → s.boot.begun = true → s.boot.restored = false → getF s Reg.PWR_BALLAST_MW_MW = 0 →
    Answers .ballastRundownDone s fun u => u.boot.restored = true ∧ u.reqs = [] ∧ u.cohorts = [] ∧ u.lanes = [] ∧ u.ctxs = [] ∧
      u.slots = [] ∧ u.pages = [] ∧ u.nvm = s.nvm ∧ stage u = stage s ∧
      (stage s = 4 → hwdRuns s = true → ∀ k ∈ [0, 2, 4, 5], (getF u Reg.HST_CLK_STATUS_LOCK).testBit k = true)) ∧
  (∀ (s : State) (c : MbxCmd), Alone s c → c.opcode = 0x0713 →
    (s.boot.warm = none → s.boot.stopped = false → Answers .resetChip s fun u => Ended u 0 ∧ u.boot.warm = some 2) ∧
    (s.boot.warm.isSome = true → Answers .resetChip s fun u => Ended u 0x0706 ∧ u.boot = s.boot)) ∧
  (∀ (s : State) (t : Nat), s.boot.f4At = some t → chipFaulted s = true → s.boot.stopped = false → getF s Reg.FLT_CTL_F4_HOLD_MS ≠ 0 →
    t + 500000 * getF s Reg.FLT_CTL_F4_HOLD_MS ≤ s.aTime →
    (s.boot.up = true → Answers .f4HoldExpiry s fun u => u.boot.warm = some 1 ∧ u.regs = s.regs) ∧
    (s.boot.up = false → Answers .f4HoldExpiry s fun u => stage u = 1 ∧ isSet u Reg.MGT_BOOT_INFO_RESTARTED = true ∧
      getF u Reg.HST_STATUS_HWD_STATE = (if heldForGood s = true then 2 else 3) ∧ chipFaulted u = false)) ∧
  (∀ s : State, heldCold s = false → tripped s = false → Answers .thermtrip s fun u => tripped u = true ∧ u.boot.stopped = true ∧ chipFaulted u = true ∧
    u.reqs = [] ∧ (pinsHeld s = false → u.out.getLast? = some (.pin .thermtripN false)) ∧
    (s.fltQueue.length < 16 → Recorded s u 0x1A)) ∧
  (∀ s : State, pinsHeld s = false →
    let gone (u : State) : Prop := u.fns = [] ∧ u.vecs = [] ∧ u.spdm = Spdm.idle ∧
      (s.boot.up = true → heldCold s = false → tripped s = false → u.boot.warm = some 4)
    (s.boot.perst = false → Answers .perstAssert s fun u => gone u ∧ u.boot.perst = true ∧
      (getF u Reg.HST_CLK_STATUS_LOCK).testBit 3 = false) ∧
    (s.boot.perst = true → Answers .perstDeassert s fun u => u.boot.perst = false ∧
      ((getF s Reg.HST_CLK_STATUS_LOCK).testBit 1 = true → (getF u Reg.HST_CLK_STATUS_LOCK).testBit 3 = true)) ∧
    (s.boot.perst = false → (getF s Reg.HST_CLK_STATUS_LOCK).testBit 3 = true → Answers .hotReset s gone) ∧
    (heldCold s = false →
      (btnState s = 0 → Answers .buttonLowStable s fun u => btnState u = 1 ∧ getF u Reg.FLT_BTN_LEVEL = 0) ∧
      (btnState s = 1 → Answers .buttonPress s fun u => btnState u = 0 ∧
        (s.boot.up = true → s.boot.warm = none → u.boot.warm = some 3 ∧
          getF u Reg.FLT_BTN_PRESSES = (getF s Reg.FLT_BTN_PRESSES + 1) % 256)) ∧
      (btnState s = 1 → Answers .buttonStuck s fun u => btnState u = 2 ∧ isSet u Reg.FLT_STATUS_BTN_STUCK = true ∧
        u.boot.warm = s.boot.warm) ∧
      (2 ≤ btnState s → Answers .buttonHonoured s fun u => btnState u = 0 ∧ u.boot = s.boot))) ∧
  (∀ s : State, getF s Reg.HST_STATUS_HWD_STATE = 1 → Answers .heartwoodResume s fun u => hwdRuns u = true ∧
    u.hwd.restartAt = none ∧ (getF u Reg.HST_CLK_STATUS_LOCK).testBit 6 = true ∧
    (3 ≤ stage s → s.hwd.handoff = none → mbxReady u = true))

/-- Trace starts and stops; markers make MARK records; the oldest record goes to the ring while LEVEL is above 0, or STOP ends it -/
def Obligations.TraceRecordsFlowThroughTheFifo : Prop :=
  (∀ (s : State) (p : Nat) (v : W32), Reaches s (Reg.TRC_TCTL p) →
    ((Instr.traceEnable p v).wf = true → isSet s (Reg.TRC_TCTL_EN p) = false →
      (ringBytes s p ≠ 0 → (traceOf s p).skip = [] → Answers (.traceEnable p v) s fun u => isSet u (Reg.TRC_TCTL_EN p) = true ∧
        getF u (Reg.TRC_WPTR_WPTR p) = 0 ∧ getF u (Reg.TRC_WRAPS_WRAPS p) = 0 ∧ getF u (Reg.TRC_TCTL_STOPPED_P p) = 0 ∧
        u.trace = s.trace) ∧
      (ringBytes s p = 0 → Answers (.traceEnable p v) s fun u => isSet u (Reg.TRC_TCTL_EN p) = false)) ∧
    ((Instr.traceDisable p v).wf = true → Answers (.traceDisable p v) s fun u => isSet u (Reg.TRC_TCTL_EN p) = false ∧
      u.trace = s.trace)) ∧
  (∀ (s : State) (p cl id : Nat) (st : Step), (Instr.markBegin p cl id).wf = true → (lane s p).cur = some st → st.st = .execute →
    (st.running.any fun e => e.1 == cl) = true → traceOn s p 2 = true →
    fifoUnits (traceOf s p) < 512 → (traceOf s p).lost = 0 →
    let marked (fl : Nat) (u : State) : Prop := ∃ b, (traceOf u p).fifo = (traceOf s p).fifo ++ [b] ∧ b.length = 32 ∧
      leAt b 0 1 = 2 ∧ leAt b 1 1 = fl ∧ leAt b 8 8 = s.cTime % 2 ^ 64 ∧ leAt b 16 4 = id ∧ leAt b 20 2 = cl
    Answers (.markBegin p cl id) s (fun u => marked 0 u ∧ u.regs = s.regs ∧ u.dram = s.dram) ∧
    Answers (.markEnd p cl id) s (fun u => marked 4 u ∧ u.regs = s.regs ∧ u.dram = s.dram)) ∧
  (∀ (s : State) (p : Nat) (r : List Byte) (rest : List (List Byte)), (Instr.traceRecordWrite p).wf = true →
    (traceOf s p).fifo = r :: rest → 32 ≤ r.length → partValid s p = true → ringBytes s p ≠ 0 → 0 < regLevel s p 3 →
    (ringFull s p r = false → (traceOf s p).lost = 0 → Answers (.traceRecordWrite p) s fun u => (traceOf u p).fifo = rest ∧
      regLevel u p 3 < regLevel s p 3 ∧
      ((traceOf s p).skip = [] → getF s (Reg.TRC_WPTR_WPTR p) + r.length / 32 ≤ ringBytes s p / 32 →
        (∀ i x, i < r.length → translate s p (32 * getF s (Reg.TRC_WPTR_WPTR p) + i) = some x → loadByte u x = r.getD i 0#8) ∧
        ∀ x, (∀ i, i < r.length → translate s p (32 * getF s (Reg.TRC_WPTR_WPTR p) + i) ≠ some x) → loadByte u x = loadByte s x)) ∧
    (ringFull s p r = true → Answers (.traceRecordWrite p) s fun u => isSet u (Reg.TRC_TCTL_EN p) = false ∧
      isSet u (Reg.TRC_TCTL_STOPPED_P p) = true ∧ isSet u Reg.TRC_STATUS_STOPPED = true ∧ SameMem s u))

/-- A step runs the command at the front of the queue with the queue's rest; on an empty queue device time passes, and nothing
else happens where no CANCEL waits for its commit point and no waiting head is due -/
def Obligations.AStepRunsTheFrontCommand : Prop :=
  (∀ (s : State) (c : Instr), step { s with pending := c :: s.pending } = exec c s) ∧
  (∀ s : State, s.pending = [] → ∃ t, step s = .next t ∧ t.pending = [] ∧
    t.time = s.time + (if heldCold s = true then 0 else if s.boot.tclkOnce = true then 1 else 10) ∧
    (s.cancels = [] → s.scan.due = [] → t.dram = s.dram ∧ t.reqs = s.reqs ∧ t.lanes = s.lanes ∧ t.slots = s.slots ∧
      t.boot = s.boot ∧ SameRegs s t fun k => k / 0x100000 == 14))

/-- After reset every register reads its card's reset value, DRAM is zero, nothing is held and device time is 0 -/
def Obligations.ResetLeavesTheCardsValues : Prop :=
  (∀ (key : Nat) (c : Card), cardAt key = some c → rd State.reset key = BitVec.ofNat 64 c.reset) ∧
  (∀ a, loadByte State.reset a = 0#8) ∧ MemOk State.reset ∧ TimesOk State.reset ∧ State.reset.time = 0 ∧
  State.reset.pending = [] ∧ State.reset.reqs = [] ∧ State.reset.cohorts = [] ∧ State.reset.lanes = [] ∧ State.reset.ctxs = [] ∧
  State.reset.slots = [] ∧ State.reset.mbx = [] ∧ State.reset.fltQueue = [] ∧ State.reset.boot.por = true ∧
  State.reset.boot.perst = true ∧ getF State.reset Reg.HST_ID_PART = 0x1280 ∧ getF State.reset Reg.HST_CAPS_GROVES = 16 ∧
  getF State.reset Reg.HST_CAPS_CZL_PORTS = 12 ∧ getF State.reset Reg.HST_CAPS_DRAM_GIB = 64 ∧
  getF State.reset Reg.HST_STATUS_HWD_STATE = 3

/-- Ramp-domain grants: no member gets more than it asks, the net rise and fall stay within the budgets, nothing is cut without need -/
def Obligations.GrantsKeepTheDomainsBudgets : Prop :=
  ∀ (xs : List (Nat × Nat × Nat)) (up down : Nat),
    let total (l : List (Nat × Nat)) : Nat := (l.map (·.2)).sum
    let rises := xs.map fun e => (e.1, e.2.1)
    let falls := xs.map fun e => (e.1, e.2.2)
    let g := rampGrants xs up down
    g.1.map (·.1) = xs.map (·.1) ∧ g.2.map (·.1) = xs.map (·.1) ∧
    (∀ e ∈ g.1.zip rises, e.1.2 ≤ e.2.2) ∧ (∀ e ∈ g.2.zip falls, e.1.2 ≤ e.2.2) ∧
    total g.1 ≤ up + total g.2 ∧ total g.2 ≤ down + total g.1 ∧
    (total rises ≤ up + total falls → total falls ≤ down + total rises → g = (rises, falls)) ∧
    (up + total falls < total rises → g.2 = falls ∧ total g.1 = up + total falls) ∧
    (down + total rises < total falls → g.1 = rises ∧ total g.2 = down + total rises)

/-- The translator maps below the top into the partition's own channels, one byte to one, never into another's or the reserve -/
def Obligations.TheTranslatorKeepsPartitionsApart : Prop :=
  ∀ s : State,
    (∀ p a, (translate s p a).isSome = true ↔ a < topOf s p) ∧
    (∀ p a x, translate s p a = some x → 2 * firstGrove s p ≤ x / 2 ^ 31 ∧ x / 2 ^ 31 < 2 * (firstGrove s p + grovesOf s p) ∧
      x % 2 ^ 31 < 0x7F000000) ∧
    (∀ p q a b x, (p = q ∨ ∀ g, g ∈ groveList s p → g ∉ groveList s q) → translate s p a = some x → translate s q b = some x →
      p = q ∧ a = b)

/-- Every step keeps each domain's copy of device time within its bound of device time -/
def Obligations.EveryStepKeepsTheTimesBound : Prop :=
  ∀ s t : State, TimesOk s → step s = .next t → TimesOk t

/-- Every step keeps stacked DRAM in its canonical form: equal memories are equal data -/
def Obligations.EveryStepKeepsMemoryCanonical : Prop :=
  ∀ s t : State, MemOk s → step s = .next t → MemOk t
end

