-- ==== Sys2Proof/Laws/Sparse.lean ====
section
/-! SUPPORT. The laws of sparse lists: what a read finds after a write, in every list, and that a write keeps the
canonical form. -/
namespace Sys2Proof.Machine

theorem spGet_spIns {α : Type} (d : Nat → α) (k j : Nat) (v : α) (l : List (Nat × α)) :
    spGet d (spIns k v l) j = if j = k then v else spGet d l j := by
  induction l with
  | nil => simp only [spIns, spGet]; split <;> simp
  | cons e rest ih =>
    obtain ⟨k', v'⟩ := e
    simp only [spIns]
    split
    · simp only [spGet]; repeat' split
      all_goals first | rfl | omega
    · split
      · simp only [spGet]; subst_vars; split <;> rfl
      · simp only [spGet, ih]; repeat' split
        all_goals first | rfl | omega

theorem spGet_spSkip {α : Type} (d : Nat → α) (k j : Nat) (l : List (Nat × α)) :
    spGet d (spSkip k l) j = if j ≤ k then d j else spGet d l j := by
  induction l with
  | nil => simp [spSkip, spGet]
  | cons e rest ih =>
    obtain ⟨k', v'⟩ := e
    simp only [spSkip]
    split
    · rw [ih]; simp only [spGet]; repeat' split
      all_goals first | rfl | omega
    · simp only [spGet]; repeat' split
      all_goals first | rfl | omega

theorem spGet_spDel {α : Type} (d : Nat → α) (k j : Nat) (l : List (Nat × α)) :
    spGet d (spDel k l) j = if j = k then d k else spGet d l j := by
  induction l with
  | nil => simp only [spDel, spGet]; split <;> simp_all
  | cons e rest ih =>
    obtain ⟨k', v'⟩ := e
    simp only [spDel]
    split
    · simp only [spGet]; repeat' split
      all_goals first | rfl | omega | (subst_vars; rfl)
    · split
      · rw [spGet_spSkip]; simp only [spGet]; subst_vars; repeat' split
        all_goals first | rfl | omega | (subst_vars; rfl)
      · simp only [spGet, ih]; repeat' split
        all_goals first | rfl | omega

/-- A read after a write: the value written at its key, what was there elsewhere. -/
theorem spGet_spPut {α : Type} [DecidableEq α] (d : Nat → α) (k j : Nat) (v : α) (l : List (Nat × α)) :
    spGet d (spPut d k v l) j = if j = k then v else spGet d l j := by
  unfold spPut
  split
  · rename_i h; rw [spGet_spDel]; split <;> simp_all
  · exact spGet_spIns d k j v l

theorem spGet_spPut_same {α : Type} [DecidableEq α] (d : Nat → α) (k : Nat) (v : α) (l : List (Nat × α)) :
    spGet d (spPut d k v l) k = v := by simp [spGet_spPut]

theorem spGet_spPut_other {α : Type} [DecidableEq α] (d : Nat → α) {k j : Nat} (v : α) (l : List (Nat × α)) (h : j ≠ k) :
    spGet d (spPut d k v l) j = spGet d l j := by simp [spGet_spPut, h]

/-! ## The canonical form -/

theorem spWfFrom_mono {α : Type} [DecidableEq α] (d : Nat → α) (l : List (Nat × α)) {a b : Nat} (h : a ≤ b)
    (w : spWfFrom d b l = true) : spWfFrom d a l = true := by
  cases l with
  | nil => rfl
  | cons e rest =>
    simp only [spWfFrom, Bool.and_eq_true, decide_eq_true_eq] at w ⊢
    exact ⟨⟨Nat.le_trans h w.1.1, w.1.2⟩, w.2⟩

theorem spSkip_wf {α : Type} [DecidableEq α] (d : Nat → α) (l : List (Nat × α)) {k : Nat}
    (w : spWfFrom d (k + 1) l = true) : spSkip k l = l := by
  cases l with
  | nil => rfl
  | cons e rest =>
    simp only [spWfFrom, Bool.and_eq_true, decide_eq_true_eq] at w
    simp only [spSkip]; split
    · omega
    · rfl

theorem spWfFrom_spDel {α : Type} [DecidableEq α] (d : Nat → α) (k : Nat) (l : List (Nat × α)) :
    ∀ b, spWfFrom d b l = true → spWfFrom d b (spDel k l) = true := by
  induction l with
  | nil => intro b _; rfl
  | cons e rest ih =>
    intro b w
    obtain ⟨k', v'⟩ := e
    simp only [spWfFrom, Bool.and_eq_true, decide_eq_true_eq] at w
    simp only [spDel]
    split
    · simp only [spWfFrom, Bool.and_eq_true, decide_eq_true_eq]; exact w
    · split
      · subst_vars; rw [spSkip_wf d rest w.2]; exact spWfFrom_mono d rest (by omega) w.2
      · simp only [spWfFrom, Bool.and_eq_true, decide_eq_true_eq]; exact ⟨w.1, ih _ w.2⟩

theorem spWfFrom_spIns {α : Type} [DecidableEq α] (d : Nat → α) (k : Nat) (v : α) (hv : v ≠ d k) (l : List (Nat × α)) :
    ∀ b, b ≤ k → spWfFrom d b l = true → spWfFrom d b (spIns k v l) = true := by
  induction l with
  | nil => intro b hb _; simp [spIns, spWfFrom, hb, hv]
  | cons e rest ih =>
    intro b hb w
    obtain ⟨k', v'⟩ := e
    simp only [spWfFrom, Bool.and_eq_true, decide_eq_true_eq] at w
    simp only [spIns]
    split
    · simp only [spWfFrom, Bool.and_eq_true, decide_eq_true_eq]; exact ⟨⟨hb, hv⟩, ⟨by omega, w.1.2⟩, w.2⟩
    · split
      · subst_vars; simp only [spWfFrom, Bool.and_eq_true, decide_eq_true_eq]; exact ⟨⟨hb, hv⟩, w.2⟩
      · simp only [spWfFrom, Bool.and_eq_true, decide_eq_true_eq]; exact ⟨w.1, ih _ (by omega) w.2⟩

/-- A write keeps the canonical form. -/
theorem spWf_spPut {α : Type} [DecidableEq α] (d : Nat → α) (k : Nat) (v : α) (l : List (Nat × α))
    (w : spWf d l = true) : spWf d (spPut d k v l) = true := by
  unfold spPut spWf at *
  split
  · exact spWfFrom_spDel d k l 0 w
  · rename_i h; exact spWfFrom_spIns d k v h l 0 (Nat.zero_le _) w

theorem spGet_spDropFrom {α : Type} (d : Nat → α) (p : Nat → Bool) (l : List (Nat × α)) (j : Nat) :
    ∀ b, spGet d (spDropFrom p b l) j = if p j = true ∨ j < b then d j else spGet d l j := by
  induction l with
  | nil => intro b; simp [spDropFrom, spGet]
  | cons e rest ih =>
    intro b
    obtain ⟨k, v⟩ := e
    by_cases hp : p j = true
    · simp only [spDropFrom, hp, true_or, if_true]
      split
      · rw [ih]; simp [hp]
      · split
        · rw [ih]; simp [hp]
        · rename_i h
          have hne : j ≠ k := fun e => h (e ▸ hp)
          simp only [spGet, hne, if_false, ih, hp, true_or, if_true, ite_self]
    · by_cases hb : j < b
      · simp only [spDropFrom, hb, or_true, if_true]
        split
        · rw [ih]; simp [hb]
        · rename_i h
          have h1 : j < k + 1 := by omega
          have h2 : j ≠ k := by omega
          have h3 : j < k := by omega
          split
          · rw [ih]; simp [h1]
          · simp [spGet, h2, h3]
      · simp only [spDropFrom, hp, hb, or_self, if_false, spGet, Bool.false_eq_true]
        split
        · rename_i h
          have h2 : j ≠ k := by omega
          have h3 : ¬j < k := by omega
          rw [ih]; simp [hp, hb, h2, h3]
        · split
          · rename_i h1 h
            have h2 : j ≠ k := fun e => hp (e ▸ h)
            rw [ih]
            by_cases h3 : j < k
            · have : j < k + 1 := by omega
              simp [h2, h3, this]
            · have : ¬j < k + 1 := by omega
              simp [hp, h2, h3, this]
          · simp only [spGet]
            split
            · rfl
            · split
              · rfl
              · rw [ih]
                have : ¬j < k + 1 := by omega
                simp [hp, this]

/-- Leaving out the keys that satisfy `p`: those read as unlisted, the others as before. -/
theorem spGet_spDrop {α : Type} (d : Nat → α) (p : Nat → Bool) (l : List (Nat × α)) (j : Nat) :
    spGet d (spDrop p l) j = if p j = true then d j else spGet d l j := by
  simp [spDrop, spGet_spDropFrom]

theorem spWfFrom_spDropFrom {α : Type} [DecidableEq α] (d : Nat → α) (p : Nat → Bool) (l : List (Nat × α)) :
    ∀ b, spWfFrom d b l = true → spWfFrom d b (spDropFrom p b l) = true := by
  induction l with
  | nil => intro b _; rfl
  | cons e rest ih =>
    intro b w
    obtain ⟨k, v⟩ := e
    simp only [spWfFrom, Bool.and_eq_true, decide_eq_true_eq] at w
    have hk : ¬k < b := by omega
    simp only [spDropFrom, hk, if_false]
    split
    · exact spWfFrom_mono d _ (by omega) (ih _ w.2)
    · simp only [spWfFrom, Bool.and_eq_true, decide_eq_true_eq]; exact ⟨w.1, ih _ w.2⟩

/-- It keeps the canonical form. -/
theorem spWf_spDrop {α : Type} [DecidableEq α] (d : Nat → α) (p : Nat → Bool) (l : List (Nat × α))
    (w : spWf d l = true) : spWf d (spDrop p l) = true := spWfFrom_spDropFrom d p l 0 w

end Sys2Proof.Machine
end

