-- ==== Sys2Proof/Laws/State.lean ====
section
/-! SUPPORT. One lemma per field per update: which fields of State an update leaves as they were (all but its own). Each is
true by rfl and tagged simp, so that no proof unfolds a record update. -/
set_option Elab.async false
namespace Sys2Proof.Machine
variable (s : State)

/-! ### wr writes `regs` only -/
section
variable (k : Nat) (v : BitVec 64)
@[simp] theorem wr_pending : (wr s k v).pending = s.pending := rfl
@[simp] theorem wr_out : (wr s k v).out = s.out := rfl
@[simp] theorem wr_free : (wr s k v).free = s.free := rfl
@[simp] theorem wr_time : (wr s k v).time = s.time := rfl
@[simp] theorem wr_qTime : (wr s k v).qTime = s.qTime := rfl
@[simp] theorem wr_fTime : (wr s k v).fTime = s.fTime := rfl
@[simp] theorem wr_lTime : (wr s k v).lTime = s.lTime := rfl
@[simp] theorem wr_cTime : (wr s k v).cTime = s.cTime := rfl
@[simp] theorem wr_mTime : (wr s k v).mTime = s.mTime := rfl
@[simp] theorem wr_pTime : (wr s k v).pTime = s.pTime := rfl
@[simp] theorem wr_aTime : (wr s k v).aTime = s.aTime := rfl
@[simp] theorem wr_sTime : (wr s k v).sTime = s.sTime := rfl
@[simp] theorem wr_dram : (wr s k v).dram = s.dram := rfl
@[simp] theorem wr_l2 : (wr s k v).l2 = s.l2 := rfl
@[simp] theorem wr_ecc : (wr s k v).ecc = s.ecc := rfl
@[simp] theorem wr_scrub : (wr s k v).scrub = s.scrub := rfl
@[simp] theorem wr_clusters : (wr s k v).clusters = s.clusters := rfl
@[simp] theorem wr_sram : (wr s k v).sram = s.sram := rfl
@[simp] theorem wr_reqs : (wr s k v).reqs = s.reqs := rfl
@[simp] theorem wr_gens : (wr s k v).gens = s.gens := rfl
@[simp] theorem wr_dedup : (wr s k v).dedup = s.dedup := rfl
@[simp] theorem wr_sqs : (wr s k v).sqs = s.sqs := rfl
@[simp] theorem wr_cqs : (wr s k v).cqs = s.cqs := rfl
@[simp] theorem wr_admQ : (wr s k v).admQ = s.admQ := rfl
@[simp] theorem wr_cohorts : (wr s k v).cohorts = s.cohorts := rfl
@[simp] theorem wr_nextCohort : (wr s k v).nextCohort = s.nextCohort := rfl
@[simp] theorem wr_arb : (wr s k v).arb = s.arb := rfl
@[simp] theorem wr_scan : (wr s k v).scan = s.scan := rfl
@[simp] theorem wr_cancels : (wr s k v).cancels = s.cancels := rfl
@[simp] theorem wr_refills : (wr s k v).refills = s.refills := rfl
@[simp] theorem wr_regRefills : (wr s k v).regRefills = s.regRefills := rfl
@[simp] theorem wr_costs : (wr s k v).costs = s.costs := rfl
@[simp] theorem wr_lanes : (wr s k v).lanes = s.lanes := rfl
@[simp] theorem wr_ctxs : (wr s k v).ctxs = s.ctxs := rfl
@[simp] theorem wr_slots : (wr s k v).slots = s.slots := rfl
@[simp] theorem wr_slotGens : (wr s k v).slotGens = s.slotGens := rfl
@[simp] theorem wr_pages : (wr s k v).pages = s.pages := rfl
@[simp] theorem wr_retired : (wr s k v).retired = s.retired := rfl
@[simp] theorem wr_retiredFull : (wr s k v).retiredFull = s.retiredFull := rfl
@[simp] theorem wr_tens : (wr s k v).tens = s.tens := rfl
@[simp] theorem wr_parts : (wr s k v).parts = s.parts := rfl
@[simp] theorem wr_held : (wr s k v).held = s.held := rfl
@[simp] theorem wr_trace : (wr s k v).trace = s.trace := rfl
@[simp] theorem wr_assaySeen : (wr s k v).assaySeen = s.assaySeen := rfl
@[simp] theorem wr_groups : (wr s k v).groups = s.groups := rfl
@[simp] theorem wr_ports : (wr s k v).ports = s.ports := rfl
@[simp] theorem wr_reasm : (wr s k v).reasm = s.reasm := rfl
@[simp] theorem wr_fwd : (wr s k v).fwd = s.fwd := rfl
@[simp] theorem wr_msgNo : (wr s k v).msgNo = s.msgNo := rfl
@[simp] theorem wr_stampAt : (wr s k v).stampAt = s.stampAt := rfl
@[simp] theorem wr_fns : (wr s k v).fns = s.fns := rfl
@[simp] theorem wr_vecs : (wr s k v).vecs = s.vecs := rfl
@[simp] theorem wr_power : (wr s k v).power = s.power := rfl
@[simp] theorem wr_mbx : (wr s k v).mbx = s.mbx := rfl
@[simp] theorem wr_fltQueue : (wr s k v).fltQueue = s.fltQueue := rfl
@[simp] theorem wr_fltLog : (wr s k v).fltLog = s.fltLog := rfl
@[simp] theorem wr_fltLost : (wr s k v).fltLost = s.fltLost := rfl
@[simp] theorem wr_flash : (wr s k v).flash = s.flash := rfl
@[simp] theorem wr_spoiled : (wr s k v).spoiled = s.spoiled := rfl
@[simp] theorem wr_nvm : (wr s k v).nvm = s.nvm := rfl
@[simp] theorem wr_set : (wr s k v).set = s.set := rfl
@[simp] theorem wr_img : (wr s k v).img = s.img := rfl
@[simp] theorem wr_upd : (wr s k v).upd = s.upd := rfl
@[simp] theorem wr_boot : (wr s k v).boot = s.boot := rfl
@[simp] theorem wr_hwd : (wr s k v).hwd = s.hwd := rfl
@[simp] theorem wr_spdm : (wr s k v).spdm = s.spdm := rfl
@[simp] theorem wr_tap : (wr s k v).tap = s.tap := rfl
@[simp] theorem wr_devLatch : (wr s k v).devLatch = s.devLatch := rfl
@[simp] theorem wr_fltLatch : (wr s k v).fltLatch = s.fltLatch := rfl
@[simp] theorem wr_loaded : (wr s k v).loaded = s.loaded := rfl
@[simp] theorem wr_laneInit : (wr s k v).laneInit = s.laneInit := rfl
end

/-! ### setF writes `regs` only -/
section
variable (f : Fld) (x : Nat)
@[simp] theorem setF_pending : (setF s f x).pending = s.pending := rfl
@[simp] theorem setF_out : (setF s f x).out = s.out := rfl
@[simp] theorem setF_free : (setF s f x).free = s.free := rfl
@[simp] theorem setF_time : (setF s f x).time = s.time := rfl
@[simp] theorem setF_qTime : (setF s f x).qTime = s.qTime := rfl
@[simp] theorem setF_fTime : (setF s f x).fTime = s.fTime := rfl
@[simp] theorem setF_lTime : (setF s f x).lTime = s.lTime := rfl
@[simp] theorem setF_cTime : (setF s f x).cTime = s.cTime := rfl
@[simp] theorem setF_mTime : (setF s f x).mTime = s.mTime := rfl
@[simp] theorem setF_pTime : (setF s f x).pTime = s.pTime := rfl
@[simp] theorem setF_aTime : (setF s f x).aTime = s.aTime := rfl
@[simp] theorem setF_sTime : (setF s f x).sTime = s.sTime := rfl
@[simp] theorem setF_dram : (setF s f x).dram = s.dram := rfl
@[simp] theorem setF_l2 : (setF s f x).l2 = s.l2 := rfl
@[simp] theorem setF_ecc : (setF s f x).ecc = s.ecc := rfl
@[simp] theorem setF_scrub : (setF s f x).scrub = s.scrub := rfl
@[simp] theorem setF_clusters : (setF s f x).clusters = s.clusters := rfl
@[simp] theorem setF_sram : (setF s f x).sram = s.sram := rfl
@[simp] theorem setF_reqs : (setF s f x).reqs = s.reqs := rfl
@[simp] theorem setF_gens : (setF s f x).gens = s.gens := rfl
@[simp] theorem setF_dedup : (setF s f x).dedup = s.dedup := rfl
@[simp] theorem setF_sqs : (setF s f x).sqs = s.sqs := rfl
@[simp] theorem setF_cqs : (setF s f x).cqs = s.cqs := rfl
@[simp] theorem setF_admQ : (setF s f x).admQ = s.admQ := rfl
@[simp] theorem setF_cohorts : (setF s f x).cohorts = s.cohorts := rfl
@[simp] theorem setF_nextCohort : (setF s f x).nextCohort = s.nextCohort := rfl
@[simp] theorem setF_arb : (setF s f x).arb = s.arb := rfl
@[simp] theorem setF_scan : (setF s f x).scan = s.scan := rfl
@[simp] theorem setF_cancels : (setF s f x).cancels = s.cancels := rfl
@[simp] theorem setF_refills : (setF s f x).refills = s.refills := rfl
@[simp] theorem setF_regRefills : (setF s f x).regRefills = s.regRefills := rfl
@[simp] theorem setF_costs : (setF s f x).costs = s.costs := rfl
@[simp] theorem setF_lanes : (setF s f x).lanes = s.lanes := rfl
@[simp] theorem setF_ctxs : (setF s f x).ctxs = s.ctxs := rfl
@[simp] theorem setF_slots : (setF s f x).slots = s.slots := rfl
@[simp] theorem setF_slotGens : (setF s f x).slotGens = s.slotGens := rfl
@[simp] theorem setF_pages : (setF s f x).pages = s.pages := rfl
@[simp] theorem setF_retired : (setF s f x).retired = s.retired := rfl
@[simp] theorem setF_retiredFull : (setF s f x).retiredFull = s.retiredFull := rfl
@[simp] theorem setF_tens : (setF s f x).tens = s.tens := rfl
@[simp] theorem setF_parts : (setF s f x).parts = s.parts := rfl
@[simp] theorem setF_held : (setF s f x).held = s.held := rfl
@[simp] theorem setF_trace : (setF s f x).trace = s.trace := rfl
@[simp] theorem setF_assaySeen : (setF s f x).assaySeen = s.assaySeen := rfl
@[simp] theorem setF_groups : (setF s f x).groups = s.groups := rfl
@[simp] theorem setF_ports : (setF s f x).ports = s.ports := rfl
@[simp] theorem setF_reasm : (setF s f x).reasm = s.reasm := rfl
@[simp] theorem setF_fwd : (setF s f x).fwd = s.fwd := rfl
@[simp] theorem setF_msgNo : (setF s f x).msgNo = s.msgNo := rfl
@[simp] theorem setF_stampAt : (setF s f x).stampAt = s.stampAt := rfl
@[simp] theorem setF_fns : (setF s f x).fns = s.fns := rfl
@[simp] theorem setF_vecs : (setF s f x).vecs = s.vecs := rfl
@[simp] theorem setF_power : (setF s f x).power = s.power := rfl
@[simp] theorem setF_mbx : (setF s f x).mbx = s.mbx := rfl
@[simp] theorem setF_fltQueue : (setF s f x).fltQueue = s.fltQueue := rfl
@[simp] theorem setF_fltLog : (setF s f x).fltLog = s.fltLog := rfl
@[simp] theorem setF_fltLost : (setF s f x).fltLost = s.fltLost := rfl
@[simp] theorem setF_flash : (setF s f x).flash = s.flash := rfl
@[simp] theorem setF_spoiled : (setF s f x).spoiled = s.spoiled := rfl
@[simp] theorem setF_nvm : (setF s f x).nvm = s.nvm := rfl
@[simp] theorem setF_set : (setF s f x).set = s.set := rfl
@[simp] theorem setF_img : (setF s f x).img = s.img := rfl
@[simp] theorem setF_upd : (setF s f x).upd = s.upd := rfl
@[simp] theorem setF_boot : (setF s f x).boot = s.boot := rfl
@[simp] theorem setF_hwd : (setF s f x).hwd = s.hwd := rfl
@[simp] theorem setF_spdm : (setF s f x).spdm = s.spdm := rfl
@[simp] theorem setF_tap : (setF s f x).tap = s.tap := rfl
@[simp] theorem setF_devLatch : (setF s f x).devLatch = s.devLatch := rfl
@[simp] theorem setF_fltLatch : (setF s f x).fltLatch = s.fltLatch := rfl
@[simp] theorem setF_loaded : (setF s f x).loaded = s.loaded := rfl
@[simp] theorem setF_laneInit : (setF s f x).laneInit = s.laneInit := rfl
end

/-! ### bump writes `regs` only -/
section
variable (f : Fld) (x : Nat)
@[simp] theorem bump_pending : (bump s f x).pending = s.pending := rfl
@[simp] theorem bump_out : (bump s f x).out = s.out := rfl
@[simp] theorem bump_free : (bump s f x).free = s.free := rfl
@[simp] theorem bump_time : (bump s f x).time = s.time := rfl
@[simp] theorem bump_qTime : (bump s f x).qTime = s.qTime := rfl
@[simp] theorem bump_fTime : (bump s f x).fTime = s.fTime := rfl
@[simp] theorem bump_lTime : (bump s f x).lTime = s.lTime := rfl
@[simp] theorem bump_cTime : (bump s f x).cTime = s.cTime := rfl
@[simp] theorem bump_mTime : (bump s f x).mTime = s.mTime := rfl
@[simp] theorem bump_pTime : (bump s f x).pTime = s.pTime := rfl
@[simp] theorem bump_aTime : (bump s f x).aTime = s.aTime := rfl
@[simp] theorem bump_sTime : (bump s f x).sTime = s.sTime := rfl
@[simp] theorem bump_dram : (bump s f x).dram = s.dram := rfl
@[simp] theorem bump_l2 : (bump s f x).l2 = s.l2 := rfl
@[simp] theorem bump_ecc : (bump s f x).ecc = s.ecc := rfl
@[simp] theorem bump_scrub : (bump s f x).scrub = s.scrub := rfl
@[simp] theorem bump_clusters : (bump s f x).clusters = s.clusters := rfl
@[simp] theorem bump_sram : (bump s f x).sram = s.sram := rfl
@[simp] theorem bump_reqs : (bump s f x).reqs = s.reqs := rfl
@[simp] theorem bump_gens : (bump s f x).gens = s.gens := rfl
@[simp] theorem bump_dedup : (bump s f x).dedup = s.dedup := rfl
@[simp] theorem bump_sqs : (bump s f x).sqs = s.sqs := rfl
@[simp] theorem bump_cqs : (bump s f x).cqs = s.cqs := rfl
@[simp] theorem bump_admQ : (bump s f x).admQ = s.admQ := rfl
@[simp] theorem bump_cohorts : (bump s f x).cohorts = s.cohorts := rfl
@[simp] theorem bump_nextCohort : (bump s f x).nextCohort = s.nextCohort := rfl
@[simp] theorem bump_arb : (bump s f x).arb = s.arb := rfl
@[simp] theorem bump_scan : (bump s f x).scan = s.scan := rfl
@[simp] theorem bump_cancels : (bump s f x).cancels = s.cancels := rfl
@[simp] theorem bump_refills : (bump s f x).refills = s.refills := rfl
@[simp] theorem bump_regRefills : (bump s f x).regRefills = s.regRefills := rfl
@[simp] theorem bump_costs : (bump s f x).costs = s.costs := rfl
@[simp] theorem bump_lanes : (bump s f x).lanes = s.lanes := rfl
@[simp] theorem bump_ctxs : (bump s f x).ctxs = s.ctxs := rfl
@[simp] theorem bump_slots : (bump s f x).slots = s.slots := rfl
@[simp] theorem bump_slotGens : (bump s f x).slotGens = s.slotGens := rfl
@[simp] theorem bump_pages : (bump s f x).pages = s.pages := rfl
@[simp] theorem bump_retired : (bump s f x).retired = s.retired := rfl
@[simp] theorem bump_retiredFull : (bump s f x).retiredFull = s.retiredFull := rfl
@[simp] theorem bump_tens : (bump s f x).tens = s.tens := rfl
@[simp] theorem bump_parts : (bump s f x).parts = s.parts := rfl
@[simp] theorem bump_held : (bump s f x).held = s.held := rfl
@[simp] theorem bump_trace : (bump s f x).trace = s.trace := rfl
@[simp] theorem bump_assaySeen : (bump s f x).assaySeen = s.assaySeen := rfl
@[simp] theorem bump_groups : (bump s f x).groups = s.groups := rfl
@[simp] theorem bump_ports : (bump s f x).ports = s.ports := rfl
@[simp] theorem bump_reasm : (bump s f x).reasm = s.reasm := rfl
@[simp] theorem bump_fwd : (bump s f x).fwd = s.fwd := rfl
@[simp] theorem bump_msgNo : (bump s f x).msgNo = s.msgNo := rfl
@[simp] theorem bump_stampAt : (bump s f x).stampAt = s.stampAt := rfl
@[simp] theorem bump_fns : (bump s f x).fns = s.fns := rfl
@[simp] theorem bump_vecs : (bump s f x).vecs = s.vecs := rfl
@[simp] theorem bump_power : (bump s f x).power = s.power := rfl
@[simp] theorem bump_mbx : (bump s f x).mbx = s.mbx := rfl
@[simp] theorem bump_fltQueue : (bump s f x).fltQueue = s.fltQueue := rfl
@[simp] theorem bump_fltLog : (bump s f x).fltLog = s.fltLog := rfl
@[simp] theorem bump_fltLost : (bump s f x).fltLost = s.fltLost := rfl
@[simp] theorem bump_flash : (bump s f x).flash = s.flash := rfl
@[simp] theorem bump_spoiled : (bump s f x).spoiled = s.spoiled := rfl
@[simp] theorem bump_nvm : (bump s f x).nvm = s.nvm := rfl
@[simp] theorem bump_set : (bump s f x).set = s.set := rfl
@[simp] theorem bump_img : (bump s f x).img = s.img := rfl
@[simp] theorem bump_upd : (bump s f x).upd = s.upd := rfl
@[simp] theorem bump_boot : (bump s f x).boot = s.boot := rfl
@[simp] theorem bump_hwd : (bump s f x).hwd = s.hwd := rfl
@[simp] theorem bump_spdm : (bump s f x).spdm = s.spdm := rfl
@[simp] theorem bump_tap : (bump s f x).tap = s.tap := rfl
@[simp] theorem bump_devLatch : (bump s f x).devLatch = s.devLatch := rfl
@[simp] theorem bump_fltLatch : (bump s f x).fltLatch = s.fltLatch := rfl
@[simp] theorem bump_loaded : (bump s f x).loaded = s.loaded := rfl
@[simp] theorem bump_laneInit : (bump s f x).laneInit = s.laneInit := rfl
end

/-! ### bumpSat writes `regs` only -/
section
variable (f : Fld) (x : Nat)
@[simp] theorem bumpSat_pending : (bumpSat s f x).pending = s.pending := rfl
@[simp] theorem bumpSat_out : (bumpSat s f x).out = s.out := rfl
@[simp] theorem bumpSat_free : (bumpSat s f x).free = s.free := rfl
@[simp] theorem bumpSat_time : (bumpSat s f x).time = s.time := rfl
@[simp] theorem bumpSat_qTime : (bumpSat s f x).qTime = s.qTime := rfl
@[simp] theorem bumpSat_fTime : (bumpSat s f x).fTime = s.fTime := rfl
@[simp] theorem bumpSat_lTime : (bumpSat s f x).lTime = s.lTime := rfl
@[simp] theorem bumpSat_cTime : (bumpSat s f x).cTime = s.cTime := rfl
@[simp] theorem bumpSat_mTime : (bumpSat s f x).mTime = s.mTime := rfl
@[simp] theorem bumpSat_pTime : (bumpSat s f x).pTime = s.pTime := rfl
@[simp] theorem bumpSat_aTime : (bumpSat s f x).aTime = s.aTime := rfl
@[simp] theorem bumpSat_sTime : (bumpSat s f x).sTime = s.sTime := rfl
@[simp] theorem bumpSat_dram : (bumpSat s f x).dram = s.dram := rfl
@[simp] theorem bumpSat_l2 : (bumpSat s f x).l2 = s.l2 := rfl
@[simp] theorem bumpSat_ecc : (bumpSat s f x).ecc = s.ecc := rfl
@[simp] theorem bumpSat_scrub : (bumpSat s f x).scrub = s.scrub := rfl
@[simp] theorem bumpSat_clusters : (bumpSat s f x).clusters = s.clusters := rfl
@[simp] theorem bumpSat_sram : (bumpSat s f x).sram = s.sram := rfl
@[simp] theorem bumpSat_reqs : (bumpSat s f x).reqs = s.reqs := rfl
@[simp] theorem bumpSat_gens : (bumpSat s f x).gens = s.gens := rfl
@[simp] theorem bumpSat_dedup : (bumpSat s f x).dedup = s.dedup := rfl
@[simp] theorem bumpSat_sqs : (bumpSat s f x).sqs = s.sqs := rfl
@[simp] theorem bumpSat_cqs : (bumpSat s f x).cqs = s.cqs := rfl
@[simp] theorem bumpSat_admQ : (bumpSat s f x).admQ = s.admQ := rfl
@[simp] theorem bumpSat_cohorts : (bumpSat s f x).cohorts = s.cohorts := rfl
@[simp] theorem bumpSat_nextCohort : (bumpSat s f x).nextCohort = s.nextCohort := rfl
@[simp] theorem bumpSat_arb : (bumpSat s f x).arb = s.arb := rfl
@[simp] theorem bumpSat_scan : (bumpSat s f x).scan = s.scan := rfl
@[simp] theorem bumpSat_cancels : (bumpSat s f x).cancels = s.cancels := rfl
@[simp] theorem bumpSat_refills : (bumpSat s f x).refills = s.refills := rfl
@[simp] theorem bumpSat_regRefills : (bumpSat s f x).regRefills = s.regRefills := rfl
@[simp] theorem bumpSat_costs : (bumpSat s f x).costs = s.costs := rfl
@[simp] theorem bumpSat_lanes : (bumpSat s f x).lanes = s.lanes := rfl
@[simp] theorem bumpSat_ctxs : (bumpSat s f x).ctxs = s.ctxs := rfl
@[simp] theorem bumpSat_slots : (bumpSat s f x).slots = s.slots := rfl
@[simp] theorem bumpSat_slotGens : (bumpSat s f x).slotGens = s.slotGens := rfl
@[simp] theorem bumpSat_pages : (bumpSat s f x).pages = s.pages := rfl
@[simp] theorem bumpSat_retired : (bumpSat s f x).retired = s.retired := rfl
@[simp] theorem bumpSat_retiredFull : (bumpSat s f x).retiredFull = s.retiredFull := rfl
@[simp] theorem bumpSat_tens : (bumpSat s f x).tens = s.tens := rfl
@[simp] theorem bumpSat_parts : (bumpSat s f x).parts = s.parts := rfl
@[simp] theorem bumpSat_held : (bumpSat s f x).held = s.held := rfl
@[simp] theorem bumpSat_trace : (bumpSat s f x).trace = s.trace := rfl
@[simp] theorem bumpSat_assaySeen : (bumpSat s f x).assaySeen = s.assaySeen := rfl
@[simp] theorem bumpSat_groups : (bumpSat s f x).groups = s.groups := rfl
@[simp] theorem bumpSat_ports : (bumpSat s f x).ports = s.ports := rfl
@[simp] theorem bumpSat_reasm : (bumpSat s f x).reasm = s.reasm := rfl
@[simp] theorem bumpSat_fwd : (bumpSat s f x).fwd = s.fwd := rfl
@[simp] theorem bumpSat_msgNo : (bumpSat s f x).msgNo = s.msgNo := rfl
@[simp] theorem bumpSat_stampAt : (bumpSat s f x).stampAt = s.stampAt := rfl
@[simp] theorem bumpSat_fns : (bumpSat s f x).fns = s.fns := rfl
@[simp] theorem bumpSat_vecs : (bumpSat s f x).vecs = s.vecs := rfl
@[simp] theorem bumpSat_power : (bumpSat s f x).power = s.power := rfl
@[simp] theorem bumpSat_mbx : (bumpSat s f x).mbx = s.mbx := rfl
@[simp] theorem bumpSat_fltQueue : (bumpSat s f x).fltQueue = s.fltQueue := rfl
@[simp] theorem bumpSat_fltLog : (bumpSat s f x).fltLog = s.fltLog := rfl
@[simp] theorem bumpSat_fltLost : (bumpSat s f x).fltLost = s.fltLost := rfl
@[simp] theorem bumpSat_flash : (bumpSat s f x).flash = s.flash := rfl
@[simp] theorem bumpSat_spoiled : (bumpSat s f x).spoiled = s.spoiled := rfl
@[simp] theorem bumpSat_nvm : (bumpSat s f x).nvm = s.nvm := rfl
@[simp] theorem bumpSat_set : (bumpSat s f x).set = s.set := rfl
@[simp] theorem bumpSat_img : (bumpSat s f x).img = s.img := rfl
@[simp] theorem bumpSat_upd : (bumpSat s f x).upd = s.upd := rfl
@[simp] theorem bumpSat_boot : (bumpSat s f x).boot = s.boot := rfl
@[simp] theorem bumpSat_hwd : (bumpSat s f x).hwd = s.hwd := rfl
@[simp] theorem bumpSat_spdm : (bumpSat s f x).spdm = s.spdm := rfl
@[simp] theorem bumpSat_tap : (bumpSat s f x).tap = s.tap := rfl
@[simp] theorem bumpSat_devLatch : (bumpSat s f x).devLatch = s.devLatch := rfl
@[simp] theorem bumpSat_fltLatch : (bumpSat s f x).fltLatch = s.fltLatch := rfl
@[simp] theorem bumpSat_loaded : (bumpSat s f x).loaded = s.loaded := rfl
@[simp] theorem bumpSat_laneInit : (bumpSat s f x).laneInit = s.laneInit := rfl
end

/-! ### lower writes `regs` only -/
section
variable (f : Fld) (x : Nat)
@[simp] theorem lower_pending : (lower s f x).pending = s.pending := rfl
@[simp] theorem lower_out : (lower s f x).out = s.out := rfl
@[simp] theorem lower_free : (lower s f x).free = s.free := rfl
@[simp] theorem lower_time : (lower s f x).time = s.time := rfl
@[simp] theorem lower_qTime : (lower s f x).qTime = s.qTime := rfl
@[simp] theorem lower_fTime : (lower s f x).fTime = s.fTime := rfl
@[simp] theorem lower_lTime : (lower s f x).lTime = s.lTime := rfl
@[simp] theorem lower_cTime : (lower s f x).cTime = s.cTime := rfl
@[simp] theorem lower_mTime : (lower s f x).mTime = s.mTime := rfl
@[simp] theorem lower_pTime : (lower s f x).pTime = s.pTime := rfl
@[simp] theorem lower_aTime : (lower s f x).aTime = s.aTime := rfl
@[simp] theorem lower_sTime : (lower s f x).sTime = s.sTime := rfl
@[simp] theorem lower_dram : (lower s f x).dram = s.dram := rfl
@[simp] theorem lower_l2 : (lower s f x).l2 = s.l2 := rfl
@[simp] theorem lower_ecc : (lower s f x).ecc = s.ecc := rfl
@[simp] theorem lower_scrub : (lower s f x).scrub = s.scrub := rfl
@[simp] theorem lower_clusters : (lower s f x).clusters = s.clusters := rfl
@[simp] theorem lower_sram : (lower s f x).sram = s.sram := rfl
@[simp] theorem lower_reqs : (lower s f x).reqs = s.reqs := rfl
@[simp] theorem lower_gens : (lower s f x).gens = s.gens := rfl
@[simp] theorem lower_dedup : (lower s f x).dedup = s.dedup := rfl
@[simp] theorem lower_sqs : (lower s f x).sqs = s.sqs := rfl
@[simp] theorem lower_cqs : (lower s f x).cqs = s.cqs := rfl
@[simp] theorem lower_admQ : (lower s f x).admQ = s.admQ := rfl
@[simp] theorem lower_cohorts : (lower s f x).cohorts = s.cohorts := rfl
@[simp] theorem lower_nextCohort : (lower s f x).nextCohort = s.nextCohort := rfl
@[simp] theorem lower_arb : (lower s f x).arb = s.arb := rfl
@[simp] theorem lower_scan : (lower s f x).scan = s.scan := rfl
@[simp] theorem lower_cancels : (lower s f x).cancels = s.cancels := rfl
@[simp] theorem lower_refills : (lower s f x).refills = s.refills := rfl
@[simp] theorem lower_regRefills : (lower s f x).regRefills = s.regRefills := rfl
@[simp] theorem lower_costs : (lower s f x).costs = s.costs := rfl
@[simp] theorem lower_lanes : (lower s f x).lanes = s.lanes := rfl
@[simp] theorem lower_ctxs : (lower s f x).ctxs = s.ctxs := rfl
@[simp] theorem lower_slots : (lower s f x).slots = s.slots := rfl
@[simp] theorem lower_slotGens : (lower s f x).slotGens = s.slotGens := rfl
@[simp] theorem lower_pages : (lower s f x).pages = s.pages := rfl
@[simp] theorem lower_retired : (lower s f x).retired = s.retired := rfl
@[simp] theorem lower_retiredFull : (lower s f x).retiredFull = s.retiredFull := rfl
@[simp] theorem lower_tens : (lower s f x).tens = s.tens := rfl
@[simp] theorem lower_parts : (lower s f x).parts = s.parts := rfl
@[simp] theorem lower_held : (lower s f x).held = s.held := rfl
@[simp] theorem lower_trace : (lower s f x).trace = s.trace := rfl
@[simp] theorem lower_assaySeen : (lower s f x).assaySeen = s.assaySeen := rfl
@[simp] theorem lower_groups : (lower s f x).groups = s.groups := rfl
@[simp] theorem lower_ports : (lower s f x).ports = s.ports := rfl
@[simp] theorem lower_reasm : (lower s f x).reasm = s.reasm := rfl
@[simp] theorem lower_fwd : (lower s f x).fwd = s.fwd := rfl
@[simp] theorem lower_msgNo : (lower s f x).msgNo = s.msgNo := rfl
@[simp] theorem lower_stampAt : (lower s f x).stampAt = s.stampAt := rfl
@[simp] theorem lower_fns : (lower s f x).fns = s.fns := rfl
@[simp] theorem lower_vecs : (lower s f x).vecs = s.vecs := rfl
@[simp] theorem lower_power : (lower s f x).power = s.power := rfl
@[simp] theorem lower_mbx : (lower s f x).mbx = s.mbx := rfl
@[simp] theorem lower_fltQueue : (lower s f x).fltQueue = s.fltQueue := rfl
@[simp] theorem lower_fltLog : (lower s f x).fltLog = s.fltLog := rfl
@[simp] theorem lower_fltLost : (lower s f x).fltLost = s.fltLost := rfl
@[simp] theorem lower_flash : (lower s f x).flash = s.flash := rfl
@[simp] theorem lower_spoiled : (lower s f x).spoiled = s.spoiled := rfl
@[simp] theorem lower_nvm : (lower s f x).nvm = s.nvm := rfl
@[simp] theorem lower_set : (lower s f x).set = s.set := rfl
@[simp] theorem lower_img : (lower s f x).img = s.img := rfl
@[simp] theorem lower_upd : (lower s f x).upd = s.upd := rfl
@[simp] theorem lower_boot : (lower s f x).boot = s.boot := rfl
@[simp] theorem lower_hwd : (lower s f x).hwd = s.hwd := rfl
@[simp] theorem lower_spdm : (lower s f x).spdm = s.spdm := rfl
@[simp] theorem lower_tap : (lower s f x).tap = s.tap := rfl
@[simp] theorem lower_devLatch : (lower s f x).devLatch = s.devLatch := rfl
@[simp] theorem lower_fltLatch : (lower s f x).fltLatch = s.fltLatch := rfl
@[simp] theorem lower_loaded : (lower s f x).loaded = s.loaded := rfl
@[simp] theorem lower_laneInit : (lower s f x).laneInit = s.laneInit := rfl
end

/-! ### resetReg writes `regs` only -/
section
variable (k : Nat)
@[simp] theorem resetReg_pending : (resetReg s k).pending = s.pending := rfl
@[simp] theorem resetReg_out : (resetReg s k).out = s.out := rfl
@[simp] theorem resetReg_free : (resetReg s k).free = s.free := rfl
@[simp] theorem resetReg_time : (resetReg s k).time = s.time := rfl
@[simp] theorem resetReg_qTime : (resetReg s k).qTime = s.qTime := rfl
@[simp] theorem resetReg_fTime : (resetReg s k).fTime = s.fTime := rfl
@[simp] theorem resetReg_lTime : (resetReg s k).lTime = s.lTime := rfl
@[simp] theorem resetReg_cTime : (resetReg s k).cTime = s.cTime := rfl
@[simp] theorem resetReg_mTime : (resetReg s k).mTime = s.mTime := rfl
@[simp] theorem resetReg_pTime : (resetReg s k).pTime = s.pTime := rfl
@[simp] theorem resetReg_aTime : (resetReg s k).aTime = s.aTime := rfl
@[simp] theorem resetReg_sTime : (resetReg s k).sTime = s.sTime := rfl
@[simp] theorem resetReg_dram : (resetReg s k).dram = s.dram := rfl
@[simp] theorem resetReg_l2 : (resetReg s k).l2 = s.l2 := rfl
@[simp] theorem resetReg_ecc : (resetReg s k).ecc = s.ecc := rfl
@[simp] theorem resetReg_scrub : (resetReg s k).scrub = s.scrub := rfl
@[simp] theorem resetReg_clusters : (resetReg s k).clusters = s.clusters := rfl
@[simp] theorem resetReg_sram : (resetReg s k).sram = s.sram := rfl
@[simp] theorem resetReg_reqs : (resetReg s k).reqs = s.reqs := rfl
@[simp] theorem resetReg_gens : (resetReg s k).gens = s.gens := rfl
@[simp] theorem resetReg_dedup : (resetReg s k).dedup = s.dedup := rfl
@[simp] theorem resetReg_sqs : (resetReg s k).sqs = s.sqs := rfl
@[simp] theorem resetReg_cqs : (resetReg s k).cqs = s.cqs := rfl
@[simp] theorem resetReg_admQ : (resetReg s k).admQ = s.admQ := rfl
@[simp] theorem resetReg_cohorts : (resetReg s k).cohorts = s.cohorts := rfl
@[simp] theorem resetReg_nextCohort : (resetReg s k).nextCohort = s.nextCohort := rfl
@[simp] theorem resetReg_arb : (resetReg s k).arb = s.arb := rfl
@[simp] theorem resetReg_scan : (resetReg s k).scan = s.scan := rfl
@[simp] theorem resetReg_cancels : (resetReg s k).cancels = s.cancels := rfl
@[simp] theorem resetReg_refills : (resetReg s k).refills = s.refills := rfl
@[simp] theorem resetReg_regRefills : (resetReg s k).regRefills = s.regRefills := rfl
@[simp] theorem resetReg_costs : (resetReg s k).costs = s.costs := rfl
@[simp] theorem resetReg_lanes : (resetReg s k).lanes = s.lanes := rfl
@[simp] theorem resetReg_ctxs : (resetReg s k).ctxs = s.ctxs := rfl
@[simp] theorem resetReg_slots : (resetReg s k).slots = s.slots := rfl
@[simp] theorem resetReg_slotGens : (resetReg s k).slotGens = s.slotGens := rfl
@[simp] theorem resetReg_pages : (resetReg s k).pages = s.pages := rfl
@[simp] theorem resetReg_retired : (resetReg s k).retired = s.retired := rfl
@[simp] theorem resetReg_retiredFull : (resetReg s k).retiredFull = s.retiredFull := rfl
@[simp] theorem resetReg_tens : (resetReg s k).tens = s.tens := rfl
@[simp] theorem resetReg_parts : (resetReg s k).parts = s.parts := rfl
@[simp] theorem resetReg_held : (resetReg s k).held = s.held := rfl
@[simp] theorem resetReg_trace : (resetReg s k).trace = s.trace := rfl
@[simp] theorem resetReg_assaySeen : (resetReg s k).assaySeen = s.assaySeen := rfl
@[simp] theorem resetReg_groups : (resetReg s k).groups = s.groups := rfl
@[simp] theorem resetReg_ports : (resetReg s k).ports = s.ports := rfl
@[simp] theorem resetReg_reasm : (resetReg s k).reasm = s.reasm := rfl
@[simp] theorem resetReg_fwd : (resetReg s k).fwd = s.fwd := rfl
@[simp] theorem resetReg_msgNo : (resetReg s k).msgNo = s.msgNo := rfl
@[simp] theorem resetReg_stampAt : (resetReg s k).stampAt = s.stampAt := rfl
@[simp] theorem resetReg_fns : (resetReg s k).fns = s.fns := rfl
@[simp] theorem resetReg_vecs : (resetReg s k).vecs = s.vecs := rfl
@[simp] theorem resetReg_power : (resetReg s k).power = s.power := rfl
@[simp] theorem resetReg_mbx : (resetReg s k).mbx = s.mbx := rfl
@[simp] theorem resetReg_fltQueue : (resetReg s k).fltQueue = s.fltQueue := rfl
@[simp] theorem resetReg_fltLog : (resetReg s k).fltLog = s.fltLog := rfl
@[simp] theorem resetReg_fltLost : (resetReg s k).fltLost = s.fltLost := rfl
@[simp] theorem resetReg_flash : (resetReg s k).flash = s.flash := rfl
@[simp] theorem resetReg_spoiled : (resetReg s k).spoiled = s.spoiled := rfl
@[simp] theorem resetReg_nvm : (resetReg s k).nvm = s.nvm := rfl
@[simp] theorem resetReg_set : (resetReg s k).set = s.set := rfl
@[simp] theorem resetReg_img : (resetReg s k).img = s.img := rfl
@[simp] theorem resetReg_upd : (resetReg s k).upd = s.upd := rfl
@[simp] theorem resetReg_boot : (resetReg s k).boot = s.boot := rfl
@[simp] theorem resetReg_hwd : (resetReg s k).hwd = s.hwd := rfl
@[simp] theorem resetReg_spdm : (resetReg s k).spdm = s.spdm := rfl
@[simp] theorem resetReg_tap : (resetReg s k).tap = s.tap := rfl
@[simp] theorem resetReg_devLatch : (resetReg s k).devLatch = s.devLatch := rfl
@[simp] theorem resetReg_fltLatch : (resetReg s k).fltLatch = s.fltLatch := rfl
@[simp] theorem resetReg_loaded : (resetReg s k).loaded = s.loaded := rfl
@[simp] theorem resetReg_laneInit : (resetReg s k).laneInit = s.laneInit := rfl
end

/-! ### resetRegs writes `regs` only -/
section
variable (p : Nat → Bool)
@[simp] theorem resetRegs_pending : (resetRegs s p).pending = s.pending := rfl
@[simp] theorem resetRegs_out : (resetRegs s p).out = s.out := rfl
@[simp] theorem resetRegs_free : (resetRegs s p).free = s.free := rfl
@[simp] theorem resetRegs_time : (resetRegs s p).time = s.time := rfl
@[simp] theorem resetRegs_qTime : (resetRegs s p).qTime = s.qTime := rfl
@[simp] theorem resetRegs_fTime : (resetRegs s p).fTime = s.fTime := rfl
@[simp] theorem resetRegs_lTime : (resetRegs s p).lTime = s.lTime := rfl
@[simp] theorem resetRegs_cTime : (resetRegs s p).cTime = s.cTime := rfl
@[simp] theorem resetRegs_mTime : (resetRegs s p).mTime = s.mTime := rfl
@[simp] theorem resetRegs_pTime : (resetRegs s p).pTime = s.pTime := rfl
@[simp] theorem resetRegs_aTime : (resetRegs s p).aTime = s.aTime := rfl
@[simp] theorem resetRegs_sTime : (resetRegs s p).sTime = s.sTime := rfl
@[simp] theorem resetRegs_dram : (resetRegs s p).dram = s.dram := rfl
@[simp] theorem resetRegs_l2 : (resetRegs s p).l2 = s.l2 := rfl
@[simp] theorem resetRegs_ecc : (resetRegs s p).ecc = s.ecc := rfl
@[simp] theorem resetRegs_scrub : (resetRegs s p).scrub = s.scrub := rfl
@[simp] theorem resetRegs_clusters : (resetRegs s p).clusters = s.clusters := rfl
@[simp] theorem resetRegs_sram : (resetRegs s p).sram = s.sram := rfl
@[simp] theorem resetRegs_reqs : (resetRegs s p).reqs = s.reqs := rfl
@[simp] theorem resetRegs_gens : (resetRegs s p).gens = s.gens := rfl
@[simp] theorem resetRegs_dedup : (resetRegs s p).dedup = s.dedup := rfl
@[simp] theorem resetRegs_sqs : (resetRegs s p).sqs = s.sqs := rfl
@[simp] theorem resetRegs_cqs : (resetRegs s p).cqs = s.cqs := rfl
@[simp] theorem resetRegs_admQ : (resetRegs s p).admQ = s.admQ := rfl
@[simp] theorem resetRegs_cohorts : (resetRegs s p).cohorts = s.cohorts := rfl
@[simp] theorem resetRegs_nextCohort : (resetRegs s p).nextCohort = s.nextCohort := rfl
@[simp] theorem resetRegs_arb : (resetRegs s p).arb = s.arb := rfl
@[simp] theorem resetRegs_scan : (resetRegs s p).scan = s.scan := rfl
@[simp] theorem resetRegs_cancels : (resetRegs s p).cancels = s.cancels := rfl
@[simp] theorem resetRegs_refills : (resetRegs s p).refills = s.refills := rfl
@[simp] theorem resetRegs_regRefills : (resetRegs s p).regRefills = s.regRefills := rfl
@[simp] theorem resetRegs_costs : (resetRegs s p).costs = s.costs := rfl
@[simp] theorem resetRegs_lanes : (resetRegs s p).lanes = s.lanes := rfl
@[simp] theorem resetRegs_ctxs : (resetRegs s p).ctxs = s.ctxs := rfl
@[simp] theorem resetRegs_slots : (resetRegs s p).slots = s.slots := rfl
@[simp] theorem resetRegs_slotGens : (resetRegs s p).slotGens = s.slotGens := rfl
@[simp] theorem resetRegs_pages : (resetRegs s p).pages = s.pages := rfl
@[simp] theorem resetRegs_retired : (resetRegs s p).retired = s.retired := rfl
@[simp] theorem resetRegs_retiredFull : (resetRegs s p).retiredFull = s.retiredFull := rfl
@[simp] theorem resetRegs_tens : (resetRegs s p).tens = s.tens := rfl
@[simp] theorem resetRegs_parts : (resetRegs s p).parts = s.parts := rfl
@[simp] theorem resetRegs_held : (resetRegs s p).held = s.held := rfl
@[simp] theorem resetRegs_trace : (resetRegs s p).trace = s.trace := rfl
@[simp] theorem resetRegs_assaySeen : (resetRegs s p).assaySeen = s.assaySeen := rfl
@[simp] theorem resetRegs_groups : (resetRegs s p).groups = s.groups := rfl
@[simp] theorem resetRegs_ports : (resetRegs s p).ports = s.ports := rfl
@[simp] theorem resetRegs_reasm : (resetRegs s p).reasm = s.reasm := rfl
@[simp] theorem resetRegs_fwd : (resetRegs s p).fwd = s.fwd := rfl
@[simp] theorem resetRegs_msgNo : (resetRegs s p).msgNo = s.msgNo := rfl
@[simp] theorem resetRegs_stampAt : (resetRegs s p).stampAt = s.stampAt := rfl
@[simp] theorem resetRegs_fns : (resetRegs s p).fns = s.fns := rfl
@[simp] theorem resetRegs_vecs : (resetRegs s p).vecs = s.vecs := rfl
@[simp] theorem resetRegs_power : (resetRegs s p).power = s.power := rfl
@[simp] theorem resetRegs_mbx : (resetRegs s p).mbx = s.mbx := rfl
@[simp] theorem resetRegs_fltQueue : (resetRegs s p).fltQueue = s.fltQueue := rfl
@[simp] theorem resetRegs_fltLog : (resetRegs s p).fltLog = s.fltLog := rfl
@[simp] theorem resetRegs_fltLost : (resetRegs s p).fltLost = s.fltLost := rfl
@[simp] theorem resetRegs_flash : (resetRegs s p).flash = s.flash := rfl
@[simp] theorem resetRegs_spoiled : (resetRegs s p).spoiled = s.spoiled := rfl
@[simp] theorem resetRegs_nvm : (resetRegs s p).nvm = s.nvm := rfl
@[simp] theorem resetRegs_set : (resetRegs s p).set = s.set := rfl
@[simp] theorem resetRegs_img : (resetRegs s p).img = s.img := rfl
@[simp] theorem resetRegs_upd : (resetRegs s p).upd = s.upd := rfl
@[simp] theorem resetRegs_boot : (resetRegs s p).boot = s.boot := rfl
@[simp] theorem resetRegs_hwd : (resetRegs s p).hwd = s.hwd := rfl
@[simp] theorem resetRegs_spdm : (resetRegs s p).spdm = s.spdm := rfl
@[simp] theorem resetRegs_tap : (resetRegs s p).tap = s.tap := rfl
@[simp] theorem resetRegs_devLatch : (resetRegs s p).devLatch = s.devLatch := rfl
@[simp] theorem resetRegs_fltLatch : (resetRegs s p).fltLatch = s.fltLatch := rfl
@[simp] theorem resetRegs_loaded : (resetRegs s p).loaded = s.loaded := rfl
@[simp] theorem resetRegs_laneInit : (resetRegs s p).laneInit = s.laneInit := rfl
end

/-! ### setLane writes `lanes` only -/
section
variable (p : Nat) (x : Lane)
@[simp] theorem setLane_pending : (setLane s p x).pending = s.pending := rfl
@[simp] theorem setLane_out : (setLane s p x).out = s.out := rfl
@[simp] theorem setLane_free : (setLane s p x).free = s.free := rfl
@[simp] theorem setLane_time : (setLane s p x).time = s.time := rfl
@[simp] theorem setLane_qTime : (setLane s p x).qTime = s.qTime := rfl
@[simp] theorem setLane_fTime : (setLane s p x).fTime = s.fTime := rfl
@[simp] theorem setLane_lTime : (setLane s p x).lTime = s.lTime := rfl
@[simp] theorem setLane_cTime : (setLane s p x).cTime = s.cTime := rfl
@[simp] theorem setLane_mTime : (setLane s p x).mTime = s.mTime := rfl
@[simp] theorem setLane_pTime : (setLane s p x).pTime = s.pTime := rfl
@[simp] theorem setLane_aTime : (setLane s p x).aTime = s.aTime := rfl
@[simp] theorem setLane_sTime : (setLane s p x).sTime = s.sTime := rfl
@[simp] theorem setLane_regs : (setLane s p x).regs = s.regs := rfl
@[simp] theorem setLane_dram : (setLane s p x).dram = s.dram := rfl
@[simp] theorem setLane_l2 : (setLane s p x).l2 = s.l2 := rfl
@[simp] theorem setLane_ecc : (setLane s p x).ecc = s.ecc := rfl
@[simp] theorem setLane_scrub : (setLane s p x).scrub = s.scrub := rfl
@[simp] theorem setLane_clusters : (setLane s p x).clusters = s.clusters := rfl
@[simp] theorem setLane_sram : (setLane s p x).sram = s.sram := rfl
@[simp] theorem setLane_reqs : (setLane s p x).reqs = s.reqs := rfl
@[simp] theorem setLane_gens : (setLane s p x).gens = s.gens := rfl
@[simp] theorem setLane_dedup : (setLane s p x).dedup = s.dedup := rfl
@[simp] theorem setLane_sqs : (setLane s p x).sqs = s.sqs := rfl
@[simp] theorem setLane_cqs : (setLane s p x).cqs = s.cqs := rfl
@[simp] theorem setLane_admQ : (setLane s p x).admQ = s.admQ := rfl
@[simp] theorem setLane_cohorts : (setLane s p x).cohorts = s.cohorts := rfl
@[simp] theorem setLane_nextCohort : (setLane s p x).nextCohort = s.nextCohort := rfl
@[simp] theorem setLane_arb : (setLane s p x).arb = s.arb := rfl
@[simp] theorem setLane_scan : (setLane s p x).scan = s.scan := rfl
@[simp] theorem setLane_cancels : (setLane s p x).cancels = s.cancels := rfl
@[simp] theorem setLane_refills : (setLane s p x).refills = s.refills := rfl
@[simp] theorem setLane_regRefills : (setLane s p x).regRefills = s.regRefills := rfl
@[simp] theorem setLane_costs : (setLane s p x).costs = s.costs := rfl
@[simp] theorem setLane_ctxs : (setLane s p x).ctxs = s.ctxs := rfl
@[simp] theorem setLane_slots : (setLane s p x).slots = s.slots := rfl
@[simp] theorem setLane_slotGens : (setLane s p x).slotGens = s.slotGens := rfl
@[simp] theorem setLane_pages : (setLane s p x).pages = s.pages := rfl
@[simp] theorem setLane_retired : (setLane s p x).retired = s.retired := rfl
@[simp] theorem setLane_retiredFull : (setLane s p x).retiredFull = s.retiredFull := rfl
@[simp] theorem setLane_tens : (setLane s p x).tens = s.tens := rfl
@[simp] theorem setLane_parts : (setLane s p x).parts = s.parts := rfl
@[simp] theorem setLane_held : (setLane s p x).held = s.held := rfl
@[simp] theorem setLane_trace : (setLane s p x).trace = s.trace := rfl
@[simp] theorem setLane_assaySeen : (setLane s p x).assaySeen = s.assaySeen := rfl
@[simp] theorem setLane_groups : (setLane s p x).groups = s.groups := rfl
@[simp] theorem setLane_ports : (setLane s p x).ports = s.ports := rfl
@[simp] theorem setLane_reasm : (setLane s p x).reasm = s.reasm := rfl
@[simp] theorem setLane_fwd : (setLane s p x).fwd = s.fwd := rfl
@[simp] theorem setLane_msgNo : (setLane s p x).msgNo = s.msgNo := rfl
@[simp] theorem setLane_stampAt : (setLane s p x).stampAt = s.stampAt := rfl
@[simp] theorem setLane_fns : (setLane s p x).fns = s.fns := rfl
@[simp] theorem setLane_vecs : (setLane s p x).vecs = s.vecs := rfl
@[simp] theorem setLane_power : (setLane s p x).power = s.power := rfl
@[simp] theorem setLane_mbx : (setLane s p x).mbx = s.mbx := rfl
@[simp] theorem setLane_fltQueue : (setLane s p x).fltQueue = s.fltQueue := rfl
@[simp] theorem setLane_fltLog : (setLane s p x).fltLog = s.fltLog := rfl
@[simp] theorem setLane_fltLost : (setLane s p x).fltLost = s.fltLost := rfl
@[simp] theorem setLane_flash : (setLane s p x).flash = s.flash := rfl
@[simp] theorem setLane_spoiled : (setLane s p x).spoiled = s.spoiled := rfl
@[simp] theorem setLane_nvm : (setLane s p x).nvm = s.nvm := rfl
@[simp] theorem setLane_set : (setLane s p x).set = s.set := rfl
@[simp] theorem setLane_img : (setLane s p x).img = s.img := rfl
@[simp] theorem setLane_upd : (setLane s p x).upd = s.upd := rfl
@[simp] theorem setLane_boot : (setLane s p x).boot = s.boot := rfl
@[simp] theorem setLane_hwd : (setLane s p x).hwd = s.hwd := rfl
@[simp] theorem setLane_spdm : (setLane s p x).spdm = s.spdm := rfl
@[simp] theorem setLane_tap : (setLane s p x).tap = s.tap := rfl
@[simp] theorem setLane_devLatch : (setLane s p x).devLatch = s.devLatch := rfl
@[simp] theorem setLane_fltLatch : (setLane s p x).fltLatch = s.fltLatch := rfl
@[simp] theorem setLane_loaded : (setLane s p x).loaded = s.loaded := rfl
@[simp] theorem setLane_laneInit : (setLane s p x).laneInit = s.laneInit := rfl
end

/-! ### setSq writes `sqs` only -/
section
variable (t r : Nat) (x : Sq)
@[simp] theorem setSq_pending : (setSq s t r x).pending = s.pending := rfl
@[simp] theorem setSq_out : (setSq s t r x).out = s.out := rfl
@[simp] theorem setSq_free : (setSq s t r x).free = s.free := rfl
@[simp] theorem setSq_time : (setSq s t r x).time = s.time := rfl
@[simp] theorem setSq_qTime : (setSq s t r x).qTime = s.qTime := rfl
@[simp] theorem setSq_fTime : (setSq s t r x).fTime = s.fTime := rfl
@[simp] theorem setSq_lTime : (setSq s t r x).lTime = s.lTime := rfl
@[simp] theorem setSq_cTime : (setSq s t r x).cTime = s.cTime := rfl
@[simp] theorem setSq_mTime : (setSq s t r x).mTime = s.mTime := rfl
@[simp] theorem setSq_pTime : (setSq s t r x).pTime = s.pTime := rfl
@[simp] theorem setSq_aTime : (setSq s t r x).aTime = s.aTime := rfl
@[simp] theorem setSq_sTime : (setSq s t r x).sTime = s.sTime := rfl
@[simp] theorem setSq_regs : (setSq s t r x).regs = s.regs := rfl
@[simp] theorem setSq_dram : (setSq s t r x).dram = s.dram := rfl
@[simp] theorem setSq_l2 : (setSq s t r x).l2 = s.l2 := rfl
@[simp] theorem setSq_ecc : (setSq s t r x).ecc = s.ecc := rfl
@[simp] theorem setSq_scrub : (setSq s t r x).scrub = s.scrub := rfl
@[simp] theorem setSq_clusters : (setSq s t r x).clusters = s.clusters := rfl
@[simp] theorem setSq_sram : (setSq s t r x).sram = s.sram := rfl
@[simp] theorem setSq_reqs : (setSq s t r x).reqs = s.reqs := rfl
@[simp] theorem setSq_gens : (setSq s t r x).gens = s.gens := rfl
@[simp] theorem setSq_dedup : (setSq s t r x).dedup = s.dedup := rfl
@[simp] theorem setSq_cqs : (setSq s t r x).cqs = s.cqs := rfl
@[simp] theorem setSq_admQ : (setSq s t r x).admQ = s.admQ := rfl
@[simp] theorem setSq_cohorts : (setSq s t r x).cohorts = s.cohorts := rfl
@[simp] theorem setSq_nextCohort : (setSq s t r x).nextCohort = s.nextCohort := rfl
@[simp] theorem setSq_arb : (setSq s t r x).arb = s.arb := rfl
@[simp] theorem setSq_scan : (setSq s t r x).scan = s.scan := rfl
@[simp] theorem setSq_cancels : (setSq s t r x).cancels = s.cancels := rfl
@[simp] theorem setSq_refills : (setSq s t r x).refills = s.refills := rfl
@[simp] theorem setSq_regRefills : (setSq s t r x).regRefills = s.regRefills := rfl
@[simp] theorem setSq_costs : (setSq s t r x).costs = s.costs := rfl
@[simp] theorem setSq_lanes : (setSq s t r x).lanes = s.lanes := rfl
@[simp] theorem setSq_ctxs : (setSq s t r x).ctxs = s.ctxs := rfl
@[simp] theorem setSq_slots : (setSq s t r x).slots = s.slots := rfl
@[simp] theorem setSq_slotGens : (setSq s t r x).slotGens = s.slotGens := rfl
@[simp] theorem setSq_pages : (setSq s t r x).pages = s.pages := rfl
@[simp] theorem setSq_retired : (setSq s t r x).retired = s.retired := rfl
@[simp] theorem setSq_retiredFull : (setSq s t r x).retiredFull = s.retiredFull := rfl
@[simp] theorem setSq_tens : (setSq s t r x).tens = s.tens := rfl
@[simp] theorem setSq_parts : (setSq s t r x).parts = s.parts := rfl
@[simp] theorem setSq_held : (setSq s t r x).held = s.held := rfl
@[simp] theorem setSq_trace : (setSq s t r x).trace = s.trace := rfl
@[simp] theorem setSq_assaySeen : (setSq s t r x).assaySeen = s.assaySeen := rfl
@[simp] theorem setSq_groups : (setSq s t r x).groups = s.groups := rfl
@[simp] theorem setSq_ports : (setSq s t r x).ports = s.ports := rfl
@[simp] theorem setSq_reasm : (setSq s t r x).reasm = s.reasm := rfl
@[simp] theorem setSq_fwd : (setSq s t r x).fwd = s.fwd := rfl
@[simp] theorem setSq_msgNo : (setSq s t r x).msgNo = s.msgNo := rfl
@[simp] theorem setSq_stampAt : (setSq s t r x).stampAt = s.stampAt := rfl
@[simp] theorem setSq_fns : (setSq s t r x).fns = s.fns := rfl
@[simp] theorem setSq_vecs : (setSq s t r x).vecs = s.vecs := rfl
@[simp] theorem setSq_power : (setSq s t r x).power = s.power := rfl
@[simp] theorem setSq_mbx : (setSq s t r x).mbx = s.mbx := rfl
@[simp] theorem setSq_fltQueue : (setSq s t r x).fltQueue = s.fltQueue := rfl
@[simp] theorem setSq_fltLog : (setSq s t r x).fltLog = s.fltLog := rfl
@[simp] theorem setSq_fltLost : (setSq s t r x).fltLost = s.fltLost := rfl
@[simp] theorem setSq_flash : (setSq s t r x).flash = s.flash := rfl
@[simp] theorem setSq_spoiled : (setSq s t r x).spoiled = s.spoiled := rfl
@[simp] theorem setSq_nvm : (setSq s t r x).nvm = s.nvm := rfl
@[simp] theorem setSq_set : (setSq s t r x).set = s.set := rfl
@[simp] theorem setSq_img : (setSq s t r x).img = s.img := rfl
@[simp] theorem setSq_upd : (setSq s t r x).upd = s.upd := rfl
@[simp] theorem setSq_boot : (setSq s t r x).boot = s.boot := rfl
@[simp] theorem setSq_hwd : (setSq s t r x).hwd = s.hwd := rfl
@[simp] theorem setSq_spdm : (setSq s t r x).spdm = s.spdm := rfl
@[simp] theorem setSq_tap : (setSq s t r x).tap = s.tap := rfl
@[simp] theorem setSq_devLatch : (setSq s t r x).devLatch = s.devLatch := rfl
@[simp] theorem setSq_fltLatch : (setSq s t r x).fltLatch = s.fltLatch := rfl
@[simp] theorem setSq_loaded : (setSq s t r x).loaded = s.loaded := rfl
@[simp] theorem setSq_laneInit : (setSq s t r x).laneInit = s.laneInit := rfl
end

/-! ### setCq writes `cqs` only -/
section
variable (t c : Nat) (x : Cq)
@[simp] theorem setCq_pending : (setCq s t c x).pending = s.pending := rfl
@[simp] theorem setCq_out : (setCq s t c x).out = s.out := rfl
@[simp] theorem setCq_free : (setCq s t c x).free = s.free := rfl
@[simp] theorem setCq_time : (setCq s t c x).time = s.time := rfl
@[simp] theorem setCq_qTime : (setCq s t c x).qTime = s.qTime := rfl
@[simp] theorem setCq_fTime : (setCq s t c x).fTime = s.fTime := rfl
@[simp] theorem setCq_lTime : (setCq s t c x).lTime = s.lTime := rfl
@[simp] theorem setCq_cTime : (setCq s t c x).cTime = s.cTime := rfl
@[simp] theorem setCq_mTime : (setCq s t c x).mTime = s.mTime := rfl
@[simp] theorem setCq_pTime : (setCq s t c x).pTime = s.pTime := rfl
@[simp] theorem setCq_aTime : (setCq s t c x).aTime = s.aTime := rfl
@[simp] theorem setCq_sTime : (setCq s t c x).sTime = s.sTime := rfl
@[simp] theorem setCq_regs : (setCq s t c x).regs = s.regs := rfl
@[simp] theorem setCq_dram : (setCq s t c x).dram = s.dram := rfl
@[simp] theorem setCq_l2 : (setCq s t c x).l2 = s.l2 := rfl
@[simp] theorem setCq_ecc : (setCq s t c x).ecc = s.ecc := rfl
@[simp] theorem setCq_scrub : (setCq s t c x).scrub = s.scrub := rfl
@[simp] theorem setCq_clusters : (setCq s t c x).clusters = s.clusters := rfl
@[simp] theorem setCq_sram : (setCq s t c x).sram = s.sram := rfl
@[simp] theorem setCq_reqs : (setCq s t c x).reqs = s.reqs := rfl
@[simp] theorem setCq_gens : (setCq s t c x).gens = s.gens := rfl
@[simp] theorem setCq_dedup : (setCq s t c x).dedup = s.dedup := rfl
@[simp] theorem setCq_sqs : (setCq s t c x).sqs = s.sqs := rfl
@[simp] theorem setCq_admQ : (setCq s t c x).admQ = s.admQ := rfl
@[simp] theorem setCq_cohorts : (setCq s t c x).cohorts = s.cohorts := rfl
@[simp] theorem setCq_nextCohort : (setCq s t c x).nextCohort = s.nextCohort := rfl
@[simp] theorem setCq_arb : (setCq s t c x).arb = s.arb := rfl
@[simp] theorem setCq_scan : (setCq s t c x).scan = s.scan := rfl
@[simp] theorem setCq_cancels : (setCq s t c x).cancels = s.cancels := rfl
@[simp] theorem setCq_refills : (setCq s t c x).refills = s.refills := rfl
@[simp] theorem setCq_regRefills : (setCq s t c x).regRefills = s.regRefills := rfl
@[simp] theorem setCq_costs : (setCq s t c x).costs = s.costs := rfl
@[simp] theorem setCq_lanes : (setCq s t c x).lanes = s.lanes := rfl
@[simp] theorem setCq_ctxs : (setCq s t c x).ctxs = s.ctxs := rfl
@[simp] theorem setCq_slots : (setCq s t c x).slots = s.slots := rfl
@[simp] theorem setCq_slotGens : (setCq s t c x).slotGens = s.slotGens := rfl
@[simp] theorem setCq_pages : (setCq s t c x).pages = s.pages := rfl
@[simp] theorem setCq_retired : (setCq s t c x).retired = s.retired := rfl
@[simp] theorem setCq_retiredFull : (setCq s t c x).retiredFull = s.retiredFull := rfl
@[simp] theorem setCq_tens : (setCq s t c x).tens = s.tens := rfl
@[simp] theorem setCq_parts : (setCq s t c x).parts = s.parts := rfl
@[simp] theorem setCq_held : (setCq s t c x).held = s.held := rfl
@[simp] theorem setCq_trace : (setCq s t c x).trace = s.trace := rfl
@[simp] theorem setCq_assaySeen : (setCq s t c x).assaySeen = s.assaySeen := rfl
@[simp] theorem setCq_groups : (setCq s t c x).groups = s.groups := rfl
@[simp] theorem setCq_ports : (setCq s t c x).ports = s.ports := rfl
@[simp] theorem setCq_reasm : (setCq s t c x).reasm = s.reasm := rfl
@[simp] theorem setCq_fwd : (setCq s t c x).fwd = s.fwd := rfl
@[simp] theorem setCq_msgNo : (setCq s t c x).msgNo = s.msgNo := rfl
@[simp] theorem setCq_stampAt : (setCq s t c x).stampAt = s.stampAt := rfl
@[simp] theorem setCq_fns : (setCq s t c x).fns = s.fns := rfl
@[simp] theorem setCq_vecs : (setCq s t c x).vecs = s.vecs := rfl
@[simp] theorem setCq_power : (setCq s t c x).power = s.power := rfl
@[simp] theorem setCq_mbx : (setCq s t c x).mbx = s.mbx := rfl
@[simp] theorem setCq_fltQueue : (setCq s t c x).fltQueue = s.fltQueue := rfl
@[simp] theorem setCq_fltLog : (setCq s t c x).fltLog = s.fltLog := rfl
@[simp] theorem setCq_fltLost : (setCq s t c x).fltLost = s.fltLost := rfl
@[simp] theorem setCq_flash : (setCq s t c x).flash = s.flash := rfl
@[simp] theorem setCq_spoiled : (setCq s t c x).spoiled = s.spoiled := rfl
@[simp] theorem setCq_nvm : (setCq s t c x).nvm = s.nvm := rfl
@[simp] theorem setCq_set : (setCq s t c x).set = s.set := rfl
@[simp] theorem setCq_img : (setCq s t c x).img = s.img := rfl
@[simp] theorem setCq_upd : (setCq s t c x).upd = s.upd := rfl
@[simp] theorem setCq_boot : (setCq s t c x).boot = s.boot := rfl
@[simp] theorem setCq_hwd : (setCq s t c x).hwd = s.hwd := rfl
@[simp] theorem setCq_spdm : (setCq s t c x).spdm = s.spdm := rfl
@[simp] theorem setCq_tap : (setCq s t c x).tap = s.tap := rfl
@[simp] theorem setCq_devLatch : (setCq s t c x).devLatch = s.devLatch := rfl
@[simp] theorem setCq_fltLatch : (setCq s t c x).fltLatch = s.fltLatch := rfl
@[simp] theorem setCq_loaded : (setCq s t c x).loaded = s.loaded := rfl
@[simp] theorem setCq_laneInit : (setCq s t c x).laneInit = s.laneInit := rfl
end

/-! ### setReq writes `reqs` only -/
section
variable (i : Nat) (x : Option Req)
@[simp] theorem setReq_pending : (setReq s i x).pending = s.pending := rfl
@[simp] theorem setReq_out : (setReq s i x).out = s.out := rfl
@[simp] theorem setReq_free : (setReq s i x).free = s.free := rfl
@[simp] theorem setReq_time : (setReq s i x).time = s.time := rfl
@[simp] theorem setReq_qTime : (setReq s i x).qTime = s.qTime := rfl
@[simp] theorem setReq_fTime : (setReq s i x).fTime = s.fTime := rfl
@[simp] theorem setReq_lTime : (setReq s i x).lTime = s.lTime := rfl
@[simp] theorem setReq_cTime : (setReq s i x).cTime = s.cTime := rfl
@[simp] theorem setReq_mTime : (setReq s i x).mTime = s.mTime := rfl
@[simp] theorem setReq_pTime : (setReq s i x).pTime = s.pTime := rfl
@[simp] theorem setReq_aTime : (setReq s i x).aTime = s.aTime := rfl
@[simp] theorem setReq_sTime : (setReq s i x).sTime = s.sTime := rfl
@[simp] theorem setReq_regs : (setReq s i x).regs = s.regs := rfl
@[simp] theorem setReq_dram : (setReq s i x).dram = s.dram := rfl
@[simp] theorem setReq_l2 : (setReq s i x).l2 = s.l2 := rfl
@[simp] theorem setReq_ecc : (setReq s i x).ecc = s.ecc := rfl
@[simp] theorem setReq_scrub : (setReq s i x).scrub = s.scrub := rfl
@[simp] theorem setReq_clusters : (setReq s i x).clusters = s.clusters := rfl
@[simp] theorem setReq_sram : (setReq s i x).sram = s.sram := rfl
@[simp] theorem setReq_gens : (setReq s i x).gens = s.gens := rfl
@[simp] theorem setReq_dedup : (setReq s i x).dedup = s.dedup := rfl
@[simp] theorem setReq_sqs : (setReq s i x).sqs = s.sqs := rfl
@[simp] theorem setReq_cqs : (setReq s i x).cqs = s.cqs := rfl
@[simp] theorem setReq_admQ : (setReq s i x).admQ = s.admQ := rfl
@[simp] theorem setReq_cohorts : (setReq s i x).cohorts = s.cohorts := rfl
@[simp] theorem setReq_nextCohort : (setReq s i x).nextCohort = s.nextCohort := rfl
@[simp] theorem setReq_arb : (setReq s i x).arb = s.arb := rfl
@[simp] theorem setReq_scan : (setReq s i x).scan = s.scan := rfl
@[simp] theorem setReq_cancels : (setReq s i x).cancels = s.cancels := rfl
@[simp] theorem setReq_refills : (setReq s i x).refills = s.refills := rfl
@[simp] theorem setReq_regRefills : (setReq s i x).regRefills = s.regRefills := rfl
@[simp] theorem setReq_costs : (setReq s i x).costs = s.costs := rfl
@[simp] theorem setReq_lanes : (setReq s i x).lanes = s.lanes := rfl
@[simp] theorem setReq_ctxs : (setReq s i x).ctxs = s.ctxs := rfl
@[simp] theorem setReq_slots : (setReq s i x).slots = s.slots := rfl
@[simp] theorem setReq_slotGens : (setReq s i x).slotGens = s.slotGens := rfl
@[simp] theorem setReq_pages : (setReq s i x).pages = s.pages := rfl
@[simp] theorem setReq_retired : (setReq s i x).retired = s.retired := rfl
@[simp] theorem setReq_retiredFull : (setReq s i x).retiredFull = s.retiredFull := rfl
@[simp] theorem setReq_tens : (setReq s i x).tens = s.tens := rfl
@[simp] theorem setReq_parts : (setReq s i x).parts = s.parts := rfl
@[simp] theorem setReq_held : (setReq s i x).held = s.held := rfl
@[simp] theorem setReq_trace : (setReq s i x).trace = s.trace := rfl
@[simp] theorem setReq_assaySeen : (setReq s i x).assaySeen = s.assaySeen := rfl
@[simp] theorem setReq_groups : (setReq s i x).groups = s.groups := rfl
@[simp] theorem setReq_ports : (setReq s i x).ports = s.ports := rfl
@[simp] theorem setReq_reasm : (setReq s i x).reasm = s.reasm := rfl
@[simp] theorem setReq_fwd : (setReq s i x).fwd = s.fwd := rfl
@[simp] theorem setReq_msgNo : (setReq s i x).msgNo = s.msgNo := rfl
@[simp] theorem setReq_stampAt : (setReq s i x).stampAt = s.stampAt := rfl
@[simp] theorem setReq_fns : (setReq s i x).fns = s.fns := rfl
@[simp] theorem setReq_vecs : (setReq s i x).vecs = s.vecs := rfl
@[simp] theorem setReq_power : (setReq s i x).power = s.power := rfl
@[simp] theorem setReq_mbx : (setReq s i x).mbx = s.mbx := rfl
@[simp] theorem setReq_fltQueue : (setReq s i x).fltQueue = s.fltQueue := rfl
@[simp] theorem setReq_fltLog : (setReq s i x).fltLog = s.fltLog := rfl
@[simp] theorem setReq_fltLost : (setReq s i x).fltLost = s.fltLost := rfl
@[simp] theorem setReq_flash : (setReq s i x).flash = s.flash := rfl
@[simp] theorem setReq_spoiled : (setReq s i x).spoiled = s.spoiled := rfl
@[simp] theorem setReq_nvm : (setReq s i x).nvm = s.nvm := rfl
@[simp] theorem setReq_set : (setReq s i x).set = s.set := rfl
@[simp] theorem setReq_img : (setReq s i x).img = s.img := rfl
@[simp] theorem setReq_upd : (setReq s i x).upd = s.upd := rfl
@[simp] theorem setReq_boot : (setReq s i x).boot = s.boot := rfl
@[simp] theorem setReq_hwd : (setReq s i x).hwd = s.hwd := rfl
@[simp] theorem setReq_spdm : (setReq s i x).spdm = s.spdm := rfl
@[simp] theorem setReq_tap : (setReq s i x).tap = s.tap := rfl
@[simp] theorem setReq_devLatch : (setReq s i x).devLatch = s.devLatch := rfl
@[simp] theorem setReq_fltLatch : (setReq s i x).fltLatch = s.fltLatch := rfl
@[simp] theorem setReq_loaded : (setReq s i x).loaded = s.loaded := rfl
@[simp] theorem setReq_laneInit : (setReq s i x).laneInit = s.laneInit := rfl
end

/-! ### setCohort writes `cohorts` only -/
section
variable (i : Nat) (x : Option Cohort)
@[simp] theorem setCohort_pending : (setCohort s i x).pending = s.pending := rfl
@[simp] theorem setCohort_out : (setCohort s i x).out = s.out := rfl
@[simp] theorem setCohort_free : (setCohort s i x).free = s.free := rfl
@[simp] theorem setCohort_time : (setCohort s i x).time = s.time := rfl
@[simp] theorem setCohort_qTime : (setCohort s i x).qTime = s.qTime := rfl
@[simp] theorem setCohort_fTime : (setCohort s i x).fTime = s.fTime := rfl
@[simp] theorem setCohort_lTime : (setCohort s i x).lTime = s.lTime := rfl
@[simp] theorem setCohort_cTime : (setCohort s i x).cTime = s.cTime := rfl
@[simp] theorem setCohort_mTime : (setCohort s i x).mTime = s.mTime := rfl
@[simp] theorem setCohort_pTime : (setCohort s i x).pTime = s.pTime := rfl
@[simp] theorem setCohort_aTime : (setCohort s i x).aTime = s.aTime := rfl
@[simp] theorem setCohort_sTime : (setCohort s i x).sTime = s.sTime := rfl
@[simp] theorem setCohort_regs : (setCohort s i x).regs = s.regs := rfl
@[simp] theorem setCohort_dram : (setCohort s i x).dram = s.dram := rfl
@[simp] theorem setCohort_l2 : (setCohort s i x).l2 = s.l2 := rfl
@[simp] theorem setCohort_ecc : (setCohort s i x).ecc = s.ecc := rfl
@[simp] theorem setCohort_scrub : (setCohort s i x).scrub = s.scrub := rfl
@[simp] theorem setCohort_clusters : (setCohort s i x).clusters = s.clusters := rfl
@[simp] theorem setCohort_sram : (setCohort s i x).sram = s.sram := rfl
@[simp] theorem setCohort_reqs : (setCohort s i x).reqs = s.reqs := rfl
@[simp] theorem setCohort_gens : (setCohort s i x).gens = s.gens := rfl
@[simp] theorem setCohort_dedup : (setCohort s i x).dedup = s.dedup := rfl
@[simp] theorem setCohort_sqs : (setCohort s i x).sqs = s.sqs := rfl
@[simp] theorem setCohort_cqs : (setCohort s i x).cqs = s.cqs := rfl
@[simp] theorem setCohort_admQ : (setCohort s i x).admQ = s.admQ := rfl
@[simp] theorem setCohort_nextCohort : (setCohort s i x).nextCohort = s.nextCohort := rfl
@[simp] theorem setCohort_arb : (setCohort s i x).arb = s.arb := rfl
@[simp] theorem setCohort_scan : (setCohort s i x).scan = s.scan := rfl
@[simp] theorem setCohort_cancels : (setCohort s i x).cancels = s.cancels := rfl
@[simp] theorem setCohort_refills : (setCohort s i x).refills = s.refills := rfl
@[simp] theorem setCohort_regRefills : (setCohort s i x).regRefills = s.regRefills := rfl
@[simp] theorem setCohort_costs : (setCohort s i x).costs = s.costs := rfl
@[simp] theorem setCohort_lanes : (setCohort s i x).lanes = s.lanes := rfl
@[simp] theorem setCohort_ctxs : (setCohort s i x).ctxs = s.ctxs := rfl
@[simp] theorem setCohort_slots : (setCohort s i x).slots = s.slots := rfl
@[simp] theorem setCohort_slotGens : (setCohort s i x).slotGens = s.slotGens := rfl
@[simp] theorem setCohort_pages : (setCohort s i x).pages = s.pages := rfl
@[simp] theorem setCohort_retired : (setCohort s i x).retired = s.retired := rfl
@[simp] theorem setCohort_retiredFull : (setCohort s i x).retiredFull = s.retiredFull := rfl
@[simp] theorem setCohort_tens : (setCohort s i x).tens = s.tens := rfl
@[simp] theorem setCohort_parts : (setCohort s i x).parts = s.parts := rfl
@[simp] theorem setCohort_held : (setCohort s i x).held = s.held := rfl
@[simp] theorem setCohort_trace : (setCohort s i x).trace = s.trace := rfl
@[simp] theorem setCohort_assaySeen : (setCohort s i x).assaySeen = s.assaySeen := rfl
@[simp] theorem setCohort_groups : (setCohort s i x).groups = s.groups := rfl
@[simp] theorem setCohort_ports : (setCohort s i x).ports = s.ports := rfl
@[simp] theorem setCohort_reasm : (setCohort s i x).reasm = s.reasm := rfl
@[simp] theorem setCohort_fwd : (setCohort s i x).fwd = s.fwd := rfl
@[simp] theorem setCohort_msgNo : (setCohort s i x).msgNo = s.msgNo := rfl
@[simp] theorem setCohort_stampAt : (setCohort s i x).stampAt = s.stampAt := rfl
@[simp] theorem setCohort_fns : (setCohort s i x).fns = s.fns := rfl
@[simp] theorem setCohort_vecs : (setCohort s i x).vecs = s.vecs := rfl
@[simp] theorem setCohort_power : (setCohort s i x).power = s.power := rfl
@[simp] theorem setCohort_mbx : (setCohort s i x).mbx = s.mbx := rfl
@[simp] theorem setCohort_fltQueue : (setCohort s i x).fltQueue = s.fltQueue := rfl
@[simp] theorem setCohort_fltLog : (setCohort s i x).fltLog = s.fltLog := rfl
@[simp] theorem setCohort_fltLost : (setCohort s i x).fltLost = s.fltLost := rfl
@[simp] theorem setCohort_flash : (setCohort s i x).flash = s.flash := rfl
@[simp] theorem setCohort_spoiled : (setCohort s i x).spoiled = s.spoiled := rfl
@[simp] theorem setCohort_nvm : (setCohort s i x).nvm = s.nvm := rfl
@[simp] theorem setCohort_set : (setCohort s i x).set = s.set := rfl
@[simp] theorem setCohort_img : (setCohort s i x).img = s.img := rfl
@[simp] theorem setCohort_upd : (setCohort s i x).upd = s.upd := rfl
@[simp] theorem setCohort_boot : (setCohort s i x).boot = s.boot := rfl
@[simp] theorem setCohort_hwd : (setCohort s i x).hwd = s.hwd := rfl
@[simp] theorem setCohort_spdm : (setCohort s i x).spdm = s.spdm := rfl
@[simp] theorem setCohort_tap : (setCohort s i x).tap = s.tap := rfl
@[simp] theorem setCohort_devLatch : (setCohort s i x).devLatch = s.devLatch := rfl
@[simp] theorem setCohort_fltLatch : (setCohort s i x).fltLatch = s.fltLatch := rfl
@[simp] theorem setCohort_loaded : (setCohort s i x).loaded = s.loaded := rfl
@[simp] theorem setCohort_laneInit : (setCohort s i x).laneInit = s.laneInit := rfl
end

/-! ### setAdmQueue writes `admQ` only -/
section
variable (t c : Nat) (l : List Nat)
@[simp] theorem setAdmQueue_pending : (setAdmQueue s t c l).pending = s.pending := rfl
@[simp] theorem setAdmQueue_out : (setAdmQueue s t c l).out = s.out := rfl
@[simp] theorem setAdmQueue_free : (setAdmQueue s t c l).free = s.free := rfl
@[simp] theorem setAdmQueue_time : (setAdmQueue s t c l).time = s.time := rfl
@[simp] theorem setAdmQueue_qTime : (setAdmQueue s t c l).qTime = s.qTime := rfl
@[simp] theorem setAdmQueue_fTime : (setAdmQueue s t c l).fTime = s.fTime := rfl
@[simp] theorem setAdmQueue_lTime : (setAdmQueue s t c l).lTime = s.lTime := rfl
@[simp] theorem setAdmQueue_cTime : (setAdmQueue s t c l).cTime = s.cTime := rfl
@[simp] theorem setAdmQueue_mTime : (setAdmQueue s t c l).mTime = s.mTime := rfl
@[simp] theorem setAdmQueue_pTime : (setAdmQueue s t c l).pTime = s.pTime := rfl
@[simp] theorem setAdmQueue_aTime : (setAdmQueue s t c l).aTime = s.aTime := rfl
@[simp] theorem setAdmQueue_sTime : (setAdmQueue s t c l).sTime = s.sTime := rfl
@[simp] theorem setAdmQueue_regs : (setAdmQueue s t c l).regs = s.regs := rfl
@[simp] theorem setAdmQueue_dram : (setAdmQueue s t c l).dram = s.dram := rfl
@[simp] theorem setAdmQueue_l2 : (setAdmQueue s t c l).l2 = s.l2 := rfl
@[simp] theorem setAdmQueue_ecc : (setAdmQueue s t c l).ecc = s.ecc := rfl
@[simp] theorem setAdmQueue_scrub : (setAdmQueue s t c l).scrub = s.scrub := rfl
@[simp] theorem setAdmQueue_clusters : (setAdmQueue s t c l).clusters = s.clusters := rfl
@[simp] theorem setAdmQueue_sram : (setAdmQueue s t c l).sram = s.sram := rfl
@[simp] theorem setAdmQueue_reqs : (setAdmQueue s t c l).reqs = s.reqs := rfl
@[simp] theorem setAdmQueue_gens : (setAdmQueue s t c l).gens = s.gens := rfl
@[simp] theorem setAdmQueue_dedup : (setAdmQueue s t c l).dedup = s.dedup := rfl
@[simp] theorem setAdmQueue_sqs : (setAdmQueue s t c l).sqs = s.sqs := rfl
@[simp] theorem setAdmQueue_cqs : (setAdmQueue s t c l).cqs = s.cqs := rfl
@[simp] theorem setAdmQueue_cohorts : (setAdmQueue s t c l).cohorts = s.cohorts := rfl
@[simp] theorem setAdmQueue_nextCohort : (setAdmQueue s t c l).nextCohort = s.nextCohort := rfl
@[simp] theorem setAdmQueue_arb : (setAdmQueue s t c l).arb = s.arb := rfl
@[simp] theorem setAdmQueue_scan : (setAdmQueue s t c l).scan = s.scan := rfl
@[simp] theorem setAdmQueue_cancels : (setAdmQueue s t c l).cancels = s.cancels := rfl
@[simp] theorem setAdmQueue_refills : (setAdmQueue s t c l).refills = s.refills := rfl
@[simp] theorem setAdmQueue_regRefills : (setAdmQueue s t c l).regRefills = s.regRefills := rfl
@[simp] theorem setAdmQueue_costs : (setAdmQueue s t c l).costs = s.costs := rfl
@[simp] theorem setAdmQueue_lanes : (setAdmQueue s t c l).lanes = s.lanes := rfl
@[simp] theorem setAdmQueue_ctxs : (setAdmQueue s t c l).ctxs = s.ctxs := rfl
@[simp] theorem setAdmQueue_slots : (setAdmQueue s t c l).slots = s.slots := rfl
@[simp] theorem setAdmQueue_slotGens : (setAdmQueue s t c l).slotGens = s.slotGens := rfl
@[simp] theorem setAdmQueue_pages : (setAdmQueue s t c l).pages = s.pages := rfl
@[simp] theorem setAdmQueue_retired : (setAdmQueue s t c l).retired = s.retired := rfl
@[simp] theorem setAdmQueue_retiredFull : (setAdmQueue s t c l).retiredFull = s.retiredFull := rfl
@[simp] theorem setAdmQueue_tens : (setAdmQueue s t c l).tens = s.tens := rfl
@[simp] theorem setAdmQueue_parts : (setAdmQueue s t c l).parts = s.parts := rfl
@[simp] theorem setAdmQueue_held : (setAdmQueue s t c l).held = s.held := rfl
@[simp] theorem setAdmQueue_trace : (setAdmQueue s t c l).trace = s.trace := rfl
@[simp] theorem setAdmQueue_assaySeen : (setAdmQueue s t c l).assaySeen = s.assaySeen := rfl
@[simp] theorem setAdmQueue_groups : (setAdmQueue s t c l).groups = s.groups := rfl
@[simp] theorem setAdmQueue_ports : (setAdmQueue s t c l).ports = s.ports := rfl
@[simp] theorem setAdmQueue_reasm : (setAdmQueue s t c l).reasm = s.reasm := rfl
@[simp] theorem setAdmQueue_fwd : (setAdmQueue s t c l).fwd = s.fwd := rfl
@[simp] theorem setAdmQueue_msgNo : (setAdmQueue s t c l).msgNo = s.msgNo := rfl
@[simp] theorem setAdmQueue_stampAt : (setAdmQueue s t c l).stampAt = s.stampAt := rfl
@[simp] theorem setAdmQueue_fns : (setAdmQueue s t c l).fns = s.fns := rfl
@[simp] theorem setAdmQueue_vecs : (setAdmQueue s t c l).vecs = s.vecs := rfl
@[simp] theorem setAdmQueue_power : (setAdmQueue s t c l).power = s.power := rfl
@[simp] theorem setAdmQueue_mbx : (setAdmQueue s t c l).mbx = s.mbx := rfl
@[simp] theorem setAdmQueue_fltQueue : (setAdmQueue s t c l).fltQueue = s.fltQueue := rfl
@[simp] theorem setAdmQueue_fltLog : (setAdmQueue s t c l).fltLog = s.fltLog := rfl
@[simp] theorem setAdmQueue_fltLost : (setAdmQueue s t c l).fltLost = s.fltLost := rfl
@[simp] theorem setAdmQueue_flash : (setAdmQueue s t c l).flash = s.flash := rfl
@[simp] theorem setAdmQueue_spoiled : (setAdmQueue s t c l).spoiled = s.spoiled := rfl
@[simp] theorem setAdmQueue_nvm : (setAdmQueue s t c l).nvm = s.nvm := rfl
@[simp] theorem setAdmQueue_set : (setAdmQueue s t c l).set = s.set := rfl
@[simp] theorem setAdmQueue_img : (setAdmQueue s t c l).img = s.img := rfl
@[simp] theorem setAdmQueue_upd : (setAdmQueue s t c l).upd = s.upd := rfl
@[simp] theorem setAdmQueue_boot : (setAdmQueue s t c l).boot = s.boot := rfl
@[simp] theorem setAdmQueue_hwd : (setAdmQueue s t c l).hwd = s.hwd := rfl
@[simp] theorem setAdmQueue_spdm : (setAdmQueue s t c l).spdm = s.spdm := rfl
@[simp] theorem setAdmQueue_tap : (setAdmQueue s t c l).tap = s.tap := rfl
@[simp] theorem setAdmQueue_devLatch : (setAdmQueue s t c l).devLatch = s.devLatch := rfl
@[simp] theorem setAdmQueue_fltLatch : (setAdmQueue s t c l).fltLatch = s.fltLatch := rfl
@[simp] theorem setAdmQueue_loaded : (setAdmQueue s t c l).loaded = s.loaded := rfl
@[simp] theorem setAdmQueue_laneInit : (setAdmQueue s t c l).laneInit = s.laneInit := rfl
end

/-! ### setCtx writes `ctxs` only -/
section
variable (g : Nat) (x : Option Ctx)
@[simp] theorem setCtx_pending : (setCtx s g x).pending = s.pending := rfl
@[simp] theorem setCtx_out : (setCtx s g x).out = s.out := rfl
@[simp] theorem setCtx_free : (setCtx s g x).free = s.free := rfl
@[simp] theorem setCtx_time : (setCtx s g x).time = s.time := rfl
@[simp] theorem setCtx_qTime : (setCtx s g x).qTime = s.qTime := rfl
@[simp] theorem setCtx_fTime : (setCtx s g x).fTime = s.fTime := rfl
@[simp] theorem setCtx_lTime : (setCtx s g x).lTime = s.lTime := rfl
@[simp] theorem setCtx_cTime : (setCtx s g x).cTime = s.cTime := rfl
@[simp] theorem setCtx_mTime : (setCtx s g x).mTime = s.mTime := rfl
@[simp] theorem setCtx_pTime : (setCtx s g x).pTime = s.pTime := rfl
@[simp] theorem setCtx_aTime : (setCtx s g x).aTime = s.aTime := rfl
@[simp] theorem setCtx_sTime : (setCtx s g x).sTime = s.sTime := rfl
@[simp] theorem setCtx_regs : (setCtx s g x).regs = s.regs := rfl
@[simp] theorem setCtx_dram : (setCtx s g x).dram = s.dram := rfl
@[simp] theorem setCtx_l2 : (setCtx s g x).l2 = s.l2 := rfl
@[simp] theorem setCtx_ecc : (setCtx s g x).ecc = s.ecc := rfl
@[simp] theorem setCtx_scrub : (setCtx s g x).scrub = s.scrub := rfl
@[simp] theorem setCtx_clusters : (setCtx s g x).clusters = s.clusters := rfl
@[simp] theorem setCtx_sram : (setCtx s g x).sram = s.sram := rfl
@[simp] theorem setCtx_reqs : (setCtx s g x).reqs = s.reqs := rfl
@[simp] theorem setCtx_gens : (setCtx s g x).gens = s.gens := rfl
@[simp] theorem setCtx_dedup : (setCtx s g x).dedup = s.dedup := rfl
@[simp] theorem setCtx_sqs : (setCtx s g x).sqs = s.sqs := rfl
@[simp] theorem setCtx_cqs : (setCtx s g x).cqs = s.cqs := rfl
@[simp] theorem setCtx_admQ : (setCtx s g x).admQ = s.admQ := rfl
@[simp] theorem setCtx_cohorts : (setCtx s g x).cohorts = s.cohorts := rfl
@[simp] theorem setCtx_nextCohort : (setCtx s g x).nextCohort = s.nextCohort := rfl
@[simp] theorem setCtx_arb : (setCtx s g x).arb = s.arb := rfl
@[simp] theorem setCtx_scan : (setCtx s g x).scan = s.scan := rfl
@[simp] theorem setCtx_cancels : (setCtx s g x).cancels = s.cancels := rfl
@[simp] theorem setCtx_refills : (setCtx s g x).refills = s.refills := rfl
@[simp] theorem setCtx_regRefills : (setCtx s g x).regRefills = s.regRefills := rfl
@[simp] theorem setCtx_costs : (setCtx s g x).costs = s.costs := rfl
@[simp] theorem setCtx_lanes : (setCtx s g x).lanes = s.lanes := rfl
@[simp] theorem setCtx_slots : (setCtx s g x).slots = s.slots := rfl
@[simp] theorem setCtx_slotGens : (setCtx s g x).slotGens = s.slotGens := rfl
@[simp] theorem setCtx_pages : (setCtx s g x).pages = s.pages := rfl
@[simp] theorem setCtx_retired : (setCtx s g x).retired = s.retired := rfl
@[simp] theorem setCtx_retiredFull : (setCtx s g x).retiredFull = s.retiredFull := rfl
@[simp] theorem setCtx_tens : (setCtx s g x).tens = s.tens := rfl
@[simp] theorem setCtx_parts : (setCtx s g x).parts = s.parts := rfl
@[simp] theorem setCtx_held : (setCtx s g x).held = s.held := rfl
@[simp] theorem setCtx_trace : (setCtx s g x).trace = s.trace := rfl
@[simp] theorem setCtx_assaySeen : (setCtx s g x).assaySeen = s.assaySeen := rfl
@[simp] theorem setCtx_groups : (setCtx s g x).groups = s.groups := rfl
@[simp] theorem setCtx_ports : (setCtx s g x).ports = s.ports := rfl
@[simp] theorem setCtx_reasm : (setCtx s g x).reasm = s.reasm := rfl
@[simp] theorem setCtx_fwd : (setCtx s g x).fwd = s.fwd := rfl
@[simp] theorem setCtx_msgNo : (setCtx s g x).msgNo = s.msgNo := rfl
@[simp] theorem setCtx_stampAt : (setCtx s g x).stampAt = s.stampAt := rfl
@[simp] theorem setCtx_fns : (setCtx s g x).fns = s.fns := rfl
@[simp] theorem setCtx_vecs : (setCtx s g x).vecs = s.vecs := rfl
@[simp] theorem setCtx_power : (setCtx s g x).power = s.power := rfl
@[simp] theorem setCtx_mbx : (setCtx s g x).mbx = s.mbx := rfl
@[simp] theorem setCtx_fltQueue : (setCtx s g x).fltQueue = s.fltQueue := rfl
@[simp] theorem setCtx_fltLog : (setCtx s g x).fltLog = s.fltLog := rfl
@[simp] theorem setCtx_fltLost : (setCtx s g x).fltLost = s.fltLost := rfl
@[simp] theorem setCtx_flash : (setCtx s g x).flash = s.flash := rfl
@[simp] theorem setCtx_spoiled : (setCtx s g x).spoiled = s.spoiled := rfl
@[simp] theorem setCtx_nvm : (setCtx s g x).nvm = s.nvm := rfl
@[simp] theorem setCtx_set : (setCtx s g x).set = s.set := rfl
@[simp] theorem setCtx_img : (setCtx s g x).img = s.img := rfl
@[simp] theorem setCtx_upd : (setCtx s g x).upd = s.upd := rfl
@[simp] theorem setCtx_boot : (setCtx s g x).boot = s.boot := rfl
@[simp] theorem setCtx_hwd : (setCtx s g x).hwd = s.hwd := rfl
@[simp] theorem setCtx_spdm : (setCtx s g x).spdm = s.spdm := rfl
@[simp] theorem setCtx_tap : (setCtx s g x).tap = s.tap := rfl
@[simp] theorem setCtx_devLatch : (setCtx s g x).devLatch = s.devLatch := rfl
@[simp] theorem setCtx_fltLatch : (setCtx s g x).fltLatch = s.fltLatch := rfl
@[simp] theorem setCtx_loaded : (setCtx s g x).loaded = s.loaded := rfl
@[simp] theorem setCtx_laneInit : (setCtx s g x).laneInit = s.laneInit := rfl
end

/-! ### setSlot writes `slots` only -/
section
variable (n : Nat) (x : Option Slot)
@[simp] theorem setSlot_pending : (setSlot s n x).pending = s.pending := rfl
@[simp] theorem setSlot_out : (setSlot s n x).out = s.out := rfl
@[simp] theorem setSlot_free : (setSlot s n x).free = s.free := rfl
@[simp] theorem setSlot_time : (setSlot s n x).time = s.time := rfl
@[simp] theorem setSlot_qTime : (setSlot s n x).qTime = s.qTime := rfl
@[simp] theorem setSlot_fTime : (setSlot s n x).fTime = s.fTime := rfl
@[simp] theorem setSlot_lTime : (setSlot s n x).lTime = s.lTime := rfl
@[simp] theorem setSlot_cTime : (setSlot s n x).cTime = s.cTime := rfl
@[simp] theorem setSlot_mTime : (setSlot s n x).mTime = s.mTime := rfl
@[simp] theorem setSlot_pTime : (setSlot s n x).pTime = s.pTime := rfl
@[simp] theorem setSlot_aTime : (setSlot s n x).aTime = s.aTime := rfl
@[simp] theorem setSlot_sTime : (setSlot s n x).sTime = s.sTime := rfl
@[simp] theorem setSlot_regs : (setSlot s n x).regs = s.regs := rfl
@[simp] theorem setSlot_dram : (setSlot s n x).dram = s.dram := rfl
@[simp] theorem setSlot_l2 : (setSlot s n x).l2 = s.l2 := rfl
@[simp] theorem setSlot_ecc : (setSlot s n x).ecc = s.ecc := rfl
@[simp] theorem setSlot_scrub : (setSlot s n x).scrub = s.scrub := rfl
@[simp] theorem setSlot_clusters : (setSlot s n x).clusters = s.clusters := rfl
@[simp] theorem setSlot_sram : (setSlot s n x).sram = s.sram := rfl
@[simp] theorem setSlot_reqs : (setSlot s n x).reqs = s.reqs := rfl
@[simp] theorem setSlot_gens : (setSlot s n x).gens = s.gens := rfl
@[simp] theorem setSlot_dedup : (setSlot s n x).dedup = s.dedup := rfl
@[simp] theorem setSlot_sqs : (setSlot s n x).sqs = s.sqs := rfl
@[simp] theorem setSlot_cqs : (setSlot s n x).cqs = s.cqs := rfl
@[simp] theorem setSlot_admQ : (setSlot s n x).admQ = s.admQ := rfl
@[simp] theorem setSlot_cohorts : (setSlot s n x).cohorts = s.cohorts := rfl
@[simp] theorem setSlot_nextCohort : (setSlot s n x).nextCohort = s.nextCohort := rfl
@[simp] theorem setSlot_arb : (setSlot s n x).arb = s.arb := rfl
@[simp] theorem setSlot_scan : (setSlot s n x).scan = s.scan := rfl
@[simp] theorem setSlot_cancels : (setSlot s n x).cancels = s.cancels := rfl
@[simp] theorem setSlot_refills : (setSlot s n x).refills = s.refills := rfl
@[simp] theorem setSlot_regRefills : (setSlot s n x).regRefills = s.regRefills := rfl
@[simp] theorem setSlot_costs : (setSlot s n x).costs = s.costs := rfl
@[simp] theorem setSlot_lanes : (setSlot s n x).lanes = s.lanes := rfl
@[simp] theorem setSlot_ctxs : (setSlot s n x).ctxs = s.ctxs := rfl
@[simp] theorem setSlot_slotGens : (setSlot s n x).slotGens = s.slotGens := rfl
@[simp] theorem setSlot_pages : (setSlot s n x).pages = s.pages := rfl
@[simp] theorem setSlot_retired : (setSlot s n x).retired = s.retired := rfl
@[simp] theorem setSlot_retiredFull : (setSlot s n x).retiredFull = s.retiredFull := rfl
@[simp] theorem setSlot_tens : (setSlot s n x).tens = s.tens := rfl
@[simp] theorem setSlot_parts : (setSlot s n x).parts = s.parts := rfl
@[simp] theorem setSlot_held : (setSlot s n x).held = s.held := rfl
@[simp] theorem setSlot_trace : (setSlot s n x).trace = s.trace := rfl
@[simp] theorem setSlot_assaySeen : (setSlot s n x).assaySeen = s.assaySeen := rfl
@[simp] theorem setSlot_groups : (setSlot s n x).groups = s.groups := rfl
@[simp] theorem setSlot_ports : (setSlot s n x).ports = s.ports := rfl
@[simp] theorem setSlot_reasm : (setSlot s n x).reasm = s.reasm := rfl
@[simp] theorem setSlot_fwd : (setSlot s n x).fwd = s.fwd := rfl
@[simp] theorem setSlot_msgNo : (setSlot s n x).msgNo = s.msgNo := rfl
@[simp] theorem setSlot_stampAt : (setSlot s n x).stampAt = s.stampAt := rfl
@[simp] theorem setSlot_fns : (setSlot s n x).fns = s.fns := rfl
@[simp] theorem setSlot_vecs : (setSlot s n x).vecs = s.vecs := rfl
@[simp] theorem setSlot_power : (setSlot s n x).power = s.power := rfl
@[simp] theorem setSlot_mbx : (setSlot s n x).mbx = s.mbx := rfl
@[simp] theorem setSlot_fltQueue : (setSlot s n x).fltQueue = s.fltQueue := rfl
@[simp] theorem setSlot_fltLog : (setSlot s n x).fltLog = s.fltLog := rfl
@[simp] theorem setSlot_fltLost : (setSlot s n x).fltLost = s.fltLost := rfl
@[simp] theorem setSlot_flash : (setSlot s n x).flash = s.flash := rfl
@[simp] theorem setSlot_spoiled : (setSlot s n x).spoiled = s.spoiled := rfl
@[simp] theorem setSlot_nvm : (setSlot s n x).nvm = s.nvm := rfl
@[simp] theorem setSlot_set : (setSlot s n x).set = s.set := rfl
@[simp] theorem setSlot_img : (setSlot s n x).img = s.img := rfl
@[simp] theorem setSlot_upd : (setSlot s n x).upd = s.upd := rfl
@[simp] theorem setSlot_boot : (setSlot s n x).boot = s.boot := rfl
@[simp] theorem setSlot_hwd : (setSlot s n x).hwd = s.hwd := rfl
@[simp] theorem setSlot_spdm : (setSlot s n x).spdm = s.spdm := rfl
@[simp] theorem setSlot_tap : (setSlot s n x).tap = s.tap := rfl
@[simp] theorem setSlot_devLatch : (setSlot s n x).devLatch = s.devLatch := rfl
@[simp] theorem setSlot_fltLatch : (setSlot s n x).fltLatch = s.fltLatch := rfl
@[simp] theorem setSlot_loaded : (setSlot s n x).loaded = s.loaded := rfl
@[simp] theorem setSlot_laneInit : (setSlot s n x).laneInit = s.laneInit := rfl
end

/-! ### setPage writes `pages` only -/
section
variable (p i : Nat) (x : Page)
@[simp] theorem setPage_pending : (setPage s p i x).pending = s.pending := rfl
@[simp] theorem setPage_out : (setPage s p i x).out = s.out := rfl
@[simp] theorem setPage_free : (setPage s p i x).free = s.free := rfl
@[simp] theorem setPage_time : (setPage s p i x).time = s.time := rfl
@[simp] theorem setPage_qTime : (setPage s p i x).qTime = s.qTime := rfl
@[simp] theorem setPage_fTime : (setPage s p i x).fTime = s.fTime := rfl
@[simp] theorem setPage_lTime : (setPage s p i x).lTime = s.lTime := rfl
@[simp] theorem setPage_cTime : (setPage s p i x).cTime = s.cTime := rfl
@[simp] theorem setPage_mTime : (setPage s p i x).mTime = s.mTime := rfl
@[simp] theorem setPage_pTime : (setPage s p i x).pTime = s.pTime := rfl
@[simp] theorem setPage_aTime : (setPage s p i x).aTime = s.aTime := rfl
@[simp] theorem setPage_sTime : (setPage s p i x).sTime = s.sTime := rfl
@[simp] theorem setPage_regs : (setPage s p i x).regs = s.regs := rfl
@[simp] theorem setPage_dram : (setPage s p i x).dram = s.dram := rfl
@[simp] theorem setPage_l2 : (setPage s p i x).l2 = s.l2 := rfl
@[simp] theorem setPage_ecc : (setPage s p i x).ecc = s.ecc := rfl
@[simp] theorem setPage_scrub : (setPage s p i x).scrub = s.scrub := rfl
@[simp] theorem setPage_clusters : (setPage s p i x).clusters = s.clusters := rfl
@[simp] theorem setPage_sram : (setPage s p i x).sram = s.sram := rfl
@[simp] theorem setPage_reqs : (setPage s p i x).reqs = s.reqs := rfl
@[simp] theorem setPage_gens : (setPage s p i x).gens = s.gens := rfl
@[simp] theorem setPage_dedup : (setPage s p i x).dedup = s.dedup := rfl
@[simp] theorem setPage_sqs : (setPage s p i x).sqs = s.sqs := rfl
@[simp] theorem setPage_cqs : (setPage s p i x).cqs = s.cqs := rfl
@[simp] theorem setPage_admQ : (setPage s p i x).admQ = s.admQ := rfl
@[simp] theorem setPage_cohorts : (setPage s p i x).cohorts = s.cohorts := rfl
@[simp] theorem setPage_nextCohort : (setPage s p i x).nextCohort = s.nextCohort := rfl
@[simp] theorem setPage_arb : (setPage s p i x).arb = s.arb := rfl
@[simp] theorem setPage_scan : (setPage s p i x).scan = s.scan := rfl
@[simp] theorem setPage_cancels : (setPage s p i x).cancels = s.cancels := rfl
@[simp] theorem setPage_refills : (setPage s p i x).refills = s.refills := rfl
@[simp] theorem setPage_regRefills : (setPage s p i x).regRefills = s.regRefills := rfl
@[simp] theorem setPage_costs : (setPage s p i x).costs = s.costs := rfl
@[simp] theorem setPage_lanes : (setPage s p i x).lanes = s.lanes := rfl
@[simp] theorem setPage_ctxs : (setPage s p i x).ctxs = s.ctxs := rfl
@[simp] theorem setPage_slots : (setPage s p i x).slots = s.slots := rfl
@[simp] theorem setPage_slotGens : (setPage s p i x).slotGens = s.slotGens := rfl
@[simp] theorem setPage_retired : (setPage s p i x).retired = s.retired := rfl
@[simp] theorem setPage_retiredFull : (setPage s p i x).retiredFull = s.retiredFull := rfl
@[simp] theorem setPage_tens : (setPage s p i x).tens = s.tens := rfl
@[simp] theorem setPage_parts : (setPage s p i x).parts = s.parts := rfl
@[simp] theorem setPage_held : (setPage s p i x).held = s.held := rfl
@[simp] theorem setPage_trace : (setPage s p i x).trace = s.trace := rfl
@[simp] theorem setPage_assaySeen : (setPage s p i x).assaySeen = s.assaySeen := rfl
@[simp] theorem setPage_groups : (setPage s p i x).groups = s.groups := rfl
@[simp] theorem setPage_ports : (setPage s p i x).ports = s.ports := rfl
@[simp] theorem setPage_reasm : (setPage s p i x).reasm = s.reasm := rfl
@[simp] theorem setPage_fwd : (setPage s p i x).fwd = s.fwd := rfl
@[simp] theorem setPage_msgNo : (setPage s p i x).msgNo = s.msgNo := rfl
@[simp] theorem setPage_stampAt : (setPage s p i x).stampAt = s.stampAt := rfl
@[simp] theorem setPage_fns : (setPage s p i x).fns = s.fns := rfl
@[simp] theorem setPage_vecs : (setPage s p i x).vecs = s.vecs := rfl
@[simp] theorem setPage_power : (setPage s p i x).power = s.power := rfl
@[simp] theorem setPage_mbx : (setPage s p i x).mbx = s.mbx := rfl
@[simp] theorem setPage_fltQueue : (setPage s p i x).fltQueue = s.fltQueue := rfl
@[simp] theorem setPage_fltLog : (setPage s p i x).fltLog = s.fltLog := rfl
@[simp] theorem setPage_fltLost : (setPage s p i x).fltLost = s.fltLost := rfl
@[simp] theorem setPage_flash : (setPage s p i x).flash = s.flash := rfl
@[simp] theorem setPage_spoiled : (setPage s p i x).spoiled = s.spoiled := rfl
@[simp] theorem setPage_nvm : (setPage s p i x).nvm = s.nvm := rfl
@[simp] theorem setPage_set : (setPage s p i x).set = s.set := rfl
@[simp] theorem setPage_img : (setPage s p i x).img = s.img := rfl
@[simp] theorem setPage_upd : (setPage s p i x).upd = s.upd := rfl
@[simp] theorem setPage_boot : (setPage s p i x).boot = s.boot := rfl
@[simp] theorem setPage_hwd : (setPage s p i x).hwd = s.hwd := rfl
@[simp] theorem setPage_spdm : (setPage s p i x).spdm = s.spdm := rfl
@[simp] theorem setPage_tap : (setPage s p i x).tap = s.tap := rfl
@[simp] theorem setPage_devLatch : (setPage s p i x).devLatch = s.devLatch := rfl
@[simp] theorem setPage_fltLatch : (setPage s p i x).fltLatch = s.fltLatch := rfl
@[simp] theorem setPage_loaded : (setPage s p i x).loaded = s.loaded := rfl
@[simp] theorem setPage_laneInit : (setPage s p i x).laneInit = s.laneInit := rfl
end

/-! ### setTenant writes `tens` only -/
section
variable (t : Nat) (x : Tenant)
@[simp] theorem setTenant_pending : (setTenant s t x).pending = s.pending := rfl
@[simp] theorem setTenant_out : (setTenant s t x).out = s.out := rfl
@[simp] theorem setTenant_free : (setTenant s t x).free = s.free := rfl
@[simp] theorem setTenant_time : (setTenant s t x).time = s.time := rfl
@[simp] theorem setTenant_qTime : (setTenant s t x).qTime = s.qTime := rfl
@[simp] theorem setTenant_fTime : (setTenant s t x).fTime = s.fTime := rfl
@[simp] theorem setTenant_lTime : (setTenant s t x).lTime = s.lTime := rfl
@[simp] theorem setTenant_cTime : (setTenant s t x).cTime = s.cTime := rfl
@[simp] theorem setTenant_mTime : (setTenant s t x).mTime = s.mTime := rfl
@[simp] theorem setTenant_pTime : (setTenant s t x).pTime = s.pTime := rfl
@[simp] theorem setTenant_aTime : (setTenant s t x).aTime = s.aTime := rfl
@[simp] theorem setTenant_sTime : (setTenant s t x).sTime = s.sTime := rfl
@[simp] theorem setTenant_regs : (setTenant s t x).regs = s.regs := rfl
@[simp] theorem setTenant_dram : (setTenant s t x).dram = s.dram := rfl
@[simp] theorem setTenant_l2 : (setTenant s t x).l2 = s.l2 := rfl
@[simp] theorem setTenant_ecc : (setTenant s t x).ecc = s.ecc := rfl
@[simp] theorem setTenant_scrub : (setTenant s t x).scrub = s.scrub := rfl
@[simp] theorem setTenant_clusters : (setTenant s t x).clusters = s.clusters := rfl
@[simp] theorem setTenant_sram : (setTenant s t x).sram = s.sram := rfl
@[simp] theorem setTenant_reqs : (setTenant s t x).reqs = s.reqs := rfl
@[simp] theorem setTenant_gens : (setTenant s t x).gens = s.gens := rfl
@[simp] theorem setTenant_dedup : (setTenant s t x).dedup = s.dedup := rfl
@[simp] theorem setTenant_sqs : (setTenant s t x).sqs = s.sqs := rfl
@[simp] theorem setTenant_cqs : (setTenant s t x).cqs = s.cqs := rfl
@[simp] theorem setTenant_admQ : (setTenant s t x).admQ = s.admQ := rfl
@[simp] theorem setTenant_cohorts : (setTenant s t x).cohorts = s.cohorts := rfl
@[simp] theorem setTenant_nextCohort : (setTenant s t x).nextCohort = s.nextCohort := rfl
@[simp] theorem setTenant_arb : (setTenant s t x).arb = s.arb := rfl
@[simp] theorem setTenant_scan : (setTenant s t x).scan = s.scan := rfl
@[simp] theorem setTenant_cancels : (setTenant s t x).cancels = s.cancels := rfl
@[simp] theorem setTenant_refills : (setTenant s t x).refills = s.refills := rfl
@[simp] theorem setTenant_regRefills : (setTenant s t x).regRefills = s.regRefills := rfl
@[simp] theorem setTenant_costs : (setTenant s t x).costs = s.costs := rfl
@[simp] theorem setTenant_lanes : (setTenant s t x).lanes = s.lanes := rfl
@[simp] theorem setTenant_ctxs : (setTenant s t x).ctxs = s.ctxs := rfl
@[simp] theorem setTenant_slots : (setTenant s t x).slots = s.slots := rfl
@[simp] theorem setTenant_slotGens : (setTenant s t x).slotGens = s.slotGens := rfl
@[simp] theorem setTenant_pages : (setTenant s t x).pages = s.pages := rfl
@[simp] theorem setTenant_retired : (setTenant s t x).retired = s.retired := rfl
@[simp] theorem setTenant_retiredFull : (setTenant s t x).retiredFull = s.retiredFull := rfl
@[simp] theorem setTenant_parts : (setTenant s t x).parts = s.parts := rfl
@[simp] theorem setTenant_held : (setTenant s t x).held = s.held := rfl
@[simp] theorem setTenant_trace : (setTenant s t x).trace = s.trace := rfl
@[simp] theorem setTenant_assaySeen : (setTenant s t x).assaySeen = s.assaySeen := rfl
@[simp] theorem setTenant_groups : (setTenant s t x).groups = s.groups := rfl
@[simp] theorem setTenant_ports : (setTenant s t x).ports = s.ports := rfl
@[simp] theorem setTenant_reasm : (setTenant s t x).reasm = s.reasm := rfl
@[simp] theorem setTenant_fwd : (setTenant s t x).fwd = s.fwd := rfl
@[simp] theorem setTenant_msgNo : (setTenant s t x).msgNo = s.msgNo := rfl
@[simp] theorem setTenant_stampAt : (setTenant s t x).stampAt = s.stampAt := rfl
@[simp] theorem setTenant_fns : (setTenant s t x).fns = s.fns := rfl
@[simp] theorem setTenant_vecs : (setTenant s t x).vecs = s.vecs := rfl
@[simp] theorem setTenant_power : (setTenant s t x).power = s.power := rfl
@[simp] theorem setTenant_mbx : (setTenant s t x).mbx = s.mbx := rfl
@[simp] theorem setTenant_fltQueue : (setTenant s t x).fltQueue = s.fltQueue := rfl
@[simp] theorem setTenant_fltLog : (setTenant s t x).fltLog = s.fltLog := rfl
@[simp] theorem setTenant_fltLost : (setTenant s t x).fltLost = s.fltLost := rfl
@[simp] theorem setTenant_flash : (setTenant s t x).flash = s.flash := rfl
@[simp] theorem setTenant_spoiled : (setTenant s t x).spoiled = s.spoiled := rfl
@[simp] theorem setTenant_nvm : (setTenant s t x).nvm = s.nvm := rfl
@[simp] theorem setTenant_set : (setTenant s t x).set = s.set := rfl
@[simp] theorem setTenant_img : (setTenant s t x).img = s.img := rfl
@[simp] theorem setTenant_upd : (setTenant s t x).upd = s.upd := rfl
@[simp] theorem setTenant_boot : (setTenant s t x).boot = s.boot := rfl
@[simp] theorem setTenant_hwd : (setTenant s t x).hwd = s.hwd := rfl
@[simp] theorem setTenant_spdm : (setTenant s t x).spdm = s.spdm := rfl
@[simp] theorem setTenant_tap : (setTenant s t x).tap = s.tap := rfl
@[simp] theorem setTenant_devLatch : (setTenant s t x).devLatch = s.devLatch := rfl
@[simp] theorem setTenant_fltLatch : (setTenant s t x).fltLatch = s.fltLatch := rfl
@[simp] theorem setTenant_loaded : (setTenant s t x).loaded = s.loaded := rfl
@[simp] theorem setTenant_laneInit : (setTenant s t x).laneInit = s.laneInit := rfl
end

/-! ### setPart writes `parts` only -/
section
variable (p : Nat) (x : Part)
@[simp] theorem setPart_pending : (setPart s p x).pending = s.pending := rfl
@[simp] theorem setPart_out : (setPart s p x).out = s.out := rfl
@[simp] theorem setPart_free : (setPart s p x).free = s.free := rfl
@[simp] theorem setPart_time : (setPart s p x).time = s.time := rfl
@[simp] theorem setPart_qTime : (setPart s p x).qTime = s.qTime := rfl
@[simp] theorem setPart_fTime : (setPart s p x).fTime = s.fTime := rfl
@[simp] theorem setPart_lTime : (setPart s p x).lTime = s.lTime := rfl
@[simp] theorem setPart_cTime : (setPart s p x).cTime = s.cTime := rfl
@[simp] theorem setPart_mTime : (setPart s p x).mTime = s.mTime := rfl
@[simp] theorem setPart_pTime : (setPart s p x).pTime = s.pTime := rfl
@[simp] theorem setPart_aTime : (setPart s p x).aTime = s.aTime := rfl
@[simp] theorem setPart_sTime : (setPart s p x).sTime = s.sTime := rfl
@[simp] theorem setPart_regs : (setPart s p x).regs = s.regs := rfl
@[simp] theorem setPart_dram : (setPart s p x).dram = s.dram := rfl
@[simp] theorem setPart_l2 : (setPart s p x).l2 = s.l2 := rfl
@[simp] theorem setPart_ecc : (setPart s p x).ecc = s.ecc := rfl
@[simp] theorem setPart_scrub : (setPart s p x).scrub = s.scrub := rfl
@[simp] theorem setPart_clusters : (setPart s p x).clusters = s.clusters := rfl
@[simp] theorem setPart_sram : (setPart s p x).sram = s.sram := rfl
@[simp] theorem setPart_reqs : (setPart s p x).reqs = s.reqs := rfl
@[simp] theorem setPart_gens : (setPart s p x).gens = s.gens := rfl
@[simp] theorem setPart_dedup : (setPart s p x).dedup = s.dedup := rfl
@[simp] theorem setPart_sqs : (setPart s p x).sqs = s.sqs := rfl
@[simp] theorem setPart_cqs : (setPart s p x).cqs = s.cqs := rfl
@[simp] theorem setPart_admQ : (setPart s p x).admQ = s.admQ := rfl
@[simp] theorem setPart_cohorts : (setPart s p x).cohorts = s.cohorts := rfl
@[simp] theorem setPart_nextCohort : (setPart s p x).nextCohort = s.nextCohort := rfl
@[simp] theorem setPart_arb : (setPart s p x).arb = s.arb := rfl
@[simp] theorem setPart_scan : (setPart s p x).scan = s.scan := rfl
@[simp] theorem setPart_cancels : (setPart s p x).cancels = s.cancels := rfl
@[simp] theorem setPart_refills : (setPart s p x).refills = s.refills := rfl
@[simp] theorem setPart_regRefills : (setPart s p x).regRefills = s.regRefills := rfl
@[simp] theorem setPart_costs : (setPart s p x).costs = s.costs := rfl
@[simp] theorem setPart_lanes : (setPart s p x).lanes = s.lanes := rfl
@[simp] theorem setPart_ctxs : (setPart s p x).ctxs = s.ctxs := rfl
@[simp] theorem setPart_slots : (setPart s p x).slots = s.slots := rfl
@[simp] theorem setPart_slotGens : (setPart s p x).slotGens = s.slotGens := rfl
@[simp] theorem setPart_pages : (setPart s p x).pages = s.pages := rfl
@[simp] theorem setPart_retired : (setPart s p x).retired = s.retired := rfl
@[simp] theorem setPart_retiredFull : (setPart s p x).retiredFull = s.retiredFull := rfl
@[simp] theorem setPart_tens : (setPart s p x).tens = s.tens := rfl
@[simp] theorem setPart_held : (setPart s p x).held = s.held := rfl
@[simp] theorem setPart_trace : (setPart s p x).trace = s.trace := rfl
@[simp] theorem setPart_assaySeen : (setPart s p x).assaySeen = s.assaySeen := rfl
@[simp] theorem setPart_groups : (setPart s p x).groups = s.groups := rfl
@[simp] theorem setPart_ports : (setPart s p x).ports = s.ports := rfl
@[simp] theorem setPart_reasm : (setPart s p x).reasm = s.reasm := rfl
@[simp] theorem setPart_fwd : (setPart s p x).fwd = s.fwd := rfl
@[simp] theorem setPart_msgNo : (setPart s p x).msgNo = s.msgNo := rfl
@[simp] theorem setPart_stampAt : (setPart s p x).stampAt = s.stampAt := rfl
@[simp] theorem setPart_fns : (setPart s p x).fns = s.fns := rfl
@[simp] theorem setPart_vecs : (setPart s p x).vecs = s.vecs := rfl
@[simp] theorem setPart_power : (setPart s p x).power = s.power := rfl
@[simp] theorem setPart_mbx : (setPart s p x).mbx = s.mbx := rfl
@[simp] theorem setPart_fltQueue : (setPart s p x).fltQueue = s.fltQueue := rfl
@[simp] theorem setPart_fltLog : (setPart s p x).fltLog = s.fltLog := rfl
@[simp] theorem setPart_fltLost : (setPart s p x).fltLost = s.fltLost := rfl
@[simp] theorem setPart_flash : (setPart s p x).flash = s.flash := rfl
@[simp] theorem setPart_spoiled : (setPart s p x).spoiled = s.spoiled := rfl
@[simp] theorem setPart_nvm : (setPart s p x).nvm = s.nvm := rfl
@[simp] theorem setPart_set : (setPart s p x).set = s.set := rfl
@[simp] theorem setPart_img : (setPart s p x).img = s.img := rfl
@[simp] theorem setPart_upd : (setPart s p x).upd = s.upd := rfl
@[simp] theorem setPart_boot : (setPart s p x).boot = s.boot := rfl
@[simp] theorem setPart_hwd : (setPart s p x).hwd = s.hwd := rfl
@[simp] theorem setPart_spdm : (setPart s p x).spdm = s.spdm := rfl
@[simp] theorem setPart_tap : (setPart s p x).tap = s.tap := rfl
@[simp] theorem setPart_devLatch : (setPart s p x).devLatch = s.devLatch := rfl
@[simp] theorem setPart_fltLatch : (setPart s p x).fltLatch = s.fltLatch := rfl
@[simp] theorem setPart_loaded : (setPart s p x).loaded = s.loaded := rfl
@[simp] theorem setPart_laneInit : (setPart s p x).laneInit = s.laneInit := rfl
end

/-! ### setFn writes `fns` only -/
section
variable (n : Nat) (x : Fn)
@[simp] theorem setFn_pending : (setFn s n x).pending = s.pending := rfl
@[simp] theorem setFn_out : (setFn s n x).out = s.out := rfl
@[simp] theorem setFn_free : (setFn s n x).free = s.free := rfl
@[simp] theorem setFn_time : (setFn s n x).time = s.time := rfl
@[simp] theorem setFn_qTime : (setFn s n x).qTime = s.qTime := rfl
@[simp] theorem setFn_fTime : (setFn s n x).fTime = s.fTime := rfl
@[simp] theorem setFn_lTime : (setFn s n x).lTime = s.lTime := rfl
@[simp] theorem setFn_cTime : (setFn s n x).cTime = s.cTime := rfl
@[simp] theorem setFn_mTime : (setFn s n x).mTime = s.mTime := rfl
@[simp] theorem setFn_pTime : (setFn s n x).pTime = s.pTime := rfl
@[simp] theorem setFn_aTime : (setFn s n x).aTime = s.aTime := rfl
@[simp] theorem setFn_sTime : (setFn s n x).sTime = s.sTime := rfl
@[simp] theorem setFn_regs : (setFn s n x).regs = s.regs := rfl
@[simp] theorem setFn_dram : (setFn s n x).dram = s.dram := rfl
@[simp] theorem setFn_l2 : (setFn s n x).l2 = s.l2 := rfl
@[simp] theorem setFn_ecc : (setFn s n x).ecc = s.ecc := rfl
@[simp] theorem setFn_scrub : (setFn s n x).scrub = s.scrub := rfl
@[simp] theorem setFn_clusters : (setFn s n x).clusters = s.clusters := rfl
@[simp] theorem setFn_sram : (setFn s n x).sram = s.sram := rfl
@[simp] theorem setFn_reqs : (setFn s n x).reqs = s.reqs := rfl
@[simp] theorem setFn_gens : (setFn s n x).gens = s.gens := rfl
@[simp] theorem setFn_dedup : (setFn s n x).dedup = s.dedup := rfl
@[simp] theorem setFn_sqs : (setFn s n x).sqs = s.sqs := rfl
@[simp] theorem setFn_cqs : (setFn s n x).cqs = s.cqs := rfl
@[simp] theorem setFn_admQ : (setFn s n x).admQ = s.admQ := rfl
@[simp] theorem setFn_cohorts : (setFn s n x).cohorts = s.cohorts := rfl
@[simp] theorem setFn_nextCohort : (setFn s n x).nextCohort = s.nextCohort := rfl
@[simp] theorem setFn_arb : (setFn s n x).arb = s.arb := rfl
@[simp] theorem setFn_scan : (setFn s n x).scan = s.scan := rfl
@[simp] theorem setFn_cancels : (setFn s n x).cancels = s.cancels := rfl
@[simp] theorem setFn_refills : (setFn s n x).refills = s.refills := rfl
@[simp] theorem setFn_regRefills : (setFn s n x).regRefills = s.regRefills := rfl
@[simp] theorem setFn_costs : (setFn s n x).costs = s.costs := rfl
@[simp] theorem setFn_lanes : (setFn s n x).lanes = s.lanes := rfl
@[simp] theorem setFn_ctxs : (setFn s n x).ctxs = s.ctxs := rfl
@[simp] theorem setFn_slots : (setFn s n x).slots = s.slots := rfl
@[simp] theorem setFn_slotGens : (setFn s n x).slotGens = s.slotGens := rfl
@[simp] theorem setFn_pages : (setFn s n x).pages = s.pages := rfl
@[simp] theorem setFn_retired : (setFn s n x).retired = s.retired := rfl
@[simp] theorem setFn_retiredFull : (setFn s n x).retiredFull = s.retiredFull := rfl
@[simp] theorem setFn_tens : (setFn s n x).tens = s.tens := rfl
@[simp] theorem setFn_parts : (setFn s n x).parts = s.parts := rfl
@[simp] theorem setFn_held : (setFn s n x).held = s.held := rfl
@[simp] theorem setFn_trace : (setFn s n x).trace = s.trace := rfl
@[simp] theorem setFn_assaySeen : (setFn s n x).assaySeen = s.assaySeen := rfl
@[simp] theorem setFn_groups : (setFn s n x).groups = s.groups := rfl
@[simp] theorem setFn_ports : (setFn s n x).ports = s.ports := rfl
@[simp] theorem setFn_reasm : (setFn s n x).reasm = s.reasm := rfl
@[simp] theorem setFn_fwd : (setFn s n x).fwd = s.fwd := rfl
@[simp] theorem setFn_msgNo : (setFn s n x).msgNo = s.msgNo := rfl
@[simp] theorem setFn_stampAt : (setFn s n x).stampAt = s.stampAt := rfl
@[simp] theorem setFn_vecs : (setFn s n x).vecs = s.vecs := rfl
@[simp] theorem setFn_power : (setFn s n x).power = s.power := rfl
@[simp] theorem setFn_mbx : (setFn s n x).mbx = s.mbx := rfl
@[simp] theorem setFn_fltQueue : (setFn s n x).fltQueue = s.fltQueue := rfl
@[simp] theorem setFn_fltLog : (setFn s n x).fltLog = s.fltLog := rfl
@[simp] theorem setFn_fltLost : (setFn s n x).fltLost = s.fltLost := rfl
@[simp] theorem setFn_flash : (setFn s n x).flash = s.flash := rfl
@[simp] theorem setFn_spoiled : (setFn s n x).spoiled = s.spoiled := rfl
@[simp] theorem setFn_nvm : (setFn s n x).nvm = s.nvm := rfl
@[simp] theorem setFn_set : (setFn s n x).set = s.set := rfl
@[simp] theorem setFn_img : (setFn s n x).img = s.img := rfl
@[simp] theorem setFn_upd : (setFn s n x).upd = s.upd := rfl
@[simp] theorem setFn_boot : (setFn s n x).boot = s.boot := rfl
@[simp] theorem setFn_hwd : (setFn s n x).hwd = s.hwd := rfl
@[simp] theorem setFn_spdm : (setFn s n x).spdm = s.spdm := rfl
@[simp] theorem setFn_tap : (setFn s n x).tap = s.tap := rfl
@[simp] theorem setFn_devLatch : (setFn s n x).devLatch = s.devLatch := rfl
@[simp] theorem setFn_fltLatch : (setFn s n x).fltLatch = s.fltLatch := rfl
@[simp] theorem setFn_loaded : (setFn s n x).loaded = s.loaded := rfl
@[simp] theorem setFn_laneInit : (setFn s n x).laneInit = s.laneInit := rfl
end

/-! ### setVec writes `vecs` only -/
section
variable (n v : Nat) (x : Vec)
@[simp] theorem setVec_pending : (setVec s n v x).pending = s.pending := rfl
@[simp] theorem setVec_out : (setVec s n v x).out = s.out := rfl
@[simp] theorem setVec_free : (setVec s n v x).free = s.free := rfl
@[simp] theorem setVec_time : (setVec s n v x).time = s.time := rfl
@[simp] theorem setVec_qTime : (setVec s n v x).qTime = s.qTime := rfl
@[simp] theorem setVec_fTime : (setVec s n v x).fTime = s.fTime := rfl
@[simp] theorem setVec_lTime : (setVec s n v x).lTime = s.lTime := rfl
@[simp] theorem setVec_cTime : (setVec s n v x).cTime = s.cTime := rfl
@[simp] theorem setVec_mTime : (setVec s n v x).mTime = s.mTime := rfl
@[simp] theorem setVec_pTime : (setVec s n v x).pTime = s.pTime := rfl
@[simp] theorem setVec_aTime : (setVec s n v x).aTime = s.aTime := rfl
@[simp] theorem setVec_sTime : (setVec s n v x).sTime = s.sTime := rfl
@[simp] theorem setVec_regs : (setVec s n v x).regs = s.regs := rfl
@[simp] theorem setVec_dram : (setVec s n v x).dram = s.dram := rfl
@[simp] theorem setVec_l2 : (setVec s n v x).l2 = s.l2 := rfl
@[simp] theorem setVec_ecc : (setVec s n v x).ecc = s.ecc := rfl
@[simp] theorem setVec_scrub : (setVec s n v x).scrub = s.scrub := rfl
@[simp] theorem setVec_clusters : (setVec s n v x).clusters = s.clusters := rfl
@[simp] theorem setVec_sram : (setVec s n v x).sram = s.sram := rfl
@[simp] theorem setVec_reqs : (setVec s n v x).reqs = s.reqs := rfl
@[simp] theorem setVec_gens : (setVec s n v x).gens = s.gens := rfl
@[simp] theorem setVec_dedup : (setVec s n v x).dedup = s.dedup := rfl
@[simp] theorem setVec_sqs : (setVec s n v x).sqs = s.sqs := rfl
@[simp] theorem setVec_cqs : (setVec s n v x).cqs = s.cqs := rfl
@[simp] theorem setVec_admQ : (setVec s n v x).admQ = s.admQ := rfl
@[simp] theorem setVec_cohorts : (setVec s n v x).cohorts = s.cohorts := rfl
@[simp] theorem setVec_nextCohort : (setVec s n v x).nextCohort = s.nextCohort := rfl
@[simp] theorem setVec_arb : (setVec s n v x).arb = s.arb := rfl
@[simp] theorem setVec_scan : (setVec s n v x).scan = s.scan := rfl
@[simp] theorem setVec_cancels : (setVec s n v x).cancels = s.cancels := rfl
@[simp] theorem setVec_refills : (setVec s n v x).refills = s.refills := rfl
@[simp] theorem setVec_regRefills : (setVec s n v x).regRefills = s.regRefills := rfl
@[simp] theorem setVec_costs : (setVec s n v x).costs = s.costs := rfl
@[simp] theorem setVec_lanes : (setVec s n v x).lanes = s.lanes := rfl
@[simp] theorem setVec_ctxs : (setVec s n v x).ctxs = s.ctxs := rfl
@[simp] theorem setVec_slots : (setVec s n v x).slots = s.slots := rfl
@[simp] theorem setVec_slotGens : (setVec s n v x).slotGens = s.slotGens := rfl
@[simp] theorem setVec_pages : (setVec s n v x).pages = s.pages := rfl
@[simp] theorem setVec_retired : (setVec s n v x).retired = s.retired := rfl
@[simp] theorem setVec_retiredFull : (setVec s n v x).retiredFull = s.retiredFull := rfl
@[simp] theorem setVec_tens : (setVec s n v x).tens = s.tens := rfl
@[simp] theorem setVec_parts : (setVec s n v x).parts = s.parts := rfl
@[simp] theorem setVec_held : (setVec s n v x).held = s.held := rfl
@[simp] theorem setVec_trace : (setVec s n v x).trace = s.trace := rfl
@[simp] theorem setVec_assaySeen : (setVec s n v x).assaySeen = s.assaySeen := rfl
@[simp] theorem setVec_groups : (setVec s n v x).groups = s.groups := rfl
@[simp] theorem setVec_ports : (setVec s n v x).ports = s.ports := rfl
@[simp] theorem setVec_reasm : (setVec s n v x).reasm = s.reasm := rfl
@[simp] theorem setVec_fwd : (setVec s n v x).fwd = s.fwd := rfl
@[simp] theorem setVec_msgNo : (setVec s n v x).msgNo = s.msgNo := rfl
@[simp] theorem setVec_stampAt : (setVec s n v x).stampAt = s.stampAt := rfl
@[simp] theorem setVec_fns : (setVec s n v x).fns = s.fns := rfl
@[simp] theorem setVec_power : (setVec s n v x).power = s.power := rfl
@[simp] theorem setVec_mbx : (setVec s n v x).mbx = s.mbx := rfl
@[simp] theorem setVec_fltQueue : (setVec s n v x).fltQueue = s.fltQueue := rfl
@[simp] theorem setVec_fltLog : (setVec s n v x).fltLog = s.fltLog := rfl
@[simp] theorem setVec_fltLost : (setVec s n v x).fltLost = s.fltLost := rfl
@[simp] theorem setVec_flash : (setVec s n v x).flash = s.flash := rfl
@[simp] theorem setVec_spoiled : (setVec s n v x).spoiled = s.spoiled := rfl
@[simp] theorem setVec_nvm : (setVec s n v x).nvm = s.nvm := rfl
@[simp] theorem setVec_set : (setVec s n v x).set = s.set := rfl
@[simp] theorem setVec_img : (setVec s n v x).img = s.img := rfl
@[simp] theorem setVec_upd : (setVec s n v x).upd = s.upd := rfl
@[simp] theorem setVec_boot : (setVec s n v x).boot = s.boot := rfl
@[simp] theorem setVec_hwd : (setVec s n v x).hwd = s.hwd := rfl
@[simp] theorem setVec_spdm : (setVec s n v x).spdm = s.spdm := rfl
@[simp] theorem setVec_tap : (setVec s n v x).tap = s.tap := rfl
@[simp] theorem setVec_devLatch : (setVec s n v x).devLatch = s.devLatch := rfl
@[simp] theorem setVec_fltLatch : (setVec s n v x).fltLatch = s.fltLatch := rfl
@[simp] theorem setVec_loaded : (setVec s n v x).loaded = s.loaded := rfl
@[simp] theorem setVec_laneInit : (setVec s n v x).laneInit = s.laneInit := rfl
end

/-! ### setDedup writes `dedup` only -/
section
variable (t : Nat) (l : List (Nat × Nat))
@[simp] theorem setDedup_pending : (setDedup s t l).pending = s.pending := rfl
@[simp] theorem setDedup_out : (setDedup s t l).out = s.out := rfl
@[simp] theorem setDedup_free : (setDedup s t l).free = s.free := rfl
@[simp] theorem setDedup_time : (setDedup s t l).time = s.time := rfl
@[simp] theorem setDedup_qTime : (setDedup s t l).qTime = s.qTime := rfl
@[simp] theorem setDedup_fTime : (setDedup s t l).fTime = s.fTime := rfl
@[simp] theorem setDedup_lTime : (setDedup s t l).lTime = s.lTime := rfl
@[simp] theorem setDedup_cTime : (setDedup s t l).cTime = s.cTime := rfl
@[simp] theorem setDedup_mTime : (setDedup s t l).mTime = s.mTime := rfl
@[simp] theorem setDedup_pTime : (setDedup s t l).pTime = s.pTime := rfl
@[simp] theorem setDedup_aTime : (setDedup s t l).aTime = s.aTime := rfl
@[simp] theorem setDedup_sTime : (setDedup s t l).sTime = s.sTime := rfl
@[simp] theorem setDedup_regs : (setDedup s t l).regs = s.regs := rfl
@[simp] theorem setDedup_dram : (setDedup s t l).dram = s.dram := rfl
@[simp] theorem setDedup_l2 : (setDedup s t l).l2 = s.l2 := rfl
@[simp] theorem setDedup_ecc : (setDedup s t l).ecc = s.ecc := rfl
@[simp] theorem setDedup_scrub : (setDedup s t l).scrub = s.scrub := rfl
@[simp] theorem setDedup_clusters : (setDedup s t l).clusters = s.clusters := rfl
@[simp] theorem setDedup_sram : (setDedup s t l).sram = s.sram := rfl
@[simp] theorem setDedup_reqs : (setDedup s t l).reqs = s.reqs := rfl
@[simp] theorem setDedup_gens : (setDedup s t l).gens = s.gens := rfl
@[simp] theorem setDedup_sqs : (setDedup s t l).sqs = s.sqs := rfl
@[simp] theorem setDedup_cqs : (setDedup s t l).cqs = s.cqs := rfl
@[simp] theorem setDedup_admQ : (setDedup s t l).admQ = s.admQ := rfl
@[simp] theorem setDedup_cohorts : (setDedup s t l).cohorts = s.cohorts := rfl
@[simp] theorem setDedup_nextCohort : (setDedup s t l).nextCohort = s.nextCohort := rfl
@[simp] theorem setDedup_arb : (setDedup s t l).arb = s.arb := rfl
@[simp] theorem setDedup_scan : (setDedup s t l).scan = s.scan := rfl
@[simp] theorem setDedup_cancels : (setDedup s t l).cancels = s.cancels := rfl
@[simp] theorem setDedup_refills : (setDedup s t l).refills = s.refills := rfl
@[simp] theorem setDedup_regRefills : (setDedup s t l).regRefills = s.regRefills := rfl
@[simp] theorem setDedup_costs : (setDedup s t l).costs = s.costs := rfl
@[simp] theorem setDedup_lanes : (setDedup s t l).lanes = s.lanes := rfl
@[simp] theorem setDedup_ctxs : (setDedup s t l).ctxs = s.ctxs := rfl
@[simp] theorem setDedup_slots : (setDedup s t l).slots = s.slots := rfl
@[simp] theorem setDedup_slotGens : (setDedup s t l).slotGens = s.slotGens := rfl
@[simp] theorem setDedup_pages : (setDedup s t l).pages = s.pages := rfl
@[simp] theorem setDedup_retired : (setDedup s t l).retired = s.retired := rfl
@[simp] theorem setDedup_retiredFull : (setDedup s t l).retiredFull = s.retiredFull := rfl
@[simp] theorem setDedup_tens : (setDedup s t l).tens = s.tens := rfl
@[simp] theorem setDedup_parts : (setDedup s t l).parts = s.parts := rfl
@[simp] theorem setDedup_held : (setDedup s t l).held = s.held := rfl
@[simp] theorem setDedup_trace : (setDedup s t l).trace = s.trace := rfl
@[simp] theorem setDedup_assaySeen : (setDedup s t l).assaySeen = s.assaySeen := rfl
@[simp] theorem setDedup_groups : (setDedup s t l).groups = s.groups := rfl
@[simp] theorem setDedup_ports : (setDedup s t l).ports = s.ports := rfl
@[simp] theorem setDedup_reasm : (setDedup s t l).reasm = s.reasm := rfl
@[simp] theorem setDedup_fwd : (setDedup s t l).fwd = s.fwd := rfl
@[simp] theorem setDedup_msgNo : (setDedup s t l).msgNo = s.msgNo := rfl
@[simp] theorem setDedup_stampAt : (setDedup s t l).stampAt = s.stampAt := rfl
@[simp] theorem setDedup_fns : (setDedup s t l).fns = s.fns := rfl
@[simp] theorem setDedup_vecs : (setDedup s t l).vecs = s.vecs := rfl
@[simp] theorem setDedup_power : (setDedup s t l).power = s.power := rfl
@[simp] theorem setDedup_mbx : (setDedup s t l).mbx = s.mbx := rfl
@[simp] theorem setDedup_fltQueue : (setDedup s t l).fltQueue = s.fltQueue := rfl
@[simp] theorem setDedup_fltLog : (setDedup s t l).fltLog = s.fltLog := rfl
@[simp] theorem setDedup_fltLost : (setDedup s t l).fltLost = s.fltLost := rfl
@[simp] theorem setDedup_flash : (setDedup s t l).flash = s.flash := rfl
@[simp] theorem setDedup_spoiled : (setDedup s t l).spoiled = s.spoiled := rfl
@[simp] theorem setDedup_nvm : (setDedup s t l).nvm = s.nvm := rfl
@[simp] theorem setDedup_set : (setDedup s t l).set = s.set := rfl
@[simp] theorem setDedup_img : (setDedup s t l).img = s.img := rfl
@[simp] theorem setDedup_upd : (setDedup s t l).upd = s.upd := rfl
@[simp] theorem setDedup_boot : (setDedup s t l).boot = s.boot := rfl
@[simp] theorem setDedup_hwd : (setDedup s t l).hwd = s.hwd := rfl
@[simp] theorem setDedup_spdm : (setDedup s t l).spdm = s.spdm := rfl
@[simp] theorem setDedup_tap : (setDedup s t l).tap = s.tap := rfl
@[simp] theorem setDedup_devLatch : (setDedup s t l).devLatch = s.devLatch := rfl
@[simp] theorem setDedup_fltLatch : (setDedup s t l).fltLatch = s.fltLatch := rfl
@[simp] theorem setDedup_loaded : (setDedup s t l).loaded = s.loaded := rfl
@[simp] theorem setDedup_laneInit : (setDedup s t l).laneInit = s.laneInit := rfl
end

/-! ### emit writes `out` only -/
section
variable (x : Tx)
@[simp] theorem emit_pending : (emit s x).pending = s.pending := rfl
@[simp] theorem emit_free : (emit s x).free = s.free := rfl
@[simp] theorem emit_time : (emit s x).time = s.time := rfl
@[simp] theorem emit_qTime : (emit s x).qTime = s.qTime := rfl
@[simp] theorem emit_fTime : (emit s x).fTime = s.fTime := rfl
@[simp] theorem emit_lTime : (emit s x).lTime = s.lTime := rfl
@[simp] theorem emit_cTime : (emit s x).cTime = s.cTime := rfl
@[simp] theorem emit_mTime : (emit s x).mTime = s.mTime := rfl
@[simp] theorem emit_pTime : (emit s x).pTime = s.pTime := rfl
@[simp] theorem emit_aTime : (emit s x).aTime = s.aTime := rfl
@[simp] theorem emit_sTime : (emit s x).sTime = s.sTime := rfl
@[simp] theorem emit_regs : (emit s x).regs = s.regs := rfl
@[simp] theorem emit_dram : (emit s x).dram = s.dram := rfl
@[simp] theorem emit_l2 : (emit s x).l2 = s.l2 := rfl
@[simp] theorem emit_ecc : (emit s x).ecc = s.ecc := rfl
@[simp] theorem emit_scrub : (emit s x).scrub = s.scrub := rfl
@[simp] theorem emit_clusters : (emit s x).clusters = s.clusters := rfl
@[simp] theorem emit_sram : (emit s x).sram = s.sram := rfl
@[simp] theorem emit_reqs : (emit s x).reqs = s.reqs := rfl
@[simp] theorem emit_gens : (emit s x).gens = s.gens := rfl
@[simp] theorem emit_dedup : (emit s x).dedup = s.dedup := rfl
@[simp] theorem emit_sqs : (emit s x).sqs = s.sqs := rfl
@[simp] theorem emit_cqs : (emit s x).cqs = s.cqs := rfl
@[simp] theorem emit_admQ : (emit s x).admQ = s.admQ := rfl
@[simp] theorem emit_cohorts : (emit s x).cohorts = s.cohorts := rfl
@[simp] theorem emit_nextCohort : (emit s x).nextCohort = s.nextCohort := rfl
@[simp] theorem emit_arb : (emit s x).arb = s.arb := rfl
@[simp] theorem emit_scan : (emit s x).scan = s.scan := rfl
@[simp] theorem emit_cancels : (emit s x).cancels = s.cancels := rfl
@[simp] theorem emit_refills : (emit s x).refills = s.refills := rfl
@[simp] theorem emit_regRefills : (emit s x).regRefills = s.regRefills := rfl
@[simp] theorem emit_costs : (emit s x).costs = s.costs := rfl
@[simp] theorem emit_lanes : (emit s x).lanes = s.lanes := rfl
@[simp] theorem emit_ctxs : (emit s x).ctxs = s.ctxs := rfl
@[simp] theorem emit_slots : (emit s x).slots = s.slots := rfl
@[simp] theorem emit_slotGens : (emit s x).slotGens = s.slotGens := rfl
@[simp] theorem emit_pages : (emit s x).pages = s.pages := rfl
@[simp] theorem emit_retired : (emit s x).retired = s.retired := rfl
@[simp] theorem emit_retiredFull : (emit s x).retiredFull = s.retiredFull := rfl
@[simp] theorem emit_tens : (emit s x).tens = s.tens := rfl
@[simp] theorem emit_parts : (emit s x).parts = s.parts := rfl
@[simp] theorem emit_held : (emit s x).held = s.held := rfl
@[simp] theorem emit_trace : (emit s x).trace = s.trace := rfl
@[simp] theorem emit_assaySeen : (emit s x).assaySeen = s.assaySeen := rfl
@[simp] theorem emit_groups : (emit s x).groups = s.groups := rfl
@[simp] theorem emit_ports : (emit s x).ports = s.ports := rfl
@[simp] theorem emit_reasm : (emit s x).reasm = s.reasm := rfl
@[simp] theorem emit_fwd : (emit s x).fwd = s.fwd := rfl
@[simp] theorem emit_msgNo : (emit s x).msgNo = s.msgNo := rfl
@[simp] theorem emit_stampAt : (emit s x).stampAt = s.stampAt := rfl
@[simp] theorem emit_fns : (emit s x).fns = s.fns := rfl
@[simp] theorem emit_vecs : (emit s x).vecs = s.vecs := rfl
@[simp] theorem emit_power : (emit s x).power = s.power := rfl
@[simp] theorem emit_mbx : (emit s x).mbx = s.mbx := rfl
@[simp] theorem emit_fltQueue : (emit s x).fltQueue = s.fltQueue := rfl
@[simp] theorem emit_fltLog : (emit s x).fltLog = s.fltLog := rfl
@[simp] theorem emit_fltLost : (emit s x).fltLost = s.fltLost := rfl
@[simp] theorem emit_flash : (emit s x).flash = s.flash := rfl
@[simp] theorem emit_spoiled : (emit s x).spoiled = s.spoiled := rfl
@[simp] theorem emit_nvm : (emit s x).nvm = s.nvm := rfl
@[simp] theorem emit_set : (emit s x).set = s.set := rfl
@[simp] theorem emit_img : (emit s x).img = s.img := rfl
@[simp] theorem emit_upd : (emit s x).upd = s.upd := rfl
@[simp] theorem emit_boot : (emit s x).boot = s.boot := rfl
@[simp] theorem emit_hwd : (emit s x).hwd = s.hwd := rfl
@[simp] theorem emit_spdm : (emit s x).spdm = s.spdm := rfl
@[simp] theorem emit_tap : (emit s x).tap = s.tap := rfl
@[simp] theorem emit_devLatch : (emit s x).devLatch = s.devLatch := rfl
@[simp] theorem emit_fltLatch : (emit s x).fltLatch = s.fltLatch := rfl
@[simp] theorem emit_loaded : (emit s x).loaded = s.loaded := rfl
@[simp] theorem emit_laneInit : (emit s x).laneInit = s.laneInit := rfl
end

/-! ### storeByte writes `dram` and `ecc` only -/
section
variable (a : Nat) (b : Byte)
@[simp] theorem storeByte_pending : (storeByte s a b).pending = s.pending := rfl
@[simp] theorem storeByte_out : (storeByte s a b).out = s.out := rfl
@[simp] theorem storeByte_free : (storeByte s a b).free = s.free := rfl
@[simp] theorem storeByte_time : (storeByte s a b).time = s.time := rfl
@[simp] theorem storeByte_qTime : (storeByte s a b).qTime = s.qTime := rfl
@[simp] theorem storeByte_fTime : (storeByte s a b).fTime = s.fTime := rfl
@[simp] theorem storeByte_lTime : (storeByte s a b).lTime = s.lTime := rfl
@[simp] theorem storeByte_cTime : (storeByte s a b).cTime = s.cTime := rfl
@[simp] theorem storeByte_mTime : (storeByte s a b).mTime = s.mTime := rfl
@[simp] theorem storeByte_pTime : (storeByte s a b).pTime = s.pTime := rfl
@[simp] theorem storeByte_aTime : (storeByte s a b).aTime = s.aTime := rfl
@[simp] theorem storeByte_sTime : (storeByte s a b).sTime = s.sTime := rfl
@[simp] theorem storeByte_regs : (storeByte s a b).regs = s.regs := rfl
@[simp] theorem storeByte_l2 : (storeByte s a b).l2 = s.l2 := rfl
@[simp] theorem storeByte_scrub : (storeByte s a b).scrub = s.scrub := rfl
@[simp] theorem storeByte_clusters : (storeByte s a b).clusters = s.clusters := rfl
@[simp] theorem storeByte_sram : (storeByte s a b).sram = s.sram := rfl
@[simp] theorem storeByte_reqs : (storeByte s a b).reqs = s.reqs := rfl
@[simp] theorem storeByte_gens : (storeByte s a b).gens = s.gens := rfl
@[simp] theorem storeByte_dedup : (storeByte s a b).dedup = s.dedup := rfl
@[simp] theorem storeByte_sqs : (storeByte s a b).sqs = s.sqs := rfl
@[simp] theorem storeByte_cqs : (storeByte s a b).cqs = s.cqs := rfl
@[simp] theorem storeByte_admQ : (storeByte s a b).admQ = s.admQ := rfl
@[simp] theorem storeByte_cohorts : (storeByte s a b).cohorts = s.cohorts := rfl
@[simp] theorem storeByte_nextCohort : (storeByte s a b).nextCohort = s.nextCohort := rfl
@[simp] theorem storeByte_arb : (storeByte s a b).arb = s.arb := rfl
@[simp] theorem storeByte_scan : (storeByte s a b).scan = s.scan := rfl
@[simp] theorem storeByte_cancels : (storeByte s a b).cancels = s.cancels := rfl
@[simp] theorem storeByte_refills : (storeByte s a b).refills = s.refills := rfl
@[simp] theorem storeByte_regRefills : (storeByte s a b).regRefills = s.regRefills := rfl
@[simp] theorem storeByte_costs : (storeByte s a b).costs = s.costs := rfl
@[simp] theorem storeByte_lanes : (storeByte s a b).lanes = s.lanes := rfl
@[simp] theorem storeByte_ctxs : (storeByte s a b).ctxs = s.ctxs := rfl
@[simp] theorem storeByte_slots : (storeByte s a b).slots = s.slots := rfl
@[simp] theorem storeByte_slotGens : (storeByte s a b).slotGens = s.slotGens := rfl
@[simp] theorem storeByte_pages : (storeByte s a b).pages = s.pages := rfl
@[simp] theorem storeByte_retired : (storeByte s a b).retired = s.retired := rfl
@[simp] theorem storeByte_retiredFull : (storeByte s a b).retiredFull = s.retiredFull := rfl
@[simp] theorem storeByte_tens : (storeByte s a b).tens = s.tens := rfl
@[simp] theorem storeByte_parts : (storeByte s a b).parts = s.parts := rfl
@[simp] theorem storeByte_held : (storeByte s a b).held = s.held := rfl
@[simp] theorem storeByte_trace : (storeByte s a b).trace = s.trace := rfl
@[simp] theorem storeByte_assaySeen : (storeByte s a b).assaySeen = s.assaySeen := rfl
@[simp] theorem storeByte_groups : (storeByte s a b).groups = s.groups := rfl
@[simp] theorem storeByte_ports : (storeByte s a b).ports = s.ports := rfl
@[simp] theorem storeByte_reasm : (storeByte s a b).reasm = s.reasm := rfl
@[simp] theorem storeByte_fwd : (storeByte s a b).fwd = s.fwd := rfl
@[simp] theorem storeByte_msgNo : (storeByte s a b).msgNo = s.msgNo := rfl
@[simp] theorem storeByte_stampAt : (storeByte s a b).stampAt = s.stampAt := rfl
@[simp] theorem storeByte_fns : (storeByte s a b).fns = s.fns := rfl
@[simp] theorem storeByte_vecs : (storeByte s a b).vecs = s.vecs := rfl
@[simp] theorem storeByte_power : (storeByte s a b).power = s.power := rfl
@[simp] theorem storeByte_mbx : (storeByte s a b).mbx = s.mbx := rfl
@[simp] theorem storeByte_fltQueue : (storeByte s a b).fltQueue = s.fltQueue := rfl
@[simp] theorem storeByte_fltLog : (storeByte s a b).fltLog = s.fltLog := rfl
@[simp] theorem storeByte_fltLost : (storeByte s a b).fltLost = s.fltLost := rfl
@[simp] theorem storeByte_flash : (storeByte s a b).flash = s.flash := rfl
@[simp] theorem storeByte_spoiled : (storeByte s a b).spoiled = s.spoiled := rfl
@[simp] theorem storeByte_nvm : (storeByte s a b).nvm = s.nvm := rfl
@[simp] theorem storeByte_set : (storeByte s a b).set = s.set := rfl
@[simp] theorem storeByte_img : (storeByte s a b).img = s.img := rfl
@[simp] theorem storeByte_upd : (storeByte s a b).upd = s.upd := rfl
@[simp] theorem storeByte_boot : (storeByte s a b).boot = s.boot := rfl
@[simp] theorem storeByte_hwd : (storeByte s a b).hwd = s.hwd := rfl
@[simp] theorem storeByte_spdm : (storeByte s a b).spdm = s.spdm := rfl
@[simp] theorem storeByte_tap : (storeByte s a b).tap = s.tap := rfl
@[simp] theorem storeByte_devLatch : (storeByte s a b).devLatch = s.devLatch := rfl
@[simp] theorem storeByte_fltLatch : (storeByte s a b).fltLatch = s.fltLatch := rfl
@[simp] theorem storeByte_loaded : (storeByte s a b).loaded = s.loaded := rfl
@[simp] theorem storeByte_laneInit : (storeByte s a b).laneInit = s.laneInit := rfl
end

/-! ### zeroWhere writes `dram` and `ecc` only -/
section
variable (p : Nat → Bool)
@[simp] theorem zeroWhere_pending : (zeroWhere s p).pending = s.pending := rfl
@[simp] theorem zeroWhere_out : (zeroWhere s p).out = s.out := rfl
@[simp] theorem zeroWhere_free : (zeroWhere s p).free = s.free := rfl
@[simp] theorem zeroWhere_time : (zeroWhere s p).time = s.time := rfl
@[simp] theorem zeroWhere_qTime : (zeroWhere s p).qTime = s.qTime := rfl
@[simp] theorem zeroWhere_fTime : (zeroWhere s p).fTime = s.fTime := rfl
@[simp] theorem zeroWhere_lTime : (zeroWhere s p).lTime = s.lTime := rfl
@[simp] theorem zeroWhere_cTime : (zeroWhere s p).cTime = s.cTime := rfl
@[simp] theorem zeroWhere_mTime : (zeroWhere s p).mTime = s.mTime := rfl
@[simp] theorem zeroWhere_pTime : (zeroWhere s p).pTime = s.pTime := rfl
@[simp] theorem zeroWhere_aTime : (zeroWhere s p).aTime = s.aTime := rfl
@[simp] theorem zeroWhere_sTime : (zeroWhere s p).sTime = s.sTime := rfl
@[simp] theorem zeroWhere_regs : (zeroWhere s p).regs = s.regs := rfl
@[simp] theorem zeroWhere_l2 : (zeroWhere s p).l2 = s.l2 := rfl
@[simp] theorem zeroWhere_scrub : (zeroWhere s p).scrub = s.scrub := rfl
@[simp] theorem zeroWhere_clusters : (zeroWhere s p).clusters = s.clusters := rfl
@[simp] theorem zeroWhere_sram : (zeroWhere s p).sram = s.sram := rfl
@[simp] theorem zeroWhere_reqs : (zeroWhere s p).reqs = s.reqs := rfl
@[simp] theorem zeroWhere_gens : (zeroWhere s p).gens = s.gens := rfl
@[simp] theorem zeroWhere_dedup : (zeroWhere s p).dedup = s.dedup := rfl
@[simp] theorem zeroWhere_sqs : (zeroWhere s p).sqs = s.sqs := rfl
@[simp] theorem zeroWhere_cqs : (zeroWhere s p).cqs = s.cqs := rfl
@[simp] theorem zeroWhere_admQ : (zeroWhere s p).admQ = s.admQ := rfl
@[simp] theorem zeroWhere_cohorts : (zeroWhere s p).cohorts = s.cohorts := rfl
@[simp] theorem zeroWhere_nextCohort : (zeroWhere s p).nextCohort = s.nextCohort := rfl
@[simp] theorem zeroWhere_arb : (zeroWhere s p).arb = s.arb := rfl
@[simp] theorem zeroWhere_scan : (zeroWhere s p).scan = s.scan := rfl
@[simp] theorem zeroWhere_cancels : (zeroWhere s p).cancels = s.cancels := rfl
@[simp] theorem zeroWhere_refills : (zeroWhere s p).refills = s.refills := rfl
@[simp] theorem zeroWhere_regRefills : (zeroWhere s p).regRefills = s.regRefills := rfl
@[simp] theorem zeroWhere_costs : (zeroWhere s p).costs = s.costs := rfl
@[simp] theorem zeroWhere_lanes : (zeroWhere s p).lanes = s.lanes := rfl
@[simp] theorem zeroWhere_ctxs : (zeroWhere s p).ctxs = s.ctxs := rfl
@[simp] theorem zeroWhere_slots : (zeroWhere s p).slots = s.slots := rfl
@[simp] theorem zeroWhere_slotGens : (zeroWhere s p).slotGens = s.slotGens := rfl
@[simp] theorem zeroWhere_pages : (zeroWhere s p).pages = s.pages := rfl
@[simp] theorem zeroWhere_retired : (zeroWhere s p).retired = s.retired := rfl
@[simp] theorem zeroWhere_retiredFull : (zeroWhere s p).retiredFull = s.retiredFull := rfl
@[simp] theorem zeroWhere_tens : (zeroWhere s p).tens = s.tens := rfl
@[simp] theorem zeroWhere_parts : (zeroWhere s p).parts = s.parts := rfl
@[simp] theorem zeroWhere_held : (zeroWhere s p).held = s.held := rfl
@[simp] theorem zeroWhere_trace : (zeroWhere s p).trace = s.trace := rfl
@[simp] theorem zeroWhere_assaySeen : (zeroWhere s p).assaySeen = s.assaySeen := rfl
@[simp] theorem zeroWhere_groups : (zeroWhere s p).groups = s.groups := rfl
@[simp] theorem zeroWhere_ports : (zeroWhere s p).ports = s.ports := rfl
@[simp] theorem zeroWhere_reasm : (zeroWhere s p).reasm = s.reasm := rfl
@[simp] theorem zeroWhere_fwd : (zeroWhere s p).fwd = s.fwd := rfl
@[simp] theorem zeroWhere_msgNo : (zeroWhere s p).msgNo = s.msgNo := rfl
@[simp] theorem zeroWhere_stampAt : (zeroWhere s p).stampAt = s.stampAt := rfl
@[simp] theorem zeroWhere_fns : (zeroWhere s p).fns = s.fns := rfl
@[simp] theorem zeroWhere_vecs : (zeroWhere s p).vecs = s.vecs := rfl
@[simp] theorem zeroWhere_power : (zeroWhere s p).power = s.power := rfl
@[simp] theorem zeroWhere_mbx : (zeroWhere s p).mbx = s.mbx := rfl
@[simp] theorem zeroWhere_fltQueue : (zeroWhere s p).fltQueue = s.fltQueue := rfl
@[simp] theorem zeroWhere_fltLog : (zeroWhere s p).fltLog = s.fltLog := rfl
@[simp] theorem zeroWhere_fltLost : (zeroWhere s p).fltLost = s.fltLost := rfl
@[simp] theorem zeroWhere_flash : (zeroWhere s p).flash = s.flash := rfl
@[simp] theorem zeroWhere_spoiled : (zeroWhere s p).spoiled = s.spoiled := rfl
@[simp] theorem zeroWhere_nvm : (zeroWhere s p).nvm = s.nvm := rfl
@[simp] theorem zeroWhere_set : (zeroWhere s p).set = s.set := rfl
@[simp] theorem zeroWhere_img : (zeroWhere s p).img = s.img := rfl
@[simp] theorem zeroWhere_upd : (zeroWhere s p).upd = s.upd := rfl
@[simp] theorem zeroWhere_boot : (zeroWhere s p).boot = s.boot := rfl
@[simp] theorem zeroWhere_hwd : (zeroWhere s p).hwd = s.hwd := rfl
@[simp] theorem zeroWhere_spdm : (zeroWhere s p).spdm = s.spdm := rfl
@[simp] theorem zeroWhere_tap : (zeroWhere s p).tap = s.tap := rfl
@[simp] theorem zeroWhere_devLatch : (zeroWhere s p).devLatch = s.devLatch := rfl
@[simp] theorem zeroWhere_fltLatch : (zeroWhere s p).fltLatch = s.fltLatch := rfl
@[simp] theorem zeroWhere_loaded : (zeroWhere s p).loaded = s.loaded := rfl
@[simp] theorem zeroWhere_laneInit : (zeroWhere s p).laneInit = s.laneInit := rfl
end

/-! ### setEcc writes `ecc` only -/
section
variable (w n : Nat)
@[simp] theorem setEcc_pending : (setEcc s w n).pending = s.pending := rfl
@[simp] theorem setEcc_out : (setEcc s w n).out = s.out := rfl
@[simp] theorem setEcc_free : (setEcc s w n).free = s.free := rfl
@[simp] theorem setEcc_time : (setEcc s w n).time = s.time := rfl
@[simp] theorem setEcc_qTime : (setEcc s w n).qTime = s.qTime := rfl
@[simp] theorem setEcc_fTime : (setEcc s w n).fTime = s.fTime := rfl
@[simp] theorem setEcc_lTime : (setEcc s w n).lTime = s.lTime := rfl
@[simp] theorem setEcc_cTime : (setEcc s w n).cTime = s.cTime := rfl
@[simp] theorem setEcc_mTime : (setEcc s w n).mTime = s.mTime := rfl
@[simp] theorem setEcc_pTime : (setEcc s w n).pTime = s.pTime := rfl
@[simp] theorem setEcc_aTime : (setEcc s w n).aTime = s.aTime := rfl
@[simp] theorem setEcc_sTime : (setEcc s w n).sTime = s.sTime := rfl
@[simp] theorem setEcc_regs : (setEcc s w n).regs = s.regs := rfl
@[simp] theorem setEcc_dram : (setEcc s w n).dram = s.dram := rfl
@[simp] theorem setEcc_l2 : (setEcc s w n).l2 = s.l2 := rfl
@[simp] theorem setEcc_scrub : (setEcc s w n).scrub = s.scrub := rfl
@[simp] theorem setEcc_clusters : (setEcc s w n).clusters = s.clusters := rfl
@[simp] theorem setEcc_sram : (setEcc s w n).sram = s.sram := rfl
@[simp] theorem setEcc_reqs : (setEcc s w n).reqs = s.reqs := rfl
@[simp] theorem setEcc_gens : (setEcc s w n).gens = s.gens := rfl
@[simp] theorem setEcc_dedup : (setEcc s w n).dedup = s.dedup := rfl
@[simp] theorem setEcc_sqs : (setEcc s w n).sqs = s.sqs := rfl
@[simp] theorem setEcc_cqs : (setEcc s w n).cqs = s.cqs := rfl
@[simp] theorem setEcc_admQ : (setEcc s w n).admQ = s.admQ := rfl
@[simp] theorem setEcc_cohorts : (setEcc s w n).cohorts = s.cohorts := rfl
@[simp] theorem setEcc_nextCohort : (setEcc s w n).nextCohort = s.nextCohort := rfl
@[simp] theorem setEcc_arb : (setEcc s w n).arb = s.arb := rfl
@[simp] theorem setEcc_scan : (setEcc s w n).scan = s.scan := rfl
@[simp] theorem setEcc_cancels : (setEcc s w n).cancels = s.cancels := rfl
@[simp] theorem setEcc_refills : (setEcc s w n).refills = s.refills := rfl
@[simp] theorem setEcc_regRefills : (setEcc s w n).regRefills = s.regRefills := rfl
@[simp] theorem setEcc_costs : (setEcc s w n).costs = s.costs := rfl
@[simp] theorem setEcc_lanes : (setEcc s w n).lanes = s.lanes := rfl
@[simp] theorem setEcc_ctxs : (setEcc s w n).ctxs = s.ctxs := rfl
@[simp] theorem setEcc_slots : (setEcc s w n).slots = s.slots := rfl
@[simp] theorem setEcc_slotGens : (setEcc s w n).slotGens = s.slotGens := rfl
@[simp] theorem setEcc_pages : (setEcc s w n).pages = s.pages := rfl
@[simp] theorem setEcc_retired : (setEcc s w n).retired = s.retired := rfl
@[simp] theorem setEcc_retiredFull : (setEcc s w n).retiredFull = s.retiredFull := rfl
@[simp] theorem setEcc_tens : (setEcc s w n).tens = s.tens := rfl
@[simp] theorem setEcc_parts : (setEcc s w n).parts = s.parts := rfl
@[simp] theorem setEcc_held : (setEcc s w n).held = s.held := rfl
@[simp] theorem setEcc_trace : (setEcc s w n).trace = s.trace := rfl
@[simp] theorem setEcc_assaySeen : (setEcc s w n).assaySeen = s.assaySeen := rfl
@[simp] theorem setEcc_groups : (setEcc s w n).groups = s.groups := rfl
@[simp] theorem setEcc_ports : (setEcc s w n).ports = s.ports := rfl
@[simp] theorem setEcc_reasm : (setEcc s w n).reasm = s.reasm := rfl
@[simp] theorem setEcc_fwd : (setEcc s w n).fwd = s.fwd := rfl
@[simp] theorem setEcc_msgNo : (setEcc s w n).msgNo = s.msgNo := rfl
@[simp] theorem setEcc_stampAt : (setEcc s w n).stampAt = s.stampAt := rfl
@[simp] theorem setEcc_fns : (setEcc s w n).fns = s.fns := rfl
@[simp] theorem setEcc_vecs : (setEcc s w n).vecs = s.vecs := rfl
@[simp] theorem setEcc_power : (setEcc s w n).power = s.power := rfl
@[simp] theorem setEcc_mbx : (setEcc s w n).mbx = s.mbx := rfl
@[simp] theorem setEcc_fltQueue : (setEcc s w n).fltQueue = s.fltQueue := rfl
@[simp] theorem setEcc_fltLog : (setEcc s w n).fltLog = s.fltLog := rfl
@[simp] theorem setEcc_fltLost : (setEcc s w n).fltLost = s.fltLost := rfl
@[simp] theorem setEcc_flash : (setEcc s w n).flash = s.flash := rfl
@[simp] theorem setEcc_spoiled : (setEcc s w n).spoiled = s.spoiled := rfl
@[simp] theorem setEcc_nvm : (setEcc s w n).nvm = s.nvm := rfl
@[simp] theorem setEcc_set : (setEcc s w n).set = s.set := rfl
@[simp] theorem setEcc_img : (setEcc s w n).img = s.img := rfl
@[simp] theorem setEcc_upd : (setEcc s w n).upd = s.upd := rfl
@[simp] theorem setEcc_boot : (setEcc s w n).boot = s.boot := rfl
@[simp] theorem setEcc_hwd : (setEcc s w n).hwd = s.hwd := rfl
@[simp] theorem setEcc_spdm : (setEcc s w n).spdm = s.spdm := rfl
@[simp] theorem setEcc_tap : (setEcc s w n).tap = s.tap := rfl
@[simp] theorem setEcc_devLatch : (setEcc s w n).devLatch = s.devLatch := rfl
@[simp] theorem setEcc_fltLatch : (setEcc s w n).fltLatch = s.fltLatch := rfl
@[simp] theorem setEcc_loaded : (setEcc s w n).loaded = s.loaded := rfl
@[simp] theorem setEcc_laneInit : (setEcc s w n).laneInit = s.laneInit := rfl
end

/-! ### setL2 writes `l2` only -/
section
variable (line : Nat) (x : Option L2Line)
@[simp] theorem setL2_pending : (setL2 s line x).pending = s.pending := rfl
@[simp] theorem setL2_out : (setL2 s line x).out = s.out := rfl
@[simp] theorem setL2_free : (setL2 s line x).free = s.free := rfl
@[simp] theorem setL2_time : (setL2 s line x).time = s.time := rfl
@[simp] theorem setL2_qTime : (setL2 s line x).qTime = s.qTime := rfl
@[simp] theorem setL2_fTime : (setL2 s line x).fTime = s.fTime := rfl
@[simp] theorem setL2_lTime : (setL2 s line x).lTime = s.lTime := rfl
@[simp] theorem setL2_cTime : (setL2 s line x).cTime = s.cTime := rfl
@[simp] theorem setL2_mTime : (setL2 s line x).mTime = s.mTime := rfl
@[simp] theorem setL2_pTime : (setL2 s line x).pTime = s.pTime := rfl
@[simp] theorem setL2_aTime : (setL2 s line x).aTime = s.aTime := rfl
@[simp] theorem setL2_sTime : (setL2 s line x).sTime = s.sTime := rfl
@[simp] theorem setL2_regs : (setL2 s line x).regs = s.regs := rfl
@[simp] theorem setL2_dram : (setL2 s line x).dram = s.dram := rfl
@[simp] theorem setL2_ecc : (setL2 s line x).ecc = s.ecc := rfl
@[simp] theorem setL2_scrub : (setL2 s line x).scrub = s.scrub := rfl
@[simp] theorem setL2_clusters : (setL2 s line x).clusters = s.clusters := rfl
@[simp] theorem setL2_sram : (setL2 s line x).sram = s.sram := rfl
@[simp] theorem setL2_reqs : (setL2 s line x).reqs = s.reqs := rfl
@[simp] theorem setL2_gens : (setL2 s line x).gens = s.gens := rfl
@[simp] theorem setL2_dedup : (setL2 s line x).dedup = s.dedup := rfl
@[simp] theorem setL2_sqs : (setL2 s line x).sqs = s.sqs := rfl
@[simp] theorem setL2_cqs : (setL2 s line x).cqs = s.cqs := rfl
@[simp] theorem setL2_admQ : (setL2 s line x).admQ = s.admQ := rfl
@[simp] theorem setL2_cohorts : (setL2 s line x).cohorts = s.cohorts := rfl
@[simp] theorem setL2_nextCohort : (setL2 s line x).nextCohort = s.nextCohort := rfl
@[simp] theorem setL2_arb : (setL2 s line x).arb = s.arb := rfl
@[simp] theorem setL2_scan : (setL2 s line x).scan = s.scan := rfl
@[simp] theorem setL2_cancels : (setL2 s line x).cancels = s.cancels := rfl
@[simp] theorem setL2_refills : (setL2 s line x).refills = s.refills := rfl
@[simp] theorem setL2_regRefills : (setL2 s line x).regRefills = s.regRefills := rfl
@[simp] theorem setL2_costs : (setL2 s line x).costs = s.costs := rfl
@[simp] theorem setL2_lanes : (setL2 s line x).lanes = s.lanes := rfl
@[simp] theorem setL2_ctxs : (setL2 s line x).ctxs = s.ctxs := rfl
@[simp] theorem setL2_slots : (setL2 s line x).slots = s.slots := rfl
@[simp] theorem setL2_slotGens : (setL2 s line x).slotGens = s.slotGens := rfl
@[simp] theorem setL2_pages : (setL2 s line x).pages = s.pages := rfl
@[simp] theorem setL2_retired : (setL2 s line x).retired = s.retired := rfl
@[simp] theorem setL2_retiredFull : (setL2 s line x).retiredFull = s.retiredFull := rfl
@[simp] theorem setL2_tens : (setL2 s line x).tens = s.tens := rfl
@[simp] theorem setL2_parts : (setL2 s line x).parts = s.parts := rfl
@[simp] theorem setL2_held : (setL2 s line x).held = s.held := rfl
@[simp] theorem setL2_trace : (setL2 s line x).trace = s.trace := rfl
@[simp] theorem setL2_assaySeen : (setL2 s line x).assaySeen = s.assaySeen := rfl
@[simp] theorem setL2_groups : (setL2 s line x).groups = s.groups := rfl
@[simp] theorem setL2_ports : (setL2 s line x).ports = s.ports := rfl
@[simp] theorem setL2_reasm : (setL2 s line x).reasm = s.reasm := rfl
@[simp] theorem setL2_fwd : (setL2 s line x).fwd = s.fwd := rfl
@[simp] theorem setL2_msgNo : (setL2 s line x).msgNo = s.msgNo := rfl
@[simp] theorem setL2_stampAt : (setL2 s line x).stampAt = s.stampAt := rfl
@[simp] theorem setL2_fns : (setL2 s line x).fns = s.fns := rfl
@[simp] theorem setL2_vecs : (setL2 s line x).vecs = s.vecs := rfl
@[simp] theorem setL2_power : (setL2 s line x).power = s.power := rfl
@[simp] theorem setL2_mbx : (setL2 s line x).mbx = s.mbx := rfl
@[simp] theorem setL2_fltQueue : (setL2 s line x).fltQueue = s.fltQueue := rfl
@[simp] theorem setL2_fltLog : (setL2 s line x).fltLog = s.fltLog := rfl
@[simp] theorem setL2_fltLost : (setL2 s line x).fltLost = s.fltLost := rfl
@[simp] theorem setL2_flash : (setL2 s line x).flash = s.flash := rfl
@[simp] theorem setL2_spoiled : (setL2 s line x).spoiled = s.spoiled := rfl
@[simp] theorem setL2_nvm : (setL2 s line x).nvm = s.nvm := rfl
@[simp] theorem setL2_set : (setL2 s line x).set = s.set := rfl
@[simp] theorem setL2_img : (setL2 s line x).img = s.img := rfl
@[simp] theorem setL2_upd : (setL2 s line x).upd = s.upd := rfl
@[simp] theorem setL2_boot : (setL2 s line x).boot = s.boot := rfl
@[simp] theorem setL2_hwd : (setL2 s line x).hwd = s.hwd := rfl
@[simp] theorem setL2_spdm : (setL2 s line x).spdm = s.spdm := rfl
@[simp] theorem setL2_tap : (setL2 s line x).tap = s.tap := rfl
@[simp] theorem setL2_devLatch : (setL2 s line x).devLatch = s.devLatch := rfl
@[simp] theorem setL2_fltLatch : (setL2 s line x).fltLatch = s.fltLatch := rfl
@[simp] theorem setL2_loaded : (setL2 s line x).loaded = s.loaded := rfl
@[simp] theorem setL2_laneInit : (setL2 s line x).laneInit = s.laneInit := rfl
end

/-! ### setCluster writes `clusters` only -/
section
variable (cl : Nat) (c : Cluster)
@[simp] theorem setCluster_pending : (setCluster s cl c).pending = s.pending := rfl
@[simp] theorem setCluster_out : (setCluster s cl c).out = s.out := rfl
@[simp] theorem setCluster_free : (setCluster s cl c).free = s.free := rfl
@[simp] theorem setCluster_time : (setCluster s cl c).time = s.time := rfl
@[simp] theorem setCluster_qTime : (setCluster s cl c).qTime = s.qTime := rfl
@[simp] theorem setCluster_fTime : (setCluster s cl c).fTime = s.fTime := rfl
@[simp] theorem setCluster_lTime : (setCluster s cl c).lTime = s.lTime := rfl
@[simp] theorem setCluster_cTime : (setCluster s cl c).cTime = s.cTime := rfl
@[simp] theorem setCluster_mTime : (setCluster s cl c).mTime = s.mTime := rfl
@[simp] theorem setCluster_pTime : (setCluster s cl c).pTime = s.pTime := rfl
@[simp] theorem setCluster_aTime : (setCluster s cl c).aTime = s.aTime := rfl
@[simp] theorem setCluster_sTime : (setCluster s cl c).sTime = s.sTime := rfl
@[simp] theorem setCluster_regs : (setCluster s cl c).regs = s.regs := rfl
@[simp] theorem setCluster_dram : (setCluster s cl c).dram = s.dram := rfl
@[simp] theorem setCluster_l2 : (setCluster s cl c).l2 = s.l2 := rfl
@[simp] theorem setCluster_ecc : (setCluster s cl c).ecc = s.ecc := rfl
@[simp] theorem setCluster_scrub : (setCluster s cl c).scrub = s.scrub := rfl
@[simp] theorem setCluster_sram : (setCluster s cl c).sram = s.sram := rfl
@[simp] theorem setCluster_reqs : (setCluster s cl c).reqs = s.reqs := rfl
@[simp] theorem setCluster_gens : (setCluster s cl c).gens = s.gens := rfl
@[simp] theorem setCluster_dedup : (setCluster s cl c).dedup = s.dedup := rfl
@[simp] theorem setCluster_sqs : (setCluster s cl c).sqs = s.sqs := rfl
@[simp] theorem setCluster_cqs : (setCluster s cl c).cqs = s.cqs := rfl
@[simp] theorem setCluster_admQ : (setCluster s cl c).admQ = s.admQ := rfl
@[simp] theorem setCluster_cohorts : (setCluster s cl c).cohorts = s.cohorts := rfl
@[simp] theorem setCluster_nextCohort : (setCluster s cl c).nextCohort = s.nextCohort := rfl
@[simp] theorem setCluster_arb : (setCluster s cl c).arb = s.arb := rfl
@[simp] theorem setCluster_scan : (setCluster s cl c).scan = s.scan := rfl
@[simp] theorem setCluster_cancels : (setCluster s cl c).cancels = s.cancels := rfl
@[simp] theorem setCluster_refills : (setCluster s cl c).refills = s.refills := rfl
@[simp] theorem setCluster_regRefills : (setCluster s cl c).regRefills = s.regRefills := rfl
@[simp] theorem setCluster_costs : (setCluster s cl c).costs = s.costs := rfl
@[simp] theorem setCluster_lanes : (setCluster s cl c).lanes = s.lanes := rfl
@[simp] theorem setCluster_ctxs : (setCluster s cl c).ctxs = s.ctxs := rfl
@[simp] theorem setCluster_slots : (setCluster s cl c).slots = s.slots := rfl
@[simp] theorem setCluster_slotGens : (setCluster s cl c).slotGens = s.slotGens := rfl
@[simp] theorem setCluster_pages : (setCluster s cl c).pages = s.pages := rfl
@[simp] theorem setCluster_retired : (setCluster s cl c).retired = s.retired := rfl
@[simp] theorem setCluster_retiredFull : (setCluster s cl c).retiredFull = s.retiredFull := rfl
@[simp] theorem setCluster_tens : (setCluster s cl c).tens = s.tens := rfl
@[simp] theorem setCluster_parts : (setCluster s cl c).parts = s.parts := rfl
@[simp] theorem setCluster_held : (setCluster s cl c).held = s.held := rfl
@[simp] theorem setCluster_trace : (setCluster s cl c).trace = s.trace := rfl
@[simp] theorem setCluster_assaySeen : (setCluster s cl c).assaySeen = s.assaySeen := rfl
@[simp] theorem setCluster_groups : (setCluster s cl c).groups = s.groups := rfl
@[simp] theorem setCluster_ports : (setCluster s cl c).ports = s.ports := rfl
@[simp] theorem setCluster_reasm : (setCluster s cl c).reasm = s.reasm := rfl
@[simp] theorem setCluster_fwd : (setCluster s cl c).fwd = s.fwd := rfl
@[simp] theorem setCluster_msgNo : (setCluster s cl c).msgNo = s.msgNo := rfl
@[simp] theorem setCluster_stampAt : (setCluster s cl c).stampAt = s.stampAt := rfl
@[simp] theorem setCluster_fns : (setCluster s cl c).fns = s.fns := rfl
@[simp] theorem setCluster_vecs : (setCluster s cl c).vecs = s.vecs := rfl
@[simp] theorem setCluster_power : (setCluster s cl c).power = s.power := rfl
@[simp] theorem setCluster_mbx : (setCluster s cl c).mbx = s.mbx := rfl
@[simp] theorem setCluster_fltQueue : (setCluster s cl c).fltQueue = s.fltQueue := rfl
@[simp] theorem setCluster_fltLog : (setCluster s cl c).fltLog = s.fltLog := rfl
@[simp] theorem setCluster_fltLost : (setCluster s cl c).fltLost = s.fltLost := rfl
@[simp] theorem setCluster_flash : (setCluster s cl c).flash = s.flash := rfl
@[simp] theorem setCluster_spoiled : (setCluster s cl c).spoiled = s.spoiled := rfl
@[simp] theorem setCluster_nvm : (setCluster s cl c).nvm = s.nvm := rfl
@[simp] theorem setCluster_set : (setCluster s cl c).set = s.set := rfl
@[simp] theorem setCluster_img : (setCluster s cl c).img = s.img := rfl
@[simp] theorem setCluster_upd : (setCluster s cl c).upd = s.upd := rfl
@[simp] theorem setCluster_boot : (setCluster s cl c).boot = s.boot := rfl
@[simp] theorem setCluster_hwd : (setCluster s cl c).hwd = s.hwd := rfl
@[simp] theorem setCluster_spdm : (setCluster s cl c).spdm = s.spdm := rfl
@[simp] theorem setCluster_tap : (setCluster s cl c).tap = s.tap := rfl
@[simp] theorem setCluster_devLatch : (setCluster s cl c).devLatch = s.devLatch := rfl
@[simp] theorem setCluster_fltLatch : (setCluster s cl c).fltLatch = s.fltLatch := rfl
@[simp] theorem setCluster_loaded : (setCluster s cl c).loaded = s.loaded := rfl
@[simp] theorem setCluster_laneInit : (setCluster s cl c).laneInit = s.laneInit := rfl
end

/-! ### setFlash writes `flash` and `spoiled` only -/
section
variable (a : Nat) (b : List Byte)
@[simp] theorem setFlash_pending : (setFlash s a b).pending = s.pending := rfl
@[simp] theorem setFlash_out : (setFlash s a b).out = s.out := rfl
@[simp] theorem setFlash_free : (setFlash s a b).free = s.free := rfl
@[simp] theorem setFlash_time : (setFlash s a b).time = s.time := rfl
@[simp] theorem setFlash_qTime : (setFlash s a b).qTime = s.qTime := rfl
@[simp] theorem setFlash_fTime : (setFlash s a b).fTime = s.fTime := rfl
@[simp] theorem setFlash_lTime : (setFlash s a b).lTime = s.lTime := rfl
@[simp] theorem setFlash_cTime : (setFlash s a b).cTime = s.cTime := rfl
@[simp] theorem setFlash_mTime : (setFlash s a b).mTime = s.mTime := rfl
@[simp] theorem setFlash_pTime : (setFlash s a b).pTime = s.pTime := rfl
@[simp] theorem setFlash_aTime : (setFlash s a b).aTime = s.aTime := rfl
@[simp] theorem setFlash_sTime : (setFlash s a b).sTime = s.sTime := rfl
@[simp] theorem setFlash_regs : (setFlash s a b).regs = s.regs := rfl
@[simp] theorem setFlash_dram : (setFlash s a b).dram = s.dram := rfl
@[simp] theorem setFlash_l2 : (setFlash s a b).l2 = s.l2 := rfl
@[simp] theorem setFlash_ecc : (setFlash s a b).ecc = s.ecc := rfl
@[simp] theorem setFlash_scrub : (setFlash s a b).scrub = s.scrub := rfl
@[simp] theorem setFlash_clusters : (setFlash s a b).clusters = s.clusters := rfl
@[simp] theorem setFlash_sram : (setFlash s a b).sram = s.sram := rfl
@[simp] theorem setFlash_reqs : (setFlash s a b).reqs = s.reqs := rfl
@[simp] theorem setFlash_gens : (setFlash s a b).gens = s.gens := rfl
@[simp] theorem setFlash_dedup : (setFlash s a b).dedup = s.dedup := rfl
@[simp] theorem setFlash_sqs : (setFlash s a b).sqs = s.sqs := rfl
@[simp] theorem setFlash_cqs : (setFlash s a b).cqs = s.cqs := rfl
@[simp] theorem setFlash_admQ : (setFlash s a b).admQ = s.admQ := rfl
@[simp] theorem setFlash_cohorts : (setFlash s a b).cohorts = s.cohorts := rfl
@[simp] theorem setFlash_nextCohort : (setFlash s a b).nextCohort = s.nextCohort := rfl
@[simp] theorem setFlash_arb : (setFlash s a b).arb = s.arb := rfl
@[simp] theorem setFlash_scan : (setFlash s a b).scan = s.scan := rfl
@[simp] theorem setFlash_cancels : (setFlash s a b).cancels = s.cancels := rfl
@[simp] theorem setFlash_refills : (setFlash s a b).refills = s.refills := rfl
@[simp] theorem setFlash_regRefills : (setFlash s a b).regRefills = s.regRefills := rfl
@[simp] theorem setFlash_costs : (setFlash s a b).costs = s.costs := rfl
@[simp] theorem setFlash_lanes : (setFlash s a b).lanes = s.lanes := rfl
@[simp] theorem setFlash_ctxs : (setFlash s a b).ctxs = s.ctxs := rfl
@[simp] theorem setFlash_slots : (setFlash s a b).slots = s.slots := rfl
@[simp] theorem setFlash_slotGens : (setFlash s a b).slotGens = s.slotGens := rfl
@[simp] theorem setFlash_pages : (setFlash s a b).pages = s.pages := rfl
@[simp] theorem setFlash_retired : (setFlash s a b).retired = s.retired := rfl
@[simp] theorem setFlash_retiredFull : (setFlash s a b).retiredFull = s.retiredFull := rfl
@[simp] theorem setFlash_tens : (setFlash s a b).tens = s.tens := rfl
@[simp] theorem setFlash_parts : (setFlash s a b).parts = s.parts := rfl
@[simp] theorem setFlash_held : (setFlash s a b).held = s.held := rfl
@[simp] theorem setFlash_trace : (setFlash s a b).trace = s.trace := rfl
@[simp] theorem setFlash_assaySeen : (setFlash s a b).assaySeen = s.assaySeen := rfl
@[simp] theorem setFlash_groups : (setFlash s a b).groups = s.groups := rfl
@[simp] theorem setFlash_ports : (setFlash s a b).ports = s.ports := rfl
@[simp] theorem setFlash_reasm : (setFlash s a b).reasm = s.reasm := rfl
@[simp] theorem setFlash_fwd : (setFlash s a b).fwd = s.fwd := rfl
@[simp] theorem setFlash_msgNo : (setFlash s a b).msgNo = s.msgNo := rfl
@[simp] theorem setFlash_stampAt : (setFlash s a b).stampAt = s.stampAt := rfl
@[simp] theorem setFlash_fns : (setFlash s a b).fns = s.fns := rfl
@[simp] theorem setFlash_vecs : (setFlash s a b).vecs = s.vecs := rfl
@[simp] theorem setFlash_power : (setFlash s a b).power = s.power := rfl
@[simp] theorem setFlash_mbx : (setFlash s a b).mbx = s.mbx := rfl
@[simp] theorem setFlash_fltQueue : (setFlash s a b).fltQueue = s.fltQueue := rfl
@[simp] theorem setFlash_fltLog : (setFlash s a b).fltLog = s.fltLog := rfl
@[simp] theorem setFlash_fltLost : (setFlash s a b).fltLost = s.fltLost := rfl
@[simp] theorem setFlash_nvm : (setFlash s a b).nvm = s.nvm := rfl
@[simp] theorem setFlash_set : (setFlash s a b).set = s.set := rfl
@[simp] theorem setFlash_img : (setFlash s a b).img = s.img := rfl
@[simp] theorem setFlash_upd : (setFlash s a b).upd = s.upd := rfl
@[simp] theorem setFlash_boot : (setFlash s a b).boot = s.boot := rfl
@[simp] theorem setFlash_hwd : (setFlash s a b).hwd = s.hwd := rfl
@[simp] theorem setFlash_spdm : (setFlash s a b).spdm = s.spdm := rfl
@[simp] theorem setFlash_tap : (setFlash s a b).tap = s.tap := rfl
@[simp] theorem setFlash_devLatch : (setFlash s a b).devLatch = s.devLatch := rfl
@[simp] theorem setFlash_fltLatch : (setFlash s a b).fltLatch = s.fltLatch := rfl
@[simp] theorem setFlash_loaded : (setFlash s a b).loaded = s.loaded := rfl
@[simp] theorem setFlash_laneInit : (setFlash s a b).laneInit = s.laneInit := rfl
end

end Sys2Proof.Machine
end

