-- ==== Sys2Proof/Laws/Ops.lean ====
section
/-! SUPPORT. What each shared operation can do, said once: registers and their fields, the families of like records, DRAM
and its canonical form, messages, the translator. -/
set_option Elab.async false
namespace Sys2Proof.Machine

/-! ## Registers -/

theorem rd_wr (s : State) (k j : Nat) (v : BitVec 64) : rd (wr s k v) j = if j = k then v else rd s j :=
  spGet_spPut resetVal k j v s.regs

@[simp] theorem rd_wr_same (s : State) (k : Nat) (v : BitVec 64) : rd (wr s k v) k = v := by simp [rd_wr]

theorem rd_wr_other (s : State) {k j : Nat} (v : BitVec 64) (h : j ≠ k) : rd (wr s k v) j = rd s j := by
  simp [rd_wr, h]

/-- A field that was written reads what was written, modulo its width. -/
theorem fieldOf_putField (v : BitVec 64) (lo w x : Nat) (h : lo + w ≤ 64) :
    fieldOf (putField v lo w x) lo w = x % 2 ^ w := by
  unfold fieldOf putField
  apply Nat.eq_of_testBit_eq
  intro i
  simp only [BitVec.testBit_toNat, BitVec.getLsbD_extractLsb', BitVec.getLsbD_or, BitVec.getLsbD_and, BitVec.getLsbD_not,
    BitVec.getLsbD_shiftLeft, BitVec.getLsbD_ofNat, Nat.testBit_mod_two_pow, Nat.testBit_two_pow_sub_one]
  by_cases hi : i < w
  · have h1 : lo + i < 64 := by omega
    have h3 : i < 64 := by omega
    simp [hi, h1, h3]
  · simp [hi]

/-- A write to a field leaves the register's other bits alone. -/
theorem fieldOf_putField_disjoint (v : BitVec 64) {lo w lo' w' : Nat} (x : Nat) (h : lo' + w' ≤ lo ∨ lo + w ≤ lo') :
    fieldOf (putField v lo w x) lo' w' = fieldOf v lo' w' := by
  unfold fieldOf putField
  apply Nat.eq_of_testBit_eq
  intro i
  simp only [BitVec.testBit_toNat, BitVec.getLsbD_extractLsb', BitVec.getLsbD_or, BitVec.getLsbD_and, BitVec.getLsbD_not,
    BitVec.getLsbD_shiftLeft, BitVec.getLsbD_ofNat, Nat.testBit_mod_two_pow, Nat.testBit_two_pow_sub_one]
  by_cases hi : i < w'
  · by_cases h64 : lo' + i < 64
    · rcases h with h | h
      · have : lo' + i < lo := by omega
        simp [hi, h64, this]
      · have h1 : ¬ lo' + i < lo := by omega
        have h2 : ¬ lo' + i - lo < w := by omega
        simp [hi, h64, h1, h2]
    · have : v.getLsbD (lo' + i) = false := BitVec.getLsbD_of_ge v _ (by omega)
      simp [h64, this]
  · simp [hi]

/-- Every field is below 2^width. -/
theorem getF_lt (s : State) (f : Fld) : getF s f < 2 ^ f.w := BitVec.isLt _

theorem getF_setF_same (s : State) (f : Fld) (x : Nat) (h : f.lo + f.w ≤ 64) : getF (setF s f x) f = x % 2 ^ f.w := by
  simp [getF, setF, fieldOf_putField _ _ _ _ h]

theorem getF_setF_key (s : State) {f g : Fld} (x : Nat) (h : g.key ≠ f.key) : getF (setF s f x) g = getF s g := by
  simp [getF, setF, rd_wr_other _ _ h]

theorem getF_setF_bits (s : State) {f g : Fld} (x : Nat) (h : g.lo + g.w ≤ f.lo ∨ f.lo + f.w ≤ g.lo) :
    getF (setF s f x) g = getF s g := by
  unfold getF setF
  by_cases hk : g.key = f.key
  · rw [hk, rd_wr_same, fieldOf_putField_disjoint _ _ h]
  · rw [rd_wr_other _ _ hk]

/-- Another register reads as before. -/
theorem rd_setF_other (s : State) {f : Fld} (x : Nat) {k : Nat} (h : k ≠ f.key) : rd (setF s f x) k = rd s k :=
  rd_wr_other s _ h

/-- Registers reset together: those read their reset value, the others as before. -/
theorem rd_resetRegs (s : State) (p : Nat → Bool) (k : Nat) :
    rd (resetRegs s p) k = if p k then resetVal k else rd s k := spGet_spDrop resetVal p s.regs k

/-- A register write keeps the register file's canonical form. -/
theorem wr_regsWf (s : State) (k : Nat) (v : BitVec 64) (w : spWf resetVal s.regs = true) :
    spWf resetVal (wr s k v).regs = true := spWf_spPut resetVal k v s.regs w

theorem resetRegs_regsWf (s : State) (p : Nat → Bool) (w : spWf resetVal s.regs = true) :
    spWf resetVal (resetRegs s p).regs = true := spWf_spDrop resetVal _ s.regs w

/-! ## Families of like records: a read after a write -/

theorem lane_setLane (s : State) (p q : Nat) (x : Lane) : lane (setLane s p x) q = if q = p then x else lane s q :=
  spGet_spPut _ _ _ _ _

@[simp] theorem lane_setLane_same (s : State) (p : Nat) (x : Lane) : lane (setLane s p x) p = x := by simp [lane_setLane]

theorem tenant_setTenant (s : State) (p q : Nat) (x : Tenant) : tenant (setTenant s p x) q = if q = p then x else tenant s q :=
  spGet_spPut _ _ _ _ _

@[simp] theorem tenant_setTenant_same (s : State) (p : Nat) (x : Tenant) : tenant (setTenant s p x) p = x := by simp [tenant_setTenant]

theorem part_setPart (s : State) (p q : Nat) (x : Part) : part (setPart s p x) q = if q = p then x else part s q :=
  spGet_spPut _ _ _ _ _

@[simp] theorem part_setPart_same (s : State) (p : Nat) (x : Part) : part (setPart s p x) p = x := by simp [part_setPart]

theorem fn_setFn (s : State) (p q : Nat) (x : Fn) : fn (setFn s p x) q = if q = p then x else fn s q :=
  spGet_spPut _ _ _ _ _

@[simp] theorem fn_setFn_same (s : State) (p : Nat) (x : Fn) : fn (setFn s p x) p = x := by simp [fn_setFn]

theorem req_setReq (s : State) (p q : Nat) (x : Option Req) : req? (setReq s p x) q = if q = p then x else req? s q :=
  spGet_spPut _ _ _ _ _

@[simp] theorem req_setReq_same (s : State) (p : Nat) (x : Option Req) : req? (setReq s p x) p = x := by simp [req_setReq]

theorem cohort_setCohort (s : State) (p q : Nat) (x : Option Cohort) : cohort? (setCohort s p x) q = if q = p then x else cohort? s q :=
  spGet_spPut _ _ _ _ _

@[simp] theorem cohort_setCohort_same (s : State) (p : Nat) (x : Option Cohort) : cohort? (setCohort s p x) p = x := by simp [cohort_setCohort]

theorem ctx_setCtx (s : State) (p q : Nat) (x : Option Ctx) : ctx? (setCtx s p x) q = if q = p then x else ctx? s q :=
  spGet_spPut _ _ _ _ _

@[simp] theorem ctx_setCtx_same (s : State) (p : Nat) (x : Option Ctx) : ctx? (setCtx s p x) p = x := by simp [ctx_setCtx]

theorem slot_setSlot (s : State) (p q : Nat) (x : Option Slot) : slot? (setSlot s p x) q = if q = p then x else slot? s q :=
  spGet_spPut _ _ _ _ _

@[simp] theorem slot_setSlot_same (s : State) (p : Nat) (x : Option Slot) : slot? (setSlot s p x) p = x := by simp [slot_setSlot]

theorem dedupOf_setDedup (s : State) (p q : Nat) (x : List (Nat × Nat)) : dedupOf (setDedup s p x) q = if q = p then x else dedupOf s q :=
  spGet_spPut _ _ _ _ _

@[simp] theorem dedupOf_setDedup_same (s : State) (p : Nat) (x : List (Nat × Nat)) : dedupOf (setDedup s p x) p = x := by simp [dedupOf_setDedup]

theorem sq_setSq (s : State) (t r u v : Nat) (x : Sq) (hr : r < 4) (hv : v < 4) :
    sq (setSq s t r x) u v = if u = t ∧ v = r then x else sq s u v := by
  unfold sq setSq
  rw [spGet_spPut]
  by_cases h : u = t ∧ v = r
  · obtain ⟨rfl, rfl⟩ := h; simp
  · rw [if_neg h, if_neg (by omega)]

@[simp] theorem sq_setSq_same (s : State) (t r : Nat) (x : Sq) : sq (setSq s t r x) t r = x := by
  simp [sq, setSq, spGet_spPut]

theorem cq_setCq (s : State) (t r u v : Nat) (x : Cq) (hr : r < 4) (hv : v < 4) :
    cq (setCq s t r x) u v = if u = t ∧ v = r then x else cq s u v := by
  unfold cq setCq
  rw [spGet_spPut]
  by_cases h : u = t ∧ v = r
  · obtain ⟨rfl, rfl⟩ := h; simp
  · rw [if_neg h, if_neg (by omega)]

@[simp] theorem cq_setCq_same (s : State) (t r : Nat) (x : Cq) : cq (setCq s t r x) t r = x := by
  simp [cq, setCq, spGet_spPut]

theorem admQueue_setAdmQueue (s : State) (t r u v : Nat) (x : List Nat) (hr : r < 4) (hv : v < 4) :
    admQueue (setAdmQueue s t r x) u v = if u = t ∧ v = r then x else admQueue s u v := by
  unfold admQueue setAdmQueue
  rw [spGet_spPut]
  by_cases h : u = t ∧ v = r
  · obtain ⟨rfl, rfl⟩ := h; simp
  · rw [if_neg h, if_neg (by omega)]

@[simp] theorem admQueue_setAdmQueue_same (s : State) (t r : Nat) (x : List Nat) : admQueue (setAdmQueue s t r x) t r = x := by
  simp [admQueue, setAdmQueue, spGet_spPut]

theorem page_setPage (s : State) (t r u v : Nat) (x : Page) (hr : r < 2 ^ 20) (hv : v < 2 ^ 20) :
    page (setPage s t r x) u v = if u = t ∧ v = r then x else page s u v := by
  unfold page setPage
  rw [spGet_spPut]
  by_cases h : u = t ∧ v = r
  · obtain ⟨rfl, rfl⟩ := h; simp
  · rw [if_neg h, if_neg (by omega)]

@[simp] theorem page_setPage_same (s : State) (t r : Nat) (x : Page) : page (setPage s t r x) t r = x := by
  simp [page, setPage, spGet_spPut]

theorem vec_setVec (s : State) (t r u v : Nat) (x : Vec) (hr : r < 256) (hv : v < 256) :
    vec (setVec s t r x) u v = if u = t ∧ v = r then x else vec s u v := by
  unfold vec setVec
  rw [spGet_spPut]
  by_cases h : u = t ∧ v = r
  · obtain ⟨rfl, rfl⟩ := h; simp
  · rw [if_neg h, if_neg (by omega)]

@[simp] theorem vec_setVec_same (s : State) (t r : Nat) (x : Vec) : vec (setVec s t r x) t r = x := by
  simp [vec, setVec, spGet_spPut]

/-! ## Memory -/

/-- A load after a store. -/
theorem loadByte_storeByte (s : State) (a c : Nat) (b : Byte) :
    loadByte (storeByte s a b) c = if c = a then b else loadByte s c := spGet_spPut _ _ _ _ _

theorem storeByte_memOk (s : State) (a : Nat) (b : Byte) (h : MemOk s) : MemOk (storeByte s a b) :=
  spWf_spPut _ a b s.dram h

theorem zeroWhere_memOk (s : State) (p : Nat → Bool) (h : MemOk s) : MemOk (zeroWhere s p) :=
  spWf_spDrop _ _ s.dram h

/-- Erased bytes read 0, the others as before. -/
theorem loadByte_zeroWhere (s : State) (p : Nat → Bool) (a : Nat) :
    loadByte (zeroWhere s p) a = if p a then 0#8 else loadByte s a := spGet_spDrop _ p s.dram a

theorem storeAt_memOk (s : State) (p a : Nat) (b : Byte) (h : MemOk s) : MemOk (storeAt s p a b).1 := by
  unfold storeAt
  cases translate s p a with
  | some x => exact storeByte_memOk s x b h
  | none => exact h

theorem storePart_memOk (p : Nat) (bs : List Byte) : ∀ (s : State) (a : Nat), MemOk s → MemOk (storePart s p a bs).1 := by
  induction bs with
  | nil => intro s a h; exact h
  | cons b bs ih => intro s a h; exact ih _ _ (storeAt_memOk s p a b h)

theorem storeAt_fields (s : State) (p a : Nat) (b : Byte) :
    ∃ m e, (storeAt s p a b).1 = { s with dram := m, ecc := e } := by
  unfold storeAt
  cases translate s p a with
  | some x => exact ⟨_, _, rfl⟩
  | none => exact ⟨s.dram, s.ecc, rfl⟩

/-- A store through the translator writes memory and its ECC and nothing else. -/
theorem storePart_fields (p : Nat) (bs : List Byte) :
    ∀ (s : State) (a : Nat), ∃ m e, (storePart s p a bs).1 = { s with dram := m, ecc := e } := by
  induction bs with
  | nil => intro s a; exact ⟨s.dram, s.ecc, rfl⟩
  | cons b bs ih =>
    intro s a
    obtain ⟨m, e, h⟩ := storeAt_fields s p a b
    obtain ⟨n, f, h'⟩ := ih (storeAt s p a b).1 (a + 1)
    exact ⟨n, f, h'.trans (by rw [h])⟩

theorem reset_memOk : MemOk State.reset := rfl

/-! ## L2 slices -/

theorem l2At_setL2 (s : State) (k j : Nat) (x : Option L2Line) : l2At (setL2 s k x) j = if j = k then x else l2At s j :=
  spGet_spPut _ _ _ _ _

theorem eccAt_setEcc (s : State) (k j n : Nat) : eccAt (setEcc s k n) j = if j = k then n else eccAt s j :=
  spGet_spPut _ _ _ _ _

theorem countGrove_fields (s : State) (g k n : Nat) : ∃ r, countGrove s g k n = { s with regs := r } := by
  unfold countGrove; split
  · exact ⟨s.regs, rfl⟩
  · exact ⟨_, rfl⟩

theorem dropLine_fields (s : State) (line : Nat) : ∃ r l, dropLine s line = { s with regs := r, l2 := l } := by
  unfold dropLine
  cases l2At s line with
  | none => exact ⟨s.regs, s.l2, rfl⟩
  | some e =>
    obtain ⟨r, h⟩ := countGrove_fields (setL2 s line none) (lineGrove line) 3 (if e.dirty then 128 else 0)
    exact ⟨r, _, h⟩

theorem dropLines_fields (ls : List Nat) : ∀ s : State, ∃ r l, ls.foldl dropLine s = { s with regs := r, l2 := l } := by
  induction ls with
  | nil => intro s; exact ⟨s.regs, s.l2, rfl⟩
  | cons x xs ih =>
    intro s
    obtain ⟨r, l, h⟩ := dropLine_fields s x
    obtain ⟨r', l', h'⟩ := ih (dropLine s x)
    exact ⟨r', l', by rw [List.foldl_cons, h', h]⟩

theorem allocate_fields (s : State) (who : Agent) (w : Bool) (line : Nat) :
    ∃ f r l, allocate s who w line = { s with free := f, regs := r, l2 := l } := by
  unfold allocate; split
  · exact ⟨s.free, s.regs, s.l2, rfl⟩
  · obtain ⟨r, l, h⟩ := dropLines_fields (victims s line _) (draw s).2
    exact ⟨_, r, _, by dsimp only; rw [h]; rfl⟩

/-- An access to a line changes the slice, the grove's counters and the counter of free values, and nothing else. -/
theorem touchLine_fields (s : State) (who : Agent) (w : Bool) (line n : Nat) :
    ∃ f r l, touchLine s who w line n = { s with free := f, regs := r, l2 := l } := by
  have cg : ∀ (t : State) (g k m : Nat), (∃ f r l, t = { s with free := f, regs := r, l2 := l }) →
      ∃ f r l, countGrove t g k m = { s with free := f, regs := r, l2 := l } := by
    rintro t g k m ⟨f, r, l, rfl⟩
    obtain ⟨r', h⟩ := countGrove_fields { s with free := f, regs := r, l2 := l } g k m
    exact ⟨f, r', l, h⟩
  have base : ∃ f r l, s = { s with free := f, regs := r, l2 := l } := ⟨s.free, s.regs, s.l2, rfl⟩
  unfold touchLine
  split
  · dsimp only
    split
    · apply cg
      obtain ⟨f, r, l, h⟩ := cg s (lineGrove line) 0 1 base
      obtain ⟨r', l', h'⟩ := dropLine_fields (countGrove s (lineGrove line) 0 1) line
      exact ⟨f, r', l', by rw [h', h]⟩
    · exact cg s _ _ _ base
    · obtain ⟨f, r, l, h⟩ := cg s (lineGrove line) 0 1 base
      exact ⟨f, r, _, by rw [h]; rfl⟩
  · dsimp only
    split
    · exact cg _ _ _ _ (cg s _ _ _ base)
    · exact cg _ _ _ _ (cg s _ _ _ base)
    · apply cg
      obtain ⟨f, r, l, h⟩ := cg s (lineGrove line) 1 1 base
      obtain ⟨f', r', l', h'⟩ := allocate_fields (countGrove s (lineGrove line) 1 1) who w line
      exact ⟨f', r', l', by rw [h', h]⟩

/-- The lines of an access, one after another: slices, counters of groves and of free values, and nothing else. -/
theorem touchPart_fields (s : State) (p : Nat) (who : Agent) (w : Bool) (a n : Nat) :
    ∃ f r l, touchPart s p who w a n = { s with free := f, regs := r, l2 := l } := by
  unfold touchPart
  generalize lineSpan a n = ls
  induction ls generalizing s with
  | nil => exact ⟨s.free, s.regs, s.l2, rfl⟩
  | cons e es ih =>
    rw [List.foldl_cons]
    split
    · next x _ =>
      obtain ⟨f, r, l, h⟩ := touchLine_fields s who w (x / 128) e.2
      obtain ⟨f', r', l', h'⟩ := ih (touchLine s who w (x / 128) e.2)
      exact ⟨f', r', l', by rw [h', h]⟩
    · exact ih s

theorem touch_fields (s : State) (who : Agent) (w : Bool) (x n : Nat) :
    ∃ f r l, touch s who w x n = { s with free := f, regs := r, l2 := l } := by
  unfold touch
  generalize lineSpan x n = ls
  induction ls generalizing s with
  | nil => exact ⟨s.free, s.regs, s.l2, rfl⟩
  | cons e es ih =>
    rw [List.foldl_cons]
    obtain ⟨f, r, l, h⟩ := touchLine_fields s who w e.1 e.2
    obtain ⟨f', r', l', h'⟩ := ih (touchLine s who w e.1 e.2)
    exact ⟨f', r', l', by rw [h', h]⟩

/-- A write through the translator and the slices: memory, its ECC, slices and counters, and nothing else; the bytes are
those of the store. -/
theorem writePart_fields (s : State) (p : Nat) (who : Agent) (a : Nat) (bs : List Byte) :
    ∃ f r m l e, (writePart s p who a bs).1 = { s with free := f, regs := r, dram := m, l2 := l, ecc := e } ∧
      m = (storePart s p a bs).1.dram := by
  obtain ⟨m, e, h⟩ := storePart_fields p bs s a
  obtain ⟨f, r, l, h'⟩ := touchPart_fields (storePart s p a bs).1 p who true a bs.length
  refine ⟨f, r, m, l, e, ?_, by rw [h]⟩
  rw [show (writePart s p who a bs).1 = touchPart (storePart s p a bs).1 p who true a bs.length from rfl, h', h]

theorem writePart_memOk (s : State) (p : Nat) (who : Agent) (a : Nat) (bs : List Byte) (h : MemOk s) :
    MemOk (writePart s p who a bs).1 := by
  obtain ⟨f, r, m, l, e, h1, h2⟩ := writePart_fields s p who a bs
  have := storePart_memOk p bs s a h
  unfold MemOk at *
  rw [h1]; rw [← h2] at this; exact this

/-! ## The translator -/

/-- An address below the partition's top translates (R194). -/
theorem translate_some (s : State) {p a : Nat} (h : a < topOf s p) :
    translate s p a = some (2 ^ 31 * (2 * firstGrove s p + a / 4096 % channels s p) +
      4096 * (a / 4096 / channels s p) + a % 4096) := by simp [translate, h]

/-- An address at or above the partition's top is refused (R195). -/
theorem translate_none (s : State) {p a : Nat} (h : topOf s p ≤ a) : translate s p a = none := by
  simp [translate, Nat.not_lt.mpr h]

/-! ## Messages and status registers -/

/-- Sending a message writes the vector's record and what leaves the device, and nothing else. -/
theorem sendMsi_fields (s : State) (n v : Nat) :
    sendMsi s n v = { s with vecs := (sendMsi s n v).vecs, out := (sendMsi s n v).out } := by
  unfold sendMsi; dsimp only; split <;> rfl

theorem statusMsg_fields (s : State) (k : Nat) :
    statusMsg s k = { s with vecs := (statusMsg s k).vecs, out := (statusMsg s k).out } := by
  unfold statusMsg; split
  · exact sendMsi_fields _ _ _
  · rfl

/-- Raising a flag writes the flag, perhaps a vector's record and a message, and nothing else. -/
theorem raise_fields (s : State) (f : Fld) :
    raise s f = { s with regs := (setF s f 1).regs, vecs := (raise s f).vecs, out := (raise s f).out } := by
  unfold raise; dsimp only; split
  · rw [statusMsg_fields]; rfl
  · rfl

theorem reassert_fields (s : State) (k : Nat) :
    reassert s k = { s with vecs := (reassert s k).vecs, out := (reassert s k).out } := by
  unfold reassert; split
  · exact statusMsg_fields _ _
  · rfl

/-- A raised flag reads 1, whatever message went. -/
theorem getF_raise (s : State) (f g : Fld) : getF (raise s f) g = getF (setF s f 1) g := by
  unfold getF rd; rw [raise_fields]

theorem drive_fields (s : State) (x : Tx) : drive s x = { s with out := (drive s x).out } := by
  unfold drive; split <;> rfl

end Sys2Proof.Machine
end

