-- ==== Sys2Proof/Laws/PerInstr.lean ====
section
/-! SUPPORT. Per command: its row is not shut out, since some command of the same constructor is well formed. -/
set_option Elab.async false
namespace Sys2Proof.Laws.WellFormed

/-- Some well-formed command is of the same row as `i`. -/
def Statement (i : Instr) : Prop := ∃ j : Instr, j.ctorIdx = i.ctorIdx ∧ j.wf = true

theorem sqDoorbell (t : Nat) (s : Nat) (viaPf : Bool) (v : Nat) : Statement (.sqDoorbell t s viaPf v) :=
  ⟨.sqDoorbell 0 0 false 0, rfl, by decide⟩
theorem cqDoorbell (t : Nat) (c : Nat) (viaPf : Bool) (v : Nat) : Statement (.cqDoorbell t c viaPf v) :=
  ⟨.cqDoorbell 0 0 false 0, rfl, by decide⟩
theorem submit (t : Nat) (s : Nat) (words : List W128) (prompt : Option (List W32)) (ext : Option (List Byte)) (pick : Nat) : Statement (.submit t s words prompt ext pick) :=
  ⟨.submit 0 0 [0] none none 0, rfl, by decide⟩
theorem cohort (t : Nat) (s : Nat) (words : List W128) : Statement (.cohort t s words) :=
  ⟨.cohort 0 0 [0], rfl, by decide⟩
theorem cancel (t : Nat) (s : Nat) (words : List W128) : Statement (.cancel t s words) :=
  ⟨.cancel 0 0 [0], rfl, by decide⟩
theorem fence (t : Nat) (s : Nat) (words : List W128) : Statement (.fence t s words) :=
  ⟨.fence 0 0 [0], rfl, by decide⟩
theorem fencePass (t : Nat) (s : Nat) : Statement (.fencePass t s) :=
  ⟨.fencePass 0 0, rfl, by decide⟩
theorem itemReread (t : Nat) (s : Nat) (words : List W128) : Statement (.itemReread t s words) :=
  ⟨.itemReread 0 0 [0], rfl, by decide⟩
theorem flush (t : Nat) (s : Nat) : Statement (.flush t s) :=
  ⟨.flush 0 0, rfl, by decide⟩
theorem flushDone (t : Nat) (s : Nat) : Statement (.flushDone t s) :=
  ⟨.flushDone 0 0, rfl, by decide⟩
theorem sqEnable (t : Nat) (s : Nat) (cfg : W32) : Statement (.sqEnable t s cfg) :=
  ⟨.sqEnable 0 0 256, rfl, by decide⟩
theorem sqDisable (t : Nat) (s : Nat) (cfg : W32) : Statement (.sqDisable t s cfg) :=
  ⟨.sqDisable 0 0 0, rfl, by decide⟩
theorem cqEnable (t : Nat) (c : Nat) (cfg : W32) : Statement (.cqEnable t c cfg) :=
  ⟨.cqEnable 0 0 256, rfl, by decide⟩
theorem cqDisable (t : Nat) (c : Nat) (cfg : W32) : Statement (.cqDisable t c cfg) :=
  ⟨.cqDisable 0 0 0, rfl, by decide⟩
theorem completionRecordWrite (t : Nat) (c : Nat) : Statement (.completionRecordWrite t c) :=
  ⟨.completionRecordWrite 0 0, rfl, by decide⟩
theorem coalesceTimeout (t : Nat) (c : Nat) : Statement (.coalesceTimeout t c) :=
  ⟨.coalesceTimeout 0 0, rfl, by decide⟩
theorem msixUnmask (fn : Nat) (what : MsixPart) : Statement (.msixUnmask fn what) :=
  ⟨.msixUnmask 0 .enable, rfl, by decide⟩
theorem reservedItemType (t : Nat) (s : Nat) (words : List W128) : Statement (.reservedItemType t s words) :=
  ⟨.reservedItemType 0 0 [0], rfl, by decide⟩
theorem admissionEvaluate (t : Nat) (c : Nat) : Statement (.admissionEvaluate t c) :=
  ⟨.admissionEvaluate 0 0, rfl, by decide⟩
theorem budgetRefill : Statement (.budgetRefill) :=
  ⟨.budgetRefill, rfl, by decide⟩
theorem queueDeadlineScan : Statement (.queueDeadlineScan) :=
  ⟨.queueDeadlineScan, rfl, by decide⟩
theorem maskCopyDone (idx : Nat) (mask : Option (List Byte)) (ext : Option (List Byte)) : Statement (.maskCopyDone idx mask ext) :=
  ⟨.maskCopyDone 0 none none, rfl, by decide⟩
theorem deadlineCheck : Statement (.deadlineCheck) :=
  ⟨.deadlineCheck, rfl, by decide⟩
theorem holderSelect (p : Nat) : Statement (.holderSelect p) :=
  ⟨.holderSelect 0, rfl, by decide⟩
theorem stepCompose (p : Nat) : Statement (.stepCompose p) :=
  ⟨.stepCompose 0, rfl, by decide⟩
theorem powerWaitRetry (p : Nat) : Statement (.powerWaitRetry p) :=
  ⟨.powerWaitRetry 0, rfl, by decide⟩
theorem stepExecute (p : Nat) (w : PlanTasks) : Statement (.stepExecute p w) :=
  ⟨.stepExecute 0 ⟨[], []⟩, rfl, by decide⟩
theorem taskComplete (p : Nat) (g : Nat) (l : Nat) (tag : Nat) (task : Nat) : Statement (.taskComplete p g l tag task) :=
  ⟨.taskComplete 0 0 0 0 0, rfl, by decide⟩
theorem taskWatchdog (p : Nat) (cl : Nat) : Statement (.taskWatchdog p cl) :=
  ⟨.taskWatchdog 0 0, rfl, by decide⟩
theorem candidateArrive (p : Nat) (tag : Nat) (shard : Nat) (positions : List PosLogits) : Statement (.candidateArrive p tag shard positions) :=
  ⟨.candidateArrive 0 0 0 [], rfl, by decide⟩
theorem stepCommit (p : Nat) : Statement (.stepCommit p) :=
  ⟨.stepCommit 0, rfl, by decide⟩
theorem stepDeadline (p : Nat) (ctx : Nat) : Statement (.stepDeadline p ctx) :=
  ⟨.stepDeadline 0 0, rfl, by decide⟩
theorem groveAbandonAck (p : Nat) (g : Nat) : Statement (.groveAbandonAck p g) :=
  ⟨.groveAbandonAck 0 0, rfl, by decide⟩
theorem composeTimeout (p : Nat) : Statement (.composeTimeout p) :=
  ⟨.composeTimeout 0, rfl, by decide⟩
theorem preemptRaise (p : Nat) : Statement (.preemptRaise p) :=
  ⟨.preemptRaise 0, rfl, by decide⟩
theorem clusterTileStop (p : Nat) (cl : Nat) : Statement (.clusterTileStop p cl) :=
  ⟨.clusterTileStop 0 0, rfl, by decide⟩
theorem preemptEscalate (p : Nat) : Statement (.preemptEscalate p) :=
  ⟨.preemptEscalate 0, rfl, by decide⟩
theorem preemptSaveDone (p : Nat) : Statement (.preemptSaveDone p) :=
  ⟨.preemptSaveDone 0, rfl, by decide⟩
theorem restoreDone (p : Nat) (bad : Option Nat) : Statement (.restoreDone p bad) :=
  ⟨.restoreDone 0 none, rfl, by decide⟩
theorem imodeStopTimeout (p : Nat) (cl : Nat) : Statement (.imodeStopTimeout p cl) :=
  ⟨.imodeStopTimeout 0 0, rfl, by decide⟩
theorem saveWriteTimeout (p : Nat) : Statement (.saveWriteTimeout p) :=
  ⟨.saveWriteTimeout 0, rfl, by decide⟩
theorem debugHalt (p : Nat) : Statement (.debugHalt p) :=
  ⟨.debugHalt 0, rfl, by decide⟩
theorem debugHaltRelease (p : Nat) : Statement (.debugHaltRelease p) :=
  ⟨.debugHaltRelease 0, rfl, by decide⟩
theorem parkStart (p : Nat) : Statement (.parkStart p) :=
  ⟨.parkStart 0, rfl, by decide⟩
theorem parkComplete (p : Nat) (idx : Nat) (ok : Bool) : Statement (.parkComplete p idx ok) :=
  ⟨.parkComplete 0 0 false, rfl, by decide⟩
theorem unparkStart (p : Nat) : Statement (.unparkStart p) :=
  ⟨.unparkStart 0, rfl, by decide⟩
theorem unparkComplete (p : Nat) (idx : Nat) (ok : Bool) (data : List (List Byte)) : Statement (.unparkComplete p idx ok data) :=
  ⟨.unparkComplete 0 0 false [], rfl, by decide⟩
theorem scrubRead (addr : Nat) (ecc : EccRead) : Statement (.scrubRead addr ecc) :=
  ⟨.scrubRead 0 ⟨0, 0⟩, rfl, by decide⟩
theorem mailboxGo : Statement (.mailboxGo) :=
  ⟨.mailboxGo, rfl, by decide⟩
theorem smbusMctpRequest (opcode : Nat) (tag : Nat) (len : Nat) (payload : List Byte) : Statement (.smbusMctpRequest opcode tag len payload) :=
  ⟨.smbusMctpRequest 0 0 0 [], rfl, by decide⟩
theorem smbusSclTimeout : Statement (.smbusSclTimeout) :=
  ⟨.smbusSclTimeout, rfl, by decide⟩
theorem loadCostTable : Statement (.loadCostTable) :=
  ⟨.loadCostTable, rfl, by decide⟩
theorem clearCostTable : Statement (.clearCostTable) :=
  ⟨.clearCostTable, rfl, by decide⟩
theorem loadModel (src : Option (List Byte × ProgInfo)) : Statement (.loadModel src) :=
  ⟨.loadModel none, rfl, by decide⟩
theorem addContext : Statement (.addContext) :=
  ⟨.addContext, rfl, by decide⟩
theorem evictModel : Statement (.evictModel) :=
  ⟨.evictModel, rfl, by decide⟩
theorem evictModelForce : Statement (.evictModelForce) :=
  ⟨.evictModelForce, rfl, by decide⟩
theorem pinModel : Statement (.pinModel) :=
  ⟨.pinModel, rfl, by decide⟩
theorem unpinModel : Statement (.unpinModel) :=
  ⟨.unpinModel, rfl, by decide⟩
theorem pairDraft : Statement (.pairDraft) :=
  ⟨.pairDraft, rfl, by decide⟩
theorem unpairDraft : Statement (.unpairDraft) :=
  ⟨.unpairDraft, rfl, by decide⟩
theorem modelTransferDone (n : Nat) (crc : W32) (bytes : List (Nat × Byte)) : Statement (.modelTransferDone n crc bytes) :=
  ⟨.modelTransferDone 0 0 [], rfl, by decide⟩
theorem modelTransferFailed (n : Nat) : Statement (.modelTransferFailed n) :=
  ⟨.modelTransferFailed 0, rfl, by decide⟩
theorem modelDrainEvict (n : Nat) : Statement (.modelDrainEvict n) :=
  ⟨.modelDrainEvict 0, rfl, by decide⟩
theorem drainPartition : Statement (.drainPartition) :=
  ⟨.drainPartition, rfl, by decide⟩
theorem drainDone (p : Nat) : Statement (.drainDone p) :=
  ⟨.drainDone 0, rfl, by decide⟩
theorem resumePartition : Statement (.resumePartition) :=
  ⟨.resumePartition, rfl, by decide⟩
theorem reconfigure : Statement (.reconfigure) :=
  ⟨.reconfigure, rfl, by decide⟩
theorem migrateTenant : Statement (.migrateTenant) :=
  ⟨.migrateTenant, rfl, by decide⟩
theorem migrateDone (t : Nat) : Statement (.migrateDone t) :=
  ⟨.migrateDone 0, rfl, by decide⟩
theorem faultReport (src : FaultSrc) : Statement (.faultReport src) :=
  ⟨.faultReport (.lane 0), rfl, by decide⟩
theorem partitionResetComplete (p : Nat) : Statement (.partitionResetComplete p) :=
  ⟨.partitionResetComplete 0, rfl, by decide⟩
theorem faultnClear (v : W32) : Statement (.faultnClear v) :=
  ⟨.faultnClear 0, rfl, by decide⟩
theorem pllLossOfLock (b : Nat) : Statement (.pllLossOfLock b) :=
  ⟨.pllLossOfLock 0, rfl, by decide⟩
theorem watchdogKick : Statement (.watchdogKick) :=
  ⟨.watchdogKick, rfl, by decide⟩
theorem watchdogExpiry : Statement (.watchdogExpiry) :=
  ⟨.watchdogExpiry, rfl, by decide⟩
theorem teardownContext : Statement (.teardownContext) :=
  ⟨.teardownContext, rfl, by decide⟩
theorem resetPartition : Statement (.resetPartition) :=
  ⟨.resetPartition, rfl, by decide⟩
theorem resetTenant : Statement (.resetTenant) :=
  ⟨.resetTenant, rfl, by decide⟩
theorem readFaultLog : Statement (.readFaultLog) :=
  ⟨.readFaultLog, rfl, by decide⟩
theorem clearFaultLog : Statement (.clearFaultLog) :=
  ⟨.clearFaultLog, rfl, by decide⟩
theorem linkTrainStageDone (n : Nat) (margins : Nat) (aligned : Nat) : Statement (.linkTrainStageDone n margins aligned) :=
  ⟨.linkTrainStageDone 0 0 0, rfl, by decide⟩
theorem linkTrainTimeout (n : Nat) (aligned : Nat) : Statement (.linkTrainTimeout n aligned) :=
  ⟨.linkTrainTimeout 0 0, rfl, by decide⟩
theorem trainExch (n : Nat) (node : Nat) (port : Nat) (width : Nat) (stepping : Nat) : Statement (.trainExch n node port width stepping) :=
  ⟨.trainExch 0 0 0 0 0, rfl, by decide⟩
theorem dataFlitReceive (n : Nat) (bytes : List Byte) : Statement (.dataFlitReceive n bytes) :=
  ⟨.dataFlitReceive 0 (List.replicate 256 0), rfl, by show (portOk 0 && decide ((List.replicate 256 (0 : Byte)).length = 256)) = true; rw [List.length_replicate]; decide⟩
theorem controlFlitReceive (n : Nat) (crcOk : Bool) (ack : Option Nat) (nak : Option Nat) (credits : List Nat) : Statement (.controlFlitReceive n crcOk ack nak credits) :=
  ⟨.controlFlitReceive 0 false none none [0, 0, 0, 0], rfl, by decide⟩
theorem linkDegradeDone (n : Nat) (aligned : Nat) : Statement (.linkDegradeDone n aligned) :=
  ⟨.linkDegradeDone 0 0, rfl, by decide⟩
theorem msgReassemblyTimeout (src : Nat) (msg : Nat) : Statement (.msgReassemblyTimeout src msg) :=
  ⟨.msgReassemblyTimeout 0 0, rfl, by decide⟩
theorem retrainPort : Statement (.retrainPort) :=
  ⟨.retrainPort, rfl, by decide⟩
theorem setRoutes : Statement (.setRoutes) :=
  ⟨.setRoutes, rfl, by decide⟩
theorem defineGroup : Statement (.defineGroup) :=
  ⟨.defineGroup, rfl, by decide⟩
theorem mgmtForm (h : LinkHdr) (gid : Nat) (modelId : Nat) (index : Nat) : Statement (.mgmtForm h gid modelId index) :=
  ⟨.mgmtForm ⟨0, 0, 0⟩ 0 0 0, rfl, by decide⟩
theorem mgmtFormAck (h : LinkHdr) (gid : Nat) (info : FormInfo) : Statement (.mgmtFormAck h gid info) :=
  ⟨.mgmtFormAck ⟨0, 0, 0⟩ 0 ⟨0, 0, 0, 0, 0, 0, 0⟩, rfl, by decide⟩
theorem formResend (n : Nat) : Statement (.formResend n) :=
  ⟨.formResend 0, rfl, by decide⟩
theorem mgmtHeartbeat (h : LinkHdr) (gid : Nat) (answer : Bool) : Statement (.mgmtHeartbeat h gid answer) :=
  ⟨.mgmtHeartbeat ⟨0, 0, 0⟩ 0 false, rfl, by decide⟩
theorem heartbeatSend (n : Nat) : Statement (.heartbeatSend n) :=
  ⟨.heartbeatSend 0, rfl, by decide⟩
theorem peerLoss (n : Nat) (node : Nat) : Statement (.peerLoss n node) :=
  ⟨.peerLoss 0 0, rfl, by decide⟩
theorem mgmtLeave (h : LinkHdr) (gid : Nat) : Statement (.mgmtLeave h gid) :=
  ⟨.mgmtLeave ⟨0, 0, 0⟩ 0, rfl, by decide⟩
theorem mgmtPeerModelRequest (h : LinkHdr) (handle : Nat) : Statement (.mgmtPeerModelRequest h handle) :=
  ⟨.mgmtPeerModelRequest ⟨0, 0, 0⟩ 0, rfl, by decide⟩
theorem plan (h : LinkHdr) (gid : Nat) (tag : Nat) (seqs : List PlanSeq) : Statement (.plan h gid tag seqs) :=
  ⟨.plan ⟨0, 0, 0⟩ 0 0 [], rfl, by decide⟩
theorem planAck (h : LinkHdr) (gid : Nat) (tag : Nat) (free : Nat) (short : Bool) : Statement (.planAck h gid tag free short) :=
  ⟨.planAck ⟨0, 0, 0⟩ 0 0 0 false, rfl, by decide⟩
theorem cand (h : LinkHdr) (gid : Nat) (tag : Nat) (lists : List CandPos) : Statement (.cand h gid tag lists) :=
  ⟨.cand ⟨0, 0, 0⟩ 0 0 [], rfl, by decide⟩
theorem commit (h : LinkHdr) (gid : Nat) (tag : Nat) (seqs : List CommitSeq) : Statement (.commit h gid tag seqs) :=
  ⟨.commit ⟨0, 0, 0⟩ 0 0 [], rfl, by decide⟩
theorem abandon (h : LinkHdr) (gid : Nat) (tag : Nat) : Statement (.abandon h gid tag) :=
  ⟨.abandon ⟨0, 0, 0⟩ 0 0, rfl, by decide⟩
theorem abandonAck (h : LinkHdr) (gid : Nat) (tag : Nat) : Statement (.abandonAck h gid tag) :=
  ⟨.abandonAck ⟨0, 0, 0⟩ 0 0, rfl, by decide⟩
theorem release (h : LinkHdr) (gid : Nat) (idxs : List Nat) : Statement (.release h gid idxs) :=
  ⟨.release ⟨0, 0, 0⟩ 0 [], rfl, by decide⟩
theorem releaseSend (n : Nat) : Statement (.releaseSend n) :=
  ⟨.releaseSend 0, rfl, by decide⟩
theorem samppage (h : LinkHdr) (gid : Nat) (idx : Nat) (mask : List Byte) (bias : List (Nat × W32)) : Statement (.samppage h gid idx mask bias) :=
  ⟨.samppage ⟨0, 0, 0⟩ 0 0 [] [], rfl, by decide⟩
theorem coll (h : LinkHdr) (gid : Nat) (x : Tensor) : Statement (.coll h gid x) :=
  ⟨.coll ⟨0, 0, 0⟩ 0 ⟨0, []⟩, rfl, by decide⟩
theorem kvxfer (h : LinkHdr) (gid : Nat) (tag : Nat) (bytes : List (Nat × Byte)) : Statement (.kvxfer h gid tag bytes) :=
  ⟨.kvxfer ⟨0, 0, 0⟩ 0 0 [], rfl, by decide⟩
theorem modelxfer (h : LinkHdr) (n : Nat) (bytes : List (Nat × Byte)) : Statement (.modelxfer h n bytes) :=
  ⟨.modelxfer ⟨0, 0, 0⟩ 0 [], rfl, by decide⟩
theorem planisherPeriod (meas : Option Nat) (sensors : List (Nat × Int)) : Statement (.planisherPeriod meas sensors) :=
  ⟨.planisherPeriod none [], rfl, by decide⟩
theorem cclkSwitch : Statement (.cclkSwitch) :=
  ⟨.cclkSwitch, rfl, by decide⟩
theorem handoverHoldExpiry (p : Nat) : Statement (.handoverHoldExpiry p) :=
  ⟨.handoverHoldExpiry 0, rfl, by decide⟩
theorem batteryModeBegin (bbuLow : Bool) : Statement (.batteryModeBegin bbuLow) :=
  ⟨.batteryModeBegin false, rfl, by decide⟩
theorem batteryModeEnd : Statement (.batteryModeEnd) :=
  ⟨.batteryModeEnd, rfl, by decide⟩
theorem pmbusPoll (reads : List (Nat × ShelfRead)) : Statement (.pmbusPoll reads) :=
  ⟨.pmbusPoll [], rfl, by decide⟩
theorem shelfRetry (d : Nat) (status : Option (Nat × Bool)) : Statement (.shelfRetry d status) :=
  ⟨.shelfRetry 0 none, rfl, by decide⟩
theorem thermalEmergencyBegin (alertLow : Bool) : Statement (.thermalEmergencyBegin alertLow) :=
  ⟨.thermalEmergencyBegin false, rfl, by decide⟩
theorem thermalEmergencyEnd : Statement (.thermalEmergencyEnd) :=
  ⟨.thermalEmergencyEnd, rfl, by decide⟩
theorem ramp (src : Nat) (r : RampMsg) : Statement (.ramp src r) :=
  ⟨.ramp 0 ⟨0, 0, 0, 0, 0, 0⟩, rfl, by decide⟩
theorem rampSend : Statement (.rampSend) :=
  ⟨.rampSend, rfl, by decide⟩
theorem stamp (h : LinkHdr) (time : Nat) : Statement (.stamp h time) :=
  ⟨.stamp ⟨0, 0, 0⟩ 0, rfl, by decide⟩
theorem stampSend : Statement (.stampSend) :=
  ⟨.stampSend, rfl, by decide⟩
theorem regulatorRefill : Statement (.regulatorRefill) :=
  ⟨.regulatorRefill, rfl, by decide⟩
theorem doeDiscovery (req : List Byte) : Statement (.doeDiscovery req) :=
  ⟨.doeDiscovery [], rfl, by decide⟩
theorem getVersion (req : List Byte) : Statement (.getVersion req) :=
  ⟨.getVersion [], rfl, by decide⟩
theorem getCapabilities (req : List Byte) : Statement (.getCapabilities req) :=
  ⟨.getCapabilities [], rfl, by decide⟩
theorem negotiateAlgorithms (req : List Byte) : Statement (.negotiateAlgorithms req) :=
  ⟨.negotiateAlgorithms [], rfl, by decide⟩
theorem getDigests (req : List Byte) : Statement (.getDigests req) :=
  ⟨.getDigests [], rfl, by decide⟩
theorem getCertificate (req : List Byte) : Statement (.getCertificate req) :=
  ⟨.getCertificate [], rfl, by decide⟩
theorem challenge (req : List Byte) : Statement (.challenge req) :=
  ⟨.challenge [], rfl, by decide⟩
theorem getMeasurements (req : List Byte) : Statement (.getMeasurements req) :=
  ⟨.getMeasurements [], rfl, by decide⟩
theorem spdmUnsupportedRequest (req : List Byte) : Statement (.spdmUnsupportedRequest req) :=
  ⟨.spdmUnsupportedRequest [], rfl, by decide⟩
theorem doeAbort : Statement (.doeAbort) :=
  ⟨.doeAbort, rfl, by decide⟩
theorem vfFlr (t : Nat) : Statement (.vfFlr t) :=
  ⟨.vfFlr 0, rfl, by decide⟩
theorem pf0Flr : Statement (.pf0Flr) :=
  ⟨.pf0Flr, rfl, by decide⟩
theorem vfEnableSet (numVfs : Nat) : Statement (.vfEnableSet numVfs) :=
  ⟨.vfEnableSet 0, rfl, by decide⟩
theorem vfEnableClear : Statement (.vfEnableClear) :=
  ⟨.vfEnableClear, rfl, by decide⟩
theorem busMasterEnable (fn : Nat) (cmd : PciCommand) (ctl : DeviceControl) : Statement (.busMasterEnable fn cmd ctl) :=
  ⟨.busMasterEnable 0 ⟨false, false⟩ ⟨false, 0⟩, rfl, by decide⟩
theorem d3hotEntry (fn : Nat) (enter : Bool) : Statement (.d3hotEntry fn enter) :=
  ⟨.d3hotEntry 0 false, rfl, by decide⟩
theorem linkSpeedChange (speed : Nat) (width : Nat) (flit : Bool) : Statement (.linkSpeedChange speed width flit) :=
  ⟨.linkSpeedChange 1 16 false, rfl, by decide⟩
theorem pcieLinkDown : Statement (.pcieLinkDown) :=
  ⟨.pcieLinkDown, rfl, by decide⟩
theorem pcieFatalError : Statement (.pcieFatalError) :=
  ⟨.pcieFatalError, rfl, by decide⟩
theorem dmaReadFailed (what : DmaRead) (kind : DmaKind) (addr : Nat) : Statement (.dmaReadFailed what kind addr) :=
  ⟨.dmaReadFailed .package .timeout 0, rfl, by decide⟩
theorem unexpectedCompletion (fn : Nat) : Statement (.unexpectedCompletion fn) :=
  ⟨.unexpectedCompletion 0, rfl, by decide⟩
theorem malformedRead (who : Requester) (bar : Bar) (o : Nat) (len : Nat) : Statement (.malformedRead who bar o len) :=
  ⟨.malformedRead .pf0 .pfBar0 0 0, rfl, by decide⟩
theorem dbRouteWrite (h : Nat) (v : W32) : Statement (.dbRouteWrite h v) :=
  ⟨.dbRouteWrite 0 0, rfl, by decide⟩
theorem registerWrite (who : Requester) (bar : Bar) (o : Nat) (len : Nat) (v : W64) (hw : Nat) : Statement (.registerWrite who bar o len v hw) :=
  ⟨.registerWrite .pf0 .pfBar0 0 0 0 0, rfl, by decide⟩
theorem registerRead (who : Requester) (bar : Bar) (o : Nat) (len : Nat) : Statement (.registerRead who bar o len) :=
  ⟨.registerRead .pf0 .pfBar0 0 4, rfl, by decide⟩
theorem devtimeRead (who : Requester) (bar : Bar) (len : Nat) (hi : Bool) : Statement (.devtimeRead who bar len hi) :=
  ⟨.devtimeRead .pf0 .pfBar0 4 false, rfl, by decide⟩
theorem fltLastRead (who : Requester) (k : Nat) (len : Nat) : Statement (.fltLastRead who k len) :=
  ⟨.fltLastRead .pf0 0 4, rfl, by decide⟩
theorem dbgwinCtlWrite (v : W32) : Statement (.dbgwinCtlWrite v) :=
  ⟨.dbgwinCtlWrite 0, rfl, by decide⟩
theorem debugWindowAccess (o : Nat) (len : Nat) (data : Option (List Byte)) : Statement (.debugWindowAccess o len data) :=
  ⟨.debugWindowAccess 0 0 none, rfl, by decide⟩
theorem selectProfile : Statement (.selectProfile) :=
  ⟨.selectProfile, rfl, by decide⟩
theorem loadVolatileBegin : Statement (.loadVolatileBegin) :=
  ⟨.loadVolatileBegin, rfl, by decide⟩
theorem loadVolatileChunk : Statement (.loadVolatileChunk) :=
  ⟨.loadVolatileChunk, rfl, by decide⟩
theorem loadVolatileEnd : Statement (.loadVolatileEnd) :=
  ⟨.loadVolatileEnd, rfl, by decide⟩
theorem loadVolatileCancel : Statement (.loadVolatileCancel) :=
  ⟨.loadVolatileCancel, rfl, by decide⟩
theorem getConfigStatus : Statement (.getConfigStatus) :=
  ⟨.getConfigStatus, rfl, by decide⟩
theorem flashInfo : Statement (.flashInfo) :=
  ⟨.flashInfo, rfl, by decide⟩
theorem flashRead (ok : Bool) : Statement (.flashRead ok) :=
  ⟨.flashRead false, rfl, by decide⟩
theorem flashErase (ok : Bool) : Statement (.flashErase ok) :=
  ⟨.flashErase false, rfl, by decide⟩
theorem flashProgram (ok : Bool) : Statement (.flashProgram ok) :=
  ⟨.flashProgram false, rfl, by decide⟩
theorem settingsLoad (transient : Nat) (lost : List NvmPart) : Statement (.settingsLoad transient lost) :=
  ⟨.settingsLoad 0 [], rfl, by decide⟩
theorem storeSettings (ok : Bool) : Statement (.storeSettings ok) :=
  ⟨.storeSettings false, rfl, by decide⟩
theorem discardSettings : Statement (.discardSettings) :=
  ⟨.discardSettings, rfl, by decide⟩
theorem readSetting : Statement (.readSetting) :=
  ⟨.readSetting, rfl, by decide⟩
theorem writeSetting : Statement (.writeSetting) :=
  ⟨.writeSetting, rfl, by decide⟩
theorem readLifetime : Statement (.readLifetime) :=
  ⟨.readLifetime, rfl, by decide⟩
theorem getOwnerNonce : Statement (.getOwnerNonce) :=
  ⟨.getOwnerNonce, rfl, by decide⟩
theorem setOwnerState (ok : Bool) : Statement (.setOwnerState ok) :=
  ⟨.setOwnerState false, rfl, by decide⟩
theorem installOwnerKey (ok : Bool) : Statement (.installOwnerKey ok) :=
  ⟨.installOwnerKey false, rfl, by decide⟩
theorem automaticStore (ok : Bool) : Statement (.automaticStore ok) :=
  ⟨.automaticStore false, rfl, by decide⟩
theorem lifetimeSnapshot : Statement (.lifetimeSnapshot) :=
  ⟨.lifetimeSnapshot, rfl, by decide⟩
theorem updateBegin : Statement (.updateBegin) :=
  ⟨.updateBegin, rfl, by decide⟩
theorem updateChunk (ok : Bool) : Statement (.updateChunk ok) :=
  ⟨.updateChunk false, rfl, by decide⟩
theorem updateCommit (reads : RegionRead) (ok : Bool) : Statement (.updateCommit reads ok) :=
  ⟨.updateCommit .clean false, rfl, by decide⟩
theorem updateCommitLive (reads : RegionRead) (ok : Bool) : Statement (.updateCommitLive reads ok) :=
  ⟨.updateCommitLive .clean false, rfl, by decide⟩
theorem updateConfirm : Statement (.updateConfirm) :=
  ⟨.updateConfirm, rfl, by decide⟩
theorem updateAbort : Statement (.updateAbort) :=
  ⟨.updateAbort, rfl, by decide⟩
theorem updateRejectTrial : Statement (.updateRejectTrial) :=
  ⟨.updateRejectTrial, rfl, by decide⟩
theorem sessionIdleTimeout : Statement (.sessionIdleTimeout) :=
  ⟨.sessionIdleTimeout, rfl, by decide⟩
theorem confirmWindowExpiry : Statement (.confirmWindowExpiry) :=
  ⟨.confirmWindowExpiry, rfl, by decide⟩
theorem heartwoodHandoff (conv : List SetRec) : Statement (.heartwoodHandoff conv) :=
  ⟨.heartwoodHandoff [], rfl, by decide⟩
theorem loadMicrocode : Statement (.loadMicrocode) :=
  ⟨.loadMicrocode, rfl, by decide⟩
theorem repairClusters (fails : List (Nat × Nat)) : Statement (.repairClusters fails) :=
  ⟨.repairClusters [], rfl, by decide⟩
theorem traceEnable (p : Nat) (v : W32) : Statement (.traceEnable p v) :=
  ⟨.traceEnable 0 1, rfl, by decide⟩
theorem traceDisable (p : Nat) (v : W32) : Statement (.traceDisable p v) :=
  ⟨.traceDisable 0 0, rfl, by decide⟩
theorem traceRecordWrite (p : Nat) : Statement (.traceRecordWrite p) :=
  ⟨.traceRecordWrite 0, rfl, by decide⟩
theorem markBegin (p : Nat) (cl : Nat) (id : Nat) : Statement (.markBegin p cl id) :=
  ⟨.markBegin 0 0 0, rfl, by decide⟩
theorem markEnd (p : Nat) (cl : Nat) (id : Nat) : Statement (.markEnd p cl id) :=
  ⟨.markEnd 0 0 0, rfl, by decide⟩
theorem porAssert : Statement (.porAssert) :=
  ⟨.porAssert, rfl, by decide⟩
theorem porDeassert (profsel : Nat) (smbAddr : Nat) (btnLow : Bool) : Statement (.porDeassert profsel smbAddr btnLow) :=
  ⟨.porDeassert 0 0 false, rfl, by decide⟩
theorem tclkLock : Statement (.tclkLock) :=
  ⟨.tclkLock, rfl, by decide⟩
theorem rootLoaderCheck (reads : RegionRead) : Statement (.rootLoaderCheck reads) :=
  ⟨.rootLoaderCheck .clean, rfl, by decide⟩
theorem flashModeSelect (sfdp : Option Sfdp) : Statement (.flashModeSelect sfdp) :=
  ⟨.flashModeSelect none, rfl, by decide⟩
theorem imageCheck (reads : List (Nat × RegionRead)) : Statement (.imageCheck reads) :=
  ⟨.imageCheck [], rfl, by decide⟩
theorem bootHandoff (conv : List SetRec) : Statement (.bootHandoff conv) :=
  ⟨.bootHandoff [], rfl, by decide⟩
theorem channelTrainingDone (first : Nat) (second : Nat) : Statement (.channelTrainingDone first second) :=
  ⟨.channelTrainingDone 0 0, rfl, by decide⟩
theorem groveSelfTest (fails : List (Nat × Nat)) : Statement (.groveSelfTest fails) :=
  ⟨.groveSelfTest [], rfl, by decide⟩
theorem layoutComplete : Statement (.layoutComplete) :=
  ⟨.layoutComplete, rfl, by decide⟩
theorem cezlinkPortsSettled : Statement (.cezlinkPortsSettled) :=
  ⟨.cezlinkPortsSettled, rfl, by decide⟩
theorem serviceEntry : Statement (.serviceEntry) :=
  ⟨.serviceEntry, rfl, by decide⟩
theorem warmChipReset : Statement (.warmChipReset) :=
  ⟨.warmChipReset, rfl, by decide⟩
theorem ballastRundownDone : Statement (.ballastRundownDone) :=
  ⟨.ballastRundownDone, rfl, by decide⟩
theorem undervoltage : Statement (.undervoltage) :=
  ⟨.undervoltage, rfl, by decide⟩
theorem undervoltageEnd (profsel : Nat) (smbAddr : Nat) (btnLow : Bool) : Statement (.undervoltageEnd profsel smbAddr btnLow) :=
  ⟨.undervoltageEnd 0 0 false, rfl, by decide⟩
theorem vaonLoss (torn : List Nat) : Statement (.vaonLoss torn) :=
  ⟨.vaonLoss [], rfl, by decide⟩
theorem thermtrip : Statement (.thermtrip) :=
  ⟨.thermtrip, rfl, by decide⟩
theorem perstAssert : Statement (.perstAssert) :=
  ⟨.perstAssert, rfl, by decide⟩
theorem perstDeassert : Statement (.perstDeassert) :=
  ⟨.perstDeassert, rfl, by decide⟩
theorem hotReset : Statement (.hotReset) :=
  ⟨.hotReset, rfl, by decide⟩
theorem buttonLowStable : Statement (.buttonLowStable) :=
  ⟨.buttonLowStable, rfl, by decide⟩
theorem buttonPress : Statement (.buttonPress) :=
  ⟨.buttonPress, rfl, by decide⟩
theorem buttonStuck : Statement (.buttonStuck) :=
  ⟨.buttonStuck, rfl, by decide⟩
theorem buttonHonoured : Statement (.buttonHonoured) :=
  ⟨.buttonHonoured, rfl, by decide⟩
theorem heartwoodResume : Statement (.heartwoodResume) :=
  ⟨.heartwoodResume, rfl, by decide⟩
theorem f4HoldExpiry : Statement (.f4HoldExpiry) :=
  ⟨.f4HoldExpiry, rfl, by decide⟩
theorem resetChip : Statement (.resetChip) :=
  ⟨.resetChip, rfl, by decide⟩
theorem bypass : Statement (.bypass) :=
  ⟨.bypass, rfl, by decide⟩
theorem idcode : Statement (.idcode) :=
  ⟨.idcode, rfl, by decide⟩
theorem samplePreload (pins : Nat) (load : Nat) : Statement (.samplePreload pins load) :=
  ⟨.samplePreload 0 0, rfl, by decide⟩
theorem extest (scan : Option (Nat × Nat)) : Statement (.extest scan) :=
  ⟨.extest none, rfl, by decide⟩
theorem clamp : Statement (.clamp) :=
  ⟨.clamp, rfl, by decide⟩
theorem highz : Statement (.highz) :=
  ⟨.highz, rfl, by decide⟩
theorem testLogicReset : Statement (.testLogicReset) :=
  ⟨.testLogicReset, rfl, by decide⟩
theorem jtagDebugAccess (o : Nat) (len : Nat) (data : Option (W64 × Nat)) : Statement (.jtagDebugAccess o len data) :=
  ⟨.jtagDebugAccess 0 0 none, rfl, by decide⟩

end Sys2Proof.Laws.WellFormed
end

