-- ==== Sys2Proof/Tests/Slice0.lean ====
section
/-! SUPPORT. The model's own tests: a malformed command for each check of WellFormed, worked values of the spec, and for
every statement a concrete state and operands that meet its hypotheses. -/
set_option Elab.async false
namespace Sys2Proof.Tests
open Sys2Proof Sys2Proof.Machine

/-! ## Small states -/

/-- Fields set to values. -/
def put (l : List (Fld × Nat)) (s : State) : State := l.foldl (fun a e => setF a e.1 e.2) s

/-- A device in SERVICE: clocks locked, Heartwood running, PF0 open. -/
def svc : State :=
  put [(Reg.HST_CLK_STATUS_LOCK, 0x1FF), (Reg.MGT_STATUS_STAGE, 6), (Reg.HST_STATUS_HWD_STATE, 0),
      (Reg.MGT_MBX_STATUS_READY, 1), (Reg.PRT_MODE_MODE, 1), (Reg.HST_CLK_FREQ_CCLK_MHZ, 1600)]
    { State.reset with
      time := 1000000, qTime := 1000000, fTime := 1000000, lTime := 1000000, cTime := 1000000, mTime := 1000000, pTime := 1000000, aTime := 1000000
      sTime := 1000000, fns := [(0, { Fn.idle with bme := true, mse := true, vfEn := true, msixEn := true })]
      boot := { Boot.held with
        por := false, perst := false, tclkOnce := true, spiAt := some 0, up := true, rootOk := true, imageOk := true, trained := true, tested := true
        settled := true } }

/-- In it, partition 0 of two groves serves, and tenant 3 is bound to it through PF0. -/
def svcPart : State :=
  put [(Reg.PRT_PART_CFG_VALID 0, 1), (Reg.PRT_PART_CFG_GROVES 0, 2), (Reg.PRT_PART_STATE_STATE 0, 1),
    (Reg.GRV_STATUS_ASSIGNED 0, 1), (Reg.GRV_STATUS_ASSIGNED 1, 1), (Reg.GRV_STATUS_ACTIVE 0, 80),
    (Reg.PRT_TEN_BOUND 3, 1), (Reg.HST_DB_ROUTE_PF_ROUTE 0, 8), (Reg.ADM_TEN_CTL_OPEN 3, 1), (Reg.ADM_TEN_CTL_KVQ_EN 3, 0),
    (Reg.ADM_TEN_CTL_CONC_EN 3, 0), (Reg.ADM_TEN_CTL_BUDGET_EN 3, 0), (Reg.ADM_TEN_CTL_FEAS_EN 3, 0), (Reg.ADM_TEN_QDEPTH_QDEPTH 3, 8),
    (Reg.MEM_PART_ARENA_PAGES 0, 2000)] svc

/-- Rings 0 of tenant 3 are enabled. -/
def svcRings : State :=
  put [(Reg.RQI_CQ_CFG_SIZE_LOG2 3 0, 6), (Reg.RQI_CQ_CFG_ENABLE 3 0, 1), (Reg.RQI_SQ_CFG_SIZE_LOG2 3 0, 6),
    (Reg.RQI_SQ_CFG_ENABLE 3 0, 1), (Reg.RQI_SQ_HEAD_PHASE 3 0, 1), (Reg.RQI_SQ_TAIL_TAIL 3 0, 8)] svcPart

/-- What a command answers satisfies `p`. -/
def sat (i : Instr) (s : State) (p : State → Bool) : Bool :=
  match exec i s with
  | .next t => p t
  | _ => false

/-- A package and its step program. -/
def pkg : Pkg :=
  { modelId := 7, tokenizerId := 1, weightBytes := 65536, actBytes := 65536, kvRsv := 0, concCap := 64, vocab := 1024,
    layers := 2, shards := 1, kvBytes := 65536, pLog2 := 5, batchInvariant := false, groupPart := false, minGroves := 1,
    groupDevices := 1, deviceIndex := 0, limitUs := 1000, tokenBudget := 512, seqCap := 16, chunkLog2 := 8, cls := 0,
    programLen := 4096, bodyCrc := 0 }
def prog : ProgInfo :=
  { workTable := true, breaksR137 := false, tileBoundNs := 1000, boundaryAcc := 0, liveSram := 0, shards := 1, firstShard := 0, bounds := [0, 1024],
    regFile := 0, scratch := 0, accum := 0, work := List.replicate 8 (0, 0, 0) }
def slot0 : Slot :=
  { pkg := pkg, prog := prog, fromPeer := none, hostAddr := 0, pinOnLoad := false, saveBase := 0, ctxNo := 0, force := false,
    peerReads := [] }
def ctx0 : Ctx :=
  { slot := 0, first := true, saveBase := 0, saveUnits := 1, tag := 0, lastAbandoned := false, barred := false, pair := none,
    unpair := false }

/-- Model 7 is READY in slot 0 of partition 0 with context 0, which serves every class. -/
def svcModel : State :=
  put [(Reg.MDL_SLOT_HANDLE 0, 0x20), (Reg.MDL_SLOT_STATE 0, 3), (Reg.MDL_CTX_SVC_SVC_MASK 0, 15),
    (Reg.CMP_CTX_LIMIT_LIMIT_US 0 0, 1000), (Reg.CMP_CTX_CHUNK_CHUNK_LOG2 0 0, 8)]
    (setCtx (setSlot svcRings 0 (some slot0)) 0 (some ctx0))

/-- A ring word: bits 63 to 0 and 127 to 64, PHASE 1. -/
def word (lo hi : Nat) : W128 := BitVec.ofNat 128 (lo + 2 ^ 64 * hi + 2 ^ 127)

/-- A SUBMIT of a prompt of 4 tokens to model handle 0x20, completion ring 0, one token to emit. -/
def submitWords : List W128 :=
  [word (1 + 3 * 256 + 0x20 * 2 ^ 16 + 4 * 2 ^ 32) 0, word 5 0x1000, word 0 1, word 0 0]

/-! ## WellFormed -/

theorem test_wf_accepts : (Instr.sqDoorbell 3 0 true 8).wf = true := by decide
theorem test_wf_tenant : (Instr.sqDoorbell 64 0 true 8).wf = false := by decide
theorem test_wf_ring : (Instr.cqDoorbell 3 4 true 8).wf = false := by decide
theorem test_wf_doorbell : (Instr.sqDoorbell 3 0 true 65536).wf = false := by decide
theorem test_wf_words : (Instr.submit 3 0 [] none none 0).wf = false := by decide
theorem test_wf_entry : (Instr.maskCopyDone 262144 none none).wf = false := by decide
theorem test_wf_partition : (Instr.stepCommit 16).wf = false := by decide
theorem test_wf_cluster : (Instr.taskWatchdog 0 1280).wf = false := by decide
theorem test_wf_grove : (Instr.groveAbandonAck 0 16).wf = false := by decide
theorem test_wf_context : (Instr.stepDeadline 0 32).wf = false := by decide
theorem test_wf_slot : (Instr.modelTransferFailed 32).wf = false := by decide
theorem test_wf_port : (Instr.linkTrainTimeout 12 0).wf = false := by decide
theorem test_wf_node : (Instr.peerLoss 0 64).wf = false := by decide
theorem test_wf_function : (Instr.d3hotEntry 65 true).wf = false := by decide
theorem test_wf_vector : (Instr.msixUnmask 1 (.vector 32)).wf = false := by decide
theorem test_wf_phys : (Instr.scrubRead (2 ^ 36) ⟨0, 0⟩).wf = false := by decide
theorem test_wf_shelf : (Instr.shelfRetry 8 none).wf = false := by decide
theorem test_wf_flit : (Instr.dataFlitReceive 0 []).wf = false := by decide
theorem test_wf_header : (Instr.mgmtLeave ⟨12, 0, 0⟩ 0).wf = false := by decide
theorem test_wf_bar : (Instr.registerRead (.vf 3) .pfBar0 0 4).wf = false := by decide
theorem test_wf_enable : (Instr.sqEnable 3 0 0).wf = false := by decide
theorem test_wf_trace : (Instr.traceEnable 0 0).wf = false := by decide
theorem test_wf_dma : (Instr.dmaReadFailed (.ring 64 0) .ur 0).wf = false := by decide
theorem test_wf_source : (Instr.faultReport (.lane 16)).wf = false := by decide
theorem test_wf_phys_cluster : (Instr.groveSelfTest [(0, 84)]).wf = false := by decide

/-! ## Witnesses -/

/-- A tail of 8 of 64 words; a head of 2 with 3 records written. -/
theorem test_DoorbellsMoveTailAndHead :
    ((Instr.sqDoorbell 3 0 true 63).wf = true ∧ true = routePf svcRings 3 ∧ Reaches svcRings (Reg.RQI_SQ_TAIL 3 0) ∧ (sq svcRings 3 0).flushing = false ∧
      63 < sqSize svcRings 3 0 ∧ sat (.sqDoorbell 3 0 true 63) svcRings fun u => sqTail u 3 0 == 63) ∧
    (let s := put [(Reg.RQI_CQ_TAIL_TAIL 3 0, 3)] svcRings
     (Instr.sqDoorbell 3 0 true 2).wf = true ∧ true = routePf s 3 ∧ Reaches s (Reg.RQI_CQ_TAIL 3 0) ∧ isSet s (Reg.RQI_CQ_CFG_ENABLE 3 0) = true ∧ 2 < cqSize s 3 0 ∧
      (2 + cqSize s 3 0 - (cq s 3 0).head) % cqSize s 3 0 ≤
        (getF s (Reg.RQI_CQ_TAIL_TAIL 3 0) + cqSize s 3 0 - (cq s 3 0).head) % cqSize s 3 0 ∧
      sat (.cqDoorbell 3 0 true 2) s fun u => (cq u 3 0).head == 2) := by
  unfold Reaches; decide +kernel

/-- A prompt of 4 tokens; a prompt read that fails; a token seen before. -/
theorem test_SubmitCreatesRequest :
    (Instr.submit 3 0 submitWords (some [1, 2, 3, 4]) none 0).wf = true ∧ readSubmit svcModel 3 0 submitWords = .ready ∧
      itemType submitWords = 1 ∧ (sq svcModel 3 0).cohort = none ∧ itsTurn svcModel 3 0 = true ∧
      cqRoom svcModel 3 [refusalCq svcModel 3 (submitFields submitWords).cq] = true ∧ getF svcModel (Reg.RQI_SQ_CFG_SIZE_LOG2 3 0) ≤ 16 ∧
      (submitCode svcModel 3 0 submitWords (some [1, 2, 3, 4]) none none = 0 ∧ dedupMatch svcModel 3 (submitFields submitWords).token = none ∧
        sat (.submit 3 0 submitWords (some [1, 2, 3, 4]) none 0) svcModel fun u =>
          (match req? u 0 with | some q => q.st == .arrived && q.sub.promptLen == 4 && q.arrival == 1000000 | none => false) &&
          admQueue u 3 0 == [0] && sqHead u 3 0 == 4) ∧
      (submitCode svcModel 3 0 submitWords none none none ≠ 0 ∧ sat (.submit 3 0 submitWords none none 0) svcModel fun u =>
        (cq u 3 0).waiting.map (·.status) == [submitCode svcModel 3 0 submitWords none none none] && sqHead u 3 0 == 4) ∧
      (let s := { svcModel with dedup := [(3, [((submitFields submitWords).token, 0x105)])] }
       dedupMatch s 3 (submitFields submitWords).token = some 0x105 ∧ submitCode s 3 0 submitWords (some [1, 2, 3, 4]) none none = 0 ∧
        sat (.submit 3 0 submitWords (some [1, 2, 3, 4]) none 0) s fun u =>
          (cq u 3 0).waiting.map (fun x => (x.status, x.handle.toNat)) == [(0x0101, 0x105)]) := by
  decide +kernel

/-- COHORT of 64 members with bucket exponent 9. -/
def cohortWords : List W128 := [word (2 + 256 + 64 * 2 ^ 12 + 0x20 * 2 ^ 20 + 9 * 2 ^ 36) 0, word 9 0]
/-- A request of tenant 3 in entry 5, generation 0. -/
def req5 : Req :=
  { gen := 0, tenant := 3, cls := 0, sub := submitFields submitWords, bias := [], stops := [], slot := 0, ctx := 0,
    st := .arrived, arrival := 1000000, bucket := 256, cohort := 0, member := 0, emitted := 0, append := 0, dAppend := 0,
    lastCommit := 0, hist := [], tail := [], maskPage := none, mask := [], maskReady := true, paired := false, kvUsed := 0,
    slots := [], parking := false, unparking := false, charged := false }
def cohort5 : Cohort :=
  { tenant := 3, cls := 0, model := 0x20, bucket := 256, arrival := 1000000, members := [5], st := .queued,
    evaluated := false, hold := 0, waitSince := 0, wPf := 1, committed := 0, kvLeft := 0 }
/-- The request waits in its cohort 0. -/
def svcReq : State :=
  { setAdmQueue (setCohort (setReq svcModel 5 (some req5)) 0 (some cohort5)) 3 0 [0] with nextCohort := 1 }
theorem test_RingItemsTakeEffect :
    (let ws := cohortWords
     (Instr.cohort 3 0 ws).wf = true ∧ readItem svcModel 3 0 ws = .ready ∧ (sq svcModel 3 0).cohort = none ∧
      itsTurn svcModel 3 0 = true ∧ getF svcModel (Reg.RQI_SQ_CFG_SIZE_LOG2 3 0) ≤ 16 ∧ itemType ws = 2 ∧ ws.length = 2 ∧ wbits (wordAt ws 0) 19 1 = 0 ∧
      wbits (wordAt ws 0) 40 83 = 0 ∧ wbits (wordAt ws 1) 64 59 = 0 ∧ wbits (wordAt ws 0) 12 7 = 64 ∧
      wbits (wordAt ws 0) 36 4 = 9 ∧
      sat (.cohort 3 0 ws) svcModel fun u =>
        (match (sq u 3 0).cohort with | some c => c.members == 64 && c.bucket == 131072 | none => false) && sqHead u 3 0 == 2) ∧
    (let ws := [word (3 + 5 * 2 ^ 32) 0]
     readItem svcReq 3 0 ws = .ready ∧ itemType ws = 3 ∧ ws.length = 1 ∧ wbits (wordAt ws 0) 14 18 = 0 ∧
      wbits (wordAt ws 0) 64 59 = 0 ∧ reqByHandle svcReq (wbits (wordAt ws 0) 32 32) = some (5, req5) ∧
      wbits (wordAt ws 0) 32 18 = 5 ∧ req5.tenant = 3 ∧ isLive req5.st = true ∧ itsTurn svcReq 3 0 = true ∧
      cancelDue svcReq 5 = false ∧ cqRoom svcReq 3 [req5.sub.cq] = true ∧ mayCommitNow svcReq 5 req5 = false ∧
      sat (.cancel 3 0 ws) svcReq fun u =>
        (match req? u 5 with | some q => q.st == .cancelled | none => false) && sqHead u 3 0 == 1) ∧
    (let ws := [word (3 + 6 * 2 ^ 32) 0]
     cancelTarget svcReq 3 (wbits (wordAt ws 0) 32 32) = none ∧ isSet svcReq (Reg.RQI_CQ_CFG_ENABLE 3 (wbits (wordAt ws 0) 12 2)) = true ∧
      cqRoom svcReq 3 [wbits (wordAt ws 0) 12 2] = true ∧
      sat (.cancel 3 0 ws) svcReq fun u => (cq u 3 0).waiting.map (·.status) == [0x0102] && sqHead u 3 0 == 1) ∧
    (let ws := [word (4 + 2 * 2 ^ 12 + 2 ^ 18) 0]
     readItem svcModel 3 0 ws = .ready ∧ itemType ws = 4 ∧ ws.length = 1 ∧ wbits (wordAt ws 0) 19 104 = 0 ∧
      wbits (wordAt ws 0) 18 1 = 1 ∧ cqRoom svcModel 3 [wbits (wordAt ws 0) 16 2] = true ∧
      sat (.fence 3 0 ws) svcModel fun u =>
        (match (sq u 3 0).fence with | some f => f.notify && f.left == [(1, 0)] | none => false) && sqHead u 3 0 == 1) ∧
    (let ws := [word 5 0]
     readItem svcModel 3 0 ws = .ready ∧ 4 < itemType ws ∧ cqRoom svcModel 3 [0] = true ∧
      itemType [word 0 0] = 0 ∧ readItem svcModel 3 0 [word 0 0] = .ready ∧
      sat (.reservedItemType 3 0 ws) svcModel fun u => (cq u 3 0).waiting.map (·.status) == [0x0110] && sqHead u 3 0 == 1) := by
  decide +kernel

theorem test_RingsGoOn :
    (let s := setSq svcModel 3 0 { Sq.idle with lastRead := some 975000 }
     (sq s 3 0).lastRead = some 975000 ∧ ringOpen s 3 0 = true ∧ 975000 + 25000 ≤ s.qTime ∧
      itemReady s 3 0 submitWords = true ∧ sat (.itemReread 3 0 submitWords) s fun u => (sq u 3 0).lastRead == none) ∧
    (let f : FenceWait := { left := [(1, 0)], cq := 0, notify := false, echo := [] }
     let s := setSq svcModel 3 0 { Sq.idle with fence := some f }
     (sq s 3 0).fence = some f ∧ serving s = true ∧ f.left.all (fun e => e.2 == 0) = true ∧
      sat (.fencePass 3 0) s fun u => (sq u 3 0).fence == none) ∧
    (let f : FenceWait := { left := [], cq := 0, notify := true, echo := [] }
     let s := setSq svcModel 3 0 { Sq.idle with fence := some f }
     (sq s 3 0).fence = some f ∧ serving s = true ∧ f.left.all (fun e => e.2 == 0) = true ∧
      sat (.fencePass 3 0) s fun u => (cq u 3 0).waiting.map (·.status) == [0x0106]) := by
  decide +kernel

theorem test_RingsAreSetUp :
    ((Instr.flush 3 1).wf = true ∧ Reaches svcRings (Reg.RQI_SQ_CFG 3 1) ∧ (0x106#32).getLsbD 8 = true ∧
      isSet svcRings (Reg.RQI_SQ_CFG_ENABLE 3 1) = false ∧ isSet svcRings (Reg.RQI_CQ_CFG_ENABLE 3 0) = true ∧
      sat (.sqEnable 3 1 0x106) svcRings fun u => isSet u (Reg.RQI_SQ_CFG_ENABLE 3 1) && sqSize u 3 1 == 64) ∧
    (Reaches svcRings (Reg.RQI_CQ_CFG 3 1) ∧ isSet svcRings (Reg.RQI_CQ_CFG_ENABLE 3 1) = false ∧
      sat (.cqEnable 3 1 0x106) svcRings fun u => isSet u (Reg.RQI_CQ_CFG_ENABLE 3 1)) ∧
    (Reaches svcRings (Reg.RQI_SQ_CFG 3 0) ∧ (0x006#32).getLsbD 8 = false ∧
      isSet svcRings (Reg.RQI_SQ_CFG_ENABLE 3 0) = true ∧
      sat (.sqDisable 3 0 0x006) svcRings fun u => (sq u 3 0).flushing && (sq u 3 0).disabling) ∧
    (Reaches svcRings (Reg.RQI_CQ_CFG 3 0) ∧ (0x006#32).getLsbD 8 = false ∧ cqInUse svcRings 3 0 = false ∧
      sat (.cqDisable 3 0 0x006) svcRings fun u => !isSet u (Reg.RQI_CQ_CFG_ENABLE 3 0)) ∧
    (Reaches svcRings (Reg.RQI_SQ_CTL 3 0) ∧ sat (.flush 3 0) svcRings fun u => (sq u 3 0).flushing) ∧
    (let s := put [(Reg.RQI_SQ_HEAD_EPOCH 3 0, 15)] (setSq svcRings 3 0 { Sq.idle with flushing := true })
     (sq s 3 0).flushing = true ∧
      sat (.flushDone 3 0) s fun u => sqTail u 3 0 == 0 && sqEpoch u 3 0 == 0 && isSet u (Reg.RQI_SQ_STATUS_FLUSH_DONE 3 0)) := by
  unfold Reaches; decide +kernel

/-- The last slot of the ring; a timer with nothing that masks and one whose function is masked; the three parts of MSI-X. -/
theorem test_CompletionRecordsAreWrittenInOrder :
    (let x : Rec := { handle := 5, status := 0x0104, flags := 0, count := 0, body := noBody }
     let s := setCq (put [(Reg.RQI_CQ_TAIL_TAIL 3 0, 63), (Reg.RQI_CQ_TAIL_PHASE 3 0, 1)] svcRings) 3 0
       { Cq.idle with head := 10, waiting := [x] }
     (Instr.completionRecordWrite 3 0).wf = true ∧ (cq s 3 0).waiting = [x] ∧ serving s = true ∧
      isSet s (Reg.RQI_CQ_CFG_ENABLE 3 0) = true ∧ canDma s (tenantFn s 3) = true ∧ dupHeld s 3 x = false ∧
      cqFree s 3 0 ≠ 0 ∧ getF s (Reg.RQI_CQ_CFG_SIZE_LOG2 3 0) ≤ 16 ∧
      sat (.completionRecordWrite 3 0) s fun u => u.out.contains (.dma 0 (32 * 63) (recBytes x 1)) &&
        getF u (Reg.RQI_CQ_TAIL_TAIL 3 0) == 0 && getF u (Reg.RQI_CQ_TAIL_PHASE 3 0) == 0) ∧
    (let s := setVec (setCq svcRings 3 0 { Cq.idle with pend := 2, timer := 999000, coalUs := 2 }) 0 134 { Vec.idle with masked := false }
     pfServed s 3 = true ∧ (cq s 3 0).pend ≠ 0 ∧ (cq s 3 0).timer + 500 * (cq s 3 0).coalUs ≤ s.qTime ∧
      ((vec s 0 134).masked || (fn s 0).fnMask || !(fn s 0).msixEn || !canDma s 0) = false ∧
      sat (.coalesceTimeout 3 0) s fun u => (cq u 3 0).pend == 0 && u.out.getLast? == some (.msix 0 134)) ∧
    (let s := setFn (setCq svcRings 3 0 { Cq.idle with pend := 2, timer := 999000, coalUs := 2 }) 0
       { Fn.idle with bme := true, mse := true, msixEn := true, fnMask := true }
     (fn s 0).fnMask = true ∧ sat (.coalesceTimeout 3 0) s fun u => (cq u 3 0).pend == 0 && (vec u 0 134).pend) ∧
    (let s := setVec svcRings 0 255 { Vec.idle with pend := true }
     (Instr.msixUnmask 0 (.vector 255)).wf = true ∧ (getF s Reg.HST_CLK_STATUS_LOCK).testBit 3 = true ∧ canDma s 0 = true ∧
      (fn s 0).msixEn = true ∧ (fn s 0).fnMask = false ∧ (vec s 0 255).pend = true ∧
      sat (.msixUnmask 0 (.vector 255)) s fun u => u.out == [.msix 0 255]) ∧
    (let s := setVec svcRings 0 255 { Vec.idle with pend := true, masked := false }
     (vec s 0 255).pend = true ∧ (vec s 0 255).masked = false ∧
      (sat (.msixUnmask 0 .function) s fun u => u.out.contains (.msix 0 255)) ∧ sat (.msixUnmask 0 .enable) s fun u => u.out.contains (.msix 0 255)) := by
  decide +kernel

/-- A head that is accepted, one of a closed tenant, one that waits for its budget, and one whose wait is over. -/
theorem test_AdmissionDecidesTheHead :
    ((Instr.admissionEvaluate 3 0).wf = true ∧ serving svcReq = true ∧ (scanQueues svcReq (scanPath svcReq 3 0).dropLast).2 ≠ some 3 ∧
      (let a := (scanQueues svcReq (scanPath svcReq 3 0).dropLast).1
       (admQueue a 3 0).head? = some 0 ∧ cohort? a 0 = some cohort5 ∧ cohort5.tenant = 3 ∧ cohort5.cls = 0 ∧ cohort5.hold = 0 ∧
        evaluate a cohort5 = .accept ∧ (arrivedMembers a cohort5).all (fun e => e.2.sub.maskAddr == 0) = true) ∧
      sat (.admissionEvaluate 3 0) svcReq fun u =>
        (match req? u 5 with | some q => q.st == .admitted | none => false) && admQueue u 3 0 == []) ∧
    (let s := put [(Reg.ADM_TEN_CTL_OPEN 3, 0)] svcReq
     let a := (scanQueues s (scanPath s 3 0).dropLast).1
     serving s = true ∧ cohort? a 0 = some cohort5 ∧ evaluate a cohort5 = .refuse 0x0209 ∧
      sat (.admissionEvaluate 3 0) s fun u =>
        (match req? u 5 with | some q => q.st == .rejected | none => false) && admQueue u 3 0 == []) ∧
    (let s := put [(Reg.ADM_TEN_CTL_BUDGET_EN 3, 1), (Reg.ADM_TEN_CTL_W_PF 3, 1),
       (Reg.ADM_TEN_BURST_BURST 3, 1000), (Reg.ADM_TEN_RATE_RATE 3, 1)] svcReq
     let a := (scanQueues s (scanPath s 3 0).dropLast).1
     serving s = true ∧ cohort? a 0 = some cohort5 ∧ evaluate a cohort5 = .wait 1 ∧
      sat (.admissionEvaluate 3 0) s fun u =>
        (match cohort? u 0 with | some q => q.hold == 1 && q.waitSince == 1000000 | none => false) &&
          getF u (holdFld 3 0) == 1) ∧
    (let h := { cohort5 with hold := 1, waitSince := 0 }
     let s := setReq (setCohort svcReq 0 (some h)) 5 (some { req5 with arrival := 0, sub := { req5.sub with ttftUs := 1 } })
     let a := (scanQueues s (scanPath s 3 0).dropLast).1
     cohort? a 0 = some h ∧ h.hold ≠ 0 ∧ waitOver a h = true ∧
      sat (.admissionEvaluate 3 0) s fun u => match req? u 5 with | some q => q.st == .rejected | none => false) := by
  decide +kernel

theorem test_AdmissionTimersAct :
    (let s := put [(Reg.ADM_TEN_RATE_RATE 63, 7), (Reg.ADM_TEN_BURST_BURST 63, 5)] svcReq
     serving s = true ∧ s.refills < s.qTime / 500000 ∧ -(2 ^ 47) ≤ level s 63 ∧ level s 63 + getF s (Reg.ADM_TEN_RATE_RATE 63) < 2 ^ 31 ∧
      headHold s (admQueue s 3 0) = 0 ∧ headHold s (admQueue s 63 3) = 0 ∧
      sat .budgetRefill s fun u => level u 63 == 5 && u.refills == 1) ∧
    (let r := { req5 with arrival := 0, sub := { req5.sub with ttftUs := 1 } }
     let s := setReq svcReq 5 (some r)
     serving s = true ∧ s.cohorts = [(0, some cohort5)] ∧ cohort5.st = .queued ∧
      (arrivedMembers s cohort5).any (fun x => pastQueueDeadline x.2 s.qTime) = true ∧
      (arrivedMembers svcReq cohort5).any (fun x => pastQueueDeadline x.2 s.qTime) = false ∧
      sat .queueDeadlineScan s fun u => match req? u 5 with | some q => q.st == .rejected | none => false) ∧
    (let r := { req5 with arrival := 0, st := .decode, sub := { req5.sub with totalMs := 1 } }
     let s := setReq svcReq 5 (some r)
     serving s = true ∧ s.reqs = [(5, some r)] ∧ isAdmitted r.st = true ∧ inPlan s 5 r = false ∧ inCompose s 5 r = false ∧
      pastDeadline r s.qTime = true ∧
      sat .deadlineCheck s fun u => match req? u 5 with | some q => q.st == .expired | none => false) ∧
    (let r := { req5 with maskReady := false }
     let c := { cohort5 with st := .copying }
     let s := setCohort (setReq svcReq 5 (some r)) 0 (some c)
     req? s 5 = some r ∧ cohort? s r.cohort = some c ∧ pkgOf s 0 = some pkg ∧ r.st = .arrived ∧ 5 ∈ c.members ∧
      canDma s (tenantFn s 3) = true ∧ copyWaits s 5 r = false ∧ r.sub.extAddr = 0 ∧ ledGroup s 0 = none ∧
      (sat (.maskCopyDone 5 (some [1, 2]) none) s fun u => match req? u 5 with
        | some q => q.st == .admitted && q.mask == [1, 2]
        | none => false) ∧
      sat (.maskCopyDone 5 none none) s fun u => match req? u 5 with | some q => q.st == .rejected | none => false) := by
  decide +kernel

/-- A request of tenant 3 that decodes, its step in EXECUTE with one task on cluster 0, and its plan. -/
def reqD : Req := { req5 with st := .decode, append := 256, emitted := 1, lastCommit := 999000, sub := { req5.sub with maxNew := 8 } }
def itemD : PlanItem := { prefill := false, cohort := 0, seqs := [5], n := 1, d := 0, last := false, cqs := [(12, 1)] }
def task0 : Task := { id := 0, tiled := true, tileBoundNs := 1000, boundaryAcc := 0, liveSram := 0, ops := [] }
def stepE : Step :=
  { ctx := 0, tag := 7, st := .execute, issueAt := 990000, deadline := 1500000, composeAt := 980000, plan := [itemD], drafts := [],
    draftStop := [], drawn := [], cands := [], shardsLeft := [0], draftShards := [], sampleAt := 0, held := [],
    running := [(0, task0, 999900)], stopped := [], ackWait := [], lost := 0, preAt := 0, saved := [], modeI := false, kept := [], preempted := false, draft := none, tokens := [], power := 0,
    raisedAt := 0, preBy := none, assay := [], watch := [], group := none, follower := false, candWait := [], fplan := [] }
/-- A decode item waits for a step of context 0. -/
def svcWork : State := setReq (put [(Reg.CMP_CTX_BUDGET_TOKEN_BUDGET 0 0, 64), (Reg.CMP_CTX_BUDGET_SEQ_CAP 0 0, 4)] svcModel) 5 (some reqD)
/-- The step holds the groves. -/
def svcStep (st : Step) : State := setLane (setReq svcModel 5 (some reqD)) 0 { Lane.idle with cur := some st }
/-- A context with work; a preempted step and no work; an idle lane. -/
theorem test_HolderIsChosenByClass :
    ((Instr.holderSelect 0).wf = true ∧ serving svcWork = true ∧ partValid svcWork 0 = true ∧ partState svcWork 0 = 1 ∧
      atBoundary (lane svcWork 0) = true ∧ (lane svcWork 0).pre = [] ∧ effClass svcWork 0 = 0 ∧
      ((ctxsOf svcWork 0).filter (hasWork svcWork)).filter (fun g => !(lane svcWork 0).stalled.contains g) = [0] ∧
      sat (.holderSelect 0) svcWork fun u => match (lane u 0).composing with
        | some c => c.ctx == 0 && c.since == 1000000
        | none => false) ∧
    (let s := setLane svcWork 0 { Lane.idle with pre := [stepE] }
     serving s = true ∧ atBoundary (lane s 0) = true ∧ (lane s 0).acks = [] ∧
      ((ctxsOf s 0).filter (hasWork s)).filter (fun g => !(lane s 0).stalled.contains g) = [] ∧
      sat (.holderSelect 0) s fun u => (lane u 0).cur == some stepE && (lane u 0).restoreAt == some 1000000) ∧
    (atBoundary (lane svcModel 0) = true ∧ (ctxsOf svcModel 0).filter (hasWork svcModel) = [] ∧ (lane svcModel 0).pre = [] ∧
      sat (.holderSelect 0) svcModel fun u => (lane u 0).composing == none && (lane u 0).cur == none) := by
  decide +kernel

/-- A plan that waits for the groves, one that issues at once, nothing to compose, a plan trimmed to nothing; after a power wait a
context that may compose, and one that may not. -/
theorem test_ComposedPlanWaitsToIssue :
    (let c := openCompose svcWork 0 0
     let s := setLane svcWork 0 { Lane.idle with composing := some c, cur := some { stepE with plan := [] } }
     (Instr.stepCompose 0).wf = true ∧ (lane s 0).composing = some c ∧ serving s = true ∧ (ctx? s c.ctx).isSome = true ∧
      (lane s 0).powerWait = none ∧ (buildPlan s c).plan = [itemD] ∧ trimPlan s c (trimFuel [itemD]) [itemD] = [itemD] ∧
      sat (.stepCompose 0) s fun u => match (lane u 0).nextStep with
        | some st => st.plan == [itemD] && st.composeAt == 1000000 && (lane u 0).composing == none
        | none => false) ∧
    (let c := openCompose svcWork 0 0
     sat (.stepCompose 0) (setLane svcWork 0 { Lane.idle with composing := some c }) fun u => (lane u 0).nextStep == none &&
        match (lane u 0).cur with | some st => st.st == .issue && st.deadline == 1500000 | none => false) ∧
    (let c := openCompose svcModel 0 0
     let s := setLane svcModel 0 { Lane.idle with composing := some c }
     (ctx? s c.ctx).isSome = true ∧ (buildPlan s c).plan = [] ∧
      sat (.stepCompose 0) s fun u => (lane u 0).stalled == [0] && (lane u 0).nextStep == none) ∧
    (let c := { openCompose svcWork 0 0 with allow := 0 }
     let s := put [(Reg.PWR_COEF_E 0, 65535), (Reg.PWR_GAIN_GAIN, 1024)] (setSlot (setLane svcWork 0 { Lane.idle with composing := some c }) 0
       (some { slot0 with prog := { prog with work := [(0x3F800000, 0, 0)] } }))
     (buildPlan s c).plan ≠ [] ∧ trimPlan s c (trimFuel (buildPlan s c).plan) (buildPlan s c).plan = [] ∧
      sat (.stepCompose 0) s fun u => (lane u 0).powerWait == some 1000000) ∧
    (let c := openCompose svcWork 0 0
     let s := setLane svcWork 0 { Lane.idle with composing := some c, powerWait := some 975000, cur := some { stepE with plan := [] } }
     (lane s 0).powerWait = some 975000 ∧ 975000 + 25000 ≤ s.qTime ∧ mayCompose s c.ctx = true ∧
      sat (.powerWaitRetry 0) s fun u => match (lane u 0).nextStep with
        | some st => st.plan == [itemD] && st.composeAt == 1000000
        | none => false) ∧
    (let c := openCompose svcWork 0 0
     let s := setCtx (setLane svcWork 0 { Lane.idle with composing := some c, powerWait := some 975000 }) 0 (some { ctx0 with barred := true })
     mayCompose s c.ctx = false ∧
      sat (.powerWaitRetry 0) s fun u => (lane u 0).composing == none && (lane u 0).powerWait == none) := by
  decide +kernel

/-- 1.0 stands at address 0x200 of the partition. -/
def one200 (s : State) : State := { s with dram := [(0x202, 0x80#8), (0x203, 0x3F#8)] }
/-- A plan of one task; bytes across a 4 KiB interleave boundary; a copy of 1.0 to there; an address past the partition. -/
theorem test_TasksRunAndWriteWhatTheyWrite :
    (let st := { stepE with st := .issue, running := [] }
     let s := svcStep st
     (Instr.stepExecute 0 ⟨[task0], []⟩).wf = true ∧ mayExecute s 0 st = true ∧ NoStoreWaits s 0 ∧
      sat (.stepExecute 0 ⟨[task0], []⟩) s fun u => match (lane u 0).cur with
        | some x => x.st == .execute && x.running == [(0, task0, 1000000)] && x.tag == 7
        | none => false) ∧
    (let t := { task0 with ops := [.put 0xFFF [5#8, 9#8]] }
     let st := { stepE with running := [(0, t, 999900)] }
     let s := svcStep st
     (Instr.taskComplete 0 0 0 7 0).wf = true ∧ st.tag = 7 ∧ t.id = 0 ∧ stoppedI (lane s 0) s.qTime = false ∧ waitsFor s 0 (· == .task 0) = false ∧
      st.running.find? (fun e => e.1 == 0) = some (0, t, 999900) ∧ NoStoreWaits s 0 ∧
      (runOps 0 0 ⟨s, cluster s 0, st, false⟩ t.ops).bad = false ∧
      translate s 0 0xFFF = some 0xFFF ∧ translate s 0 0x1000 = some 0x80000000 ∧
      sat (.taskComplete 0 0 0 7 0) s fun u => loadByte u 0xFFF == 5#8 && loadByte u 0x80000000 == 9#8 && loadByte u 0x80000001 == 0#8 &&
        match (lane u 0).cur with | some x => x.running == [] && x.tag == 7 | none => false) ∧
    (let t := { task0 with ops := [.vec .copy (.mem .fp32 0xFFF 0) [.mem .fp32 0x200 0] 1 none] }
     let s := one200 (svcStep { stepE with running := [(0, t, 999900)] })
     isMx .fp32 = false ∧ (translate s 0 0x1002).isSome = true ∧
      sat (.taskComplete 0 0 0 7 0) s fun u => loadByte u 0xFFF == 0#8 && loadByte u 0x80000001 == 0x80#8 &&
        loadByte u 0x80000002 == 0x3F#8) ∧
    (let t := { task0 with ops := [.put (2 ^ 40) [5#8]] }
     let st := { stepE with running := [(0, t, 999900)] }
     let s := svcStep st
     (runOps 0 0 ⟨s, cluster s 0, st, false⟩ t.ops).bad = true ∧ s.fltQueue.length < 16 ∧
      sat (.taskComplete 0 0 0 7 0) s fun u => u.fltQueue.any fun r => r.id == 0x02 && r.time == s.aTime) ∧
    (let s := svcStep { stepE with running := [(0, task0, 999900)] }
     (sat (.taskComplete 0 0 0 6 0) s fun u => u == s) ∧ (sat (.taskComplete 0 0 0 7 1) s fun u => u == s) ∧
      sat (.taskComplete 0 0 79 7 0) s fun u => u == s) := by
  unfold NoStoreWaits; and_intros <;> decide +kernel

theorem test_StepTimeoutsAreRecorded :
    (let s := setLane svcWork 0 { Lane.idle with composing := some { openCompose svcWork 0 0 with since := 950000 } }
     s.fltQueue.length < 16 ∧ serving s = true ∧ composeLate s 0 = true ∧
      sat (.composeTimeout 0) s fun u => u.fltQueue.any fun r => r.id == 0x0F && r.time == s.aTime) ∧
    (let pr : Preempt := ⟨true, 900000, some 950000, 0, false⟩
     let s := setLane svcModel 0 { Lane.idle with cur := some stepE, preempt := some pr }
     (Instr.taskWatchdog 0 0).wf = true ∧ stepE.running.any (fun e => e.1 == 0) = true ∧ 950000 + 50000 ≤ s.qTime ∧
      (sat (.imodeStopTimeout 0 0) s fun u => u.fltQueue.any fun r => r.id == 0x0A) ∧
      sat (.saveWriteTimeout 0) s fun u => u.fltQueue.any fun r => r.id == 0x0A) ∧
    (let s := svcStep { stepE with running := [(0, task0, 900000)] }
     task0.tiled = true ∧ (lane s 0).preempt = none ∧ (lane s 0).restoreAt = none ∧ 900000 + tileTicks s task0 + 25000 ≤ s.cTime ∧
      sat (.taskWatchdog 0 0) s fun u => u.fltQueue.any fun r => r.id == 0x03) := by
  decide +kernel

/-- The program computes one shard, of one token. -/
def svcShard : State := setSlot (svcStep stepE) 0 (some { slot0 with prog := { prog with bounds := [4, 5] } })
theorem test_CandidatesOfTheTagReachTheMerge :
    (let s := svcShard
     (Instr.candidateArrive 0 6 0 []).wf = true ∧ stepE.tag ≠ 6 ∧
      sat (.candidateArrive 0 6 0 []) s fun u => isSet u Reg.SMP_STATUS_LATE_CANDIDATE && u.lanes == s.lanes) ∧
    (let s := svcShard
     let ps : List PosLogits := [⟨5, 0, false, [(4, 0x40000000#32)]⟩]
     (Instr.candidateArrive 0 7 0 ps).wf = true ∧ ps.all (posOk s stepE 0) = true ∧ ps.any (·.draft) = false ∧ 0 ∈ stepE.shardsLeft ∧
      stepE.candWait = [] ∧ stepE.follower = false ∧ stepE.plan.any itemSamples = true ∧ s.qTime < stepE.deadline ∧
      (sat (.candidateArrive 0 7 0 ps) s fun u => match (lane u 0).cur with
        | some x => x.st == .sample && x.sampleAt == 1000000 && x.drawn.map (·.toks) == [[4]]
        | none => false) ∧
      1 ∉ stepE.shardsLeft ∧ sat (.candidateArrive 0 7 1 []) s fun u => u == s) := by
  decide +kernel

/-- The step of request 5 in SAMPLE with token 4 decided. -/
def stepS : Step := { stepE with st := .sample, sampleAt := 999500, running := [], drawn := [⟨5, [4], 0, 0, 1⟩], shardsLeft := [] }
theorem test_CommitAdvancesAndFreesTheGroves :
    (let s := svcStep stepS
     (Instr.stepCommit 0).wf = true ∧ s.qTime < stepS.deadline ∧ serving s = true ∧ partResetting s 0 = false ∧
      reqByHandle s 5 = some (5, reqD) ∧ pastDeadline reqD s.qTime = false ∧
      stepS.drawn.find? (fun d => d.req == 5) = some ⟨5, [4], 0, 0, 1⟩ ∧ (emitTokens reqD [4] []).2.2.1 = false ∧
      ctx? s 0 = some ctx0 ∧ slot? s 0 = some slot0 ∧ slot0.force = false ∧
      ctx0.pair = none ∧ ctx0.unpair = false ∧ stepS.draft = none ∧ stepS.group = none ∧ s.cancels = [] ∧ (lane s 0).nextStep = none ∧
      itemD.seqs = [5] ∧ isLive reqD.st = true ∧
      sat (.stepCommit 0) s fun u => (lane u 0).cur == none && match req? u 5 with
        | some r => r.append == 257 && r.emitted == 2 && r.lastCommit == 1000000
        | none => false) := by
  decide +kernel

theorem test_DeadlineAbandonsTheHolder :
    (let s := svcStep { stepE with deadline := 1000000 }
     (Instr.stepDeadline 0 0).wf = true ∧ serving s = true ∧ partResetting s 0 = false ∧ ctxLocal stepE.ctx = 0 ∧ stepE.follower = false ∧
      sat (.stepDeadline 0 0) s fun u => (lane u 0).cur == none && (lane u 0).acks == [0, 1] && isSet u (Reg.CMP_STATUS_ABANDONED 0) &&
        getF u (Reg.CMP_ABN_PTR_NEXT 0) == 1) ∧
    (let s := setLane (setGroves svcModel 0 2) 0 { Lane.idle with acks := [1] }
     (Instr.groveAbandonAck 0 1).wf = true ∧ (lane s 0).nodeAcks = [] ∧ (lane s 0).cur = none ∧ (lane s 0).nextStep = none ∧ groveList s 0 = [0, 1] ∧
      sat (.groveAbandonAck 0 1) s fun u => (lane u 0).acks == [] && getF u (Reg.GRV_STATUS_STATE 1) == 0) := by
  decide +kernel

/-- Context 1, of class 0, has work while a step of context 0, of class 3, is in EXECUTE. -/
def svcRival : State :=
  put [(Reg.CMP_CTX_CFG_CLASS 0 0, 3), (Reg.CMP_SWITCH_CTL_PREEMPT_EN 0, 1), (Reg.CMP_CTX_CHUNK_CHUNK_LOG2 0 1, 8)]
    (setCtx (setReq (svcStep stepE) 6 (some { reqD with ctx := 1 })) 1 (some ctx0))
/-- A rival of a lower class; a T-mode wait at a tile boundary, and past its 200 µs; the end of a save and of a restore. -/
theorem test_PreemptionSavesAndRestores :
    (let s := svcRival
     (Instr.clusterTileStop 0 0).wf = true ∧ serving s = true ∧ isSet s (Reg.CMP_SWITCH_CTL_PREEMPT_EN 0) = true ∧
      (lane s 0).preempt = none ∧ (lane s 0).restoreAt = none ∧ stepE.group = none ∧ (lane s 0).halted = false ∧
      (lane s 0).pre.length < 3 ∧ (lane s 0).composing = none ∧ (lane s 0).nextStep = none ∧
      chooseRival s 0 (rivals s 0 (classOf s stepE.ctx)) = some 1 ∧
      sat (.preemptRaise 0) s fun u => match (lane u 0).preempt, (lane u 0).composing with
        | some pr, some c => pr.raisedAt == 1000000 && !pr.modeI && c.ctx == 1
        | _, _ => false) ∧
    (let t := { task0 with ops := [.put 0x100 [7#8], .tile, .put 0x101 [8#8]] }
     let st := { stepE with running := [(0, t, 999900)] }
     let pr : Preempt := ⟨false, 900000, none, 0, false⟩
     let s := setLane svcModel 0 { Lane.idle with cur := some st, preempt := some pr }
     let s0 := dropWaits (draw s).2 (· == .task 0)
     let stops := stopsAt true (issuedBytes s 0 0 t) t.ops
     waitOverdue pr s.qTime = false ∧ t.tiled = true ∧ stops = [2] ∧ NoStoreWaits s 0 ∧
      ∀ n ∈ stops, (runOps 0 0 ⟨s0, cluster s0 0, st, false⟩ (t.ops.take n)).bad = false) ∧
    (let s := setLane svcModel 0 { Lane.idle with cur := some { stepE with running := [] }, preempt := some ⟨false, 899999, none, 0, false⟩ }
     899999 + 100000 < s.qTime ∧
      sat (.preemptEscalate 0) s fun u => match (lane u 0).preempt with
        | some q => q.modeI && q.saveAt == some 1000000 && isSet u (Reg.CMP_PREEMPT_STATUS_ESCALATED 0)
        | none => false) ∧
    (let st := { stepE with running := [], stopped := [(0, task0)] }
     let s := setLane svcModel 0 { Lane.idle with cur := some st, preempt := some ⟨true, 900000, some 950000, 0, false⟩ }
     950000 + saveTicks s 0 st true ≤ s.qTime ∧ (stopAll s 0 st).bad = false ∧
      sat (.preemptSaveDone 0) s fun u => match (lane u 0).pre with
        | [x] => x.tag == 7 && x.modeI && x.preAt == 950000 && (lane u 0).preempt == none
        | _ => false) ∧
    (let s := setLane svcModel 0 { Lane.idle with cur := some { stepE with preAt := 900000, modeI := true }, restoreAt := some 990000 }
     990000 + restoreTicks s 0 { stepE with preAt := 900000, modeI := true } ≤ s.qTime ∧
      sat (.restoreDone 0 none) s fun u => match (lane u 0).cur with
        | some x => x.lost == 100000 && (lane u 0).restoreAt == none
        | none => false) := by
  unfold NoStoreWaits; decide +kernel

/-- A step in EXECUTE; a T-mode wait, which turns to I mode; the release of the step that was saved. -/
theorem test_DebugHaltHoldsTheLane :
    (let s := svcStep stepE
     (Instr.debugHalt 0).wf = true ∧ getF s Reg.MGT_STATUS_OWNER ≠ 1 ∧ partValid s 0 = true ∧ serving s = true ∧ stepE.group = none ∧
      sat (.debugHalt 0) s fun u => (lane u 0).halted && match (lane u 0).preempt with
        | some pr => pr.modeI && pr.debug && pr.saveAt == some 1000000
        | none => false) ∧
    (let s := setLane svcModel 0 { Lane.idle with cur := some stepE, preempt := some ⟨false, 990000, none, 0, false⟩ }
     sat (.debugHalt 0) s fun u => match (lane u 0).preempt with
        | some pr => pr.modeI && pr.debug && pr.saveAt == some 1000000
        | none => false) ∧
    (let s := setLane svcModel 0 { Lane.idle with halted := true, pre := [stepE], nextStep := some stepE }
     (lane s 0).halted = true ∧ stepE.preBy = none ∧ (lane s 0).cur = none ∧ (lane s 0).acks = [] ∧
      sat (.debugHaltRelease 0) s fun u => !(lane u 0).halted && (lane u 0).cur == some stepE &&
        (lane u 0).restoreAt == some 1000000 && (lane u 0).nextStep == none) := by
  decide +kernel

/-- Sequence 5 holds its two pages (one per layer would need 256 positions each: 8 pages a layer); it may be parked. -/
def svcPark : State :=
  put [(Reg.CMP_LANE_CTL_PARK_EN 0, 1), (Reg.CMP_PARK_LOW_PARK_LOW 0, 3000), (Reg.MEM_PARK_SLOTS_SLOTS 3, 100)] svcWork
theorem test_ParkingMovesTheSequenceOut :
    (let s := svcPark
     (Instr.parkStart 0).wf = true ∧ serving s = true ∧ partResetting s 0 = false ∧
      isSet s (Reg.CMP_LANE_CTL_PARK_EN 0) = true ∧ reqsIn s 0 (·.unparking) = [] ∧ (reqsIn s 0 (·.parking)).length < 4 ∧
      freePages s 0 < getF s (Reg.CMP_PARK_LOW_PARK_LOW 0) ∧ NoStoreWaits s 0 ∧
      (parkOrder s 0).find? (fun e => slotsFor s e.2.2 e.2.1) = some (140737488355327, 16, 5) ∧
      sat (.parkStart 0) s fun u => match req? u 5 with
        | some r => r.st == .parked && r.parking && r.slots == List.range 16
        | none => false) ∧
    (let r := { reqD with st := .parked, parking := true, slots := [0, 1] }
     let s := setPage (setReq svcModel 5 (some r)) 0 3 ⟨.parking 5 0 0 false, .ctx 0⟩
     (Instr.parkComplete 0 5 true).wf = true ∧ req? s 5 = some r ∧ r.ctx / 32 = 0 ∧ waitsFor s 0 (forReq 5) = false ∧ isLive r.st = true ∧ s.fltQueue.length < 16 ∧
      (sat (.parkComplete 0 5 true) s fun u => (match req? u 5 with
        | some q => !q.parking && q.slots == [0, 1]
        | none => false) && (page u 0 3).use == .free && getF u (Reg.TRC_TEN_COUNT 3 11) == 1) ∧
      sat (.parkComplete 0 5 false) s fun u => u.fltQueue.any fun x => x.id == 0x1D) ∧
    (let r := { reqD with st := .cancelled, parking := true, slots := [0, 1] }
     let s := setPage (setReq svcModel 5 (some r)) 0 3 ⟨.parking 5 0 0 false, .ctx 0⟩
     isLive r.st = false ∧ sat (.parkComplete 0 5 true) s fun u => (page u 0 3).use == .free) ∧
    (let r := { reqD with st := .parked, slots := [0, 1] }
     let s := put [(Reg.CMP_PARK_HIGH_PARK_HIGH 0, 100)] (setReq svcModel 5 (some r))
     unparkOrder s 0 = [(140737488355327, 0, 1000000, 5)] ∧ reqsIn s 0 (·.parking) = [] ∧
      getF s (Reg.CMP_PARK_HIGH_PARK_HIGH 0) + 2 ≤ freePages s 0 ∧
      sat (.unparkStart 0) s fun u => match req? u 5 with | some q => q.unparking && q.slots == [0, 1] | none => false) ∧
    (let r := { reqD with st := .parked, unparking := true, slots := [0, 1] }
     let s := setReq svcModel 5 (some r)
     (Instr.unparkComplete 0 5 true [[1#8]]).wf = true ∧ req? s 5 = some r ∧ waitsFor s 0 (forReq 5) = false ∧ s.fltQueue.length < 16 ∧
      (sat (.unparkComplete 0 5 true [[1#8]]) s fun u => match req? u 5 with
        | some q => q.st == .decode && !q.unparking && q.slots == []
        | none => false) ∧
      sat (.unparkComplete 0 5 false []) s fun u => u.fltQueue.any fun x => x.id == 0x1D) := by
  unfold NoStoreWaits; decide +kernel

/-- The patrol stands at word 0x1002, of a FREE arena page; it reads that word with every kind of ECC, and another. -/
theorem test_ScrubReadsAreTreatedByTheirEcc :
    (let s := { svcModel with scrub := { next := 0x1002, since := 0 } }
     (Instr.scrubRead (2 ^ 36 - 1) ⟨0, 0⟩).wf = true ∧ s.boot.trained = true ∧ (nextPass s).scrub.next = 0x20040 / 32 ∧
      eccAt s 0x1002 = 0 ∧ s.fltQueue.length < 16 ∧
      (sat (.scrubRead 64 ⟨1, 0⟩) s fun u => u == s) ∧
      (sat (.scrubRead 0x20040 ⟨0, 0⟩) s fun u => u.scrub.next == 0x1003) ∧
      (sat (.scrubRead 0x20040 ⟨1, 0⟩) s fun u => getF u (Reg.MEM_ECC_CNT_CORRECTED 0) == 1) ∧
      (sat (.scrubRead 0x20040 ⟨2, 1⟩) s fun u => getF u (Reg.MEM_ECC_CNT_TRANSIENT 0) == 1 && u.fltQueue.any fun r => r.id == 0x05) ∧
      groveOwner s 0 = some 0 ∧ partAddr s 0 0x20040 = some 0x80040 ∧ arenaBase s 0 = 0 ∧
      (page s 0 (0x80040 / 65536)).use = .free ∧ s.retired.length < 1024 ∧
      sat (.scrubRead 0x20040 ⟨2, 2⟩) s fun u => (page u 0 8).use == .retired && u.retired == [0x20040] &&
        u.fltQueue.any fun r => r.id == 0x07) ∧
    (let s := { svcModel with scrub := { next := 0x7F000000 / 32, since := 0 } }
     sat (.scrubRead 0x7F000000 ⟨2, 2⟩) s fun u => u.fltQueue.any fun r => r.id == 0x08) := by
  decide +kernel

/-- The mailbox holds one command of PF0. -/
def cmdOf (op : Nat) (pl : List Byte) : MbxCmd := ⟨false, op, 0, pl.length, pl, false⟩
def withCmd (op : Nat) (pl : List Byte) (s : State) : State := put [(Reg.MGT_MBX_STATUS_BUSY, 1)] { s with mbx := [cmdOf op pl] }
theorem test_CommandsEnterTheMailbox :
    (let s := put [(Reg.MGT_MBX_AREA_WORD 0, 0x0211)] svcModel
     Reaches s Reg.MGT_MBX_CTL ∧ s.mbx = [] ∧ canStart s = true ∧ (areaRequest s).opcode = 0x0211 ∧
      refusalOf s (areaRequest s) = none ∧ sat .mailboxGo s fun u => u.mbx == [areaRequest s] && getF u Reg.MGT_MBX_STATUS_BUSY == 1) ∧
    (let s := put [(Reg.MGT_MBX_AREA_WORD 0, 0x0212)] svcModel
     refusalOf s (areaRequest s) = some 0x02FF ∧ stage s = 6 ∧
      sat .mailboxGo s fun u => u.mbx == [] && getF u (Reg.MGT_MBX_AREA_WORD 2) == 0x02FF && isSet u Reg.MGT_MBX_STATUS_DONE) ∧
    (let s := withCmd 0x0211 [] svcModel
     (s.mbx.any fun x => !x.smbus) = true ∧ sat .mailboxGo s fun u => isSet u Reg.MGT_MBX_STATUS_GO_WHILE_BUSY) ∧
    (let s := put [(Reg.MGT_MBX_STATUS_READY, 0)] svcModel
     canStart s = false ∧ (sat .mailboxGo s fun u => isSet u Reg.MGT_MBX_STATUS_REFUSED_NOT_READY) ∧
      sat (.smbusMctpRequest 0x0713 1 0 []) s fun u => u.out == [.smbusPldm pldmNotReady]) ∧
    (let s := put [(Reg.MGT_MBX_AREA_WORD 0, 0x0D00)] svcModel
     (areaRequest s).opcode = 0x0D00 ∧ sat .mailboxGo s fun u => isSet u Reg.MGT_MBX_STATUS_BAD_OPCODE) ∧
    (Instr.smbusMctpRequest 0x0713 1 0 []).wf = true ∧ smbusSilent svcModel = false ∧ canStart svcModel = true ∧
      refusalOf svcModel ⟨true, 0x0713, 1, 0, [], false⟩ = none ∧
      sat (.smbusMctpRequest 0x0713 1 0 []) svcModel fun u => u.mbx == [⟨true, 0x0713, 1, 0, [], false⟩] := by
  unfold Reaches; decide +kernel

/-- One cost record of model 7 with one entry. -/
def costBytes (model : Nat) : List Byte :=
  leBytes 8 model ++ leBytes 2 1 ++ leBytes 2 0 ++ leBytes 4 5 ++ leBytes 4 10 ++ leBytes 4 20 ++ leBytes 2 30 ++ [8#8, 0#8] ++
    List.replicate 52 0#8
def costTab : List CostRec := (List.range 64).map fun k => costRecOf (costBytes (100 + k))
theorem test_CostTableCommands :
    (let s := withCmd 0x0210 (leBytes 4 1 ++ costBytes 7) svcModel
     Alone s (cmdOf 0x0210 (leBytes 4 1 ++ costBytes 7)) ∧ (costBytes 7).length = 80 ∧ costRecOk (costBytes 7) = true ∧
      sat .loadCostTable s fun u => u.costs.map (·.modelId) == [7] && u.mbx == []) ∧
    (let s := withCmd 0x0210 (leBytes 4 1 ++ List.replicate 80 0#8) svcModel
     (chunks 80 1 (List.replicate 80 0#8)).all costRecOk = false ∧
      sat .loadCostTable s fun u => getF u (Reg.MGT_MBX_AREA_WORD 2) == 0x0220) ∧
    (let s := { withCmd 0x0210 (leBytes 4 1 ++ costBytes 7) svcModel with costs := costTab }
     64 < (([costBytes 7].map costRecOf).foldl putCost s.costs).length ∧
      sat .loadCostTable s fun u => getF u (Reg.MGT_MBX_AREA_WORD 2) == 0x0221) ∧
    (let s := { withCmd 0x0211 [] svcModel with costs := costTab }
     Alone s (cmdOf 0x0211 []) ∧ sat .clearCostTable s fun u => u.costs == [] && getF u Reg.MGT_MBX_STATUS_BUSY == 0) := by
  unfold Alone; decide +kernel

/-- A package header: 65,536 weight bytes, a 4,096-byte program section; its 4,096 bytes are shown as declared, CRC included. -/
def hdrFields : List Byte :=
  leBytes 4 0x4C444D52 ++ leBytes 4 1 ++ leBytes 8 9 ++ leBytes 8 1 ++ leBytes 8 65536 ++ leBytes 8 65536 ++ leBytes 4 0 ++
    leBytes 4 64 ++ leBytes 4 1024 ++ leBytes 2 2 ++ leBytes 2 1 ++ leBytes 4 2048 ++ [5#8, 0#8, 1#8] ++ [1#8, 0#8, 0#8, 0#8, 0#8] ++
    leBytes 4 1000 ++ leBytes 2 512 ++ leBytes 2 16 ++ [8#8, 0#8, 0#8, 0#8] ++ leBytes 8 4096 ++ List.replicate 20 0#8
def hdrZeros : List Byte := List.replicate 3984 0#8
def hdrFront : List Byte := hdrFields ++ hdrZeros
def hdrCrc : List Byte := leBytes 4 (crc32c hdrFront).toNat
def hdrAll : List Byte := hdrFront ++ hdrCrc
def loadPl : List Byte := [0#8, 0#8, 0#8, 0#8, 0#8, 0#8, 0#8, 0#8] ++ leBytes 8 0x10000 ++ leBytes 8 69632
def svcLoad : State := put [(Reg.MEM_PART_SAVE_SAVE_64K 0, 2000)] (withCmd 0x0510 loadPl svcModel)
theorem test_hdrZeros_length : hdrZeros.length = 3984 := List.length_replicate
theorem test_hdrFields_length : hdrFields.length = 108 := by decide +kernel
theorem test_hdrFront_length : hdrFront.length = 4092 := by
  rw [hdrFront, List.length_append, test_hdrFields_length, test_hdrZeros_length]
theorem test_hdrCrc_length : hdrCrc.length = 4 := rfl
theorem test_hdrAll_length : hdrAll.length = 4096 := by
  rw [hdrAll, List.length_append, test_hdrFront_length, test_hdrCrc_length]
theorem test_leNat_zeros (n : Nat) : leNat (List.replicate n 0#8) = 0 := by
  induction n with
  | zero => rfl
  | succ n ih => simp [List.replicate_succ, leNat, ih]
theorem test_leNat_leBytes (n v : Nat) : leNat (leBytes n v) = v % 256 ^ n := by
  induction n generalizing v with
  | zero => simp [leBytes, leNat, Nat.mod_one]
  | succ n ih => simp [leBytes, leNat, ih, Nat.pow_succ', Nat.mod_mul]
/-- A field within the first 108 bytes. -/
theorem test_leAt_fields (o n : Nat) (h : o + n ≤ 108) : leAt hdrAll o n = leAt hdrFields o n := by
  have hf := test_hdrFields_length
  have hd : hdrAll.drop o = hdrFields.drop o ++ (hdrZeros ++ hdrCrc) := by
    rw [hdrAll, hdrFront, List.append_assoc, List.drop_append_of_le_length (by omega)]
  unfold leAt
  rw [hd, List.take_append_of_le_length (by rw [List.length_drop]; omega)]
theorem test_leAt_crc : leAt hdrAll 4092 4 = (crc32c (hdrAll.take 4092)).toNat := by
  have h1 : hdrAll.take 4092 = hdrFront := by
    rw [hdrAll, ← test_hdrFront_length]; exact List.take_left
  have h2 : hdrAll.drop 4092 = hdrCrc := by
    rw [hdrAll, ← test_hdrFront_length]; exact List.drop_left
  rw [h1, leAt, h2, List.take_of_length_le (Nat.le_of_eq test_hdrCrc_length), hdrCrc, test_leNat_leBytes]
  exact Nat.mod_eq_of_lt (crc32c hdrFront).isLt
theorem test_leAt_zeros : leAt hdrAll 108 3984 = 0 := by
  have h : hdrAll.drop 108 = hdrZeros ++ hdrCrc := by
    rw [hdrAll, hdrFront, List.append_assoc, ← test_hdrFields_length]; exact List.drop_left
  rw [leAt, h, ← test_hdrZeros_length, List.take_left, hdrZeros, test_leNat_zeros]
theorem test_pkgOfHeader : pkgOfHeader hdrAll = pkgOfHeader hdrFields := by
  unfold pkgOfHeader
  simp only [test_leAt_fields 8 8 (by decide), test_leAt_fields 16 8 (by decide), test_leAt_fields 24 8 (by decide),
    test_leAt_fields 32 8 (by decide), test_leAt_fields 40 4 (by decide), test_leAt_fields 44 4 (by decide),
    test_leAt_fields 48 4 (by decide), test_leAt_fields 52 2 (by decide), test_leAt_fields 54 2 (by decide),
    test_leAt_fields 56 4 (by decide), test_leAt_fields 60 1 (by decide), test_leAt_fields 61 1 (by decide),
    test_leAt_fields 62 1 (by decide), test_leAt_fields 63 1 (by decide), test_leAt_fields 64 1 (by decide),
    test_leAt_fields 68 4 (by decide), test_leAt_fields 72 2 (by decide), test_leAt_fields 74 2 (by decide),
    test_leAt_fields 76 1 (by decide), test_leAt_fields 77 1 (by decide), test_leAt_fields 80 8 (by decide),
    test_leAt_fields 104 4 (by decide)]
theorem test_headerOk : headerOk hdrAll 69632 = true := by
  have hk := test_pkgOfHeader
  unfold headerOk
  rw [hk]
  simp only [test_hdrAll_length, test_leAt_crc, pkgUnnamed, List.all_cons, List.all_nil, test_leAt_zeros]
  rw [test_leAt_fields 0 4 (by decide), test_leAt_fields 4 2 (by decide), test_leAt_fields 61 1 (by decide),
    test_leAt_fields 6 2 (by decide), test_leAt_fields 65 3 (by decide), test_leAt_fields 78 2 (by decide),
    test_leAt_fields 88 16 (by decide)]
  simp only [BEq.rfl, Bool.and_true, Bool.true_and]
  decide +kernel
theorem test_AcceptedLoadsBegin :
    (Instr.loadModel (some (hdrAll, prog))).wf = true ∧ Alone svcLoad (cmdOf 0x0510 loadPl) ∧ leAt loadPl 0 1 = 0 ∧
      partValid svcLoad 0 = true ∧ partState svcLoad 0 = 1 ∧ leAt loadPl 1 1 = 0 ∧ leAt loadPl 8 8 % 4096 = 0 ∧
      leAt loadPl 8 8 + leAt loadPl 16 8 ≤ 2 ^ 57 ∧ headerOk hdrAll (leAt loadPl 16 8) = true ∧
      programOk (pkgOfHeader hdrFields) prog (grovesOf svcLoad 0) = true ∧ pkgOfHeader hdrAll = pkgOfHeader hdrFields ∧
      (pkgOfHeader hdrFields).groupPart = false ∧
      (slotsOf svcLoad 0).any (fun m => isSet svcLoad (Reg.MDL_SLOT_GROUP m)) = false ∧
      (List.range 32).find? (fun m => (slot? svcLoad m).isNone) = some 1 ∧ freeLocal svcLoad 0 = some 1 ∧
      fitRule (pkgOfHeader hdrFields) false (freePages svcLoad 0) = some (0, 64, false) ∧
      findSave svcLoad 0 (saveArea (grovesOf svcLoad 0) prog.liveSram) = some 1 := by
  unfold Alone
  refine ⟨?_, by decide +kernel, by decide +kernel, by decide +kernel, by decide +kernel, by decide +kernel, by decide +kernel,
    by decide +kernel, test_headerOk, by decide +kernel, test_pkgOfHeader, by decide +kernel, by decide +kernel, by decide +kernel,
    by decide +kernel, by decide +kernel, by decide +kernel⟩
  simp [Instr.wf]

/-- Slot 0 is LOADING with its first context's number kept. -/
def svcLoading : State :=
  put [(Reg.MDL_SLOT_HANDLE 0, 0x20), (Reg.MDL_SLOT_STATE 0, 1)] (setSlot svcPart 0 (some { slot0 with pkg := { pkg with bodyCrc := 77 } }))
theorem test_TransfersEndInReadyOrGo :
    (Instr.modelTransferDone 0 77#32 []).wf = true ∧ getF svcLoading (Reg.MDL_SLOT_STATE 0) = 1 ∧ serving svcLoading = true ∧
      canDma svcLoading 0 = true ∧ waitsFor svcLoading 0 (· == .load 0) = false ∧ svcLoading.fltQueue.length < 16 ∧
      (sat (.modelTransferDone 0 77#32 []) svcLoading fun u => getF u (Reg.MDL_SLOT_STATE 0) == 3 &&
        isSet u Reg.MDL_STATUS_LOAD_DONE && match ctx? u 0 with | some k => k.slot == 0 && k.first | none => false) ∧
      (sat (.modelTransferDone 0 78#32 []) svcLoading fun u => slot? u 0 == none &&
        getF u (Reg.MDL_SLOT_LOAD_LOAD_CODE 0) == 0x050C && u.fltQueue.any fun r => r.id == 0x1E) ∧
      sat (.modelTransferFailed 0) svcLoading fun u => slot? u 0 == none && getF u (Reg.MDL_SLOT_LOAD_LOAD_CODE 0) == 0x050B &&
        isSet u Reg.MDL_STATUS_LOAD_FAILED := by
  decide +kernel

theorem test_EvictionsReleaseTheSlot :
    (let s := withCmd 0x0512 [0x20#8, 0#8, 0#8] svcModel
     Alone s (cmdOf 0x0512 [0x20#8, 0#8, 0#8]) ∧ slotByHandle s 0x20 = some (0, slot0) ∧ groupFormed s 0 = false ∧
      group? s 0 = none ∧ evictRefusal s 0 false = none ∧ getF s (Reg.MDL_SLOT_STATE 0) = 3 ∧ slotQuiet s 0 = true ∧
      slotIdle s 0 = true ∧ sat .evictModel s fun u => slot? u 0 == none && isSet u Reg.MDL_STATUS_EVICTED &&
        getF u (Reg.MGT_MBX_AREA_WORD 2) == 0) ∧
    (let s := put [(Reg.MDL_SLOT_LIVE_LIVE 0, 1)] (withCmd 0x0512 [0x20#8, 0#8, 0#8] svcModel)
     slotQuiet s 0 = false ∧ sat .evictModel s fun u => getF u (Reg.MDL_SLOT_STATE 0) == 4 &&
        getF u (Reg.MGT_MBX_AREA_WORD 2) == 0x050A) ∧
    (let s := put [(Reg.MDL_SLOT_PINNED 0, 1)] (withCmd 0x0512 [0x20#8, 0#8, 1#8] svcModel)
     evictRefusal s 0 true = none ∧ peerSource s 0 = false ∧ slotIdle s 0 = true ∧
      sat .evictModelForce s fun u => slot? u 0 == none) ∧
    (let s := put [(Reg.MDL_SLOT_STATE 0, 4)] svcModel
     (Instr.modelDrainEvict 31).wf = true ∧ serving s = true ∧ slotQuiet s 0 = true ∧ slotIdle s 0 = true ∧
      sat (.modelDrainEvict 0) s fun u => slot? u 0 == none && isSet u Reg.MDL_STATUS_EVICTED) := by
  unfold Alone; decide +kernel

/-- A second model, READY in slot 1 with context 1. -/
def svcTwo : State :=
  put [(Reg.MDL_SLOT_HANDLE 1, 0x21), (Reg.MDL_SLOT_STATE 1, 3), (Reg.MDL_CTX_SVC_SVC_MASK 1, 15)]
    (setCtx (setSlot svcModel 1 (some slot0)) 1 (some { ctx0 with slot := 1, saveBase := 4 }))
def addPl : List Byte := [0x20#8, 0#8, 2#8, 1#8] ++ leBytes 4 2000 ++ leBytes 2 256 ++ leBytes 2 8 ++ [9#8]
theorem test_ContextsPinsAndPairs :
    (let s := put [(Reg.MEM_PART_SAVE_SAVE_64K 0, 2000)] (withCmd 0x0511 addPl svcModel)
     Alone s (cmdOf 0x0511 addPl) ∧ slotByHandle s 0x20 = some (0, slot0) ∧ getF s (Reg.MDL_SLOT_STATE 0) = 3 ∧
      ctxParamsBad s 0 2 ⟨1, 2000, 256, 8, 9⟩ = false ∧ freeLocal s 0 = some 1 ∧ aPages slot0.pkg ≤ freePages s 0 ∧
      findSave s 0 (saveArea (grovesOf s 0) slot0.prog.liveSram) = some 1 ∧
      sat .addContext s fun u => getF u (Reg.MDL_CTX_SVC_SVC_MASK 1) == 2 && getF u (Reg.MGT_MBX_AREA_WORD 2) == 0 &&
        match ctx? u 1 with | some k => k.slot == 0 && !k.first && k.saveBase == 1 | none => false) ∧
    (let s := withCmd 0x0513 [0x20#8, 0#8, 1#8] svcModel
     isFollower s 0 = false ∧ sat .pinModel s fun u => isSet u (Reg.MDL_SLOT_PINNED 0)) ∧
    (let s := put [(Reg.MDL_SLOT_PINNED 0, 1)] (withCmd 0x0513 [0x20#8, 0#8, 0#8] svcModel)
     sat .unpinModel s fun u => !isSet u (Reg.MDL_SLOT_PINNED 0)) ∧
    (let b : List Byte := [0x20#8, 0#8, 0#8, 0#8, 0x21#8, 0#8]
     let s := withCmd 0x0514 b svcTwo
     Alone s (cmdOf 0x0514 b) ∧ slotByHandle s 0x21 = some (1, slot0) ∧ pairTarget s b 0 = some (0, ctx0) ∧ slotCtxs s 1 = [1] ∧
      pairOk s 0 slot0 ctx0 0 1 slot0 = true ∧
      sat .pairDraft s fun u => (ctx? u 0).map (·.pair) == some (some 1) && (ctx? u 1).map (·.pair) == some (some 0) &&
        isSet u (Reg.CMP_CTX_CFG_DRAFT 0 1)) ∧
    (let b : List Byte := [0x20#8, 0#8, 0#8, 0#8, 0#8, 0#8]
     let tc := { ctx0 with pair := some 1 }
     let s := put [(Reg.CMP_CTX_CFG_DRAFT 0 1, 1)] (withCmd 0x0514 b
       (setCtx (setCtx svcTwo 0 (some tc)) 1 (some { ctx0 with slot := 1, pair := some 0 })))
     pairTarget s b 0 = some (0, tc) ∧ isDraft s 0 = false ∧ ctxPreempted s 0 = false ∧ ctxBusy s 0 = false ∧
      sat .unpairDraft s fun u => (ctx? u 0).map (·.pair) == some none && getF u (Reg.MGT_MBX_AREA_WORD 2) == 0) := by
  unfold Alone; decide +kernel

theorem test_PartitionsDrainAndResume :
    (let s := withCmd 0x0610 [0#8, 1#8] svcReq
     Alone s (cmdOf 0x0610 [0#8, 1#8]) ∧ partValid s 0 = true ∧ partState s 0 = 1 ∧ partOf s 3 = some 0 ∧
      (tenant s 3).hold = none ∧ req? s 5 = some req5 ∧
      sat .drainPartition s fun u => partState u 0 == 2 && !isSet u (Reg.ADM_TEN_CTL_OPEN 3) && (tenant u 3).hold == some true &&
        match req? u 5 with | some r => r.st == .cancelled | none => false) ∧
    (let s := put [(Reg.PRT_PART_STATE_STATE 0, 2)] svcModel
     (Instr.drainDone 15).wf = true ∧ partIdle s 0 = true ∧
      sat (.drainDone 0) s fun u => partState u 0 == 3 && isSet u Reg.PRT_STATUS_DRAIN_DONE) ∧
    (let s := put [(Reg.PRT_PART_STATE_STATE 0, 3), (Reg.ADM_TEN_CTL_OPEN 3, 0)]
       (setTenant (withCmd 0x0611 [0#8] svcModel) 3 { Tenant.idle with hold := some true })
     Alone s (cmdOf 0x0611 [0#8]) ∧ (tenant s 3).hold = some true ∧
      sat .resumePartition s fun u => partState u 0 == 1 && isSet u (Reg.ADM_TEN_CTL_OPEN 3) && (tenant u 3).hold == none) := by
  unfold Alone; decide +kernel

/-- Two partitions: 0 of groves 0 and 1 serves, 1 of groves 2 and 3 is DRAINED. -/
def svcParts : State :=
  put [(Reg.PRT_PART_CFG_VALID 1, 1), (Reg.PRT_PART_CFG_FIRST_GROVE 1, 2), (Reg.PRT_PART_CFG_GROVES 1, 2),
    (Reg.PRT_PART_STATE_STATE 1, 3), (Reg.GRV_STATUS_ACTIVE 2, 80), (Reg.GRV_STATUS_ACTIVE 3, 80)] svcModel
def reconfPl : List Byte := [2#8, 0#8, 2#8] ++ [1#8, 2#8, 1#8, 0#8, 0#8, 1#8, 0#8, 0#8] ++ [15#8, 3#8, 1#8, 0#8, 0#8, 1#8, 0#8, 0#8]
theorem test_ReconfigureAndMigrate :
    (let s := withCmd 0x0612 reconfPl svcParts
     Alone s (cmdOf 0x0612 reconfPl) ∧ sharedMode s = false ∧ leAt reconfPl 0 2 = 2 ∧ partValid s 1 = true ∧ partState s 1 = 3 ∧
      changeBusy s = false ∧ layoutOk s 2 ((chunks 8 16 (reconfPl.drop 3)).map partEntryOf) = true ∧
      sat .reconfigure s fun u => partValid u 15 && partState u 15 == 3 && firstGrove u 15 == 3 && grovesOf u 1 == 1 &&
        isSet u Reg.PRT_STATUS_RECONF_DONE && getF u (Reg.MGT_MBX_AREA_WORD 2) == 0) ∧
    (let s := withCmd 0x0612 ([2#8, 0#8, 1#8] ++ [15#8, 2#8, 2#8, 0#8, 0#8, 1#8, 0#8, 0#8]) svcParts
     layoutOk s 2 ((chunks 8 16 [15#8, 2#8, 2#8, 0#8, 0#8, 1#8, 0#8, 0#8]).map partEntryOf) = true ∧
      sat .reconfigure s fun u => !partValid u 1 && partValid u 15) ∧
    (let s := withCmd 0x0613 [3#8, 1#8, 0#8] svcParts
     Alone s (cmdOf 0x0613 [3#8, 1#8, 0#8]) ∧ isSet s (Reg.PRT_TEN_MIGRATING 3) = false ∧
      sat .migrateTenant s fun u => isSet u (Reg.PRT_TEN_MIGRATING 3) && (tenant u 3).migrateTo == 1 && !isSet u (Reg.ADM_TEN_CTL_OPEN 3)) ∧
    (let s := put [(Reg.PRT_TEN_MIGRATING 3, 1)] (setTenant svcParts 3 ⟨some true, 1⟩)
     (Instr.migrateDone 63).wf = true ∧ (liveReqs s fun r => r.tenant == 3) = [] ∧ getF s (Reg.ADM_TEN_KVUSE_KVUSE 3) = 0 ∧
      sat (.migrateDone 3) s fun u => !isSet u (Reg.PRT_TEN_MIGRATING 3) && partOf u 3 == some 1) ∧
    (let s := put [(Reg.PRT_TEN_MIGRATING 3, 1)] (setTenant svcParts 3 ⟨some true, 255⟩)
     sat (.migrateDone 3) s fun u => partOf u 3 == none) := by
  unfold Alone; decide +kernel

def recs (src : FaultSrc) (id : Nat) : Bool :=
  (Instr.faultReport src).wf && sat (.faultReport src) (svcStep stepE) fun u => u.fltQueue.any fun r => r.id == id && r.time == 1000000
def counts (src : FaultSrc) : Bool :=
  (Instr.faultReport src).wf && sat (.faultReport src) (svcStep stepE) fun u => getF u (Reg.FLT_CNT_COUNT 0) == 1 && u.fltQueue == []
/-- A clean line of grove 0 in way 3 of set 0, a dirty one of grove 9 in way 1 of set 5. -/
def svcLines : State := { svcStep stepE with l2 := [(0, some ⟨3, false⟩), (9 * 2 ^ 25 + 5, some ⟨1, true⟩)] }
theorem test_FaultReportsAreClassified :
    (svcStep stepE).boot.por = false ∧ (svcStep stepE).fltQueue.length < 16 ∧
      recs (.clusterEcc 0 3 false) 1 = true ∧ recs (.clusterEcc 9 3 false) 1 = true ∧ recs (.translator 0) 2 = true ∧
      recs (.dram 64 ⟨2, 1⟩) 5 = true ∧ recs (.dram 0x7F000000 ⟨2, 2⟩) 8 = true ∧ recs (.dram (2 ^ 33) ⟨2, 2⟩) 7 = true ∧
      groveOwner (svcStep stepE) 2 = none ∧ recs (.planBuffer 0) 9 = true ∧ recs (.planBuffer 15) 9 = true ∧
      recs (.crossing 3 0 false) 0x0B = true ∧ recs (.crossing 8 31 false) 0x0B = true ∧ recs (.crossing 10 11 false) 0x0C = true ∧
      recs (.crossing 11 0 false) 0x0C = true ∧ recs (.crossing 13 0 false) 0x0C = true ∧ recs (.crossing 18 0 false) 0x0D = true ∧
      recs (.crossing 19 0 false) 0x0D = true ∧
      recs (.lane 0) 0x0F = true ∧ recs (.partState 15 false) 0x10 = true ∧ recs (.requestEngine true false) 0x11 = true ∧
      recs (.sampler false) 0x11 = true ∧
      (lineIn svcLines 0 0 3 = some (0, ⟨3, false⟩) ∧ sat (.faultReport (.l2 0 0 3)) svcLines fun u => u.fltQueue.any fun r => r.id == 0x12) ∧
      (lineIn svcLines 9 5 1 = some (9 * 2 ^ 25 + 5, ⟨1, true⟩) ∧
        sat (.faultReport (.l2 9 5 1)) svcLines fun u => u.fltQueue.any fun r => r.id == 0x13) ∧
      (lineIn svcLines 9 5 0 = none ∧ sat (.faultReport (.l2 9 5 0)) svcLines fun u => u == svcLines) ∧
      recs (.imageStore true) 0x20 = true ∧
      (Instr.faultReport (.collector false)).wf = true ∧
      counts (.clusterEcc 0 0 true) = true ∧ counts (.crossing 24 0 true) = true ∧ counts (.partState 0 true) = true ∧
      counts (.requestEngine false true) = true ∧ counts (.sampler true) = true ∧ counts (.collector true) = true ∧
      counts (.dram 64 ⟨1, 0⟩) = true ∧ (sat (.faultReport (.dram 64 ⟨0, 0⟩)) svcModel fun u => u == svcModel) ∧
      (Instr.faultReport (.traceFifo 0)).wf = true ∧ (Instr.faultReport (.assay 0 1)).wf = true ∧
      sat (.faultReport (.assay 0 1)) (svcStep { stepE with watch := [(1, 9), (2, 9)] }) fun u =>
        match (lane u 0).cur with | some st => st.watch == [(2, 9)] && u.fltQueue == [] | none => false := by
  and_intros <;> decide +kernel

def svcLate : State := { svcModel with aTime := 60000000 }
theorem test_CausesLocksAndWatchdog :
    (let s := put [(Reg.FLT_FAULTN_CAUSE, 0x61), (Reg.FLT_STATE_CHIP_FAULTED, 1)] svcModel
     Reaches s Reg.FLT_FAULTN ∧ causeHeld s 0 = true ∧ causeHeld s 5 = false ∧
      sat (.faultnClear 0x21#32) s fun u => getF u Reg.FLT_FAULTN_CAUSE == 0x41) ∧
    ((Instr.pllLossOfLock 7).wf = true ∧ (getF svcModel Reg.HST_CLK_STATUS_LOCK).testBit 7 = true ∧ svcModel.fltQueue.length < 16 ∧
      (sat (.pllLossOfLock 7) svcModel fun u => getF u Reg.HST_CLK_STATUS_LOCK == 0x17F && chipFaulted u &&
        u.fltQueue.any fun r => r.id == 0x14) ∧
      sat (.pllLossOfLock 6) svcModel fun u => !chipFaulted u && u.fltQueue.any fun r => r.id == 0x15) ∧
    (sat .watchdogKick svcLate fun u => u.hwd.kickAt == 60000000) ∧
    (getF svcLate Reg.HST_STATUS_HWD_STATE = 0 ∧ svcLate.hwd.handoff = none ∧ svcLate.hwd.kickAt + 50000000 ≤ svcLate.aTime ∧
      svcLate.hwd.lastExpiry = none ∧
      (sat .watchdogExpiry svcLate fun u => getF u Reg.HST_STATUS_HWD_STATE == 1 && getF u Reg.MGT_MBX_STATUS_READY == 0) ∧
      sat .watchdogExpiry { svcLate with hwd := { svcLate.hwd with lastExpiry := some 5 } } fun u =>
        getF u Reg.HST_STATUS_HWD_STATE == 2 && u.fltQueue.any fun r => r.id == 0x18) := by
  unfold Reaches; decide +kernel

theorem test_ResetsOfContextPartitionAndTenant :
    (let s := withCmd 0x0711 [0#8, 0#8] (setReq svcModel 5 (some reqD))
     Alone s (cmdOf 0x0711 [0#8, 0#8]) ∧ ctx? s 0 = some ctx0 ∧ isDraft s 0 = false ∧ resetBusy s 0 = false ∧ serving s = true ∧
      groupFormed s ctx0.slot = false ∧ req? s 5 = some reqD ∧ isAdmitted reqD.st = true ∧
      sat .teardownContext s fun u => match req? u 5 with | some r => r.st == .failed && u.mbx == [] | none => false) ∧
    (let s := withCmd 0x0712 [0#8] (setReq svcModel 5 (some reqD))
     Alone s (cmdOf 0x0712 [0#8]) ∧ sharedMode s = false ∧ partValid s 0 = true ∧
      sat .resetPartition s fun u => partResetting u 0 && partState u 0 == 4 && u.mbx.all (·.started)) ∧
    (let s := withCmd 0x0710 [3#8] svcReq
     Alone s (cmdOf 0x0710 [3#8]) ∧ s.boot.warm = none ∧
      sat .resetTenant s fun u => u.reqs == [] && u.cohorts == [] && u.mbx == []) ∧
    (let s := put [(Reg.FLT_STATE_PARTS_RESETTING, 1), (Reg.PRT_PART_STATE_STATE 0, 4)] (setPart svcModel 0 ⟨2, 0, []⟩)
     (Instr.partitionResetComplete 15).wf = true ∧ partResetting s 0 = true ∧ chipFaulted s = false ∧
      sat (.partitionResetComplete 0) s fun u => !partResetting u 0 && partState u 0 == 2) := by
  unfold Alone; decide +kernel

theorem test_FaultLogIsReadAndCleared :
    (let s := { withCmd 0x0714 [0#8, 0#8] svcModel with fltQueue := [⟨5, 0x14, 4, 255, 255, 7⟩, ⟨6, 0x15, 1, 255, 255, 6⟩] }
     Alone s (cmdOf 0x0714 [0#8, 0#8]) ∧
      sat .readFaultLog s fun u => u.fltLog.length == 2 && u.fltQueue == [] && getF u (Reg.MGT_MBX_AREA_WORD 3) == 48 &&
        getF u (Reg.MGT_MBX_AREA_WORD 16) == 0x00020002 && getF u (Reg.MGT_MBX_AREA_WORD 20) == 6) ∧
    (let s := { withCmd 0x0715 [] svcModel with fltLog := [⟨5, 0x14, 4, 255, 255, 7⟩], fltLost := 3 }
     Alone s (cmdOf 0x0715 []) ∧ sat .clearFaultLog s fun u => u.fltLog == [] && u.fltLost == 0 && u.mbx == []) := by
  unfold Alone; decide +kernel

def portIn (st : Nat) : State := put [(Reg.CZL_PORT_STATE 11, st), (Reg.CZL_NODE_NODE_ID, 3)] svcModel
theorem test_PortsTrainAndRetrain :
    ((Instr.linkTrainStageDone 11 0x77777777 0xFF).wf = true ∧
      (sat (.linkTrainStageDone 11 0 0) (portIn 1) fun u => portState u 11 == 2) ∧
      (sat (.linkTrainStageDone 11 0x177777777 0) (portIn 2) fun u => portState u 11 == 3 &&
        getF u (Reg.CZL_PORT_MARGIN_LANES 11) == 0x77777777) ∧
      (sat (.linkTrainStageDone 11 0 0xFF) (portIn 3) fun u => portState u 11 == 4 && !(portOf u 11).narrow) ∧
      (sat (.linkTrainStageDone 11 0 0) (put [(Reg.CZL_PORT_PEER_VALID 11, 1)] (portIn 4)) fun u => portState u 11 == 5) ∧
      (portOf (portIn 1) 11).since + stageLimit 1 ≤ (portIn 1).lTime ∧
      (sat (.linkTrainTimeout 11 0) { portIn 2 with lTime := 6000000 } fun u => portState u 11 == 3) ∧
      (sat (.linkTrainTimeout 11 0) (portIn 1) fun u => portState u 11 == 0) ∧
      (sat (.linkTrainTimeout 11 0) (portIn 7) fun u => portState u 11 == 0) ∧
      betterHalf (portIn 7) 11 0x0F = some 0 ∧ betterHalf (portIn 7) 11 0x7E = none ∧
      (portOf (portIn 7) 11).exch = false ∧
      (sat (.linkTrainStageDone 11 0 0x0F) (portIn 7) fun u => portState u 11 == 7 && (portOf u 11).exch && (portOf u 11).narrow) ∧
      (sat (.linkDegradeDone 11 0x0F) (put [(Reg.CZL_PORT_PEER_VALID 11, 1)] (portIn 7)) fun u => portState u 11 == 6) ∧
      (sat (.linkDegradeDone 11 0x0F) (portIn 7) fun u => portState u 11 == 7) ∧
      (sat (.linkDegradeDone 11 0) (put [(Reg.CZL_PORT_PEER_VALID 11, 1)]
        (setPort (portIn 7) 11 { Port.idle with exch := true, narrow := true })) fun u => portState u 11 == 6) ∧
      betterHalf (portIn 3) 11 0x0F = some 0 ∧ (sat (.linkTrainStageDone 11 0 0x0F) (portIn 3) fun u => portState u 11 == 4) ∧
      sat (.linkDegradeDone 11 0x7E) (portIn 7) fun u => portState u 11 == 0) ∧
    ((Instr.trainExch 11 63 11 8 0).wf = true ∧ myNode (portIn 4) = 3 ∧
      (sat (.trainExch 11 63 11 8 0) (portIn 4) fun u => getF u (Reg.CZL_PORT_PEER_NODE 11) == 63 &&
        getF u (Reg.CZL_PORT_PEER_PORT 11) == 11 && isSet u (Reg.CZL_PORT_PEER_VALID 11)) ∧
      sat (.trainExch 11 3 0 8 0) (portIn 4) fun u => portState u 11 == 0 && isSet u Reg.CZL_STATUS_NODE_CONFLICT) ∧
    (let s := withCmd 0x0C11 [11#8] (portIn 5)
     Alone s (cmdOf 0x0C11 [11#8]) ∧ isSet s (Reg.CZL_PORT_CTL_DISABLE 11) = false ∧ portTraining s 11 = false ∧
      sat .retrainPort s fun u => portState u 11 == 1 && u.mbx.all (·.started)) := by
  unfold Alone; decide +kernel

/-- A HEARTBEAT flit for node 3 with LSEQ 65,535. -/
def flit0 : Flit := ⟨3, 0, true, true, 1, 3, 5, 77, 0, [9#8]⟩
def portRx : State := setPort (portIn 5) 11 { Port.idle with rxSeq := 65535, replay := [(4, flit0), (5, flit0)] }
/-- A frame whose last four bytes are the CRC of the rest passes the check. -/
theorem test_crc_passes (b : List Byte) (h : b.length = 252) :
    leAt (b ++ leBytes 4 (crc32c b).toNat) 252 4 = (crc32c ((b ++ leBytes 4 (crc32c b).toNat).take 252)).toNat := by
  have h1 : (b ++ leBytes 4 (crc32c b).toNat).take 252 = b := by rw [← h]; exact List.take_left
  have h2 : (b ++ leBytes 4 (crc32c b).toNat).drop 252 = leBytes 4 (crc32c b).toNat := by rw [← h]; exact List.drop_left
  rw [h1, leAt, h2, List.take_of_length_le (show (leBytes 4 (crc32c b).toNat).length ≤ 4 from Nat.le_refl 4), test_leNat_leBytes]
  exact Nat.mod_eq_of_lt (crc32c b).isLt
theorem test_readFlit (k : Nat) (hk : k = 65535 ∨ k = 3) : readFlit (flitBytes k flit0) = some (k, flit0) := by
  have hl : (flitBody k flit0).length = 252 := by rcases hk with rfl | rfl <;> decide +kernel
  have hb : (flitBytes k flit0).length = 256 := by
    show (flitBody k flit0 ++ leBytes 4 _).length = 256
    rw [List.length_append, hl]; rfl
  have hc := test_crc_passes _ hl
  unfold readFlit
  rw [if_pos ⟨hb, hc⟩]
  rcases hk with rfl | rfl <;> decide +kernel
/-- A frame of 256 bytes 1, whose CRC is not 0x01010101. -/
def flitBad : List Byte := List.replicate 256 1#8
theorem test_readFlit_bad : readFlit flitBad = none := by
  have e : flitBad.take 252 = List.replicate 63 1#8 ++ (List.replicate 63 1#8 ++ (List.replicate 63 1#8 ++ List.replicate 63 1#8)) := by
    decide +kernel
  have h1 : (List.replicate 63 1#8).foldl crc32Byte 0xFFFFFFFF#32 = 0x335DD806#32 := by decide +kernel
  have h2 : (List.replicate 63 1#8).foldl crc32Byte 0x335DD806#32 = 0x3A741CF2#32 := by decide +kernel
  have h3 : (List.replicate 63 1#8).foldl crc32Byte 0x3A741CF2#32 = 0x48591D70#32 := by decide +kernel
  have h4 : (List.replicate 63 1#8).foldl crc32Byte 0x48591D70#32 = 0xBE8AFECC#32 := by decide +kernel
  have hc : crc32c (flitBad.take 252) = 0x41750133#32 := by
    rw [e, crc32c, List.foldl_append, List.foldl_append, List.foldl_append, h1, h2, h3, h4]; rfl
  unfold readFlit
  rw [hc, if_neg (by decide +kernel)]
theorem test_flit_wf : (Instr.dataFlitReceive 11 (flitBytes 65535 flit0)).wf = true := by
  have h : (flitBytes 65535 flit0).length = 256 := by
    show (flitBody 65535 flit0 ++ leBytes 4 _).length = 256
    rw [List.length_append, show (flitBody 65535 flit0).length = 252 by decide +kernel]; rfl
  show (portOk 11 && decide ((flitBytes 65535 flit0).length = 256)) = true
  rw [h]; rfl
theorem test_flit_taken (b : List Byte) (h : readFlit b = some (65535, flit0)) :
    (sat (.dataFlitReceive 11 b) portRx fun u => (portOf u 11).rxSeq == 0 && getF u (Reg.CZL_PORT_RX_FLITS 11) == 1) = true := by
  have e : exec (.dataFlitReceive 11 b) portRx = execDataFlitReceive 11 b portRx := rfl
  unfold sat
  rw [e]
  unfold execDataFlitReceive
  rw [h]; dsimp only; decide +kernel
theorem test_flit_bad (b : List Byte) (h : readFlit b = none) (hq : leAt b 2 2 = 257) :
    (sat (.dataFlitReceive 11 b) portRx fun u => (portOf u 11).failed == [257] &&
      u.out == [.flit 11 (.control 65534 (some 257) (portOf portRx 11).freed)]) = true := by
  have e : exec (.dataFlitReceive 11 b) portRx = execDataFlitReceive 11 b portRx := rfl
  unfold sat
  rw [e]
  unfold execDataFlitReceive
  rw [h, hq]; dsimp only; decide +kernel
theorem test_FlitsAreSequencedAndAcknowledged :
    ((Instr.dataFlitReceive 11 (flitBytes 65535 flit0)).wf = true ∧ portUp portRx 11 = true ∧
      readFlit (flitBytes 65535 flit0) = some (65535, flit0) ∧ (portOf portRx 11).rxSeq = 65535 ∧
      readFlit (flitBytes 3 flit0) = some (3, flit0) ∧ readFlit flitBad = none ∧ leAt flitBad 2 2 ∉ (portOf portRx 11).failed ∧
      (sat (.dataFlitReceive 11 (flitBytes 65535 flit0)) portRx fun u => (portOf u 11).rxSeq == 0 &&
        getF u (Reg.CZL_PORT_RX_FLITS 11) == 1) = true ∧
      (sat (.dataFlitReceive 11 flitBad) portRx fun u => (portOf u 11).failed == [257] &&
        u.out == [.flit 11 (.control 65534 (some 257) (portOf portRx 11).freed)]) = true) ∧
    ((Instr.controlFlitReceive 11 true (some 4) none [1, 2, 3, 4]).wf = true ∧
      (sat (.controlFlitReceive 11 true (some 4) none [1, 2, 3, 4]) portRx fun u => (portOf u 11).returned == [1, 2, 3, 4] &&
        (portOf u 11).replay == [(5, flit0)]) ∧
      sat (.controlFlitReceive 11 false none none [0, 0, 0, 0]) portRx fun u => getF u (Reg.CZL_PORT_ERR_CTRL_ERR 11) == 1) ∧
    (let s := { svcModel with reasm := [⟨5, 77, 0x10, 400000, false⟩] }
     (Instr.msgReassemblyTimeout 5 77).wf = true ∧ 400000 + 500000 ≤ s.lTime ∧
      sat (.msgReassemblyTimeout 5 77) s fun u => u.reasm == [⟨5, 77, 0x10, 400000, true⟩] &&
        isSet u Reg.CZL_STATUS_DROPPED && getF u Reg.CZL_DROP2_MSG_TIMEOUT == 1) := by
  exact ⟨⟨test_flit_wf, by decide +kernel, test_readFlit _ (.inl rfl), by decide +kernel, test_readFlit _ (.inr rfl),
    test_readFlit_bad, by decide +kernel, test_flit_taken _ (test_readFlit _ (.inl rfl)), test_flit_bad _ test_readFlit_bad (by decide +kernel)⟩, by decide +kernel, by decide +kernel⟩

/-- Node 3 with port 5 up; node 6 lies behind it. -/
def linkUp (s : State) : State :=
  put [(Reg.CZL_NODE_NODE_ID, 3), (Reg.CZL_NODE_MAX_HOPS, 3), (Reg.CZL_PORT_STATE 5, 5), (Reg.CZL_ROUTE_PRIMARY 6, 5)] s
/-- A leader part in GROUP_WAIT in slot 0. -/
def leadSlot : Slot := { slot0 with pkg := { pkg with groupPart := true, groupDevices := 2 } }
def svcLead : State := put [(Reg.MDL_SLOT_STATE 0, 2), (Reg.MDL_SLOT_GROUP 0, 1)] (linkUp (setSlot svcModel 0 (some leadSlot)))
theorem test_RoutesAndGroupsAreDefined :
    (let s := withCmd 0x0C10 [62#8, 2#8, 0xF5#8, 0x54#8] (linkUp svcModel)
     Alone s (cmdOf 0x0C10 [62#8, 2#8, 0xF5#8, 0x54#8]) ∧ routesOk s 62 [0xF5#8, 0x54#8] = true ∧
      sat .setRoutes s fun u => getF u (Reg.CZL_ROUTE_PRIMARY 62) == 5 && getF u (Reg.CZL_ROUTE_ALTERNATE 62) == 15 &&
        getF u (Reg.CZL_ROUTE_PRIMARY 63) == 4 && getF u (Reg.CZL_ROUTE_ALTERNATE 63) == 5) ∧
    (let s := withCmd 0x0C12 [0x20#8, 0#8, 2#8, 6#8] svcLead
     Alone s (cmdOf 0x0C12 [0x20#8, 0#8, 2#8, 6#8]) ∧ (routeTo s 6) = some 5 ∧ leaderPart s 0x20 = some 0 ∧ group? s 0 = none ∧
      sat .defineGroup s fun u => getF u (Reg.CZL_GROUP_STATE 0) == 1 && getF u (Reg.CZL_GROUP_GROUP_ID 0) == 96 &&
        match group? u 0 with | some x => x.peers.map (·.node) == [6] && x.peers.all (fun q => !q.answered) | none => false) := by
  unfold Alone; decide +kernel

def hdr6 : LinkHdr := ⟨5, 6, 700⟩
def peer6 : Peer := newPeer 6 0
def grp6 : Group := { peers := [peer6], formAt := 0, beatAt := 0, ended := [], seqs := [] }
/-- This device leads the forming group 96 of slot 0. -/
def svcForming : State :=
  put [(Reg.CZL_GROUP_STATE 0, 1), (Reg.CZL_GROUP_GROUP_ID 0, 96), (Reg.CZL_ROUTE_PRIMARY 6, 15)] (setGroup svcLead 0 (some grp6))
/-- No route leads to node 6 in these states: what is sent is dropped, so that payloads without a layout stay out of the way.
It follows node 6 in group 200 with slot 0; the group is formed when `st` is 2. -/
def followSlot : Slot := { slot0 with pkg := { pkg with groupPart := true, groupDevices := 2, deviceIndex := 1 } }
def svcFollow (st : Nat) : State :=
  put [(Reg.CZL_GROUP_STATE 0, st), (Reg.CZL_GROUP_ROLE 0, 1), (Reg.CZL_GROUP_GROUP_ID 0, 200), (Reg.CZL_ROUTE_PRIMARY 6, 15)]
    (setGroup (linkUp (setSlot svcModel 0 (some followSlot))) 0 (some grp6))
theorem test_GroupsFormAndBeat :
    (let s := setSlot svcModel 0 (some followSlot)
     (Instr.mgmtForm hdr6 200 7 1).wf = true ∧ serving s = true ∧ followerPart s 7 1 = some 0 ∧ group? s 0 = none ∧
      sat (.mgmtForm hdr6 200 7 1) s fun u => getF u (Reg.CZL_GROUP_STATE 0) == 1 && isSet u (Reg.CZL_GROUP_ROLE 0) &&
        getF u (Reg.CZL_GROUP_GROUP_ID 0) == 200) ∧
    ((Instr.mgmtFormAck hdr6 96 ⟨5, 2, 5, 1, 1, 900, 50⟩).wf = true ∧ ledBy svcForming 96 = some (0, grp6) ∧
      grp6.peers.all (fun q => q.answered || q.node == 6) = true ∧
      sat (.mgmtFormAck hdr6 96 ⟨5, 2, 5, 1, 1, 900, 50⟩) svcForming fun u => groupFormed u 0 && getF u (Reg.MDL_SLOT_STATE 0) == 3 &&
        match group? u 0 with | some g => g.peers.all (fun q => q.pages == 900 && q.answered) | none => false) ∧
    (let s := { svcForming with lTime := 5000000 }
     (Instr.formResend 31).wf = true ∧ isSet s (Reg.CZL_GROUP_ROLE 0) = false ∧ getF s (Reg.MDL_SLOT_STATE 0) = 2 ∧
      sat (.formResend 0) s fun u => (group? u 0).map (·.formAt) == some 5000000) ∧
    (let s := put [(Reg.CZL_GROUP_STATE 0, 2)] svcForming
     groupLeads s 0 = true ∧ (sat (.heartbeatSend 0) s fun u => (group? u 0).map (·.beatAt) == some 1000000) ∧
      sat (.mgmtHeartbeat hdr6 96 true) s fun u => (group? u 0).map (·.peers.map (·.heard)) == some [1000000]) ∧
    (followedBy (svcFollow 1) 200 = some (0, grp6) ∧
      sat (.mgmtHeartbeat hdr6 200 false) (svcFollow 1) fun u => groupFormed u 0 &&
        (group? u 0).map (·.peers.map (·.heard)) == some [1000000]) := by
  and_intros <;> decide +kernel

theorem test_GroupsAreLost :
    (let s := { svcFollow 2 with lTime := 2500000 }
     (Instr.peerLoss 31 63).wf = true ∧ group? s 0 = some grp6 ∧ groupFormed s 0 = true ∧ serving s = true ∧ s.fltQueue.length < 16 ∧
      grp6.peers.any (fun q => q.node == 6 && decide (q.heard + 2500000 ≤ s.lTime)) = true ∧
      sat (.peerLoss 0 6) s fun u => group? u 0 == none && slot? u 0 == none && getF u (Reg.CZL_GROUP_STATE 0) == 3 &&
        isSet u Reg.CZL_STATUS_GROUP_LOST && u.fltQueue.any fun r => r.id == 0x17) ∧
    ((Instr.mgmtLeave hdr6 200).wf = true ∧ ledBy (svcFollow 2) 200 = none ∧ followedBy (svcFollow 2) 200 = some (0, grp6) ∧
      (sat (.mgmtLeave hdr6 200) (svcFollow 2) fun u => group? u 0 == none && slot? u 0 == none) ∧
      (sat (.mgmtLeave hdr6 200) (svcFollow 1) fun u => group? u 0 == none && slot? u 0 == none) ∧
      grp6.peers.any (fun q => q.node == 6) = true ∧ groupFormed svcForming 0 = false ∧ ledBy svcForming 96 = some (0, grp6) ∧
      sat (.mgmtLeave hdr6 96) (setGroup svcForming 0 (some { grp6 with peers := [{ peer6 with answered := true }] })) fun u =>
        (slot? u 0).isSome && (group? u 0).map (·.peers.map (·.answered)) == some [false]) := by
  and_intros <;> decide +kernel

def seq40 : PlanSeq := { idx := 40, first := 0, n := 256, sampled := true, temp := 0, topK := 0, repPen := 0x3C00, presPen := 0, freqPen := 0 }
def stepF : Step := { stepE with plan := [], group := some 0, follower := true, fplan := [seq40], shardsLeft := [] }
def svcPeer : State := setLane (svcFollow 2) 0 { Lane.idle with cur := some stepF }
theorem test_FollowersRunTheLeadersSteps :
    ((Instr.plan hdr6 200 7 [seq40]).wf = true ∧ serving (svcFollow 2) = true ∧ followedBy (svcFollow 2) 200 = some (0, grp6) ∧
      slotPart (svcFollow 2) 0 = 0 ∧ (lane (svcFollow 2) 0).cur = none ∧ (lane (svcFollow 2) 0).acks = [] ∧ slot? (svcFollow 2) 0 = some followSlot ∧ 16 ≤ freePages (svcFollow 2) 0 ∧
      (newUses (peerSeq 40) 2 5 (fseqOf grp6 40 0).append 256 false).length = 16 ∧
      (sat (.plan hdr6 200 7 [seq40]) (svcFollow 2) fun u => match (lane u 0).cur with
        | some st => st.follower && st.tag == 7 && st.fplan == [seq40] && st.st == .issue
        | none => false) ∧
      sat (.plan hdr6 200 7 [seq40]) (put [(Reg.MEM_PART_ARENA_PAGES 0, 15)] (svcFollow 2)) fun u => (lane u 0).cur == none &&
        getF u (Reg.CZL_GROUP_SHORT_PLAN_SHORT 0) == 1) ∧
    ((Instr.commit hdr6 200 7 [⟨40, [9], 256⟩]).wf = true ∧ groupStep svcPeer 0 7 = some stepF ∧ (lane svcPeer 0).nextStep = none ∧
      sat (.commit hdr6 200 7 [⟨40, [9], 256⟩]) svcPeer fun u => (lane u 0).cur == none &&
        match group? u 0 with | some g => g.seqs.map (fun e => (e.1, e.2.append)) == [(40, 256)] | none => false) ∧
    ((Instr.abandon hdr6 200 7).wf = true ∧ sat (.abandon hdr6 200 7) svcPeer fun u => (lane u 0).acks == [0, 1] &&
        (lane u 0).ackTo == some (0, 7) && (lane u 0).cur == none) ∧
    (let s := setPage (setGroup (svcFollow 2) 0 (some (putFseq grp6 40 (fseqOf grp6 40 0)))) 0 9 ⟨.kv (peerSeq 40) 0 0 false, .ctx 0⟩
     (Instr.release hdr6 200 [40]).wf = true ∧ sat (.release hdr6 200 [40]) s fun u => (group? u 0).map (·.seqs) == some [] &&
        (page u 0 9).use == .free) ∧
    ((Instr.samppage hdr6 200 40 [1#8] [(3, 0#32)]).wf = true ∧
      1 ≤ freePages (svcFollow 2) 0 ∧ sat (.samppage hdr6 200 40 [1#8] [(3, 0#32)]) (svcFollow 2) fun u => match group? u 0 with
        | some g => g.seqs.any fun e => e.1 == 40 && e.2.mask == [1#8] && e.2.bias == [(3, 0#32)]
        | none => false) := by
  and_intros <;> decide +kernel

def stepL : Step := { stepE with group := some 0, candWait := [6], ackWait := [6] }
def svcLeading : State :=
  setLane (put [(Reg.CZL_GROUP_STATE 0, 2), (Reg.MDL_SLOT_STATE 0, 3)] svcForming) 0 { Lane.idle with cur := some stepL, nodeAcks := [6, 8] }
theorem test_LeadersGatherWhatFollowersSend :
    (serving svcLeading = true ∧ ledBy svcLeading 96 = some (0, grp6) ∧ (Instr.planAck hdr6 96 7 500 false).wf = true ∧
      groupStep svcLeading 0 7 = some stepL ∧
      (sat (.planAck hdr6 96 7 500 false) svcLeading fun u => (lane u 0).cur.map (·.ackWait) == some []) ∧
      sat (.planAck hdr6 96 7 500 true) svcLeading fun u => (lane u 0).cur == some stepL) ∧
    ((Instr.cand hdr6 96 7 []).wf = true ∧ grp6.peers.find? (fun q => q.node == 6) = some peer6 ∧ 6 ∈ stepL.candWait ∧ stepL.st = .execute ∧ 6 ∈ (lane svcLeading 0).nodeAcks ∧
      (sat (.cand hdr6 96 7 []) svcLeading fun u => (lane u 0).cur.map (·.candWait) == some [6]) ∧
      (sat (.cand hdr6 96 7 [⟨0, false, [(0x40000000, 0x3F800000)], [(4, 0x40000000)]⟩]) svcLeading fun u =>
        (lane u 0).cur.map (·.candWait) == some []) ∧ groupStep svcLeading 0 8 = none ∧
      sat (.cand hdr6 96 8 []) svcLeading fun u => isSet u Reg.SMP_STATUS_LATE_CANDIDATE && u.lanes == svcLeading.lanes) ∧
    ((Instr.abandonAck hdr6 96 7).wf = true ∧ sat (.abandonAck hdr6 96 7) svcLeading fun u => (lane u 0).nodeAcks == [8]) ∧
    (let s := setGroup svcLeading 0 (some { grp6 with ended := [(40, 256, false)] })
     groupLeads s 0 = true ∧ sat (.releaseSend 0) s fun u => (group? u 0).map (·.ended) == some []) := by
  and_intros <;> decide +kernel

/-- Regulators 0 and 2 of partition 0 are spent. -/
def spent (s : State) : State := put [(Reg.PRT_REG_CTL_EN 0 0, 1), (Reg.PRT_REG_CTL_EN 0 2, 1)] s
theorem test_BulkTrafficIsTaken :
    (serving svcPeer = true ∧ groupBy svcPeer 200 = some (0, grp6) ∧ group? svcPeer 0 = some grp6 ∧ slotPart svcPeer 0 = 0 ∧
      (Instr.coll hdr6 200 ⟨7, [(0x20001, 5#8)]⟩).wf = true ∧ groupStep svcPeer 0 7 = some stepF ∧
      translate svcPeer 0 0x20001 = some 0x8001 ∧ (heldOf svcPeer 0 0).waits = [] ∧ isSet svcPeer (Reg.PRT_REG_CTL_EN 0 0) = false ∧
      (sat (.coll hdr6 200 ⟨7, [(0x20001, 5#8)]⟩) svcPeer fun u => loadByte u 0x8001 == 5#8) ∧ groupStep svcPeer 0 8 = none ∧
      (sat (.coll hdr6 200 ⟨8, [(0x20001, 5#8)]⟩) svcPeer fun u => u.dram == svcPeer.dram &&
        (group? u 0).map (·.peers.map (·.heard)) == some [1000000]) ∧
      (let s := spent svcPeer
       regLevel s 0 0 ≤ 0 ∧ partValid s 0 = true ∧ (heldOf s 0 0).waits = [] ∧
        sat (.coll hdr6 200 ⟨7, [(0x20001, 5#8)]⟩) s fun u => (heldOf u 0 0).waits == [(.store 0 [(0x20001, 5#8)], 1)] && u.dram == s.dram)) ∧
    (let s := setPage svcPeer 0 2 ⟨.staged (peerSeq 40) 0 0 false, .ctx 0⟩
     (Instr.kvxfer hdr6 200 7 [(0x20001, 5#8)]).wf = true ∧ groupStep s 0 7 = some stepF ∧
      stagedByte s 0 grp6 stepF followSlot.pkg 0x20001 = true ∧ translate s 0 0x20001 = some 0x8001 ∧
      (sat (.kvxfer hdr6 200 7 [(0x20001, 5#8)]) s fun u => loadByte u 0x8001 == 5#8) ∧ groupStep s 0 8 = none ∧
      stagedByte s 0 grp6 stepF followSlot.pkg 0x30001 = false ∧
      sat (.kvxfer hdr6 200 8 [(0x20001, 5#8)]) s fun u => u.dram == s.dram) ∧
    (let y := { slot0 with fromPeer := some (6, 9) }
     let s := setPage (put [(Reg.MDL_SLOT_STATE 0, 1)] (setSlot svcModel 0 (some y))) 0 2 ⟨.model 0, .none⟩
     (Instr.modelxfer hdr6 0 [(0x20001, 5#8)]).wf = true ∧ slot? s 0 = some y ∧ arenaBase s 0 ≤ 0x20001 ∧
      (page s 0 ((0x20001 - arenaBase s 0) / 65536)).use = .model 0 ∧ translate s 0 0x20001 = some 0x8001 ∧
      sat (.modelxfer hdr6 0 [(0x20001, 5#8)]) s fun u => loadByte u 0x8001 == 5#8) ∧
    (let s := { svcModel with msgNo := 65535 }
     (Instr.mgmtPeerModelRequest hdr6 0x20).wf = true ∧ serving s = true ∧ slot? s 0 = some slot0 ∧
      ((List.range 32).find? fun m => (slot? s m).isSome && getF s (Reg.MDL_SLOT_HANDLE m) == 0x20 && getF s (Reg.MDL_SLOT_STATE m) == 3) =
        some 0 ∧
      (heldOf (spent s) (slotPart s 0) 2).waits = [] ∧ isSet (spent s) (Reg.PRT_REG_CTL_EN 0 2) = true ∧ regLevel (spent s) 0 2 ≤ 0) := by
  and_intros <;> decide +kernel

/-- Limits of a card in service: CAP 300 W, 20 W/ms up and down, T_d 60 °C, a thermal model. -/
def svcPower : State :=
  let s := put [(Reg.PWR_CAP_CAP_W, 300), (Reg.PWR_SLEW_UP_W_MS, 20), (Reg.PWR_SLEW_DOWN_W_MS, 20), (Reg.PWR_THERM_T_D, 480),
    (Reg.PWR_THERM1_T_LIMIT, 95), (Reg.PWR_THERM1_RJC, 100), (Reg.PWR_THERM2_HORIZON_MS, 10), (Reg.PWR_THERM2_TAU_DIE_MS, 50),
    (Reg.PWR_PRED_MW, 50000), (Reg.PWR_BALLAST_MW_MW, 0), (Reg.PWR_STATE_STEP, 8), (Reg.PWR_SLEW_LIMIT_SLEW, 1000)] svcPart
  { s with power := { s.power with kNow := 300000 } }
theorem test_PowerPeriodsAndStepsRun :
    ((Instr.planisherPeriod none []).wf = true ∧ svcPower.power.period < svcPower.qTime / 50000 ∧ stage svcPower = 6 ∧
      svcPower.power.kNow < 2 ^ 32 ∧ inDomain svcPower = false ∧ svcPower.lanes = [] ∧
      sat (.planisherPeriod none []) svcPower fun _ => true) ∧
    (let s := { svcPower with power := { svcPower.power with rising := some (980000, 10) } }
     cclkOn s = true ∧ (sat .cclkSwitch s fun u => getF u Reg.PWR_STATE_STEP == 10 && getF u Reg.HST_CLK_FREQ_CCLK_MHZ == 1800) ∧
      sat .cclkSwitch { s with power := { s.power with fallTo := some 0 } } fun u => getF u Reg.PWR_STATE_STEP == 0 &&
        getF u Reg.HST_STRAPS_VID == 5 && u.power.rising == none) ∧
    (let s := put [(Reg.PWR_THERM_T_D, 760)] svcPower
     8 * (getF s Reg.PWR_THERM1_T_LIMIT : Int) ≤ tDie s ∧ isSet s Reg.PWR_STATE_EMERGENCY = false ∧ pinsHeld s = false ∧
      sensorsBad s = true ∧ s.power.rising = none ∧ sat (.thermalEmergencyBegin true) s fun _ => true) ∧
    (let x := (List.range 17).map fun i => (i, { t8 := 480, stale := 0 : Sensor })
     let s := put [(Reg.PWR_STATE_EMERGENCY, 1)] { svcPower with qTime := 50000000, power := { svcPower.power with
       calmAt := some 0, sensors := x } }
     sensorsBad s = false ∧ pinsHeld s = false ∧
      sat .thermalEmergencyEnd s fun u => isSet u Reg.PWR_STATE_EMERGENCY == false) := by
  and_intros <;> decide +kernel

theorem test_PowerSourcesAreWatched :
    (isSet svcPower Reg.PWR_STATE_BATTERY = false ∧ pinsHeld svcPower = false ∧
      sat (.batteryModeBegin true) svcPower fun u => isSet u Reg.PWR_STATE_BATTERY && isSet u Reg.PWR_STATUS_ON_BATTERY) ∧
    (let s := put [(Reg.PWR_STATE_BATTERY, 1)] { svcPower with aTime := 500000000 }
     shelfBatt s = false ∧ s.power.battAt = 0 ∧ sat .batteryModeEnd s fun u => isSet u Reg.PWR_STATE_BATTERY == false) ∧
    (let x : ShelfRead := ⟨0x0840, 0, 0, 0, 0, 0, 0, [], none⟩
     let s := put [(Reg.PWR_SHELF_VALID 0, 1), (Reg.PWR_SHELF_REACHABLE 0, 1), (Reg.PWR_SHELF_VALID 7, 1),
       (Reg.PWR_SHELF_REACHABLE 7, 1)] { svcPower with aTime := 5000000 }
     (Instr.pmbusPoll [(7, x)]).wf = true ∧ s.power.polledAt = 0 ∧
      sat (.pmbusPoll [(7, x)]) s fun u => getF u (Reg.PWR_SHELF_STATUS_WORD 7) == 0x0840 && isSet u (Reg.PWR_SHELF_REACHABLE 7) &&
        isSet u (Reg.PWR_SHELF_REACHABLE 0) == false && isSet u Reg.PWR_STATUS_SHELF_UNREACH) ∧
    (let x : ShelfRead := ⟨0x0840, 0, 0, 0, 0, 0, 0, [], some 1⟩
     let s := put [(Reg.PWR_SHELF_VALID 7, 1), (Reg.PWR_SHELF_REACHABLE 7, 1)] { svcPower with aTime := 5000000 }
     (Instr.pmbusPoll [(7, x)]).wf = true ∧ 1 < (pollCommands s ((s.power.polls + 1) % 10 == 1)).length ∧
      sat (.pmbusPoll [(7, x)]) s fun u => !isSet u (Reg.PWR_SHELF_REACHABLE 7)) ∧
    (let s := put [(Reg.PWR_SHELF_VALID 7, 1)] { svcPower with aTime := 500000000 }
     (Instr.shelfRetry 7 none).wf = true ∧ isSet s (Reg.PWR_SHELF_REACHABLE 7) = false ∧ (Instr.shelfRetry 7 (some (2, true))).wf = true ∧
      (sat (.shelfRetry 7 none) s fun u => u.fltQueue.any fun r => r.id == 0x18 && r.time == 500000000) ∧
      sat (.shelfRetry 7 (some (2, true))) s fun u => isSet u (Reg.PWR_SHELF_REACHABLE 7) && getF u (Reg.PWR_SHELF_STATUS_WORD 7) == 2 &&
        u.fltQueue.any fun r => r.id == 0x18) ∧
    (let s := setLane svcPower 15 { Lane.idle with power := 90000, leftAt := 990000 }
     (Instr.handoverHoldExpiry 15).wf = true ∧ (lane s 15).cur = none ∧
      sat (.handoverHoldExpiry 15) s fun u => (lane u 15).power == 0 && getF u (Reg.PWR_PART_MW_MW 15) == 0) := by
  and_intros <;> decide +kernel

theorem test_RampStampAndRefill :
    (let s := put [(Reg.PWR_DOM_DOM_EN, 1), (Reg.PWR_DOM_MEMBERS_MEMBERS, 0x48)] (linkUp svcPart)
     let x : RampPeer := ⟨5, 4, 3, true, 0⟩
     (Instr.ramp 6 ⟨0, 1, 50, 40, 9, 0⟩).wf = true ∧ stage s = 6 ∧ inDomain s = true ∧ getF s Reg.PWR_DOM_DOM_ID = 0 ∧
      6 ≠ myNode s ∧ 6 ∈ members s ∧
      (sat (.ramp 6 ⟨0, 1, 50, 40, 9, 0⟩) s fun u => rampPeer u 6 == ⟨50, 40, 9, true, 0⟩) ∧
      (sat (.ramp 6 ⟨0, 1, 50, 40, 9, 0⟩) (put [(Reg.MGT_STATUS_STAGE, 7)] s) fun u => isSet u Reg.CZL_STATUS_DROPPED) ∧
      sat .rampSend { put [(Reg.CZL_ROUTE_PRIMARY 6, 15)] s with power := { s.power with sent := some x } } fun u =>
        u.power.sent == some { x with fresh := false }) ∧
    (let s := put [(Reg.TRC_TCTL_EN 15, 1), (Reg.TRC_TCTL_KIND_MASK 15, 8)] svcPart
     (Instr.stamp hdr6 77).wf = true ∧ traceOn s 15 4 = true ∧ fifoUnits (traceOf s 15) < 512 ∧
      (sat (.stamp hdr6 77) s fun u => match (traceOf u 15).fifo with
        | [b] => leAt b 8 8 == 1000000 && leAt b 24 8 == 77 && b.length == 32
        | _ => false) ∧
      sat (.stamp hdr6 77) (put [(Reg.MGT_STATUS_STAGE, 7)] s) fun u => isSet u Reg.CZL_STATUS_DROPPED && u.trace == []) ∧
    (let s := put [(Reg.CZL_NODE_STAMP_MS, 2)] svcPart
     s.stampAt + 500000 * getF s Reg.CZL_NODE_STAMP_MS ≤ s.lTime ∧ sat .stampSend s fun u => u.stampAt == 1000000) ∧
    (let s := put [(Reg.PRT_REG_CTL_RATE 0 2, 7), (Reg.PRT_REG_BURST_BURST 0 2, 10), (Reg.PRT_REG_LEVEL_LEVEL 0 2, 2 ^ 32 - 3)] svcPart
     s.regRefills < s.qTime / 500 ∧ (heldOf s 0 2).waits = [] ∧ regBurst s 0 2 = 10 ∧ regBurst s 0 3 < 2 ^ 31 ∧ partValid s 0 = true ∧
      sat .regulatorRefill s fun u => u.regRefills == 1 && regLevel u 0 2 == 4) := by
  and_intros <;> decide +kernel

theorem test_RegisterWritesFollowTheirCards :
    ((Instr.registerWrite .pf0 .pfBar2 2 4 0 0).wf = true ∧ barOpen svc .pf0 .pfBar2 = true ∧
      sat (.registerWrite .pf0 .pfBar2 2 4 0 0) svc fun u => isSet u Reg.HST_ERR_STATUS_BAD_SIZE) ∧
    (barOpen svc .heartwood .pfBar0 = true ∧ regAt 0x14 = none ∧ (Instr.registerWrite .heartwood .pfBar0 0x14 4 0 0).wf = true ∧
      sat (.registerWrite .heartwood .pfBar0 0x14 4 0 0) svc fun u => isSet u Reg.HST_ERR_STATUS_UNMAPPED) ∧
    (let k := Reg.PRT_REG_CTL 0 2
     domainUp svc k = true ∧ resettingPart svc k = false ∧ (cardAt k).map (·.wide) = some false ∧ k / 0x100000 = 9 ∧ (heldOf svc 0 2).waits = [] ∧
      (Instr.registerWrite .pf0 .pfBar0 k 4 0x701#64 0).wf = true ∧
      sat (.registerWrite .pf0 .pfBar0 k 4 0x701#64 0) svc fun u => isSet u (Reg.PRT_REG_CTL_EN 0 2) &&
        getF u (Reg.PRT_REG_CTL_RATE 0 2) == 7) ∧
    (let k := Reg.MDL_STATUS
     let s := put [(⟨k, 0, 1⟩, 1), (⟨k, 1, 1⟩, 1)] svc
     domainUp s k = true ∧ (cardAt k).map (·.wide) = some false ∧
      sat (.registerWrite .pf0 .pfBar0 k 4 1#64 0) s fun u => getF u ⟨k, 0, 2⟩ == 2) ∧
    (Reaches svcRings (Reg.HST_DB_ROUTE 0) ∧ (Instr.dbRouteWrite 0 0#32).wf = true ∧
      sat (.dbRouteWrite 0 0xC0000000#32) svcRings fun u => getF u (Reg.HST_DB_ROUTE_PF_ROUTE 0) == 0xC0000008 &&
        isSet u Reg.HST_PCIE_STATUS_ROUTE_LOCKED) ∧
    (let s := put [(Reg.MGT_STATUS_OWNER, 1)] svc
     Reaches s Reg.HST_DBGWIN_CTL ∧ ownerLocked s = true ∧ ownerLocked svc = false ∧
      (sat (.dbgwinCtlWrite 0xF1#32) s fun u => getF u Reg.HST_DBGWIN_CTL_BASE == 15 && getF u Reg.HST_DBGWIN_CTL_ENABLE == 0 &&
        isSet u Reg.HST_ERR_STATUS_DBGWIN_REFUSED) ∧
      sat (.dbgwinCtlWrite 0xF1#32) svc fun u => getF u Reg.HST_DBGWIN_CTL_ENABLE == 1) := by
  unfold Reaches; and_intros <;> decide +kernel

theorem test_AFlagSetDuringItsClearStaysSet :
    (let s := put [(Reg.MDL_STATUS_OVERLAP, 255)] svc
     (Instr.registerWrite .pf0 .pfBar0 Reg.MDL_STATUS 4 3#64 2).wf = true ∧ Reaches s Reg.MDL_STATUS ∧
      (cardAt Reg.MDL_STATUS).map (fun c => c.fields.contains ⟨1, 1, .w1c, 0, 1⟩) = some true ∧
      sat (.registerWrite .pf0 .pfBar0 Reg.MDL_STATUS 4 3#64 2) s fun u => getF u ⟨Reg.MDL_STATUS, 0, 2⟩ == 2 &&
        getF u Reg.MDL_STATUS_OVERLAP == 0) ∧
    (let s := setFn (put [(Reg.HST_PCIE_LINK_NUM_VFS, 4)] svcPart) 4 { Fn.idle with mse := true, vfEn := true }
     let k := Reg.RQI_SQ_STATUS 3 1
     barOpen s (.vf 3) (.vfBar0 3) = true ∧ Reaches s k ∧ k = 0x400000 + 0x1000 * 3 + 0x50 ∧
      (Instr.registerWrite (.vf 3) (.vfBar0 3) 0x50 4 1#64 1).wf = true ∧
      sat (.registerWrite (.vf 3) (.vfBar0 3) 0x50 4 1#64 1) s fun u => getF u ⟨k, 0, 1⟩ == 1) := by
  unfold Reaches; and_intros <;> decide +kernel

theorem test_WritesToStatusSendTheMessageAgain :
    (let s := setVec (put [(Reg.MDL_STATUS_OVERLAP, 255), (⟨Reg.MDL_STATUS, 1, 1⟩, 1)] svc) 0 4 { Vec.idle with masked := false }
     let k := Reg.MDL_STATUS + 4
     Reaches s k ∧ statusVec s Reg.MDL_STATUS = some (0, 4) ∧ (Instr.registerWrite .pf0 .pfBar0 k 4 2#64 0).wf = true ∧
      (sat (.registerWrite .pf0 .pfBar0 k 4 2#64 0) s fun u => u.out == [.msix 0 4]) ∧
      sat (.registerWrite .pf0 .pfBar0 k 4 2#64 0) (setVec s 0 4 Vec.idle) fun u => u.out == [] && (vec u 0 4).pend) := by
  unfold Reaches; and_intros <;> decide +kernel

theorem test_DeviceTimeReadsAreWhole :
    (let s := { svc with fTime := 2 ^ 64 - 1, devLatch := [(.heartwood, 7)] }
     barOpen s .pf0 .pfBar0 = true ∧ clockUp s 1 = true ∧
      (Instr.devtimeRead .pf0 .pfBar0 4 false).wf = true ∧
      (sat (.devtimeRead .pf0 .pfBar0 8 false) s fun u => u.out == [.readData .pf0 (2 ^ 64 - 1)] && u.devLatch == s.devLatch) ∧
      (sat (.devtimeRead .pf0 .pfBar0 4 false) s fun u => u.out == [.readData .pf0 (2 ^ 32 - 1)] &&
        u.devLatch == [(.pf0, 2 ^ 32 - 1), (.heartwood, 7)]) ∧
      (sat (.devtimeRead .heartwood .pfBar0 4 true) s fun u => u.out == [.readData .heartwood 7] && u.devLatch == []) ∧
      sat (.devtimeRead .pf0 .pfBar0 4 true) s fun u => u.out == [.readData .pf0 (2 ^ 32 - 1)]) ∧
    (let s := setFn (put [(Reg.HST_PCIE_LINK_NUM_VFS, 4)] svcPart) 4 { Fn.idle with mse := true, vfEn := true }
     barOpen s (.vf 3) (.vfBar0 3) = true ∧ (Instr.devtimeRead (.vf 3) (.vfBar0 3) 4 false).wf = true ∧
      sat (.devtimeRead (.vf 3) (.vfBar0 3) 4 false) s fun u => u.devLatch == [(.vf 3, 0)]) := by
  and_intros <;> decide +kernel

theorem test_ReadsReturnAndClear :
    ((Instr.malformedRead .pf0 .pfBar0 0x12 4).wf = true ∧
      sat (.malformedRead .pf0 .pfBar0 0x12 4) svc fun u => u.out == [.completerAbort .pf0]) ∧
    (let s := put [(Reg.HST_ERR_STATUS_DB_MISROUTED, 9), (Reg.HST_ERR_STATUS_BAD_SIZE, 1)] svc
     let k := Reg.HST_ERR_STATUS
     Reaches s k ∧ (cardAt k).map (·.wide) = some false ∧ (Instr.registerRead .pf0 .pfBar0 k 4).wf = true ∧
      (sat (.registerRead .pf0 .pfBar0 k 4) s fun u => u.out == [.readData .pf0 0x901] && getF u Reg.HST_ERR_STATUS_DB_MISROUTED == 0 &&
        isSet u Reg.HST_ERR_STATUS_BAD_SIZE) ∧
      domainUp (put [(Reg.HST_CLK_STATUS_LOCK, 2)] svc) Reg.MDL_STATUS = false ∧
      (sat (.registerRead .pf0 .pfBar0 Reg.MDL_STATUS 4) (put [(Reg.HST_CLK_STATUS_LOCK, 2)] svc) fun u =>
        u.out == [.readData .pf0 0xFFFFFFFF] && isSet u Reg.HST_CLK_STATUS_REG_DOMAIN_DOWN) ∧
      regAt 0x14 = none ∧ sat (.registerRead .pf0 .pfBar0 0x14 4) svc fun u => u.out == [.readData .pf0 0]) ∧
    (let s := { put [(Reg.FLT_LAST_RECORD 3, 77)] svc with fltLatch := [(.smbus, [(1, 5), (2, 6), (3, 7)])] }
     (Instr.fltLastRead .smbus 3 4).wf = true ∧ Reaches s (0xE00080 + 4 * 3) ∧ barOpen s .smbus .pfBar0 = true ∧
      (sat (.fltLastRead .smbus 3 4) s fun u => u.out == [.readData .smbus 7]) ∧
      sat (.fltLastRead .pf0 3 4) s fun u => u.out == [.readData .pf0 77]) ∧
    (let s := storeByte (put [(Reg.HST_DBGWIN_CTL_BASE, 15), (Reg.HST_DBGWIN_CTL_ENABLE, 1)] svc) (2 ^ 36 - 1) 5#8
     windowShut s = false ∧ clockUp s 2 = true ∧ windowShut svc = true ∧
      (Instr.debugWindowAccess 0xFFFFFFFC 4 (some [1, 2, 3, 4])).wf = true ∧ (Instr.debugWindowAccess 0xFFFFFFFF 1 none).wf = true ∧ eccAt s ((2 ^ 36 - 1) / 32) = 0 ∧ (fn s 0).mse = true ∧ (fn s 0).d3 = false ∧
      (sat (.debugWindowAccess 0xFFFFFFFF 1 none) s fun u => u.out == [.readData .pf0 5]) ∧
      (sat (.debugWindowAccess 0xFFFFFFFC 4 (some [1, 2, 3, 4])) s fun u => loadByte u (2 ^ 36 - 1) == 4#8) ∧
      (sat (.debugWindowAccess 0 1 none) svc fun u => u.out == [.readData .pf0 255] && isSet u Reg.HST_ERR_STATUS_DBGWIN_REFUSED) ∧
      sat (.debugWindowAccess 0 4 (some [1, 2, 3, 4])) svc fun u => u.dram == [] && isSet u Reg.HST_ERR_STATUS_DBGWIN_REFUSED) := by
  unfold Reaches; and_intros <;> decide +kernel

theorem test_FunctionsAndLinkFollowTheHost :
    (let s := setFn (put [(Reg.HST_PCIE_LINK_NUM_VFS, 64), (Reg.HST_DBGWIN_CTL_ENABLE, 1)] svcRings) 4 { Fn.idle with bme := true }
     pcieUp s = true ∧ vfExists s 63 = true ∧ (Instr.vfFlr 63).wf = true ∧ (Instr.vfEnableSet 64).wf = true ∧ numVfs svc = 0 ∧
      (sat (.vfFlr 3) s fun u => fn u 4 == Fn.idle && isSet u (Reg.RQI_SQ_CFG_ENABLE 3 0) == false) ∧
      (sat .pf0Flr (withCmd 0x0700 [] (put [(Reg.HST_PCIE_LINK_NUM_VFS, 1)] svc)) fun u => u.mbx == [] && fn u 0 == Fn.idle &&
        getF u (Reg.MGT_MBX_AREA_WORD 2) == 0x0703 && numVfs u == 0 && getF u Reg.MGT_MBX_STATUS_DONE == 1) ∧
      (sat (.vfEnableSet 64) (setFn svc 0 { fn svc 0 with vfEn := false }) fun u => numVfs u == 64 && (fn u 0).vfEn) ∧
      (sat .vfEnableClear (put [(Reg.HST_PCIE_LINK_NUM_VFS, 4)] s) fun u => numVfs u == 0 && fn u 4 == Fn.idle &&
        isSet u (Reg.RQI_SQ_CFG_ENABLE 3 0) == false)) ∧
    (fnExists svc 0 = true ∧ (Instr.busMasterEnable 0 ⟨false, true⟩ ⟨true, 5⟩).wf = true ∧
      (sat (.busMasterEnable 0 ⟨false, true⟩ ⟨true, 5⟩) svc fun u =>
        fn u 0 == { fn svc 0 with bme := false, mse := true, tag10 := true, mrrs := 5 }) ∧
      (sat (.d3hotEntry 0 true) svc fun u => (fn u 0).d3) ∧
      (Instr.linkSpeedChange 3 16 false).wf = true ∧
      (sat (.linkSpeedChange 3 16 false) (put [(Reg.HST_PCIE_LINK_SPEED, 6)] svc) fun u => getF u Reg.HST_PCIE_LINK_SPEED == 3 &&
        isSet u Reg.HST_PCIE_STATUS_LINK_BELOW_MIN && isSet u Reg.HST_PCIE_STATUS_SPEED_CHANGE) ∧
      (sat .pcieLinkDown (put [(Reg.HST_PCIE_LINK_SPEED, 6)] svc) fun u => chipFaulted u && u.fltQueue.any fun r => r.id == 0x1B) ∧
      (sat .pcieFatalError svc fun u => chipFaulted u && (fn u 0).errs == [.fatal] && u.fltQueue.any fun r => r.id == 0x1B) ∧
      (sat (.unexpectedCompletion 0) svc fun u => (fn u 0).errs == [.unexpectedCompletion] &&
        isSet u Reg.HST_PCIE_STATUS_UNEXPECTED_CPL)) ∧
    ((Instr.dmaReadFailed (.ring 3 0) .ecrc 0x1000).wf = true ∧ serving svcRings = true ∧ canDma svcRings (dmaFn svcRings (.ring 3 0)) = true ∧
      dmaLive svcRings (.ring 3 0) = true ∧
      sat (.dmaReadFailed (.ring 3 0) .ecrc 0x1000) svcRings fun u => isSet u Reg.HST_PCIE_STATUS_DMA_READ_ERR &&
        getF u Reg.HST_DMA_LAST_ERR_KIND == 5 && getF u Reg.HST_DMA_LAST_ADDR_ADDR == 0x1000 && (sq u 3 0).stopped &&
        isSet u (Reg.RQI_SQ_STATUS_READ_FAILED 3 0)) := by
  and_intros <;> decide +kernel

/-- The responder has come as far as `st`. -/
def svcSpdm (st : Nat) : State := { svc with spdm := { Spdm.idle with stage := st } }
theorem test_AttestationAnswersInOrder :
    (svc.boot.perst = false ∧ mbxReady svc = true ∧ mbxReady (put [(Reg.MGT_MBX_STATUS_READY, 0)] svc) = false ∧
      (sat (.doeDiscovery [1#8]) svc fun u => u.out == [.doe [1, 0, 0, 0, 3, 0, 0, 0, 1, 0, 1, 0]]) ∧
      (sat (.getVersion []) svc fun u => u.out == [.doe [1, 0, 1, 0, 4, 0, 0, 0, 0x10, 4, 0, 0, 0, 1, 0, 0x12]]) ∧
      (sat (.spdmUnsupportedRequest [0x12, 0xE4, 0, 0]) svc fun u => u.out == [.doe [1, 0, 1, 0, 3, 0, 0, 0, 0x12, 0x7F, 7, 0xE4]]) ∧
      (sat (.getVersion []) (put [(Reg.MGT_MBX_STATUS_READY, 0)] svc) fun u => u.spdm.waiting == [(0x84, [])] && u.out == []) ∧
      sat .doeAbort { svc with spdm := { Spdm.idle with waiting := [(0x84, [])] } } fun u => u.spdm == Spdm.idle) ∧
    (let q := List.replicate 8 0#8 ++ leBytes 4 0x80 ++ leBytes 4 2
     (leAt q 8 4).testBit 7 = true ∧ (leAt q 12 4).testBit 1 = true ∧
      (sat (.getCapabilities []) (svcSpdm 1) fun u => u.spdm.stage == 2) ∧
      (sat (.getCapabilities []) svc fun u => u.out == [.doe [1, 0, 1, 0, 3, 0, 0, 0, 0x12, 0x7F, 4, 0]]) ∧
      (sat (.negotiateAlgorithms q) (svcSpdm 2) fun u => u.spdm.stage == 3) ∧
      (sat (.getDigests []) (svcSpdm 3) fun u => u.spdm.stage == 3 && u.out.length == 1) ∧
      leAt [0x12, 0x82, 0, 0, 0, 0, 64, 0] 2 1 % 16 = 0 ∧
      (sat (.challenge []) (svcSpdm 3) fun u => u.spdm.stage == 3 && u.out.length == 1) ∧
      (sat (.getMeasurements [0x12, 0xE0, 1, 7]) (svcSpdm 3) fun u => u.spdm.meas == [] && u.out.length == 1) ∧
      sat (.getMeasurements []) (svcSpdm 2) fun u => u.out == [.doe [1, 0, 1, 0, 3, 0, 0, 0, 0x12, 0x7F, 4, 0]]) := by
  and_intros <;> decide +kernel

theorem test_JtagInstructionsAct :
    (let s := { svc with tap := ⟨.extest, 9⟩ }
     pinsHeld s = true ∧ (sat .idcode s fun u => u.out.getLast? == some (.jtag 0x2128096B) && u.out.length == 6) ∧
      (sat .clamp s fun u => u.out == [.boundary (some 9)]) ∧
      sat (.extest (some (5, 6))) s fun u => u.out == [.jtag 5, .boundary (some 6)] && u.tap.boundary == 6) ∧
    ((Instr.jtagDebugAccess 0x10 4 none).wf = true ∧ debugOpen svc = true ∧ Reaches svc Reg.HST_SCRATCH ∧
      debugOpen (put [(Reg.MGT_STATUS_OWNER, 1)] svc) = false ∧
      (sat (.jtagDebugAccess 0x10 4 (some (77, 0))) (put [(Reg.MGT_STATUS_OWNER, 1)] svc) fun u => u == put [(Reg.MGT_STATUS_OWNER, 1)] svc) ∧
      (sat (.jtagDebugAccess 0x10 4 (some (77, 0))) svc fun u => getF u Reg.HST_SCRATCH_VALUE == 77) ∧
      sat (.jtagDebugAccess 0x10 4 none) (put [(Reg.HST_SCRATCH_VALUE, 78)] svc) fun u => u.out == [.readData .jtag 78]) := by
  unfold Reaches; and_intros <;> decide +kernel

/-- In HOLD with a 64 Mbit flash. -/
def svcHold : State := put [(Reg.MGT_STATUS_STAGE, 7), (Reg.CFG_FLASH_DENSITY_MBIT, 64), (Reg.CFG_FLASH_MODE, 2)] svc
def staged (b : List Byte) (n : Nat) : State := { svcHold with img := { svcHold.img with staging := some ⟨false, n, b⟩ } }
/-- What holds of a command is that it runs alone. -/
def alone (op : Nat) (pl : List Byte) (s : State) : Bool :=
  decide ((withCmd op pl s).mbx = [cmdOf op pl]) && decide (runnable (withCmd op pl s) = some (cmdOf op pl))
theorem test_ConfigurationAndFlashCommands :
    (alone 0x0801 [3#8, 0#8] svc = true ∧ nvmWorn svc = false ∧
      (sat .selectProfile (withCmd 0x0801 [3#8, 0#8] svc) fun u => getF u Reg.CFG_STATUS_PENDING == 3 &&
        getF u Reg.CFG_STATUS_PENDING_VALID == 1) ∧
      (sat .selectProfile (withCmd 0x0801 [0xFF#8, 0#8] svc) fun u => getF u Reg.CFG_STATUS_PENDING_VALID == 0) ∧
      sat .selectProfile (withCmd 0x0801 [3#8, 1#8] svc) fun u => u.set.host == [⟨2, 1, false, [3, 0, 0, 0]⟩]) ∧
    (alone 0x0802 [0, 0, 0, 0, 0, 1, 0, 0] svcHold = true ∧ svcHold.img.staging = none ∧
      (sat .loadVolatileBegin (withCmd 0x0802 [0, 0, 0, 0, 0, 1, 0, 0] svcHold) fun u => u.img.staging == some ⟨false, 256, []⟩) ∧
      alone 0x0802 [1, 0, 0, 0, 1, 0, 0, 0, 9] (staged [8] 256) = true ∧
      (sat .loadVolatileChunk (withCmd 0x0802 [1, 0, 0, 0, 1, 0, 0, 0, 9] (staged [8] 256)) fun u =>
        u.img.staging == some ⟨false, 256, [8, 9]⟩) ∧
      (sat .loadVolatileCancel (withCmd 0x0802 [3] (staged [8] 256)) fun u => u.img.staging == none) ∧
      (sat .loadVolatileEnd (withCmd 0x0802 [2] (staged [8] 256)) fun u => u.img.staging == none && stage u == 7) ∧
      alone 0x0802 [2] (staged [8, 9] 2) = true ∧ sat .loadVolatileEnd (withCmd 0x0802 [2] (staged [8, 9] 2)) fun _ => true) ∧
    (alone 0x0803 [] svc = true ∧ alone 0x0810 [] svc = true ∧
      (sat .getConfigStatus (withCmd 0x0803 [] (put [(Reg.CFG_DETAIL_OFFSET, 0x1234)] svc)) fun u =>
        getF u (Reg.MGT_MBX_AREA_WORD 3) == 32 && respByte u 4 == 0x34 && respByte u 5 == 0x12) ∧
      sat .flashInfo (withCmd 0x0810 [] svcHold) fun u => getF u (Reg.MGT_MBX_AREA_WORD 3) == 7 && respByte u 0 == 64 &&
        respByte u 4 == 2) ∧
    (alone 0x0811 [0, 0, 0x7F, 0, 1, 0] svcHold = true ∧ flashBusy svcHold = false ∧ flashSize svcHold = 8388608 ∧
      (sat (.flashRead true) (withCmd 0x0811 [0, 0, 0x7F, 0, 1, 0] svcHold) fun _ => true) ∧
      alone 0x0812 [0, 0xF0, 0x7F, 0, 1, 0] svcHold = true ∧ flashWriteCode svcHold 0x7FF000 4096 = 0 ∧
      (sat (.flashErase true) (withCmd 0x0812 [0, 0xF0, 0x7F, 0, 1, 0] svcHold) fun _ => true) ∧
      alone 0x0813 [0, 0, 0, 0, 0, 0, 0, 0, 5] svcHold = true ∧ flashWriteCode svcHold 0 1 = 0 ∧
      sat (.flashProgram true) (withCmd 0x0813 [0, 0, 0, 0, 0, 0, 0, 0, 5] svcHold) fun _ => true) := by
  and_intros <;> decide +kernel

theorem test_SettingsAndOwnerCommands :
    (let s := put [(Reg.MGT_STATUS_STAGE, 2)] svc
     (Instr.settingsLoad 1 []).wf = true ∧ chipFaulted s = false ∧
      ((List.range 46).map (16 + ·)).filter (halfErased s.nvm) = [] ∧
      sat (.settingsLoad 1 []) s fun u => stage u == 3 && mbxReady u && isSet u Reg.NVS_STATUS_READ_TRANSIENT &&
        getF u Reg.NVS_GENERATION_GENERATION == 0) ∧
    (alone 0x0901 [] svc = true ∧ nvmWorn svc = false ∧ (store (withCmd 0x0901 [] svc) false true).2 = 0 ∧
      (sat (.storeSettings true) (withCmd 0x0901 [] svc) fun u => getF u Reg.NVS_GENERATION_GENERATION == 1 &&
        isSet u Reg.NVS_STATUS_STORE_DONE && getF u (Reg.MGT_MBX_AREA_WORD 2) == 0) ∧
      (sat (.storeSettings false) (withCmd 0x0901 [] svc) fun u => getF u (Reg.MGT_MBX_AREA_WORD 2) == 0x0901 &&
        isSet u Reg.NVS_STATUS_STORE_FAILED) ∧
      alone 0x0902 [] svc = true ∧ (sat .discardSettings (withCmd 0x0902 [] svc) fun u => u.set.host == [])) ∧
    (let s := { svc with set := { svc.set with host := [⟨6, 1, false, [0x3C, 0, 0, 0]⟩] } }
     alone 0x0903 [6, 0, 0] s = true ∧ (shadowRecs s 6)[0]? = some ⟨6, 1, false, [0x3C, 0, 0, 0]⟩ ∧ shadowRecs s 7 = [] ∧
      (sat .readSetting (withCmd 0x0903 [6, 0, 0] s) fun u => getF u (Reg.MGT_MBX_AREA_WORD 3) == 16 && respByte u 8 == 0x3C) ∧
      (sat .readSetting (withCmd 0x0903 [7, 0, 0] s) fun u => getF u (Reg.MGT_MBX_AREA_WORD 2) == 0x0905) ∧
      alone 0x0904 [6, 0, 4, 0, 0, 0, 0, 0, 0x10, 0x0E, 0, 0] s = true ∧ settingOk 6 [0x10, 0x0E, 0, 0] = true ∧
      sat .writeSetting (withCmd 0x0904 [6, 0, 4, 0, 0, 0, 0, 0, 0x10, 0x0E, 0, 0] s) fun u =>
        u.set.host == [⟨6, 1, false, [0x10, 0x0E, 0, 0]⟩]) ∧
    (let s := { svc with nvm := { svc.nvm with life54 := [{ Life.zero with secs := 77 }] } }
     alone 0x0905 [] s = true ∧ lifeLatest s.nvm = some { Life.zero with secs := 77 } ∧
      (sat .readLifetime (withCmd 0x0905 [] s) fun u => respByte u 0 == 77) ∧
      alone 0x0906 [] svc = true ∧ sat .getOwnerNonce (withCmd 0x0906 [] svc) fun _ => true) ∧
    (ownerBase svc = ⟨0, 1, 0, []⟩ ∧ alone 0x0907 [2] svc = true ∧ ownerStep 0 2 false false = some false ∧
      (sat (.setOwnerState true) (withCmd 0x0907 [2] svc) fun u => getF u Reg.MGT_STATUS_OWNER == 2) ∧
      (sat (.setOwnerState false) (withCmd 0x0907 [2] svc) fun u => getF u (Reg.MGT_MBX_AREA_WORD 2) == 0x0901) ∧
      alone 0x0908 (List.replicate 8 0 ++ List.replicate 96 7) svc = true ∧
      sat (.installOwnerKey true) (withCmd 0x0908 (List.replicate 8 0 ++ List.replicate 96 7) svc) fun u =>
        (ownerBase u).key == List.replicate 96 7) ∧
    (let s := { svc with nvm := { svc.nvm with owner48 := [⟨1, 5, 0, [7]⟩] } }
     ownerBase s = ⟨1, 5, 0, [7]⟩ ∧ ownerStep 1 0 true false = some true ∧ alone 0x0907 [0] s = true ∧ freshNonce s = none ∧
      (sat (.setOwnerState true) (withCmd 0x0907 [0] s) fun u => getF u (Reg.MGT_MBX_AREA_WORD 2) == 0x0907) ∧
      freshNonce { s with set := { s.set with nonce := some ⟨[1], 1000000⟩ } } = some [1]) ∧
    (let s := { svc with set := { svc.set with dueAt := some 0 }, time := 1800000000000, sTime := 1800000000000 }
     hwdRuns s = true ∧ (store s true true).2 = 0 ∧ (sat (.automaticStore true) s fun u => u.set.dueAt == none) ∧
      s.set.snapAt = 0 ∧ sat .lifetimeSnapshot s fun u => u.set.snapAt == 1800000000000) := by
  and_intros <;> decide +kernel

/-- A session of the root loader with 2 bytes of 2 received, or of none; a STARTED trial of slot 1. -/
def svcUpd (x : Upd) : State := put [(Reg.MGT_STATUS_OWNER, 2)] { svc with upd := some x }
def svcTrial : State := putSlotSt svc { slotSt svc with trial := 1, tstate := 2 }
theorem test_UpdatesRunThroughASessionAndATrial :
    (let s := { svc with img := { svc.img with dir := [(0x20000, 4096, true), (0x40000, 4096, true)] } }
     alone 0x0A10 [0, 0, 0, 0, 0, 2, 0, 0] s = true ∧ updRefusal s false = 0 ∧ trialOn (slotSt s) = false ∧ slotExtent s 1 = (0x40000, 4096) ∧
      (sat .updateBegin (withCmd 0x0A10 [0, 0, 0, 0, 0, 2, 0, 0] s) fun u => u.upd == some ⟨1, false, 512, 0, 1000000, [], []⟩ &&
        getF u Reg.MGT_UPD_STATE_SESSION == 1) ∧
      alone 0x0A10 [1, 0, 0, 0, 0, 2, 0, 0] s = true ∧ updRefusal s true = 0x0A0A ∧
      sat .updateBegin (withCmd 0x0A10 [1, 0, 0, 0, 0, 2, 0, 0] s) fun u => u.upd == none && getF u (Reg.MGT_MBX_AREA_WORD 2) == 0x0A0A) ∧
    (let s := svcUpd ⟨2, false, 2, 0, 0, [], []⟩
     alone 0x0A11 [0, 0, 0, 0, 0, 0, 0, 0, 5, 6] s = true ∧ updRefusal s true = 0 ∧
      (sat (.updateChunk true) (withCmd 0x0A11 [0, 0, 0, 0, 0, 0, 0, 0, 5, 6] s) fun u =>
        u.upd == some ⟨2, false, 2, 2, 1000000, [], [5, 6]⟩) ∧
      alone 0x0A14 [0] s = true ∧ (sat .updateAbort (withCmd 0x0A14 [0] s) fun u => u.upd == none) ∧
      alone 0x0A11 [0, 0, 0, 0, 0, 0, 0, 0, 5, 6] (svcUpd ⟨0, false, 2, 0, 0, [], []⟩) = true ∧
      updRefusal (svcUpd ⟨0, false, 2, 0, 0, [], []⟩) false = 0 ∧ alone 0x0A12 [0] (svcUpd ⟨0, false, 2, 2, 0, [], []⟩) = true ∧
      alone 0x0A12 [1] (svcUpd ⟨0, false, 2, 2, 0, [], []⟩) = true ∧ alone 0x0A12 [0] (svcUpd ⟨2, false, 2, 2, 0, [], [5, 6]⟩) = true ∧
      sat (.updateCommitLive .clean true) (withCmd 0x0A12 [1] (svcUpd ⟨0, false, 2, 2, 0, [], []⟩)) fun _ => true) ∧
    ((slotSt svcTrial).tstate = 2 ∧ fellBack svcTrial = false ∧ alone 0x0A13 [] svcTrial = true ∧ alone 0x0A14 [1] svcTrial = true ∧
      (sat .updateConfirm (withCmd 0x0A13 [] svcTrial) fun u => (slotSt u).active == 1 && (slotSt u).tstate == 0 &&
        isSet u Reg.MGT_UPD_STATUS_CONFIRMED) ∧
      sat .updateRejectTrial (withCmd 0x0A14 [1] svcTrial) fun u => (slotSt u).tstate == 3 && u.boot.warm == some 2) ∧
    (let s := { svcUpd ⟨2, false, 2, 0, 0, [], []⟩ with time := 150000000000, sTime := 150000000000 }
     hwdRuns s = true ∧ sat .sessionIdleTimeout s fun u => u.upd == none && isSet u Reg.MGT_UPD_STATUS_SESSION_EXPIRED) ∧
    (let s := { svcTrial with time := 300000000000, sTime := 300000000000 }
     s.boot.up = true ∧ (slotSt s).start = 0 ∧ confirmWindow s = 600 ∧
      sat .confirmWindowExpiry s fun u => (slotSt u).tstate == 3 && u.boot.warm == some 2 && isSet u Reg.MGT_UPD_STATUS_FALLBACK) := by
  and_intros <;> decide +kernel

theorem test_FirmwareIsLoadedAndClustersRepaired :
    (let r : Region := ⟨[], List.replicate 12 0#8 ++ [7, 0, 0, 1]⟩
     let s := put [(Reg.MGT_MBX_STATUS_READY, 0)] { svc with hwd := { svc.hwd with handoff := some (1, r) }, loaded := [(33, (1, [9#8]))] }
     hwdRuns s = true ∧ mbxReady s = false ∧ loadedAt s 33 = (1, [9]) ∧
      sat (.heartwoodHandoff []) s fun u => u.hwd.handoff == none && getF u Reg.MGT_STATUS_SLOT == 1 && (loadedAt u 33).1 == 0x1000007) ∧
    (let s := put [(Reg.PRT_PART_STATE_STATE 0, 3)] svcPart
     alone 0x0A20 [0] s = true ∧ updRefusal (withCmd 0x0A20 [0] s) false = 0 ∧ partValid s 0 = true ∧ partState s 0 = 3 ∧
      (sat .loadMicrocode (withCmd 0x0A20 [0] s) fun u => getF u (Reg.MGT_MBX_AREA_WORD 2) == 0 && partState u 0 == 3) ∧
      sat .loadMicrocode (withCmd 0x0A20 [0] svcPart) fun u => getF u (Reg.MGT_MBX_AREA_WORD 2) == 0x0A0C) ∧
    (let s := put [(mapFld 15 79, 83), (mapFld 15 0, 12)] svc
     let pl : List Byte := [2, 15, 79, 15, 0]
     alone 0x0A21 pl s = true ∧ (Instr.repairClusters []).wf = true ∧ (chunks 2 8 (pl.drop 1)).map (fun b => (leAt b 0 1, leAt b 1 1)) = [(15, 79), (15, 0)] ∧
      mapEntry s 15 79 = 83 ∧ isSet s (Reg.GRV_STATUS_ASSIGNED 15) = false ∧
      sat (.repairClusters []) (withCmd 0x0A21 pl s) fun u => physRetired u 15 83 && physRetired u 15 12 &&
        (mapNow u.nvm).map (·.gen) == some 1) := by
  and_intros <;> decide +kernel

/-- S1, the root loader running. -/
def boot1 : State := put [(Reg.MGT_STATUS_STAGE, 1)] svc
theorem test_ColdResetsStartTheBoot :
    (pinsHeld svcModel = false ∧ (sat .porAssert svcModel fun u => u.regs == [] && u.boot.por && u.slots == [] && u.nvm == svcModel.nvm) ∧
      (sat .undervoltage svcModel fun u => u.boot.underV && u.time == 0) ∧ sat (.vaonLoss []) svcModel fun u => u.boot.vaonLost) ∧
    (let s := { State.reset with boot := { Boot.held with por := true } }
     (sat (.porDeassert 3 2 true) s fun u => getF u Reg.HST_STRAPS_PROFSEL == 3 && getF u Reg.FLT_BTN_STATE == 3 &&
        isSet u Reg.FLT_STATUS_BTN_STUCK) ∧
      (sat (.porDeassert 0 1 false) s fun u => getF u Reg.FLT_BTN_LEVEL == 1 && getF u Reg.HST_STRAPS_SMB_ADDR == 1) ∧
      sat (.undervoltageEnd 1 1 false) { s with boot := { s.boot with por := false, underV := true } } fun u => stage u == 0 &&
        heldCold u == false) ∧
    (let s := { State.reset with boot := { Boot.held with por := false, perst := false } }
     heldCold s = false ∧ tripped s = false ∧ stage s = 0 ∧ (getF s Reg.HST_CLK_STATUS_LOCK).testBit 7 = false ∧
      sat .tclkLock s fun u => stage u == 1 && getF u Reg.HST_CLK_STATUS_LOCK == 0x1CA) ∧
    (let s := { boot1 with boot := { boot1.boot with rootOk := false } }
     s.boot.stopped = false ∧ chipFaulted s = false ∧ rootPasses s .clean = true ∧ rootPasses s .headerBad = false ∧
      (sat (.rootLoaderCheck .clean) s fun u => u.boot.rootOk) ∧
      sat (.rootLoaderCheck .headerBad) s fun u => u.boot.stopped && u.fltQueue.any fun r => r.id == 0x18) ∧
    (boot1.boot.rootOk = true ∧ (sat (.flashModeSelect (some ⟨512, true, some 250, 100⟩)) boot1 fun u => stage u == 2 &&
        getF u Reg.CFG_FLASH_MODE == 3 && getF u Reg.CFG_FLASH_MHZ == 200) ∧
      sat (.flashModeSelect none) boot1 fun u => stage u == 7 && getF u Reg.CFG_STATUS_CAUSE == 0x080C) := by
  and_intros <;> decide +kernel

def bootAt (k : Nat) : State :=
  put [(Reg.MGT_STATUS_STAGE, k)] { svc with boot := { svc.boot with up := false, trained := false, tested := false, settled := false } }
theorem test_TheBootReachesService :
    ((Instr.imageCheck [(7, .clean)]).wf = true ∧ stage (bootAt 3) = 3 ∧ bootRuns (bootAt 3) = true) ∧
    (let r : Region := ⟨[], List.replicate 12 0#8 ++ [7, 0, 0, 1]⟩
     let s := { bootAt 4 with hwd := { svc.hwd with handoff := some (1, r) }, nvm := { svc.nvm with root := some [] } }
     hwdRuns s = true ∧ loadedAt s 33 = (0, []) ∧
      sat (.bootHandoff []) s fun u => u.hwd.handoff == none && getF u Reg.MGT_STATUS_SLOT == 1 && mbxReady u) ∧
    ((Instr.channelTrainingDone 0x80000001 1).wf = true ∧ (bootAt 4).boot.trained = false ∧ bootRuns (bootAt 4) = true ∧
      (sat (.channelTrainingDone 0x80000001 1) (bootAt 4) fun u => getF u Reg.MEM_CH_STATUS_TRAIN_FAIL == 1 &&
        getF u Reg.MEM_CH_STATUS_TRAINED == 0xFFFFFFFE && u.boot.trained == false) ∧
      (sat (.channelTrainingDone 0x80000000 1) (bootAt 4) fun u => u.boot.trained && isSet u Reg.MGT_BOOT_INFO_TRAIN_RETRY) ∧
      (Instr.groveSelfTest [(15, 83)]).wf = true ∧ sat (.groveSelfTest [(15, 83)]) (bootAt 4) fun u => physRetired u 15 83 && u.boot.tested) ∧
    (let s := storeByte { bootAt 4 with boot := { (bootAt 4).boot with trained := true, tested := true } } 5 7#8
     s.hwd.handoff = none ∧ sat .layoutComplete s fun u => stage u == 5 && u.dram == []) ∧
    (let s := put [(Reg.CFG_STATUS_CAUSE, 0x0806)] (bootAt 5)
     (List.range 12).any (portTraining s) = false ∧ s.img.chosen = none ∧
      sat .cezlinkPortsSettled s fun u => stage u == 7 && getF u Reg.CFG_STATUS_CAUSE == 0x0806 && u.boot.up) ∧
    (let s := { bootAt 5 with img := { svc.img with chosen := some (false, 3, ⟨[], []⟩) } }
     (sat .cezlinkPortsSettled s fun u => u.boot.settled) ∧
      sat .serviceEntry { s with boot := { s.boot with settled := true } } fun _ => true) := by
  and_intros <;> decide +kernel

theorem test_WarmResetsAndTheButton :
    (let s := { svcStep stepE with boot := { svc.boot with warm := some 3 } }
     s.boot.begun = false ∧ heldCold s = false ∧ tripped s = false ∧
      (sat .warmChipReset s fun u => u.boot.begun && getF u Reg.MGT_BOOT_INFO_KIND == 3 && (lane u 0).cur == none &&
        getF u Reg.MGT_BOOT_INFO_WARM_COUNT == 1) ∧
      (sat .ballastRundownDone (put [(Reg.MGT_STATUS_STAGE, 3)] { s with boot := { s.boot with begun := true } }) fun u => u.slots == [] &&
        u.reqs == [] && stage u == 3 && u.boot.restored)) ∧
    (alone 0x0713 [] svc = true ∧ (sat .resetChip (withCmd 0x0713 [] svc) fun u => u.boot.warm == some 2) ∧
      sat .resetChip (withCmd 0x0713 [] { svc with boot := { svc.boot with warm := some 4 } }) fun u => u.boot.warm == some 4 &&
        getF u (Reg.MGT_MBX_AREA_WORD 2) == 0x0706) ∧
    (let s := put [(Reg.FLT_STATE_CHIP_FAULTED, 1), (Reg.FLT_CTL_F4_HOLD_MS, 1)] { svc with boot := { svc.boot with f4At := some 500000 } }
     s.boot.stopped = false ∧ (sat .f4HoldExpiry s fun u => u.boot.warm == some 1) ∧
      sat .f4HoldExpiry { s with boot := { s.boot with up := false } } fun u => stage u == 1 && isSet u Reg.MGT_BOOT_INFO_RESTARTED) ∧
    (pinsHeld svc = false ∧ (sat .thermtrip svc fun u => tripped u && u.out.getLast? == some (.pin .thermtripN false) &&
        u.fltQueue.any fun r => r.id == 0x1A) ∧
      (sat .perstAssert svc fun u => u.boot.perst && u.fns == [] && u.boot.warm == some 4 && getF u Reg.HST_CLK_STATUS_LOCK == 0x1F7) ∧
      (sat .perstDeassert (put [(Reg.HST_CLK_STATUS_LOCK, 0x1F7)] { svc with boot := { svc.boot with perst := true } }) fun u =>
        getF u Reg.HST_CLK_STATUS_LOCK == 0x1FF) ∧
      sat .hotReset svc fun u => u.fns == [] && u.boot.warm == some 4) ∧
    (btnState svc = 0 ∧ (sat .buttonLowStable svc fun u => btnState u == 1) ∧
      (sat .buttonPress (put [(Reg.FLT_BTN_STATE, 1)] svc) fun u => u.boot.warm == some 3 && getF u Reg.FLT_BTN_PRESSES == 1) ∧
      (sat .buttonStuck (put [(Reg.FLT_BTN_STATE, 1)] svc) fun u => btnState u == 2 && isSet u Reg.FLT_STATUS_BTN_STUCK) ∧
      sat .buttonHonoured (put [(Reg.FLT_BTN_STATE, 3)] svc) fun u => btnState u == 0) ∧
    sat .heartwoodResume (put [(Reg.HST_STATUS_HWD_STATE, 1), (Reg.MGT_MBX_STATUS_READY, 0)] svc) fun u => hwdRuns u && mbxReady u := by
  and_intros <;> decide +kernel

/-- Partition 0 of svcPart traces MARK into a ring of 1 MiB that holds units from WPTR 5 on. -/
def svcTrace (x : Trace) : State :=
  setTrace (setPart (put [(Reg.TRC_TCTL_EN 0, 1), (Reg.TRC_TCTL_KIND_MASK 0, 2), (Reg.TRC_WPTR_WPTR 0, 5),
    (Reg.PRT_REG_LEVEL_LEVEL 0 3, 100)] (svcStep { stepE with running := [(81, task0, 999900)] })) 0
    { Part.idle with traceMib := 1 }) 0 x
theorem test_TraceRecordsFlowThroughTheFifo :
    (let s := put [(Reg.TRC_TCTL_EN 0, 0)] (svcTrace Trace.idle)
     Reaches s (Reg.TRC_TCTL 0) ∧ (Instr.traceEnable 0 1).wf = true ∧ (Instr.traceDisable 0 2).wf = true ∧ ringBytes s 0 ≠ 0 ∧
      (traceOf s 0).skip = [] ∧ (sat (.traceEnable 0 1) s fun u => isSet u (Reg.TRC_TCTL_EN 0) && getF u (Reg.TRC_WPTR_WPTR 0) == 0) ∧
      (sat (.traceEnable 1 1) svc fun u => isSet u (Reg.TRC_TCTL_EN 1) == false) ∧
      sat (.traceDisable 0 2) (svcTrace Trace.idle) fun u => isSet u (Reg.TRC_TCTL_EN 0) == false) ∧
    ((Instr.markBegin 0 81 0xFFFF).wf = true ∧ (lane (svcTrace Trace.idle) 0).cur = some { stepE with running := [(81, task0, 999900)] } ∧
      traceOn (svcTrace Trace.idle) 0 2 = true ∧ fifoUnits (traceOf (svcTrace Trace.idle) 0) < 512 ∧ (traceOf (svcTrace Trace.idle) 0).lost = 0 ∧
      sat (.markEnd 0 81 0xFFFF) (svcTrace Trace.idle) fun u => match (traceOf u 0).fifo with
        | [b] => leAt b 0 1 == 2 && leAt b 1 1 == 4 && leAt b 16 4 == 0xFFFF && leAt b 20 2 == 81
        | _ => false) ∧
    (let s := svcTrace { Trace.idle with fifo := [List.replicate 32 7#8] }
     partValid s 0 = true ∧ 0 < regLevel s 0 3 ∧ ringFull s 0 (List.replicate 32 7#8) = false ∧ translate s 0 (32 * 5 + 31) = some 191 ∧
      (sat (.traceRecordWrite 0) s fun u => (traceOf u 0).fifo == [] && loadByte u 191 == 7#8 && loadByte u 192 == 0#8 &&
        getF u (Reg.TRC_WPTR_WPTR 0) == 6 && regLevel u 0 3 == 68) ∧
      ringFull (put [(Reg.TRC_TCTL_MODE 0, 1), (Reg.TRC_WRAPS_WRAPS 0, 1)] s) 0 (List.replicate 32 7#8) = true ∧
      sat (.traceRecordWrite 0) (put [(Reg.TRC_TCTL_MODE 0, 1), (Reg.TRC_WRAPS_WRAPS 0, 1)] s) fun u => isSet u (Reg.TRC_TCTL_STOPPED_P 0) &&
        isSet u (Reg.TRC_TCTL_EN 0) == false && isSet u Reg.TRC_STATUS_STOPPED) := by
  unfold Reaches; and_intros <;> decide +kernel

theorem test_AStepRunsTheFrontCommand :
    (svc.pending = [] ∧ heldCold svc = false ∧ svc.boot.tclkOnce = true ∧ svc.cancels = [] ∧ svc.scan.due = []) ∧
    (match step { svc with pending := [.idcode, .bypass] } with
      | .next t => t.pending == [.bypass] && t.out == [.jtag 0x2128096B]
      | _ => false) = true ∧
    (match step State.reset with | .next t => t == State.reset | _ => false) = true := by
  and_intros <;> decide +kernel

theorem test_ResetLeavesTheCardsValues :
    (cardAt Reg.HST_ID).map (·.reset) = some 0x1A21280 ∧ (cardAt (Reg.TRC_TCTL 15)).map (·.reset) = some 0x7E := by decide +kernel

/-- The worked values of case 15.2: rises of 2,000, 2,000 and 1,500 mW and a fall of 1,000 under a rise budget of 4,000. -/
theorem test_GrantsKeepTheDomainsBudgets :
    rampGrants [(0, 2000, 0), (1, 2000, 0), (2, 1500, 0), (3, 0, 1000)] 4000 4000 =
      ([(0, 1750), (1, 1750), (2, 1500), (3, 0)], [(0, 0), (1, 0), (2, 0), (3, 1000)]) ∧
    rampGrants [(5, 3, 0), (9, 3, 0)] 5 0 = ([(5, 3), (9, 2)], [(5, 0), (9, 0)]) := by decide +kernel

theorem test_TheTranslatorKeepsPartitionsApart :
    topOf svcPart 0 = 4 * 2032 * 2 ^ 20 ∧ translate svcPart 0 (4 * 2032 * 2 ^ 20 - 1) = some (4 * 2 ^ 31 - 0x1000001) ∧
    translate svcPart 0 (4 * 2032 * 2 ^ 20) = none ∧ translate svcPart 0 0x5001 = some (2 ^ 31 + 0x1001) ∧
    translate (put [(Reg.PRT_PART_CFG_FIRST_GROVE 1, 2), (Reg.PRT_PART_CFG_GROVES 1, 14)] svcPart) 1 0 = some (4 * 2 ^ 31) := by decide +kernel

theorem test_EveryStepKeepsTheTimesBound :
    TimesOk svc ∧ TimesOk { svc with time := 1000003, aTime := 999972, sTime := 999998, mTime := 1000003 } ∧ ¬TimesOk { svc with time := 1000004 } ∧
    ¬TimesOk { svc with qTime := 1000001 } := by
  unfold TimesOk within; and_intros <;> decide +kernel

theorem test_EveryStepKeepsMemoryCanonical :
    MemOk (storeByte (storeByte svc 9 1#8) 5 2#8) ∧ (storeByte (storeByte svc 9 1#8) 5 2#8).dram = [(5, 2#8), (9, 1#8)] ∧
    (storeByte (storeByte svc 9 1#8) 9 0#8).dram = [] := by
  unfold MemOk; decide +kernel

end Sys2Proof.Tests
end

section
set_option Elab.async false
/-! ## Frames: what a command leaves alone

The lemmas of this part say, once for each shared operation, which areas of the state it may change. A `Frame` is
transitive, so the frame of an operation follows from those of the operations it is written with. Bookkeeping that no
statement here reads (counters, trace, messages, slices, pages, links, power) belongs to no area. -/
namespace Sys2Proof.Machine

/-- The areas of the state the frames speak of: five families of registers, the holder and acknowledges of each lane, and
named fields of `State`. -/
inductive Area where
  | rings | abn | layout | groves | chip
  | dram | reqs | cohorts | admQ | lanes | holders | cqs | ctxs | slots | clocks | faults | cancels | held
  deriving DecidableEq

/-- The area of a register, if it is in one: submission and completion rings (without the counters of refused and stale
items), a lane's flags with its abandon log, modes and partitions, STATE of a grove, boot stage and fault state. -/
def areaOf (k : Nat) : Option Area :=
  if k / 0x100000 = 4 ∧ ¬(k % 0x1000 < 0x100 ∧ k % 0x40 = 0x1C) then some .rings
  else if k / 0x100000 = 6 ∧ (k % 0x10000 = 0x10 ∨ 0x800 ≤ k % 0x10000) then some .abn
  else if k / 0x100000 = 9 ∧ k < 0x902000 then some .layout
  else if 0x1000000 ≤ k ∧ k % 0x40000 = 0 then some .groves
  else if k / 0x100000 = 1 ∨ k / 0x100000 = 14 then some .chip
  else none

/-- The registers of an area, as a command sees them. -/
def seen (q : Area) (s : State) (k : Nat) : Option (BitVec 64) := if areaOf k = some q then some (rd s k) else none

/-- The step that holds the groves of a partition, and the acknowledges of ABANDON that are outstanding. -/
def holderOf (s : State) (p : Nat) : Option Step × List Nat := ((lane s p).cur, (lane s p).acks)

/-- The area is in `u` as it is in `s`. -/
def Area.Same (s u : State) : Area → Prop
  | .dram => u.dram = s.dram
  | .reqs => u.reqs = s.reqs
  | .cohorts => u.cohorts = s.cohorts
  | .admQ => u.admQ = s.admQ
  | .lanes => u.lanes = s.lanes
  | .holders => holderOf u = holderOf s
  | .cqs => u.cqs = s.cqs
  | .ctxs => u.ctxs = s.ctxs
  | .slots => u.slots = s.slots
  | .clocks => (u.qTime, u.aTime) = (s.qTime, s.aTime)
  | .faults => u.fltQueue = s.fltQueue
  | .cancels => u.cancels = s.cancels
  | .held => u.held = s.held
  | q => seen q u = seen q s

/-- Nothing but the areas `ps` may differ. -/
def Frame (ps : List Area) (s u : State) : Prop := ∀ q, q ∉ ps → q.Same s u

namespace Frame
variable {ps qs : List Area} {s t u : State}

theorem refl (s : State) : Frame ps s s := by rintro ⟨⟩ - <;> rfl

theorem trans (h : Frame ps s t) (g : Frame ps t u) : Frame ps s u := by
  rintro q hq
  have h1 := h q hq
  have h2 := g q hq
  cases q <;> exact h2.trans h1

/-- As `trans`, the last operation first. -/
theorem after (g : Frame ps t u) (h : Frame ps s t) : Frame ps s u := h.trans g

/-- What no area holds may change at will. -/
theorem of_core (h : (u.regs, u.dram, u.reqs, u.cohorts, u.admQ, u.lanes, u.cqs, u.ctxs, u.slots, u.qTime, u.aTime, u.fltQueue,
    u.cancels, u.held) = (s.regs, s.dram, s.reqs, s.cohorts, s.admQ, s.lanes, s.cqs, s.ctxs, s.slots, s.qTime, s.aTime, s.fltQueue,
    s.cancels, s.held)) : Frame ps s u := by
  simp only [Prod.mk.injEq] at h
  obtain ⟨h1, h2, h3, h4, h5, h6, h7, h8, h9, h10, h11, h12, h13, h14⟩ := h
  have hr (q : Area) : Machine.seen q u = Machine.seen q s := by unfold Machine.seen Machine.rd; rw [h1]
  have hl : holderOf u = holderOf s := by unfold holderOf Machine.lane; rw [h6]
  rintro ⟨⟩ - <;> simp only [Area.Same] <;> simp only [*]

/-- A frame is a frame of more areas. -/
theorem up (h : Frame qs s u) (le : (qs.all fun q => ps.contains q) = true := by decide) : Frame ps s u := fun q hq =>
  h q fun hm => hq (by simpa using List.all_eq_true.mp le q hm)

/-- Either branch has the frame. -/
theorem ite {P : Prop} [Decidable P] (h : Frame ps s t) (g : Frame ps s u) : Frame ps s (if P then t else u) := by
  split
  · exact h
  · exact g

/-- A fold of operations has the frame they have in common. -/
theorem foldl {α : Type} {f : State → α → State} (h : ∀ a x, Frame ps a (f a x)) (l : List α) (s : State) :
    Frame ps s (l.foldl f s) := by
  induction l generalizing s with
  | nil => exact refl s
  | cons x xs ih => exact (h s x).trans (ih _)

theorem dram (h : Frame ps s u) (n : Area.dram ∉ ps := by decide) : u.dram = s.dram := h _ n
theorem reqs (h : Frame ps s u) (n : Area.reqs ∉ ps := by decide) : u.reqs = s.reqs := h _ n
theorem cohorts (h : Frame ps s u) (n : Area.cohorts ∉ ps := by decide) : u.cohorts = s.cohorts := h _ n
theorem admQ (h : Frame ps s u) (n : Area.admQ ∉ ps := by decide) : u.admQ = s.admQ := h _ n
theorem lanes (h : Frame ps s u) (n : Area.lanes ∉ ps := by decide) : u.lanes = s.lanes := h _ n
theorem cqs (h : Frame ps s u) (n : Area.cqs ∉ ps := by decide) : u.cqs = s.cqs := h _ n
theorem ctxs (h : Frame ps s u) (n : Area.ctxs ∉ ps := by decide) : u.ctxs = s.ctxs := h _ n
theorem slots (h : Frame ps s u) (n : Area.slots ∉ ps := by decide) : u.slots = s.slots := h _ n
theorem faults (h : Frame ps s u) (n : Area.faults ∉ ps := by decide) : u.fltQueue = s.fltQueue := h _ n
theorem cancels (h : Frame ps s u) (n : Area.cancels ∉ ps := by decide) : u.cancels = s.cancels := h _ n
theorem held (h : Frame ps s u) (n : Area.held ∉ ps := by decide) : u.held = s.held := h _ n
theorem qTime (h : Frame ps s u) (n : Area.clocks ∉ ps := by decide) : u.qTime = s.qTime := congrArg Prod.fst (h _ n)
theorem aTime (h : Frame ps s u) (n : Area.clocks ∉ ps := by decide) : u.aTime = s.aTime := congrArg Prod.snd (h _ n)

theorem holder (h : Frame ps s u) (p : Nat) (n : Area.holders ∉ ps := by decide) : (lane u p).cur = (lane s p).cur :=
  congrArg Prod.fst (congrFun (h _ n) p)
theorem acks (h : Frame ps s u) (p : Nat) (n : Area.holders ∉ ps := by decide) : (lane u p).acks = (lane s p).acks :=
  congrArg Prod.snd (congrFun (h _ n) p)

theorem lane (h : Frame ps s u) (p : Nat) (n : Area.lanes ∉ ps := by decide) : lane u p = lane s p := by
  unfold Machine.lane; rw [h.lanes n]
theorem req (h : Frame ps s u) (i : Nat) (n : Area.reqs ∉ ps := by decide) : req? u i = req? s i := by
  unfold req?; rw [h.reqs n]
theorem cohort (h : Frame ps s u) (i : Nat) (n : Area.cohorts ∉ ps := by decide) : cohort? u i = cohort? s i := by
  unfold cohort?; rw [h.cohorts n]
theorem queue (h : Frame ps s u) (i j : Nat) (n : Area.admQ ∉ ps := by decide) : admQueue u i j = admQueue s i j := by
  unfold admQueue; rw [h.admQ n]
theorem cq (h : Frame ps s u) (i j : Nat) (n : Area.cqs ∉ ps := by decide) : cq u i j = cq s i j := by
  unfold Machine.cq; rw [h.cqs n]
theorem ctx (h : Frame ps s u) (i : Nat) (n : Area.ctxs ∉ ps := by decide) : ctx? u i = ctx? s i := by
  unfold ctx?; rw [h.ctxs n]
theorem mem (h : Frame ps s u) (n : Area.dram ∉ ps := by decide) : SameMem s u := fun a => by
  unfold loadByte; rw [h.dram n]

theorem seen (h : Frame ps s u) {q : Area} (n : q ∉ ps)
    (reg : q = .rings ∨ q = .abn ∨ q = .layout ∨ q = .groves ∨ q = .chip) : seen q u = seen q s := by
  have := h q n
  rcases reg with rfl | rfl | rfl | rfl | rfl <;> exact this

/-- A register of an area that is left alone reads as before. -/
theorem rd (h : Frame ps s u) {k : Nat} (q : Area) (hk : areaOf k = some q) (n : q ∉ ps := by decide) :
    rd u k = rd s k := by
  have reg : q = .rings ∨ q = .abn ∨ q = .layout ∨ q = .groves ∨ q = .chip := by
    unfold areaOf at hk; split_ifs at hk <;> simp_all
  simpa [Machine.seen, hk] using congrFun (h.seen n reg) k

theorem getF (h : Frame ps s u) {f : Fld} (q : Area) (hk : areaOf f.key = some q) (n : q ∉ ps := by decide) :
    getF u f = getF s f := by unfold Machine.getF; rw [h.rd q hk n]

end Frame

/-! ### Where the registers lie -/

/-- The registers from `a` to `b` lie in one block, and no frame speaks of a register of it: those of another block
than MGT, RQI, CMP, PRT, FLT and GRV, or what follows the partitions in PRT. -/
def plain (a b : Nat) : Bool :=
  a / 0x100000 == b / 0x100000 &&
    ([0, 2, 3, 5, 7, 8, 10, 11, 12, 13].contains (a / 0x100000) || decide (0x902000 ≤ a) && a / 0x100000 == 9)

theorem areaOf_of_plain {a b k : Nat} (h : plain a b = true) (ha : a ≤ k) (hb : k ≤ b) : areaOf k = none := by
  simp only [plain, Bool.and_eq_true, Bool.or_eq_true, beq_iff_eq, decide_eq_true_eq, List.contains_eq_mem, List.mem_cons,
    List.not_mem_nil, or_false] at h
  unfold areaOf
  rw [if_neg (by omega), if_neg (by omega), if_neg (by omega), if_neg (by omega), if_neg (by omega)]

theorem plain0 {a : Nat} (h : plain a a = true := by decide) : areaOf a = none := areaOf_of_plain h le_rfl le_rfl

theorem plain1 {a i m c : Nat} (h : plain a (a + (m - 1) * c) = true := by decide) (hm : 0 < m := by decide) :
    areaOf (a + i % m * c) = none :=
  areaOf_of_plain h (by omega) (by have := Nat.mul_le_mul_right c (Nat.le_sub_one_of_lt (Nat.mod_lt i hm)); omega)

theorem plain2 {a i m c j n d : Nat} (h : plain a (a + (m - 1) * c + (n - 1) * d) = true := by decide)
    (hm : 0 < m := by decide) (hn : 0 < n := by decide) : areaOf (a + i % m * c + j % n * d) = none :=
  areaOf_of_plain h (by omega) (by
    have := Nat.mul_le_mul_right c (Nat.le_sub_one_of_lt (Nat.mod_lt i hm))
    have := Nat.mul_le_mul_right d (Nat.le_sub_one_of_lt (Nat.mod_lt j hn))
    omega)

theorem plain3 {a i m c j n d k l e : Nat} (h : plain a (a + (m - 1) * c + (n - 1) * d + (l - 1) * e) = true := by decide)
    (hm : 0 < m := by decide) (hn : 0 < n := by decide) (hl : 0 < l := by decide) :
    areaOf (a + i % m * c + j % n * d + k % l * e) = none :=
  areaOf_of_plain h (by omega) (by
    have := Nat.mul_le_mul_right c (Nat.le_sub_one_of_lt (Nat.mod_lt i hm))
    have := Nat.mul_le_mul_right d (Nat.le_sub_one_of_lt (Nat.mod_lt j hn))
    have := Nat.mul_le_mul_right e (Nat.le_sub_one_of_lt (Nat.mod_lt k hl))
    omega)

/-- Registers of a lane but its flags, and those of its contexts. -/
theorem plainLane {a p : Nat} (h : (decide (0x600000 ≤ a) && decide (a < 0x600800) && a != 0x600010) = true := by decide) :
    areaOf (a + p % 16 * 0x10000) = none := by
  simp only [Bool.and_eq_true, decide_eq_true_eq, bne_iff_ne] at h
  unfold areaOf
  rw [if_neg (by omega), if_neg (by omega), if_neg (by omega), if_neg (by omega), if_neg (by omega)]

theorem plainCtx {a p n : Nat} (h : (decide (0x600100 ≤ a) && decide (a < 0x600700)) = true := by decide) :
    areaOf (a + p % 16 * 0x10000 + n % 32 * 4) = none := by
  simp only [Bool.and_eq_true, decide_eq_true_eq] at h
  unfold areaOf
  rw [if_neg (by omega), if_neg (by omega), if_neg (by omega), if_neg (by omega), if_neg (by omega)]

/-- Registers of a grove but GRV_STATUS. -/
theorem plainGrove {a g : Nat} (h : (decide (0x1000000 < a) && decide (a < 0x1040000)) = true := by decide) :
    areaOf (a + g % 16 * 0x40000) = none := by
  simp only [Bool.and_eq_true, decide_eq_true_eq] at h
  unfold areaOf
  rw [if_neg (by omega), if_neg (by omega), if_neg (by omega), if_neg (by omega), if_neg (by omega)]

theorem areaOf_grvStatus {g : Nat} : areaOf (Reg.GRV_STATUS g) = some .groves := by
  unfold areaOf Reg.GRV_STATUS
  rw [if_neg (by omega), if_neg (by omega), if_neg (by omega), if_pos (by omega)]

/-- CMP_STATUS, CMP_ABN_LOG and CMP_ABN_PTR. -/
theorem areaOf_cmpStatus {p : Nat} : areaOf (Reg.CMP_STATUS p) = some .abn := by
  unfold areaOf Reg.CMP_STATUS
  rw [if_neg (by omega), if_pos (by omega)]
theorem areaOf_abnLog {p k : Nat} : areaOf (Reg.CMP_ABN_LOG p k) = some .abn := by
  unfold areaOf Reg.CMP_ABN_LOG
  rw [if_neg (by omega), if_pos (by omega)]
theorem areaOf_abnPtr {p : Nat} : areaOf (Reg.CMP_ABN_PTR p) = some .abn := by
  unfold areaOf Reg.CMP_ABN_PTR
  rw [if_neg (by omega), if_pos (by omega)]

theorem areaOf_partCfg {p : Nat} : areaOf (Reg.PRT_PART_CFG p) = some .layout := by
  unfold areaOf Reg.PRT_PART_CFG
  rw [if_neg (by omega), if_neg (by omega), if_pos (by omega)]

theorem areaOf_sqHead {t r : Nat} : areaOf (Reg.RQI_SQ_HEAD t r) = some .rings := by
  unfold areaOf Reg.RQI_SQ_HEAD
  rw [if_pos (by omega)]
theorem areaOf_sqCfg {t r : Nat} : areaOf (Reg.RQI_SQ_CFG t r) = some .rings := by
  unfold areaOf Reg.RQI_SQ_CFG
  rw [if_pos (by omega)]
theorem areaOf_sqCnt {t r : Nat} : areaOf (Reg.RQI_SQ_CNT t r) = none := by
  unfold areaOf Reg.RQI_SQ_CNT
  rw [if_neg (by omega), if_neg (by omega), if_neg (by omega), if_neg (by omega), if_neg (by omega)]

section
variable {s : State}

theorem wr_frame (s : State) (k : Nat) (v : BitVec 64) : Frame (areaOf k).toList s (wr s k v) := by
  have key (q : Area) (hq : q ∉ (areaOf k).toList) : seen q (wr s k v) = seen q s := by
    funext j
    unfold seen
    split
    · next h => rw [rd_wr_other]; rintro rfl; exact hq (by simp [h])
    · rfl
  intro q hq
  cases q with
  | rings | abn | layout | groves | chip => exact key _ hq
  | _ => rfl

/-- A write of a register of no area leaves every area alone. -/
theorem wr_quiet {k : Nat} (v : BitVec 64) (h : areaOf k = none) : Frame [] s (wr s k v) := by
  have := wr_frame s k v; rwa [h] at this

theorem setF_quiet {f : Fld} {x : Nat} (h : areaOf f.key = none) : Frame [] s (setF s f x) := wr_quiet _ h
theorem bump_quiet {f : Fld} {x : Nat} (h : areaOf f.key = none) : Frame [] s (bump s f x) := wr_quiet _ h
theorem bumpSat_quiet {f : Fld} {x : Nat} (h : areaOf f.key = none) : Frame [] s (bumpSat s f x) := wr_quiet _ h
theorem lower_quiet {f : Fld} {x : Nat} (h : areaOf f.key = none) : Frame [] s (lower s f x) := wr_quiet _ h
theorem resetReg_quiet {k : Nat} (h : areaOf k = none) : Frame [] s (resetReg s k) := wr_quiet _ h

theorem setF_frame {f : Fld} {x : Nat} (q : Area) (h : areaOf f.key = some q) : Frame [q] s (setF s f x) := by
  have := wr_frame s f.key (putField (rd s f.key) f.lo f.w x); rwa [h] at this

theorem raise_frame (s : State) (f : Fld) : Frame (areaOf f.key).toList s (raise s f) := by
  rw [raise_fields]
  intro q hq
  have := wr_frame s f.key (putField (rd s f.key) f.lo f.w 1) q hq
  cases q <;> exact this

theorem raise_area {f : Fld} (q : Area) (h : areaOf f.key = some q) : Frame [q] s (raise s f) := by
  have := raise_frame s f; rwa [h] at this

theorem raise_quiet {f : Fld} (h : areaOf f.key = none) : Frame [] s (raise s f) := by
  have := raise_frame s f; rwa [h] at this

end

end Sys2Proof.Machine
end

section
set_option Elab.async false
namespace Sys2Proof.Machine
variable {s : State}

/-! ### Updates of a field -/

theorem setReq_frame {i : Nat} {x : Option Req} : Frame [.reqs] s (setReq s i x) := by
  intro q h
  cases q with
  | reqs => simp at h
  | _ => rfl
theorem setCohort_frame {i : Nat} {x : Option Cohort} : Frame [.cohorts] s (setCohort s i x) := by
  intro q h
  cases q with
  | cohorts => simp at h
  | _ => rfl
theorem setAdmQueue_frame {t c : Nat} {x : List Nat} : Frame [.admQ] s (setAdmQueue s t c x) := by
  intro q h
  cases q with
  | admQ => simp at h
  | _ => rfl
theorem setCq_frame {t c : Nat} {x : Cq} : Frame [.cqs] s (setCq s t c x) := by
  intro q h
  cases q with
  | cqs => simp at h
  | _ => rfl
theorem setCtx_frame {g : Nat} {x : Option Ctx} : Frame [.ctxs] s (setCtx s g x) := by
  intro q h
  cases q with
  | ctxs => simp at h
  | _ => rfl
theorem setSlot_frame {n : Nat} {x : Option Slot} : Frame [.slots] s (setSlot s n x) := by
  intro q h
  cases q with
  | slots => simp at h
  | _ => rfl
theorem zeroWhere_frame {f : Nat → Bool} : Frame [.dram] s (zeroWhere s f) := by
  intro q h
  cases q with
  | dram => simp at h
  | _ => rfl
theorem storeByte_frame {a : Nat} {b : Byte} : Frame [.dram] s (storeByte s a b) := by
  intro q h
  cases q with
  | dram => simp at h
  | _ => rfl
theorem setLane_frame {p : Nat} {l : Lane} : Frame [.lanes, .holders] s (setLane s p l) := by
  intro q h
  cases q with
  | lanes | holders => simp at h
  | _ => rfl

/-- A change of a lane that keeps its holder and its acknowledges. -/
theorem setLane_keeps {p : Nat} {l : Lane} (hc : l.cur = (lane s p).cur) (ha : l.acks = (lane s p).acks) :
    Frame [.lanes] s (setLane s p l) := by
  intro q hq
  by_cases h : q = .holders
  · subst h
    funext i
    simp only [holderOf, lane_setLane]
    split
    · next e => rw [e, hc, ha]
    · rfl
  · exact setLane_frame q (by simp_all)

theorem setL2_quiet {k : Nat} {x : Option L2Line} : Frame [] s (setL2 s k x) := .of_core rfl
theorem setPage_quiet {p i : Nat} {x : Page} : Frame [] s (setPage s p i x) := .of_core rfl
theorem setHeld_frame {p k : Nat} {x : Held} : Frame [.held] s (setHeld s p k x) := by
  intro q h
  cases q with
  | held => simp at h
  | _ => rfl
theorem setTrace_quiet {p : Nat} {x : Trace} : Frame [] s (setTrace s p x) := .of_core rfl
theorem setPort_quiet {n : Nat} {x : Port} : Frame [] s (setPort s n x) := .of_core rfl
theorem setGroup_quiet {n : Nat} {x : Option Group} : Frame [] s (setGroup s n x) := .of_core rfl
theorem setSq_quiet {t r : Nat} {x : Sq} : Frame [] s (setSq s t r x) := .of_core rfl
theorem setDedup_quiet {t : Nat} {x : List (Nat × Nat)} : Frame [] s (setDedup s t x) := .of_core rfl
theorem setCluster_quiet {c : Nat} {x : Cluster} : Frame [] s (setCluster s c x) := .of_core rfl
theorem draw_quiet : Frame [] s (draw s).2 := .of_core rfl
theorem emit_quiet {x : Tx} : Frame [] s (emit s x) := .of_core rfl

/-! ### Slices -/

theorem countGrove_quiet {g k n : Nat} : Frame [] s (countGrove s g k n) := by
  unfold countGrove; split
  · exact .refl _
  · exact bump_quiet plain2

theorem dropLine_quiet {x : Nat} : Frame [] s (dropLine s x) := by
  unfold dropLine; split
  · exact .after countGrove_quiet setL2_quiet
  · exact .refl _

theorem allocate_quiet {who : Agent} {w : Bool} {x : Nat} : Frame [] s (allocate s who w x) := by
  unfold allocate; split
  · exact .refl _
  · exact .after setL2_quiet (.after (.foldl (fun _ _ => dropLine_quiet) _ _) draw_quiet)

theorem touchLine_quiet {who : Agent} {w : Bool} {x n : Nat} : Frame [] s (touchLine s who w x n) := by
  unfold touchLine
  split <;> dsimp only <;> split
  · exact .after countGrove_quiet (.after dropLine_quiet countGrove_quiet)
  · exact countGrove_quiet
  · exact .after setL2_quiet countGrove_quiet
  · exact .after countGrove_quiet countGrove_quiet
  · exact .after countGrove_quiet countGrove_quiet
  · exact .after countGrove_quiet (.after allocate_quiet countGrove_quiet)

theorem touch_quiet {who : Agent} {w : Bool} {x n : Nat} : Frame [] s (touch s who w x n) :=
  .foldl (fun _ _ => touchLine_quiet) _ _

theorem touchPart_quiet {p : Nat} {who : Agent} {w : Bool} {a n : Nat} : Frame [] s (touchPart s p who w a n) :=
  .foldl (fun b e => by
    cases translate b p (128 * e.1) with
    | some x => exact touchLine_quiet
    | none => exact .refl _) _ _

theorem storeAt_frame {p a : Nat} {b : Byte} : Frame [.dram] s (storeAt s p a b).1 := by
  unfold storeAt; split
  · exact storeByte_frame
  · exact .refl _

theorem storePart_frame {p : Nat} (bs : List Byte) : ∀ (s : State) (a : Nat), Frame [.dram] s (storePart s p a bs).1 := by
  induction bs with
  | nil => exact fun s _ => .refl s
  | cons b bs ih => exact fun s a => .trans storeAt_frame (ih _ _)

theorem writePart_frame {p : Nat} {who : Agent} {a : Nat} {bs : List Byte} : Frame [.dram] s (writePart s p who a bs).1 :=
  .trans (storePart_frame bs s a) touchPart_quiet.up

/-! ### Request Table entries in SRAM, pages, charges -/

theorem dropEntry_quiet {i : Nat} : Frame [] s (dropEntry s i) := .of_core rfl

theorem moveEntry_quiet {w : Bool} {i : Nat} : Frame [] s (moveEntry s w i) := touch_quiet

theorem spillEntry_quiet : Frame [] s (spillEntry s) := by
  unfold spillEntry; split
  · exact .refl _
  · split
    · exact .after (bump_quiet plain1) (.after moveEntry_quiet dropEntry_quiet)
    · exact .refl _

theorem useEntry_quiet {i : Nat} : Frame [] s (useEntry s i) := by
  unfold useEntry; split
  · exact .of_core rfl
  · refine .trans (t := if (req? s i).isSome then _ else _) ?_ (.of_core rfl)
    split
    · exact .after (bump_quiet plain1) (.after moveEntry_quiet spillEntry_quiet)
    · exact spillEntry_quiet

theorem useEntries_quiet {is : List Nat} : Frame [] s (useEntries s is) := .foldl (fun _ _ => useEntry_quiet) _ _

theorem mapPages_quiet {p : Nat} {f : PageUse → Bool} {g : PageUse → PageUse} : Frame [] s (mapPages s p f g) :=
  .foldl (fun _ _ => setPage_quiet) _ _

theorem freeWhere_quiet {p : Nat} {f : PageUse → Bool} : Frame [] s (freeWhere s p f) := mapPages_quiet

theorem freeStaged_quiet {p : Nat} {plan : List PlanItem} : Frame [] s (freeStaged s p plan) := freeWhere_quiet

theorem assignPage_frame {p i : Nat} {u : PageUse} {o : PageOwner} : Frame [.dram] s (assignPage s p i u o) := by
  unfold assignPage; dsimp only; split
  · exact setPage_quiet.up
  · exact .after setPage_quiet.up zeroWhere_frame

theorem takePages_frame {p : Nat} {us : List PageUse} {o : PageOwner} {u : State} (h : takePages s p us o = some u) :
    Frame [.dram] s u := by
  unfold takePages at h
  split at h
  · cases h; exact .foldl (fun _ _ => assignPage_frame) _ _
  · cases h

theorem charge_quiet {t n : Nat} : Frame [] s (charge s t n) := bump_quiet plain1
theorem credit_quiet {t n : Nat} : Frame [] s (credit s t n) := lower_quiet plain1

/-! ### Regulators, trace and links -/

theorem setRegLevel_quiet {p k : Nat} {x : Int} : Frame [] s (setRegLevel s p k x) := setF_quiet plain2

theorem chargeOnly_quiet {p k n : Nat} : Frame [] s (chargeOnly s p k n) := by
  unfold chargeOnly; split
  · exact setRegLevel_quiet
  · exact .refl _

theorem chargeTenant_quiet {t k n : Nat} : Frame [] s (chargeTenant s t k n) := by
  unfold chargeTenant; split
  · exact chargeOnly_quiet
  · exact .refl _

theorem dropWaits_frame {f : HeldFor → Bool} : Frame [.held] s (dropWaits s f) := by
  intro q h
  cases q with
  | held => simp at h
  | _ => rfl

theorem sendPage_quiet {p i pg k : Nat} : Frame [] s (sendPage s p i pg k) := by
  unfold sendPage; split
  · exact .refl _
  · dsimp only; split
    · exact .after emit_quiet (.after emit_quiet touchPart_quiet)
    · exact .after emit_quiet touchPart_quiet

theorem waitIssued_frame {p : Nat} {e : HeldFor × Nat} : Frame [.dram] s (waitIssued p s e) := by
  unfold waitIssued; split
  · exact sendPage_quiet.up
  · exact .foldl (fun _ _ => writePart_frame) _ _
  · exact .refl _

theorem issueHeld_frame {p k : Nat} : Frame [.dram, .held] s (issueHeld s p k) :=
  .after setHeld_frame.up (.after (.foldl (fun _ _ => waitIssued_frame.up) _ _) setRegLevel_quiet.up)

theorem chargeHeld_frame {p k : Nat} {f : HeldFor} {n : Nat} : Frame [.dram, .held] s (chargeHeld s p k f n) := by
  unfold chargeHeld; split
  · exact .after issueHeld_frame setHeld_frame.up
  · exact waitIssued_frame.up

theorem lossRecord_quiet {p : Nat} : Frame [] s (lossRecord s p) := by
  unfold lossRecord; dsimp only; split
  · exact setTrace_quiet
  · exact .refl _

theorem loseTrace_quiet {p t : Nat} : Frame [] s (loseTrace s p t) :=
  .after (raise_quiet plain0) (.after (bump_quiet plain2) setTrace_quiet)

theorem traceRec_quiet {p k t : Nat} {bs : List Byte} : Frame [] s (traceRec s p k t bs) := by
  unfold traceRec; split
  · exact .refl _
  · dsimp only; split
    · exact .after setTrace_quiet lossRecord_quiet
    · exact .after loseTrace_quiet lossRecord_quiet

theorem stepRecord_quiet {p : Nat} {st : Step} {e : Nat} : Frame [] s (stepRecord s p st e) := traceRec_quiet

theorem traceWait_quiet {p g tag a b o i : Nat} {x y : Nat × Nat} {z : Bool} : Frame [] s (traceWait s p g tag a b o i x y z) := by
  unfold traceWait; dsimp only; split
  · exact .refl _
  · exact traceRec_quiet

theorem leaveBuffer_quiet {n k : Nat} : Frame [] s (leaveBuffer s n k) := by
  unfold leaveBuffer sendControl freeBuffer; split
  · exact .after emit_quiet setPort_quiet
  · exact .refl _

theorem sendFlit_quiet {n : Nat} {u : State} (h : sendFlit s n = some u) : Frame [] s u := by
  unfold sendFlit at h
  dsimp only at h
  split at h
  · cases h
  · split at h
    · cases h
    · split at h
      · cases h
      · rw [← Option.some.inj h]
        exact .after leaveBuffer_quiet (.after (bump_quiet plain1) (.after emit_quiet setPort_quiet))

theorem pump_quiet {n : Nat} (fuel : Nat) : ∀ s : State, Frame [] s (pump n fuel s) := by
  induction fuel with
  | zero => exact fun s => .refl s
  | succ k ih =>
    intro s
    unfold pump; split
    · next h => exact (sendFlit_quiet h).trans (ih _)
    · exact .refl _

theorem countIdle_quiet {n : Nat} : Frame [] s (countIdle s n) := setPort_quiet

theorem queueFlits_quiet {n i : Nat} {fs : List Flit} : Frame [] s (queueFlits s n i fs) :=
  .after (pump_quiet _ _) (.after countIdle_quiet setPort_quiet)

theorem sendFlits_quiet {n : Nat} {fs : List Flit} : Frame [] s (sendFlits s n fs).1 := by
  unfold sendFlits; dsimp only; split
  · exact .refl _
  · split
    · exact queueFlits_quiet
    · exact .after (raise_quiet plain0) (bumpSat_quiet plain0)

/-- The next message has the next number. -/
theorem msgNo_quiet {n : Nat} : Frame [] s { s with msgNo := n } := .of_core rfl

theorem sendBare_quiet {n : Nat} {m : LinkMsg} : Frame [] s (sendBare s n m) := by
  unfold sendBare; dsimp only; split
  · exact .after emit_quiet (.after sendFlits_quiet msgNo_quiet)
  · exact .after sendFlits_quiet msgNo_quiet

theorem launch_quiet {p g tag n no : Nat} {m : LinkMsg} : Frame [] s (launch s p g tag n no m).1 := by
  unfold launch; dsimp only; split
  · exact sendFlits_quiet
  · refine .after emit_quiet ?_
    split
    · exact .after traceRec_quiet sendFlits_quiet
    · exact sendFlits_quiet

theorem sendMsg_quiet {p g tag n : Nat} {m : LinkMsg} : Frame [] s (sendMsg s p g tag n m) := by
  unfold sendMsg; dsimp only; split
  · exact .after chargeOnly_quiet (.after launch_quiet msgNo_quiet)
  · exact .after launch_quiet msgNo_quiet

theorem sendIssued_frame {p : Nat} : Frame [.held] s (sendIssued s p) :=
  .after (.foldl (fun _ w => by
    split
    · exact launch_quiet.up
    · exact .refl _) _ _) setHeld_frame

theorem sendBulk_frame {p n k : Nat} {m : LinkMsg} : Frame [.dram, .held] s (sendBulk s p n k m) :=
  .after sendIssued_frame.up (.after chargeHeld_frame msgNo_quiet.up)

end Sys2Proof.Machine
end

section
set_option Elab.async false
namespace Sys2Proof.Machine
variable {s : State}

/-! ### Requests that are admitted and that end -/

/-- What the end of a request may change. -/
abbrev endAreas : List Area := [.reqs, .cohorts, .admQ, .cqs, .lanes, .held]

theorem queueRec_frame {t c : Nat} {r : Rec} : Frame [.cqs] s (queueRec s t c r) := setCq_frame
theorem noteDue_quiet {t n : Nat} : Frame [] s (noteDue s t n) := .of_core rfl
theorem showHold_quiet {t c : Nat} : Frame [] s (showHold s t c) :=
  setF_quiet (f := holdFld t c) (plain1 (i := t))

theorem useReservation_frame {i n : Nat} : Frame [.reqs, .cohorts] s (useReservation s i n) := by
  unfold useReservation; split
  · exact .refl _
  · dsimp only; split
    · exact .after (lower_quiet plain1).up (.after setCohort_frame.up setReq_frame.up)
    · exact setReq_frame.up

theorem releaseShares_frame {r : Req} : Frame [.cohorts] s (releaseShares s r) := by
  unfold releaseShares; split
  · split
    · exact .after (lower_quiet plain1).up (.after setCohort_frame (lower_quiet plain1).up)
    · exact .refl _
  · exact .refl _

/-- One member of a cohort enters ADMITTED. -/
def admitMember (a : State) (i : Nat) : State :=
  match req? a i with
  | some r =>
    if r.st ≠ .arrived then a
    else
      let g := (servingCtx a r.slot r.cls).getD r.ctx
      let a1 := setReq (useEntry a i) i (some { r with st := .admitted, ctx := g, paired := ctxPaired a g })
      let a2 := lower a1 (Reg.ADM_TEN_QUEUED_QUEUED r.tenant) 1
      if acctFull a2 r.tenant then
        bump a2 (Reg.PRT_ACCT_WAIT_WAIT r.tenant r.cls (waitBucket ((a2.qTime - r.arrival) / 500))) 1
      else a2
  | none => a

theorem admitCohort_eq {co : Nat} {c : Cohort} (h : cohort? s co = some c) : admitCohort s co =
    noteDue (setCohort (c.members.foldl admitMember s) co (some { c with st := .admitted })) c.tenant (c.model % 32) := by
  unfold admitCohort; rw [h]; rfl

theorem admitMember_frame {i : Nat} : Frame [.reqs] s (admitMember s i) := by
  unfold admitMember; split
  · split
    · exact .refl _
    · dsimp only; split
      · exact .after (bump_quiet plain3).up (.after (lower_quiet plain1).up (.after setReq_frame useEntry_quiet.up))
      · exact .after (lower_quiet plain1).up (.after setReq_frame useEntry_quiet.up)
  · exact .refl _

theorem admitCohort_frame {co : Nat} : Frame [.reqs, .cohorts] s (admitCohort s co) := by
  cases h : cohort? s co with
  | none => unfold admitCohort; rw [h]; exact .refl _
  | some c =>
    rw [admitCohort_eq h]
    exact .after noteDue_quiet.up (.after setCohort_frame.up (.foldl (fun _ _ => admitMember_frame.up) _ _))

theorem admitCopied_frame {co : Nat} : Frame [.reqs, .cohorts] s (admitCopied s co) := by
  unfold admitCopied; split
  · split
    · exact admitCohort_frame
    · exact .refl _
  · exact .refl _

theorem releaseReq_frame {i : Nat} {r : Req} : Frame [.reqs] s (releaseReq s i r) := by
  unfold releaseReq; dsimp only; split
  · exact .after credit_quiet.up freeWhere_quiet.up
  · split
    · exact .after setReq_frame (.after credit_quiet.up (.after credit_quiet.up freeWhere_quiet.up))
    · exact .after credit_quiet.up (.after credit_quiet.up freeWhere_quiet.up)

theorem dropMember_frame {i : Nat} {r : Req} : Frame [.cohorts, .admQ] s (dropMember s i r) := by
  unfold dropMember; split
  · exact .refl _
  · dsimp only; split
    · exact .after showHold_quiet.up (.after setAdmQueue_frame.up setCohort_frame.up)
    · exact setCohort_frame.up

theorem countEnd_quiet {r : Req} : Frame [] s (countEnd s r) := by
  have h1 : Frame [] s (if r.st = .arrived then lower s (Reg.ADM_TEN_QUEUED_QUEUED r.tenant) 1 else s) :=
    .ite (lower_quiet plain1) (.refl _)
  exact .after (bump_quiet plain1) (.ite (.after (lower_quiet plain1) (.after (lower_quiet plain1) h1)) h1)

theorem noteEnded_quiet {i : Nat} {r : Req} : Frame [] s (noteEnded s i r) := by
  unfold noteEnded; split
  · exact .of_core rfl
  · exact .refl _

/-- A plan that has not issued keeps the holder. -/
theorem leaveNext_frame {p h : Nat} : Frame [.lanes] s (leaveNext s p h) := by
  unfold leaveNext; dsimp only; split
  · exact .refl _
  · split
    · exact .refl _
    · have hl (u : State) (x : Lane) (hu : Frame [.lanes] s u) (h1 : u.lanes = s.lanes) (hc : x.cur = (lane s p).cur)
          (ha : x.acks = (lane s p).acks) : Frame [.lanes] s (setLane u p x) := by
        have e : lane u p = lane s p := by unfold lane; rw [h1]
        exact hu.trans (setLane_keeps (e ▸ hc) (e ▸ ha))
      exact .ite (hl _ _ freeWhere_quiet.up freeWhere_quiet.lanes rfl rfl) (hl _ _ freeWhere_quiet.up freeWhere_quiet.lanes rfl rfl)

/-- A request that leaves its state gives back its shares and counts (R292). -/
def giveShares (s : State) (i : Nat) (r : Req) : State :=
  countEnd (releaseShares (leaveNext (dropWaits s (forReq i)) (r.ctx / 32) (hnat i r)) r) r

theorem giveShares_frame {i : Nat} {r : Req} : Frame [.cohorts, .lanes, .held] s (giveShares s i r) :=
  .after countEnd_quiet.up (.after releaseShares_frame.up (.after leaveNext_frame.up dropWaits_frame.up))

/-- Its pages and slots have gone back: it leaves its cohort, and its end is counted (R14, R215). -/
def leaveCohort (s a : State) (i : Nat) (r : Req) (st : ReqState) (code : Nat) (counted : Bool) : State :=
  let s3 := noteEnded (dropMember a i r) i r
  let s4 := match endCounter st code with
    | some k => if counted then bump s3 (Reg.TRC_TEN_COUNT r.tenant k) 1 else s3
    | none => s3
  let s5 := if st = .rejected ∧ acctFull s r.tenant ∧ 0x0201 ≤ code ∧ code ≤ 0x020B then
      bump s4 (Reg.PRT_ACCT_REJ_REJ r.tenant (code - 0x0201)) 1 else s4
  noteDue s5 r.tenant r.slot

theorem leaveCohort_frame {a : State} {i : Nat} {r : Req} {st : ReqState} {code : Nat} {n : Bool} :
    Frame [.cohorts, .admQ] a (leaveCohort s a i r st code n) := by
  have left : Frame [.cohorts, .admQ] a (noteEnded (dropMember a i r) i r) := .after noteEnded_quiet.up dropMember_frame
  have refused (P : Prop) [Decidable P] (k : Nat) (b : State) :
      Frame [.cohorts, .admQ] b (if P then bump b (Reg.PRT_ACCT_REJ_REJ r.tenant k) 1 else b) :=
    .ite (bump_quiet plain2).up (.refl _)
  unfold leaveCohort
  cases endCounter st code with
  | none => exact left.trans (.after noteDue_quiet.up (refused _ _ _))
  | some k => exact left.trans (.trans (.ite (bump_quiet plain2).up (.refl _)) (.after noteDue_quiet.up (refused _ _ _)))

theorem leaveLive_eq (i : Nat) (r : Req) (st : ReqState) (code : Nat) (n : Bool) : leaveLive s i r st code n =
    let u := leaveCohort s (releaseReq (giveShares s i r) i r) i r st code n
    match req? u i with
    | some r' => setReq u i (some { r' with st := st })
    | none => u := rfl

theorem leaveLive_frame {i : Nat} {r : Req} {st : ReqState} {code : Nat} {n : Bool} :
    Frame endAreas s (leaveLive s i r st code n) := by
  have h : Frame endAreas s (leaveCohort s (releaseReq (giveShares s i r) i r) i r st code n) :=
    .after leaveCohort_frame.up (.after releaseReq_frame.up giveShares_frame.up)
  rw [leaveLive_eq]
  dsimp only
  split
  · exact .after setReq_frame.up h
  · exact h

theorem freeEntryOf_frame {i g : Nat} : Frame [.reqs] s (freeEntryOf s i g) :=
  .trans (t := setReq (dropEntry s i) i none) (.after setReq_frame dropEntry_quiet.up) (.of_core rfl)

theorem endReq_frame {i : Nat} {st : ReqState} {code : Nat} {x : Bool} : Frame endAreas s (endReq s i st code x) := by
  unfold endReq; split
  · exact .refl _
  · split
    · exact .refl _
    · dsimp only; split
      · split
        · exact .after leaveLive_frame useEntry_quiet.up
        · exact .after freeEntryOf_frame.up (.after leaveLive_frame useEntry_quiet.up)
      · exact .after queueRec_frame.up (.after leaveLive_frame useEntry_quiet.up)

theorem cancelReq_frame {i : Nat} : Frame endAreas s (cancelReq s i) := by
  unfold cancelReq; split
  · split
    · exact .after admitCopied_frame.up (.after (bump_quiet plain2).up endReq_frame)
    · exact .refl _
  · exact .refl _

theorem expireReq_frame {i : Nat} : Frame endAreas s (expireReq s i) := by
  unfold expireReq; split
  · exact endReq_frame
  · exact .refl _

theorem settleCancels_frame : Frame (.cancels :: endAreas) s (settleCancels s) := by
  refine .trans (t := { s with cancels := [] }) ?_ (.foldl (fun a h => ?_) _ _)
  · intro q h
    cases q with
    | cancels => simp at h
    | _ => rfl
  · split
    · exact cancelReq_frame.up
    · exact .refl _

/-- What the registers show of a rejection of a cohort of queue (t, c). -/
def noteRejected (s : State) (t c code : Nat) : State :=
  let s3 := showHold (bump s (Reg.TRC_RE_COUNT 2) 1) t c
  let s4 := if code = 0x0206 then raise s3 Reg.ADM_STATUS_TABLE_FULL else s3
  let s5 := if code = 0x020A then raise s4 Reg.ADM_STATUS_COST_MISS else s4
  if code = 0x0207 ∨ code = 0x0208 then raise s5 Reg.ADM_STATUS_MASK_FAIL else s5

theorem noteRejected_quiet {t c code : Nat} : Frame [] s (noteRejected s t c code) := by
  have flag (P : Prop) [Decidable P] (f : Fld) (hf : areaOf f.key = none) (a : State) :
      Frame [] a (if P then raise a f else a) := .ite (raise_quiet hf) (.refl _)
  exact .after (flag _ _ plain0 _) (.after (flag _ _ plain0 _) (.after (flag _ _ plain0 _) (.after showHold_quiet
    (bump_quiet plain1))))

theorem rejectCohort_eq {co code : Nat} {c : Cohort} (h : cohort? s co = some c) : rejectCohort s co code =
    let s1 := c.members.foldl (fun a i => endReq a i .rejected code false) s
    noteRejected (setAdmQueue (setCohort s1 co none) c.tenant c.cls ((admQueue s1 c.tenant c.cls).filter (· != co)))
      c.tenant c.cls code := by
  unfold rejectCohort; rw [h]; rfl

theorem rejectCohort_frame {co code : Nat} : Frame endAreas s (rejectCohort s co code) := by
  cases h : cohort? s co with
  | none => unfold rejectCohort; rw [h]; exact .refl _
  | some c =>
    rw [rejectCohort_eq h]
    exact .after noteRejected_quiet.up (.after setAdmQueue_frame.up (.after setCohort_frame.up
      (.foldl (fun _ _ => endReq_frame) _ _)))

/-! ### Steps -/

theorem setGroves_frame {p x : Nat} : Frame [.groves] s (setGroves s p x) :=
  .foldl (fun _ _ => setF_frame .groves areaOf_grvStatus) _ _

theorem killClusters_frame {p : Nat} {f : Nat → Bool} : Frame [.held] s (killClusters s p f) := by
  intro q h
  cases q with
  | held => simp at h
  | _ => rfl

/-- What a change of the holder may change. -/
abbrev stepAreas : List Area := [.lanes, .holders, .groves, .held]

theorem raiseAbandon_frame {p g : Nat} : Frame stepAreas s (raiseAbandon s p g) :=
  .after setLane_frame.up (.after setGroves_frame.up killClusters_frame.up)

theorem mapPeers_quiet {n : Nat} {f : Peer → Peer} : Frame [] s (mapPeers s n f) := by
  unfold mapPeers; split
  · exact setGroup_quiet
  · exact .refl _

theorem returnPeerPages_quiet {st : Step} : Frame [] s (returnPeerPages s st) := by
  unfold returnPeerPages; split
  · exact mapPeers_quiet
  · exact .refl _

theorem clearCur_frame {p : Nat} : Frame stepAreas s (clearCur s p) := .after setLane_frame.up dropWaits_frame.up

theorem assaySlot_quiet {p : Nat} {st : Step} {x : Bool} {w : Nat × Nat} : Frame [] s (assaySlot p st x s w) := by
  have h1 (x) : Frame [] s { s with assaySeen := x } := .of_core rfl
  have h4 (a : State) (q : List Nat) : Frame [] a (setF ((numbered 0 q).foldl
      (fun a e => setF a (Reg.TRC_ASSAY_Q_VALUE p w.1 e.1) e.2) a) (Reg.TRC_ASSAY_TAG_TAG p w.1) st.tag) :=
    .after (setF_quiet plain2) (.foldl (fun _ _ => setF_quiet plain3) _ _)
  have h2 (x k e l) (P : Prop) [Decidable P] : Frame [] s (if P then traceRec { s with assaySeen := x } p k e l
      else { s with assaySeen := x }) := (h1 x).trans (.ite traceRec_quiet (.refl _))
  exact .ite (.refl _) (.ite (h1 _) (.ite (h2 _ _ _ _ _) (.ite (.after (raise_quiet plain0)
    (.trans (h2 _ _ _ _ _) (h4 _ _))) (.trans (h2 _ _ _ _ _) (h4 _ _)))))

theorem assayEnd_quiet {p : Nat} {st : Step} {x : Bool} : Frame [] s (assayEnd s p st x) :=
  .foldl (fun _ _ => assaySlot_quiet) _ _

theorem logAbandon_frame {p : Nat} {st : Step} {code : Nat} : Frame [.abn] s (logAbandon s p st code) :=
  .after (setF_frame .abn areaOf_abnPtr) (.after (setF_frame .abn areaOf_abnLog) (.after (setF_frame .abn areaOf_abnLog)
    (.after (setF_frame .abn areaOf_abnLog) (.after (setF_frame .abn areaOf_abnLog) (.after (setF_frame .abn areaOf_abnLog)
    (bump_quiet plainCtx).up)))))

theorem discardStep_quiet {p : Nat} {st : Step} : Frame [] s (discardStep s p st) :=
  .after returnPeerPages_quiet freeStaged_quiet

theorem abandonGroup_frame {p : Nat} {st : Step} : Frame [.lanes] s (abandonGroup s p st) := by
  unfold abandonGroup; split
  · exact .refl _
  · split
    · exact .refl _
    · exact .after (setLane_keeps rfl rfl) (.foldl (fun _ _ => sendMsg_quiet.up) _ _)

theorem dropSteps_frame {p : Nat} {f : Nat → Bool} : Frame stepAreas s (dropSteps s p f) := by
  have h1 (l : List Step) : Frame stepAreas s (l.foldl (fun a st => discardStep a p st) s) :=
    .foldl (fun _ _ => discardStep_quiet.up) _ _
  have h2 (l : List Step) (x : Lane) := (h1 l).trans (setLane_frame (p := p) (l := x)).up
  unfold dropSteps
  dsimp only
  cases (lane s p).cur with
  | none => exact .ite (.after clearCur_frame (.after raiseAbandon_frame (h2 _ _))) (h2 _ _)
  | some st => exact .ite (.after clearCur_frame (.after raiseAbandon_frame (.after abandonGroup_frame.up (h2 _ _)))) (h2 _ _)

end Sys2Proof.Machine
end

section
set_option Elab.async false
namespace Sys2Proof.Machine
variable {s : State}

/-! ### What waits for a step to leave -/

/-- An abandonment as the registers of its lane show it: the entry of the abandon log, counted, and the flag (Table 09.3). -/
def abandonLogged (s : State) (p : Nat) (st : Step) (code : Nat) : State :=
  raise (bump (logAbandon s p st code) (Reg.TRC_PART_COUNT p 1) 1) (Reg.CMP_STATUS_ABANDONED p)

theorem abandonStep_afterLogged (p code : Nat) (st : Step) :
    Frame (.ctxs :: endAreas) (abandonLogged s p st code) (abandonStep s p st code) := by
  unfold abandonStep
  refine .after (.foldl (fun a i => ?_) _ _) (.after assayEnd_quiet.up (.after stepRecord_quiet.up
    (.after returnPeerPages_quiet.up (.after freeStaged_quiet.up ?_))))
  · split
    · exact .ite expireReq_frame.up (.refl _)
    · exact .refl _
  · split
    · exact setCtx_frame.up
    · exact .refl _

theorem abandonStep_frame {p code : Nat} {st : Step} : Frame (.abn :: .ctxs :: endAreas) s (abandonStep s p st code) :=
  have h : Frame [.abn] s (abandonLogged s p st code) :=
    .after (raise_area .abn areaOf_cmpStatus) (.after (bump_quiet plain2).up logAbandon_frame)
  .after (abandonStep_afterLogged p code st).up h.up

theorem freeDraftSlots_frame {i : Nat} : Frame [.reqs] s (freeDraftSlots s i) := by
  unfold freeDraftSlots; split
  · exact .after credit_quiet.up setReq_frame
  · exact .refl _

theorem freeDraftPages_frame {p i : Nat} {r : Req} : Frame [.reqs] s (freeDraftPages s p i r) :=
  have h : Frame [.reqs] s (credit (freeWhere s p fun u => match u with
    | .kv h _ _ d => h == hnat i r && d
    | _ => false) r.tenant _) := .after credit_quiet.up freeWhere_quiet.up
  .ite h (.after freeDraftSlots_frame h)

theorem endPair_frame {g : Nat} : Frame [.reqs, .ctxs] s (endPair s g) := by
  have h1 (l : List (Nat × Req)) : Frame [.reqs, .ctxs] s (l.foldl (fun a e =>
      if e.2.ctx = g ∧ e.2.paired = true then
        let a1 := freeDraftPages a (ctxPart g) e.1 e.2
        match req? a1 e.1 with
        | some r => setReq a1 e.1 (some { r with paired := false, dAppend := 0 })
        | none => a1
      else a) s) := by
    refine .foldl (fun a e => .ite ?_ (.refl _)) _ _
    dsimp only; split
    · exact .after setReq_frame.up freeDraftPages_frame.up
    · exact freeDraftPages_frame.up
  unfold endPair; split
  · dsimp only
    split
    · exact .after (setF_quiet plainCtx).up (.after setCtx_frame.up (h1 _))
    · exact .after (setF_quiet plain1).up (.after (setF_quiet plainCtx).up (.after (setF_quiet plain1).up
        (.after (setF_quiet plainCtx).up (.after (setF_quiet plainCtx).up (.after setCtx_frame.up
        (.after (setF_quiet plainCtx).up (.after setCtx_frame.up (h1 _))))))))
  · exact .refl _

theorem rejectCopying_frame {n : Nat} : Frame endAreas s (rejectCopying s n) := by
  refine .foldl (fun a e => ?_) _ _
  split
  · exact .ite rejectCohort_frame (.refl _)
  · exact .refl _

theorem forgetOwner_quiet {g : Nat} : Frame [] s (forgetOwner s g) :=
  .foldl (fun _ _ => .ite setPage_quiet (.refl _)) _ _

theorem clearCtxRegs_quiet {g : Nat} : Frame [] s (clearCtxRegs s g) := by
  have c {k : Nat} (a : State) (h : areaOf k = none) : Frame [] a (resetReg a k) := resetReg_quiet h
  exact .after (c _ plain1) (.after (c _ plainCtx) (.after (c _ plainCtx) (.after (c _ plainCtx) (.after (c _ plainCtx)
    (.after (c _ plainCtx) (.after (c _ plainCtx) (c _ plainCtx)))))))

/-- The registers of a model slot are cleared. -/
theorem clearSlotRegs_quiet (n : Nat) : Frame [] s ([Reg.MDL_SLOT n, Reg.MDL_SLOT_LOAD n, Reg.MDL_SLOT_PAGES n,
    Reg.MDL_SLOT_KV_RSV n, Reg.MDL_SLOT_CONC n, Reg.MDL_SLOT_LIVE n, Reg.MDL_SLOT_LAST n].foldl resetReg s) := by
  have c {k : Nat} (a : State) (h : areaOf k = none) : Frame [] a (resetReg a k) := resetReg_quiet h
  exact .after (c _ plain1) (.after (c _ plain1) (.after (c _ plain1) (.after (c _ plain1) (.after (c _ plain1)
    (.after (c _ plain1) (c _ plain1))))))

theorem clearGroup_quiet {n : Nat} : Frame [] s (clearGroup s n) := by
  unfold clearGroup
  rw [List.foldl_append, List.foldl_map]
  exact .after (.foldl (fun _ _ => resetReg_quiet plain2) _ _)
    (.after (resetReg_quiet plain1) (.after (resetReg_quiet plain1) setGroup_quiet))

/-- What may change when a step has left, but for the holders of the groves. -/
abbrev restAreas : List Area := .slots :: .ctxs :: endAreas

/-- A relation that every operation on models and contexts keeps: it is transitive, and it holds across what leaves the
holders alone and across `dropSteps`, which alone takes a step from the groves. -/
structure Lasting (R : State → State → Prop) : Prop where
  trans : ∀ {s t u}, R s t → R t u → R s u
  rest : ∀ {s u}, Frame restAreas s u → R s u
  drop : ∀ s p f, R s (dropSteps s p f)

namespace Lasting
variable {R : State → State → Prop} (h : Lasting R) {s t u : State}
include h

theorem refl (s : State) : R s s := h.rest (.refl s)
theorem after (g : R t u) (f : R s t) : R s u := h.trans f g

omit h in
theorem ite {P : Prop} [Decidable P] (f : R s t) (g : R s u) : R s (if P then t else u) := by
  split
  · exact f
  · exact g

theorem foldl {α : Type} {f : State → α → State} (k : ∀ a x, R a (f a x)) (l : List α) (s : State) : R s (l.foldl f s) := by
  induction l generalizing s with
  | nil => exact h.refl s
  | cons x xs ih => exact h.trans (k s x) (ih _)

theorem evictSlot (s : State) (n : Nat) : R s (evictSlot s n) := by
  have pairs : Frame restAreas s (rejectCopying ((slotCtxs s n).foldl (fun a g =>
      match targetOf a g with | some t => endPair a t | none => endPair a g) s) n) := by
    refine .after rejectCopying_frame.up (.foldl (fun _ _ => ?_) _ _)
    split <;> exact endPair_frame.up
  unfold Machine.evictSlot
  refine h.after (h.rest (.after (setF_quiet plain1).up (.after (clearSlotRegs_quiet n).up (.after setSlot_frame.up
    (.after (.foldl (fun _ _ => forgetOwner_quiet.up) _ _) freeWhere_quiet.up)))))
    (h.after (h.foldl (fun a g => ?_) _ _) (h.rest (.after dropWaits_frame.up pairs)))
  exact h.after (h.rest (.after clearCtxRegs_quiet.up setCtx_frame.up)) (h.drop _ _ _)

theorem evictModel (s : State) (n : Nat) : R s (evictModel s n) :=
  h.after (h.rest (.after (raise_quiet plain0).up clearGroup_quiet.up)) (h.evictSlot s n)

theorem stopCtx (s : State) (g code : Nat) : R s (stopCtx s g code) :=
  h.after (h.rest (.foldl (fun _ _ => endReq_frame.up) _ _)) (h.drop _ _ _)

theorem leaving (s : State) (x : Group) (n : Nat) :
    R s (x.peers.foldl (fun a q => sendBare a q.node (.leave (gidOf s n))) s) :=
  h.rest (.foldl (fun _ _ => sendBare_quiet.up) _ _)

/-- A group that is lost without a fault to record. -/
theorem loseGroup (s : State) (n code : Nat) : R s (loseGroup s n code false) := by
  have quit (a : State) (p : Nat) : Frame restAreas a (setLane a p { lane a p with nodeAcks := [], ackTo := none }) :=
    Frame.up (qs := [.lanes]) (setLane_keeps rfl rfl)
  unfold Machine.loseGroup; split
  · exact h.refl s
  · next x _ =>
    dsimp only
    rw [if_neg Bool.false_ne_true]
    have flags (a : State) : Frame restAreas a (raise (setF (raise a Reg.MDL_STATUS_EVICTED) (Reg.CZL_GROUP_STATE n) 3)
        Reg.CZL_STATUS_GROUP_LOST) := .after (raise_quiet plain0).up (.after (setF_quiet plain1).up (raise_quiet plain0).up)
    have part (a : State) (p : Nat) : Frame restAreas a (setGroup (freeWhere (setLane a p
        { lane a p with nodeAcks := [], ackTo := none }) p peerUse) n none) :=
      .after setGroup_quiet.up (.after freeWhere_quiet.up (quit a p))
    refine h.after (h.rest (flags _)) (h.after (h.evictSlot _ n) (h.after (h.rest (part _ _)) ?_))
    exact h.after (h.foldl (fun _ _ => h.stopCtx _ _ _) _ _) (h.leaving s x n)

theorem evictWhole (s : State) (n code : Nat) : R s (evictWhole s n code) := by
  unfold Machine.evictWhole; split
  · exact h.loseGroup s n code
  · split
    · exact h.after (h.evictModel _ n) (h.leaving s _ n)
    · exact h.evictModel s n

theorem forceEvict (s : State) (n : Nat) : R s (forceEvict s n) := by
  have k (l : List Nat) : R s (l.foldl (fun a g => if ctxBusy a g then a else Machine.stopCtx a g 0x0701) s) :=
    h.foldl (fun a g => ite (h.refl a) (h.stopCtx a g _)) _ _
  exact ite (h.after (h.evictWhole _ n _) (k _)) (k _)

theorem afterLeave (s : State) (g : Nat) : R s (afterLeave s g) := by
  have go (a : State) (n : Nat) : R a (match slot? a n with
      | some x => if x.force then Machine.forceEvict a n else a
      | none => a) := by
    split
    · exact ite (h.forceEvict a n) (h.refl a)
    · exact h.refl a
  unfold Machine.afterLeave; split
  · exact h.refl s
  · have k (P : Prop) [Decidable P] : R s (if P then endPair s g else s) := ite (h.rest endPair_frame.up) (h.refl s)
    dsimp only; split
    · exact h.after (go _ _) (h.after (go _ _) (k _))
    · exact h.after (go _ _) (k _)

end Lasting

/-- What may change when a step has left: requests, steps and contexts, but no clock, no memory and no fault. -/
abbrev leaveAreas : List Area := stepAreas ++ restAreas

theorem lasting_frame : Lasting (Frame leaveAreas) := ⟨Frame.trans, fun h => h.up, fun _ _ _ => dropSteps_frame.up⟩

theorem afterLeave_frame {g : Nat} : Frame leaveAreas s (afterLeave s g) := lasting_frame.afterLeave s g

/-! ### One lane, one request at a time -/

/-- Of what `get` reads, nothing changes but at `q`. -/
def Only {α : Type} (get : State → Nat → α) (q : Nat) (s u : State) : Prop := ∀ p, p ≠ q → get u p = get s p

namespace Only
variable {α : Type} {get : State → Nat → α} {q : Nat} {t u : State}

theorem refl (s : State) : Only get q s s := fun _ _ => rfl
theorem after (g : Only get q t u) (f : Only get q s t) : Only get q s u := fun p n => (g p n).trans (f p n)

theorem ite {P : Prop} [Decidable P] (f : Only get q s t) (g : Only get q s u) : Only get q s (if P then t else u) := by
  split
  · exact f
  · exact g

theorem setLane (x : Lane) : Only lane q s (setLane s q x) := fun p n => by rw [lane_setLane, if_neg n]
theorem setReq (x : Option Req) : Only req? q s (setReq s q x) := fun p n => by rw [req_setReq, if_neg n]

end Only

theorem Frame.onlyReq {ps : List Area} {u : State} {q : Nat} (h : Frame ps s u) (n : Area.reqs ∉ ps := by decide) :
    Only req? q s u := fun p _ => h.req p n

theorem Frame.onlyLane {ps : List Area} {u : State} {q : Nat} (h : Frame ps s u) (n : Area.lanes ∉ ps := by decide) :
    Only Machine.lane q s u := fun p _ => h.lane p n

theorem clearCur_onlyLane (s : State) (q : Nat) : Only lane q s (clearCur s q) := .after (.setLane _) dropWaits_frame.onlyLane

theorem raiseAbandon_onlyLane (s : State) (q g : Nat) : Only lane q s (raiseAbandon s q g) :=
  .after (.setLane _) (Frame.after (ps := [.groves, .held]) setGroves_frame.up killClusters_frame.up).onlyLane

theorem abandonGroup_onlyLane (s : State) (q : Nat) (st : Step) : Only lane q s (abandonGroup s q st) := by
  unfold abandonGroup; split
  · exact .refl _
  · refine .ite (.refl _) (.after (.setLane _) (Frame.onlyLane (ps := []) (.foldl (fun _ _ => sendMsg_quiet) _ _)))

theorem discards_quiet (p : Nat) (l : List Step) : Frame [] s (l.foldl (fun a st => discardStep a p st) s) :=
  .foldl (fun _ _ => discardStep_quiet) _ _

theorem dropSteps_onlyLane (s : State) (q : Nat) (f : Nat → Bool) : Only lane q s (dropSteps s q f) := by
  have kept (l : List Step) (x : Lane) : Only lane q s (setLane (l.foldl (fun a st => discardStep a q st) s) q x) :=
    .after (.setLane x) (discards_quiet q l).onlyLane
  unfold dropSteps
  dsimp only
  cases (lane s q).cur with
  | none => exact .ite (.after (clearCur_onlyLane _ _) (.after (raiseAbandon_onlyLane _ _ _) (kept _ _))) (kept _ _)
  | some st => exact .ite (.after (clearCur_onlyLane _ _) (.after (raiseAbandon_onlyLane _ _ _)
      (.after (abandonGroup_onlyLane _ _ _) (kept _ _)))) (kept _ _)

/-! ### A partition whose groves are free -/

/-- A partition whose groves no step holds stays so, and keeps its acknowledges. -/
def KeepsIdle (p : Nat) (s u : State) : Prop := (lane s p).cur = none → holderOf u p = (none, (lane s p).acks)

theorem Frame.keepsIdle {ps : List Area} {u : State} (h : Frame ps s u) (p : Nat) (n : Area.holders ∉ ps := by decide) :
    KeepsIdle p s u := fun e => by simp [holderOf, h.holder p n, h.acks p n, e]

theorem dropSteps_keepsIdle (s : State) (p q : Nat) (f : Nat → Bool) : KeepsIdle p s (dropSteps s q f) := by
  intro e
  by_cases hq : p = q
  · subst hq
    simp [dropSteps, e, holderOf, (discards_quiet p _).lane p]
  · simp [holderOf, dropSteps_onlyLane s q f p hq, e]

theorem lasting_keepsIdle (p : Nat) : Lasting (KeepsIdle p) where
  trans h g e := by
    have h1 := h e
    simp only [holderOf, Prod.mk.injEq] at h1
    rw [g h1.1, h1.2]
  rest h := h.keepsIdle p
  drop s q f := dropSteps_keepsIdle s p q f

theorem afterLeave_keepsIdle (s : State) (p g : Nat) : KeepsIdle p s (afterLeave s g) := (lasting_keepsIdle p).afterLeave s g

end Sys2Proof.Machine
end

section
set_option Elab.async false
namespace Sys2Proof.Machine
variable {s : State}

/-! ### Composition and issue -/

theorem updatePred_quiet : Frame [] s (updatePred s) :=
  .after (.foldl (fun _ _ => setF_quiet plain1) _ _) (.after (setF_quiet plain0) (.after (setF_quiet plain0) (.of_core rfl)))

theorem notePower_quiet {b : Bool} : Frame [] s (notePower s b) := .of_core rfl

theorem setPower_frame {p mw : Nat} : Frame [.lanes] s (setPower s p mw) := .after updatePred_quiet.up (setLane_keeps rfl rfl)

theorem sendPlan_quiet {p : Nat} {st : Step} : Frame [] s (sendPlan s p st) := by
  unfold sendPlan; split
  · exact .refl _
  · exact .after (.foldl (fun _ _ => sendMsg_quiet) _ _) mapPeers_quiet

theorem endCompose_frame {p : Nat} : Frame [.lanes] s (endCompose s p) := setLane_keeps rfl rfl

/-- What the issue of a step may change. -/
abbrev issueAreas : List Area := [.lanes, .holders, .ctxs]

theorem issueStep_frame {p : Nat} : Frame issueAreas s (issueStep s p) := by
  unfold issueStep; dsimp only; split
  · exact .refl _
  · refine .ite (.refl _) ?_
    split
    · exact .refl _
    · exact .after sendPlan_quiet.up (.after stepRecord_quiet.up (.after setPower_frame.up (.after (bump_quiet plainLane).up
        (.after setLane_frame.up setCtx_frame.up))))

theorem reservePlan_frame {c : Composing} {plan : List PlanItem} : Frame [.dram] s (reservePlan s c plan) := by
  have take (a : State) (p : Nat) (u : List PageUse) (o : PageOwner) : Frame [.dram] a ((takePages a p u o).getD a) := by
    cases h : takePages a p u o with
    | none => exact .refl _
    | some b => exact takePages_frame h
  exact .after (take _ _ _ _) (.after (take _ _ _ _) useEntries_quiet.up)

/-- What a composition may change. -/
abbrev composeAreas : List Area := .abn :: .dram :: issueAreas

theorem composeNow_frame {p : Nat} {c : Composing} : Frame composeAreas s (composeNow s p c) := by
  have flag (P : Prop) [Decidable P] (f : Fld) (h : areaOf f.key = some .abn) (a : State) :
      Frame [.abn] a (if P then raise a f else a) := .ite (raise_area .abn h) (.refl _)
  have lanes (a : State) (x : Lane) (hc : x.cur = (lane a p).cur) (ha : x.acks = (lane a p).acks) :
      Frame composeAreas a (setLane a p x) := Frame.up (qs := [.lanes]) (setLane_keeps hc ha)
  unfold composeNow
  extract_lets g b s1 s2 l s3 plan s4
  have h3 : Frame composeAreas s s3 :=
    (flag _ _ areaOf_cmpStatus s).up.trans ((flag _ _ areaOf_cmpStatus s1).up.trans (lanes s2 _ rfl rfl))
  have h4 : Frame composeAreas s s4 := h3.trans (.ite (.refl _) (.after notePower_quiet.up
    (.after (bumpSat_quiet plainLane).up (raise_area .abn areaOf_cmpStatus).up)))
  refine h4.trans (.ite ?_ (.ite ?_ ?_))
  · exact .after (lanes _ _ rfl rfl) endCompose_frame.up
  · exact .after notePower_quiet.up (.after (lanes _ _ rfl rfl) (.after (bumpSat_quiet plainLane).up
      (raise_area .abn areaOf_cmpStatus).up))
  · exact .after issueStep_frame.up (.after (lanes _ _ rfl rfl) (.after endCompose_frame.up reservePlan_frame.up))

theorem retryCompose_frame {p : Nat} : Frame composeAreas s (retryCompose s p) := by
  unfold retryCompose; split
  · exact .refl _
  · have h : Frame composeAreas s (setLane s p { lane s p with powerWait := none }) :=
      Frame.up (qs := [.lanes]) (setLane_keeps rfl rfl)
    exact .ite (.after composeNow_frame h) (.after endCompose_frame.up h)

theorem retryWaits_frame {b : Option Nat} : Frame composeAreas s (retryWaits s b) :=
  .foldl (fun _ _ => .ite (.refl _) retryCompose_frame) _ _

/-! #### One lane composes -/

theorem issueStep_onlyLane (s : State) (p : Nat) : Only lane p s (issueStep s p) := by
  unfold issueStep; dsimp only; split
  · exact .refl _
  · refine .ite (.refl _) ?_
    split
    · exact .refl _
    · have power (a : State) (mw : Nat) : Only lane p a (setPower a p mw) := .after updatePred_quiet.onlyLane (.setLane _)
      exact .after (sendPlan_quiet.trans (.refl _)).onlyLane (.after stepRecord_quiet.onlyLane (.after (power _ _)
        (.after (bump_quiet plainLane).onlyLane (.after (.setLane _) setCtx_frame.onlyLane))))

theorem composeNow_onlyLane (s : State) (p : Nat) (c : Composing) : Only lane p s (composeNow s p c) := by
  have flag (P : Prop) [Decidable P] (f : Fld) (a : State) (h : areaOf f.key = some .abn) :
      Only lane p a (if P then raise a f else a) := (Frame.ite (raise_area .abn h) (.refl _)).onlyLane
  have ended (a : State) : Only lane p a (endCompose a p) := .setLane _
  unfold composeNow
  extract_lets g b s1 s2 l s3 plan s4
  have h3 : Only lane p s s3 := .after (.setLane _) (.after (flag _ _ s1 areaOf_cmpStatus) (flag _ _ s areaOf_cmpStatus))
  have h4 : Only lane p s s4 := .after (.ite (.refl _) (Frame.onlyLane (ps := [.abn]) (.after notePower_quiet.up
    (.after (bumpSat_quiet plainLane).up (raise_area .abn areaOf_cmpStatus).up)))) h3
  refine .after (.ite ?_ (.ite ?_ ?_)) h4
  · exact .after (.setLane _) (ended _)
  · exact .after notePower_quiet.onlyLane (.after (.setLane _) (Frame.onlyLane (ps := [.abn])
      (.after (bumpSat_quiet plainLane).up (raise_area .abn areaOf_cmpStatus).up)))
  · exact .after (issueStep_onlyLane _ p) (.after (.setLane _) (.after (ended _) reservePlan_frame.onlyLane))

theorem retryCompose_onlyLane (s : State) (p : Nat) : Only lane p s (retryCompose s p) := by
  unfold retryCompose; split
  · exact .refl _
  · exact .ite (.after (composeNow_onlyLane _ p _) (.setLane _)) (.after (.setLane _) (.setLane _))

/-- The partition whose own step boundary it is does not compose again. -/
theorem lane_retryWaits_own (s : State) (p : Nat) : lane (retryWaits s (some p)) p = lane s p := by
  have step (a : State) (q : Nat) :
      lane (if (lane a q).powerWait.isNone || some p == some q then a else retryCompose a q) p = lane a p := by
    split
    · rfl
    · next h => exact retryCompose_onlyLane a q p (by rintro rfl; simp at h)
  unfold retryWaits
  generalize List.range 16 = l
  induction l generalizing s with
  | nil => rfl
  | cons q l ih => exact (ih _).trans (step s q)

/-- A lane without a composed step has none to issue. -/
theorem issueStep_of_none {p : Nat} (h : (lane s p).nextStep = none) : issueStep s p = s := by
  simp only [issueStep, h]

/-- Issue keeps the acknowledges that are outstanding. -/
theorem issueStep_acks (s : State) (p : Nat) : (lane (issueStep s p) p).acks = (lane s p).acks := by
  unfold issueStep; dsimp only; split
  · rfl
  · split
    · rfl
    · split
      · rfl
      · rw [sendPlan_quiet.acks p, stepRecord_quiet.acks p, setPower_frame.acks p, (bump_quiet plainLane).acks p,
          lane_setLane_same, setCtx_frame.lane p]

end Sys2Proof.Machine
end

section
set_option Elab.async false
namespace Sys2Proof.Machine
variable {s : State}

/-! ## The deadline -/

theorem Frame.groveList {ps : List Area} {u : State} (h : Frame ps s u) (p : Nat) (n : Area.layout ∉ ps := by decide) :
    groveList u p = groveList s p := by
  unfold Machine.groveList grovesOf firstGrove
  rw [h.getF .layout areaOf_partCfg n, h.getF .layout areaOf_partCfg n]

theorem preemptWait_quiet {p : Nat} {st : Step} {b : Bool} : Frame [] s (preemptWait s p st b) := by
  unfold preemptWait; split
  · exact traceWait_quiet
  · exact .refl _

theorem abandonFlag_quiet {p : Nat} : Frame [] s (abandonFlag s p) := by
  unfold abandonFlag; dsimp only; split
  · exact raise_quiet plainLane
  · split
    · split
      · split <;> exact raise_quiet plainLane
      · exact raise_quiet plainLane
    · exact .refl _

/-- The abandon log's entry `k` names the step that was abandoned, and the pointer stands behind it. -/
def AbnLogged (p k : Nat) (st : Step) (u : State) : Prop :=
  isSet u (Reg.CMP_STATUS_ABANDONED p) = true ∧ getF u (Reg.CMP_ABN_PTR_NEXT p) = (k + 1) % 16 ∧
    getF u (Reg.CMP_ABN_LOG_CODE p k) = 0x0303 ∧ getF u (Reg.CMP_ABN_LOG_CTX p k) = ctxLocal st.ctx ∧
    getF u (Reg.CMP_ABN_LOG_TAG p k) = st.tag % 65536

theorem Frame.abnLogged {ps : List Area} {u : State} {p k : Nat} {st : Step} (h : Frame ps s u) (e : AbnLogged p k st s)
    (n : Area.abn ∉ ps := by decide) : AbnLogged p k st u := by
  unfold AbnLogged isSet
  rw [h.getF .abn areaOf_cmpStatus n, h.getF .abn areaOf_abnPtr n, h.getF .abn areaOf_abnLog n, h.getF .abn areaOf_abnLog n,
    h.getF .abn areaOf_abnLog n]
  exact e

theorem abnLog_key (p k : Nat) : Reg.CMP_ABN_LOG p k ≠ Reg.CMP_ABN_PTR p ∧ Reg.CMP_ABN_LOG p k ≠ Reg.CMP_STATUS p ∧
    Reg.CMP_ABN_PTR p ≠ Reg.CMP_STATUS p := by
  unfold Reg.CMP_ABN_LOG Reg.CMP_ABN_PTR Reg.CMP_STATUS
  omega

/-- Bounds of fields, whose bits are numerals. -/
theorem atMost {a b : Nat} (h : a.ble b = true := by rfl) : a ≤ b := Nat.le_of_ble_eq_true h

theorem abandonLogged_abnLogged (p code : Nat) (st : Step) :
    AbnLogged p (getF s (Reg.CMP_ABN_PTR_NEXT p)) st (abandonLogged s p st code) := by
  set k := getF s (Reg.CMP_ABN_PTR_NEXT p) with hk
  obtain ⟨lp, ls, ps⟩ := abnLog_key p k
  have e (f : Fld) (hf : areaOf f.key = some .abn) (hs : f.key ≠ Reg.CMP_STATUS p) :
      getF (abandonLogged s p st code) f = getF (logAbandon s p st code) f := by
    rw [abandonLogged, getF_raise, getF_setF_key _ _ hs, (bump_quiet plain2).getF .abn hf]
  refine ⟨?_, ?_, ?_, ?_, ?_⟩
  · rw [isSet, abandonLogged, getF_raise, getF_setF_same _ _ _ atMost]
    rfl
  · rw [e _ areaOf_abnPtr ps, logAbandon, getF_setF_same _ _ _ atMost]
    exact Nat.mod_mod_of_dvd _ (dvd_refl 16)
  · rw [e _ areaOf_abnLog ls, logAbandon, getF_setF_key _ _ lp, getF_setF_bits _ _ (.inl atMost),
      getF_setF_bits _ _ (.inl atMost), getF_setF_bits _ _ (.inl atMost), getF_setF_bits _ _ (.inl atMost),
      getF_setF_same _ _ _ atMost]
    rfl
  · rw [e _ areaOf_abnLog ls, logAbandon, getF_setF_key _ _ lp, getF_setF_bits _ _ (.inl atMost),
      getF_setF_bits _ _ (.inl atMost), getF_setF_bits _ _ (.inl atMost), getF_setF_same _ _ _ atMost]
    exact Nat.mod_eq_of_lt (Nat.mod_lt _ (by decide))
  · rw [e _ areaOf_abnLog ls, logAbandon, getF_setF_key _ _ lp, getF_setF_bits _ _ (.inl atMost),
      getF_setF_same _ _ _ atMost]
    rfl

theorem settleCancels_keepsIdle (s : State) (p : Nat) : KeepsIdle p s (settleCancels s) := settleCancels_frame.keepsIdle p

/-- A holder that is abandoned leaves the groves: each of them owes an acknowledge, and the abandon log tells of it. -/
theorem abandonHolder_spec (p : Nat) (st : Step) :
    holderOf (abandonHolder s p st) p = (none, groveList s p) ∧
      AbnLogged p (getF s (Reg.CMP_ABN_PTR_NEXT p)) st (abandonHolder s p st) := by
  unfold abandonHolder
  extract_lets code s1 s2 s3
  have h2 : Frame [] s s2 := .trans (abandonFlag_quiet) (.ite preemptWait_quiet (.refl _))
  have h3 : Frame (.ctxs :: endAreas) (abandonLogged s2 p st code) s3 :=
    .after abandonGroup_frame.up (abandonStep_afterLogged p code st)
  have hl : Frame (.abn :: .ctxs :: endAreas) s s3 :=
    h2.up.trans (.after abandonGroup_frame.up abandonStep_frame)
  set s4 := raiseAbandon (clearCur s3 p) p st.ctx with h4
  have hr : Frame stepAreas s3 s4 := .after raiseAbandon_frame clearCur_frame
  have idle : holderOf s4 p = (none, groveList s p) := by
    have c : Frame [.groves, .held] (clearCur s3 p) (setGroves (killClusters (clearCur s3 p) p fun _ => true) p 2) :=
      .after setGroves_frame.up killClusters_frame.up
    have g := ((hl.up (ps := .abn :: leaveAreas)).trans (Frame.up (clearCur_frame.trans c.up))).groveList p
    have cleared : (lane (clearCur s3 p) p).cur = none := by rw [clearCur, lane_setLane_same]
    rw [h4, raiseAbandon, holderOf, lane_setLane_same]
    exact Prod.ext ((c.holder p).trans cleared) g
  have e := afterLeave_keepsIdle s4 p st.ctx
  refine ⟨?_, ?_⟩
  · rw [e (congrArg Prod.fst idle)]
    exact congrArg (Prod.mk none) (congrArg Prod.snd idle)
  · have := abandonLogged_abnLogged (s := s2) p code st
    rw [h2.getF .abn areaOf_abnPtr] at this
    exact afterLeave_frame.abnLogged (hr.abnLogged (h3.abnLogged this))

/-! ## Acknowledges of ABANDON -/

theorem getF_setGroves {x p g : Nat} (h : g ∈ groveList s p) : getF (setGroves s p x) (Reg.GRV_STATUS_STATE g) = x % 8 := by
  have wide (y : Nat) : (Reg.GRV_STATUS_STATE y).lo + (Reg.GRV_STATUS_STATE y).w ≤ 64 := atMost
  have keep (a : State) (y : Nat) (e : getF a (Reg.GRV_STATUS_STATE g) = x % 8) :
      getF (setF a (Reg.GRV_STATUS_STATE y) x) (Reg.GRV_STATUS_STATE g) = x % 8 := by
    by_cases k : Reg.GRV_STATUS g = Reg.GRV_STATUS y
    · have : Reg.GRV_STATUS_STATE g = Reg.GRV_STATUS_STATE y := by rw [Reg.GRV_STATUS_STATE, Reg.GRV_STATUS_STATE, k]
      rw [this]; exact getF_setF_same _ _ _ (wide y)
    · rwa [getF_setF_key _ _ k]
  have stays (l : List Nat) (a : State) (e : getF a (Reg.GRV_STATUS_STATE g) = x % 8) :
      getF (l.foldl (fun a y => setF a (Reg.GRV_STATUS_STATE y) x) a) (Reg.GRV_STATUS_STATE g) = x % 8 := by
    induction l generalizing a with
    | nil => exact e
    | cons y l ih => exact ih _ (keep a y e)
  unfold setGroves
  generalize groveList s p = l at h
  induction l generalizing s with
  | nil => simp at h
  | cons y l ih =>
    rcases List.mem_cons.mp h with rfl | h
    · exact stays l _ (getF_setF_same _ _ _ (wide _))
    · exact ih h

/-- While an acknowledge is outstanding, nothing follows. -/
theorem abandonDone_of_owed {p : Nat} (h : ¬((lane s p).acks = [] ∧ (lane s p).nodeAcks = [])) : abandonDone s p = s := by
  unfold abandonDone
  dsimp only
  rw [if_pos]
  by_contra k
  exact h (by simpa using k)

/-- A follower answers its leader, where one waits in `a`, that the last acknowledge is in. -/
def answerLeader (s : State) (p : Nat) (a : Option (Nat × Nat)) : State :=
  match a with
  | some (slot, tag) =>
    let s' := setLane s p { lane s p with ackTo := none }
    match leaderNode s' slot with
    | some n => sendMsg s' p nobody tag n (.abandonAck (gidOf s' slot) tag)
    | none => s'
  | none => s

theorem answerLeader_spec (p : Nat) (a : Option (Nat × Nat)) :
    Frame [.lanes] s (answerLeader s p a) ∧ (lane (answerLeader s p a) p).nextStep = (lane s p).nextStep := by
  have h : Frame [.lanes] s (setLane s p { lane s p with ackTo := none }) := setLane_keeps rfl rfl
  unfold answerLeader; split
  · dsimp only; split
    · exact ⟨.after sendMsg_quiet.up h, by rw [sendMsg_quiet.lane p, lane_setLane_same]⟩
    · exact ⟨h, by rw [lane_setLane_same]⟩
  · exact ⟨.refl _, rfl⟩

/-- The lane when the last acknowledge is in: the groves that no step holds are idle. -/
def groveIdle (s : State) (p : Nat) : State :=
  let s0 := setLane s p { lane s p with abandoned := none }
  if (lane s p).cur.isNone then setGroves s0 p 0 else s0

theorem groveIdle_spec (p : Nat) :
    Frame [.lanes, .groves] s (groveIdle s p) ∧ (lane (groveIdle s p) p).nextStep = (lane s p).nextStep := by
  have h : Frame [.lanes] s (setLane s p { lane s p with abandoned := none }) := setLane_keeps rfl rfl
  unfold groveIdle
  dsimp only
  split
  · exact ⟨.after setGroves_frame.up h.up, by rw [setGroves_frame.lane p, lane_setLane_same]⟩
  · exact ⟨h.up, by rw [lane_setLane_same]⟩

theorem abandonDone_of_none (p : Nat) (ha : (lane s p).acks = []) (hn : (lane s p).nodeAcks = []) :
    abandonDone s p = issueStep (answerLeader (groveIdle s p) p (lane s p).ackTo) p := by
  unfold abandonDone
  dsimp only
  rw [if_neg (by simp [ha, hn])]
  rfl

theorem abandonDone_acks (s : State) (p : Nat) : (lane (abandonDone s p) p).acks = (lane s p).acks := by
  by_cases h : (lane s p).acks = [] ∧ (lane s p).nodeAcks = []
  · rw [abandonDone_of_none p h.1 h.2, issueStep_acks, (answerLeader_spec p _).1.acks p, (groveIdle_spec p).1.acks p]
  · rw [abandonDone_of_owed h]

/-- With no step to issue, the last acknowledge leaves every grove idle. -/
theorem abandonDone_idle {p g : Nat} (ha : (lane s p).acks = []) (hn : (lane s p).nodeAcks = []) (hc : (lane s p).cur = none)
    (hs : (lane s p).nextStep = none) (hg : g ∈ groveList s p) :
    getF (abandonDone s p) (Reg.GRV_STATUS_STATE g) = 0 := by
  obtain ⟨fa, na⟩ := answerLeader_spec (s := groveIdle s p) p (lane s p).ackTo
  have h : Frame [.lanes] s (setLane s p { lane s p with abandoned := none }) := setLane_keeps rfl rfl
  rw [abandonDone_of_none p ha hn, issueStep_of_none (by rw [na, (groveIdle_spec p).2, hs]), fa.getF .groves areaOf_grvStatus,
    groveIdle, if_pos (by rw [hc]; rfl)]
  exact getF_setGroves (by rwa [h.groveList p])

/-- GROVE_ABANDON_ACK ends with one acknowledge fewer. -/
theorem execGroveAbandonAck_eq {p g : Nat} (h : g ∈ (lane s p).acks) : ∃ u, execGroveAbandonAck p g s = .next u ∧
    (lane u p).acks = (lane s p).acks.filter (· != g) ∧
    Frame composeAreas (abandonDone (setLane s p { lane s p with acks := (lane s p).acks.filter (· != g) }) p) u := by
  have e := abandonDone_acks (setLane s p { lane s p with acks := (lane s p).acks.filter (· != g) }) p
  rw [lane_setLane_same] at e
  refine ⟨_, by unfold execGroveAbandonAck; dsimp only; rw [if_neg (by simp [h])], ?_, .ite retryWaits_frame (.refl _)⟩
  split
  · rw [lane_retryWaits_own, e]
  · exact e

/-- STEP_DEADLINE of a holder that is due. -/
theorem execStepDeadline_eq {p : Nat} {st : Step} (hs : serving s = true) (hr : partResetting s p = false)
    (hc : (lane s p).cur = some st) (hd : st.deadline ≤ s.qTime) (hf : st.follower = false) :
    execStepDeadline p (ctxLocal st.ctx) s = .next (settleCancels (abandonHolder s p st)) := by
  have due : (lane s p).cur.filter (fun x => ctxLocal x.ctx == ctxLocal st.ctx && decide (x.deadline ≤ s.qTime) && !x.follower) =
      some st := by simp [hc, hd, hf]
  unfold execStepDeadline
  dsimp only
  rw [if_neg (by simp [hs, hr]), due]

end Sys2Proof.Machine

namespace Sys2Proof
open Machine

/-- Settles O14: the abandon log and the acknowledges are written before the step's leave is worked through, and what
follows touches neither. -/
theorem deadlineAbandonsTheHolder : Obligations.DeadlineAbandonsTheHolder := by
  refine ⟨?_, ?_⟩
  · intro s p n st _ hserving hreset hcur hctx hdue hled
    subst hctx
    obtain ⟨idle, logged⟩ := abandonHolder_spec (s := s) p st
    have settled := settleCancels_keepsIdle (abandonHolder s p st) p (congrArg Prod.fst idle)
    obtain ⟨flag, ptr, code, ctx, tag⟩ := settleCancels_frame.abnLogged logged
    exact ⟨_, execStepDeadline_eq hserving hreset hcur hdue hled, congrArg Prod.fst settled,
      (congrArg Prod.snd settled).trans (congrArg Prod.snd idle), flag, ptr, code, ctx, tag⟩
  · intro s p g _ hg
    obtain ⟨u, hu, hacks, rest⟩ := execGroveAbandonAck_eq hg
    refine ⟨u, hu, hacks, fun hlast hnodes hcur hnext x hx => ?_⟩
    rw [rest.getF .groves areaOf_grvStatus]
    have h : Frame [.lanes, .holders] s (setLane s p { lane s p with acks := (lane s p).acks.filter (· != g) }) :=
      setLane_frame
    exact abandonDone_idle (by simp [hlast]) (by simpa using hnodes) (by simpa using hcur) (by simpa using hnext)
      (by rwa [h.groveList p])

end Sys2Proof
end

section
set_option Elab.async false
namespace Sys2Proof.Machine
variable {s : State}

/-! ## The commit of a step whose context is gone -/

theorem updateEst_quiet {p : Nat} {st : Step} : Frame [] s (updateEst s p st) := setF_quiet plainCtx

theorem updateShare_quiet {g out pf : Nat} : Frame [] s (updateShare s g out pf) :=
  .after (setF_quiet plain1) (.ite draw_quiet (.refl _))

theorem noteLast_quiet {st : Step} : Frame [] s (noteLast s st) := by
  have mark (a : State) (x : Nat) : Frame [] a (match ctx? a x with
      | some c => setF a (Reg.MDL_SLOT_LAST_LAST_STEP c.slot) a.qTime
      | none => a) := by
    split
    · exact setF_quiet plain1
    · exact .refl _
  unfold noteLast; split
  · exact .after (mark _ _) (mark _ _)
  · exact mark _ _

theorem noteTime_quiet {n : Nat} : Frame [] s (noteTime s n) :=
  have h : Frame [] s (setF s Reg.SMP_TIME_LAST (min n 65535)) := setF_quiet plain0
  .ite (.after (setF_quiet plain0) h) h

theorem sendCommit_quiet {p : Nat} {st : Step} {cs : List CommitSeq} : Frame [] s (sendCommit s p st cs) := by
  unfold sendCommit; split
  · exact .refl _
  · exact .after (.foldl (fun _ _ => sendMsg_quiet) _ _) mapPeers_quiet

theorem afterLeave_of_gone {g : Nat} (h : ctx? s g = none) : afterLeave s g = s := by unfold afterLeave; rw [h]

theorem clearCur_lane (s : State) (p : Nat) : lane (clearCur s p) p =
    { lane s p with cur := none, preempt := none, restoreAt := none, leftAt := s.qTime, stalled := [] } := by
  unfold clearCur
  dsimp only
  rw [lane_setLane_same, dropWaits_frame.lane p, dropWaits_frame.qTime]

/-- A commit without an item, of a step whose context is gone, only clears its lane. -/
theorem commitStep_of_gone {p : Nat} {st : Step} (hp : st.plan = []) (hg : ctx? s st.ctx = none) :
    Frame stepAreas s (commitStep s p st) ∧ Only lane p s (commitStep s p st) ∧ lane (commitStep s p st) p =
      { lane s p with cur := none, preempt := none, restoreAt := none, leftAt := s.qTime, stalled := [] } := by
  have h1 : Frame [] s (freeStaged (updateShare (sendCommit s p st []) st.ctx 0 0) p []) :=
    .after freeStaged_quiet (.after updateShare_quiet sendCommit_quiet)
  have g1 := (h1.ctx st.ctx).trans hg
  unfold commitStep
  rw [hp]
  dsimp only [List.foldl_nil]
  rw [g1]
  dsimp only
  set s5 := assayEnd _ p st false
  have h5 : Frame [] s s5 := .after assayEnd_quiet (.after stepRecord_quiet (.after (bump_quiet plain0)
    (.after (bump_quiet plain2) (.after noteTime_quiet (.after noteLast_quiet (.after updateEst_quiet h1))))))
  have h6 : Frame stepAreas s (setGroves (clearCur s5 p) p 0) := .after setGroves_frame.up (clearCur_frame.after h5.up)
  rw [afterLeave_of_gone ((h6.ctx st.ctx).trans hg)]
  exact ⟨h6, .after setGroves_frame.onlyLane (.after (clearCur_onlyLane _ _) h5.onlyLane),
    by rw [setGroves_frame.lane p, clearCur_lane, h5.lane p, h5.qTime]⟩

/-- Without a power wait no lane composes again. -/
theorem retryWaits_of_none {b : Option Nat} (h : ∀ q, (lane s q).powerWait = none) : retryWaits s b = s := by
  unfold retryWaits
  generalize List.range 16 = l
  induction l with
  | nil => rfl
  | cons q l ih => rw [List.foldl_cons, h q]; exact ih

/-- The step that issues is the composed one, in the state it was composed in. -/
theorem issueStep_state {p : Nat} {st : Step} {c : Ctx} (hn : (lane s p).nextStep = some st) (hc : (lane s p).cur = none)
    (ha : (lane s p).acks = []) (hna : (lane s p).nodeAcks = []) (hr : (lane s p).restoreAt = none) (hf : chipFaulted s = false)
    (hh : (lane s p).halted = false) (hx : ctx? s st.ctx = some c) :
    (lane (issueStep s p) p).cur.map (·.st) = some st.st := by
  unfold issueStep
  simp only [hn, hc, ha, hna, hr, hf, hh, hx]
  rw [if_neg (by decide), sendPlan_quiet.holder p, stepRecord_quiet.holder p, setPower_frame.holder p,
    (bump_quiet plainLane).holder p, lane_setLane_same]
  rfl

/-- STEP_COMMIT before the deadline. -/
theorem execStepCommit_eq {p : Nat} {st : Step} (hc : (lane s p).cur = some st) (hx : st.st = .sample) (hf : st.follower = false)
    (hd : s.qTime < st.deadline) (hs : serving s = true) (hr : partResetting s p = false) :
    execStepCommit p s = .next (settleCancels (issueStep (retryWaits (commitStep s p st) (some p)) p)) := by
  unfold execStepCommit
  simp [hc, hx, hf, hd, hs, hr]

/-- A step of no plan in state `x`, of context `g`. -/
def bareStep (x : StepState) (g : Nat) : Step :=
  { ctx := g, tag := 0, st := x, issueAt := 0, deadline := 1, composeAt := 0, plan := [], drafts := [], draftStop := [],
    drawn := [], cands := [], shardsLeft := [], draftShards := [], sampleAt := 0, held := [], running := [], stopped := [],
    kept := [], ackWait := [], lost := 0, preAt := 0, saved := [], modeI := false, preempted := false, draft := none,
    tokens := [], power := 0, raisedAt := 0, preBy := none, assay := [], watch := [], group := none, follower := false,
    candWait := [], fplan := [] }

/-- A device in SERVICE where a step in SAMPLE holds partition 0, whose context 1 is gone, and the step that waits for the
groves, of context 0, stands in EXECUTE: no composition makes such a step, and the statement does not exclude it. -/
def strayNext : State :=
  setLane (setCtx (setF State.reset Reg.MGT_STATUS_STAGE 6) 0 (some
      { slot := 0, first := true, saveBase := 0, saveUnits := 1, tag := 0, lastAbandoned := false, barred := false,
        pair := none, unpair := false })) 0
    { Lane.idle with cur := some (bareStep .sample 1), nextStep := some (bareStep .execute 0) }

theorem strayNext_serves : serving strayNext = true ∧ partResetting strayNext 0 = false := by decide +kernel

theorem strayNext_lane (q : Nat) : lane strayNext q =
    if q = 0 then { Lane.idle with cur := some (bareStep .sample 1), nextStep := some (bareStep .execute 0) }
    else Lane.idle := lane_setLane _ _ _ _

theorem strayNext_cur : (lane strayNext 0).cur = some (bareStep .sample 1) := by rw [strayNext_lane, if_pos rfl]

/-- Its commit leaves the step that waited in the groves, in EXECUTE as it stood. -/
theorem strayNext_commit : ∃ u, execStepCommit 0 strayNext = .next u ∧ (lane u 0).cur.map (·.st) = some .execute := by
  obtain ⟨hs, hr⟩ := strayNext_serves
  refine ⟨_, execStepCommit_eq strayNext_cur rfl rfl (by decide) hs hr, ?_⟩
  obtain ⟨frame, only, hlane⟩ := commitStep_of_gone (s := strayNext) (p := 0) (st := bareStep .sample 1) rfl rfl
  rw [strayNext_lane, if_pos rfl] at hlane
  have quiet (q : Nat) : (lane (commitStep strayNext 0 (bareStep .sample 1)) q).powerWait = none := by
    by_cases hq : q = 0
    · subst hq; rw [hlane]; rfl
    · rw [only q hq, strayNext_lane, if_neg hq]; rfl
  have chip : chipFaulted (commitStep strayNext 0 (bareStep .sample 1)) = false := by
    unfold chipFaulted isSet
    rw [frame.getF .chip rfl]
    decide +kernel
  rw [settleCancels_frame.holder 0, retryWaits_of_none quiet]
  exact issueStep_state (st := bareStep .execute 0) (by rw [hlane]) (by rw [hlane]) (by rw [hlane]; rfl) (by rw [hlane]; rfl)
    (by rw [hlane]) chip (by rw [hlane]; rfl) ((frame.ctx 0).trans rfl)

end Sys2Proof.Machine

namespace Sys2Proof
open Machine

/-- Refutes O13: in `strayNext` the step that waited for the groves stands in EXECUTE already, and its issue leaves it so. -/
theorem not_commitAdvancesAndFreesTheGroves : ¬ Obligations.CommitAdvancesAndFreesTheGroves := by
  intro h
  obtain ⟨hs, hr⟩ := strayNext_serves
  obtain ⟨t, ht, he⟩ := strayNext_commit
  obtain ⟨u, hu, hcur, -⟩ := h strayNext 0 (bareStep .sample 1) rfl strayNext_cur rfl rfl (by decide) hs hr
  obtain rfl : u = t := Host.Outcome.next.inj (hu.symm.trans ht)
  rcases hcur with hnone | ⟨x, hx, hissue, -⟩
  · rw [hnone] at he; cases he
  · rw [hx] at he; rw [Option.map_some, hissue] at he; cases he

end Sys2Proof
end

section
set_option Elab.async false
namespace Sys2Proof.Machine
variable {s : State}

/-! ## The intake of a SUBMIT -/

theorem takeTurn_quiet {t r : Nat} : Frame [] s (takeTurn s t r) := .of_core rfl

theorem advanceHead_afterHead (t r n : Nat) :
    Frame [] (setF (setF (chargeTenant s t 1 (16 * n)) (Reg.RQI_SQ_HEAD_PHASE t r) (phaseAt s t r n))
      (Reg.RQI_SQ_HEAD_HEAD t r) ((sqHead s t r + n) % sqSize s t r)) (advanceHead s t r n) := by
  refine .after (.foldl (fun a o => ?_) _ _) (.after (bump_quiet plain2) (bump_quiet plain1))
  split
  · exact setSq_quiet
  · exact .refl _

theorem advanceHead_frame {t r n : Nat} : Frame [.rings] s (advanceHead s t r n) :=
  .after (advanceHead_afterHead t r n).up (.after (setF_frame .rings areaOf_sqHead) (.after (setF_frame .rings areaOf_sqHead)
    chargeTenant_quiet.up))

/-- The head of a ring of at most 65,536 words passes an item. -/
theorem sqHead_advanceHead {t r : Nat} (n : Nat) (h : getF s (Reg.RQI_SQ_CFG_SIZE_LOG2 t r) ≤ 16) :
    sqHead (advanceHead s t r n) t r = (sqHead s t r + n) % sqSize s t r := by
  have small : (sqHead s t r + n) % sqSize s t r < 2 ^ 16 :=
    lt_of_lt_of_le (Nat.mod_lt _ (Nat.two_pow_pos _)) (Nat.pow_le_pow_right (by decide) h)
  rw [sqHead, (advanceHead_afterHead t r n).getF .rings areaOf_sqHead, getF_setF_same _ _ _ atMost]
  exact Nat.mod_eq_of_lt small

/-- The item is consumed: the head passes it, and its reads are charged. -/
def passItem (v : State) (t r n read : Nat) : State := takeTurn (chargeTenant (advanceHead v t r n) t 1 read) t r

theorem passItem_frame {t r n read : Nat} : Frame [.rings] s (passItem s t r n read) :=
  .after takeTurn_quiet.up (.after chargeTenant_quiet.up advanceHead_frame)

/-- What has left the rings' registers alone since `s` leaves the head to pass the item as `s` stood. -/
theorem sqHead_passItem {ps : List Area} {v : State} {t r : Nat} (f : Frame ps s v) (n read : Nat)
    (h : getF s (Reg.RQI_SQ_CFG_SIZE_LOG2 t r) ≤ 16) (no : Area.rings ∉ ps := by decide) :
    sqHead (passItem v t r n read) t r = (sqHead s t r + n) % sqSize s t r := by
  have size := f.getF (f := Reg.RQI_SQ_CFG_SIZE_LOG2 t r) .rings areaOf_sqCfg no
  have e : sqHead (passItem v t r n read) t r = sqHead (advanceHead v t r n) t r :=
    (Frame.after takeTurn_quiet chargeTenant_quiet).getF .rings areaOf_sqHead
  rw [e, sqHead_advanceHead n (size ▸ h), sqHead, f.getF .rings areaOf_sqHead no, sqSize, size]
  rfl

/-- The ring's intake is free again. -/
def ringServed (s : State) (t r : Nat) : State := setSq s t r { sq s t r with waitFor := none, inflight := false }

theorem consume_of_turn {t r : Nat} {need : List Nat} {k : State → State} (hroom : cqRoom s t need = true)
    (hturn : itsTurn s t r = true) : consume s t r need k = takeTurn (k (ringServed s t r)) t r := by
  simp [consume, hroom, hturn, ringServed]

/-- The completion ring of a refusal, and of a duplicate's record, has one more record that waits. -/
theorem waiting_queueRec (t c : Nat) (x : Rec) : (cq (queueRec s t c x) t c).waiting = (cq s t c).waiting ++ [x] := by
  rw [queueRec, cq_setCq_same]

theorem waiting_refuseItem (t r c code : Nat) (echo : List Byte) :
    (cq (refuseItem s t r c code echo) t c).waiting = (cq s t c).waiting ++ [refusalRec code echo] := by
  rw [refuseItem, (bumpSat_quiet areaOf_sqCnt).cq, waiting_queueRec]

theorem waiting_dupRec (t h : Nat) (m : Member) :
    (cq (dupRec s t h m) t m.sub.cq).waiting = (cq s t m.sub.cq).waiting ++
      [{ handle := BitVec.ofNat 32 h, status := 0x0101, flags := flagDup, count := 0, body := m.echo }] := by
  rw [dupRec, (bump_quiet plain2).cq, waiting_queueRec]

/-- A SUBMIT that no code refuses names a model that serves its class. -/
theorem servedModel_of_valid {t r : Nat} {ws : List W128} {prompt : Option (List W32)} {ext : Option (List Byte)}
    {coh : Option OpenCohort} (h : submitCode s t r ws prompt ext coh = 0) :
    ∃ m, servedModel s t r (submitFields ws).model = some m := by
  cases e : servedModel s t r (submitFields ws).model with
  | some m => exact ⟨m, rfl⟩
  | none =>
    simp only [submitCode, e] at h
    split at h <;> cases h

/-- The request of a SUBMIT outside a cohort as it stands in its entry. -/
def newReq (s : State) (t r slot bucket co pick : Nat) (m : Member) : Req :=
  { gen := genAt s (freeEntry s 262144 pick), tenant := t, cls := r, sub := m.sub, bias := m.bias, stops := m.stops,
    slot := slot, ctx := (servingCtx s slot r).getD 0, st := .arrived, arrival := s.qTime, bucket := bucket, cohort := co,
    member := 0, emitted := 0, append := 0, dAppend := 0, lastCommit := 0, hist := [], tail := [],
    maskPage := none, mask := [], maskReady := m.sub.maskAddr == 0, paired := false, kvUsed := 0, slots := [],
    parking := false, unparking := false, charged := false }

theorem createReq_spec (t r slot bucket co pick : Nat) (m : Member) :
    (createReq s t r slot bucket co 0 pick m).2 = freeEntry s 262144 pick ∧
    req? (createReq s t r slot bucket co 0 pick m).1 (freeEntry s 262144 pick) = some (newReq s t r slot bucket co pick m) ∧
    Frame [.reqs, .cqs] s (createReq s t r slot bucket co 0 pick m).1 := by
  have created := req_setReq_same (useEntry s (freeEntry s 262144 pick)) (freeEntry s 262144 pick)
    (some (newReq s t r slot bucket co pick m))
  set s1 := setReq (useEntry s (freeEntry s 262144 pick)) (freeEntry s 262144 pick) (some (newReq s t r slot bucket co pick m))
  have h1 : Frame [.reqs, .cqs] s s1 := .after setReq_frame.up useEntry_quiet.up
  have rest (P : Prop) [Decidable P] (x) (y : Rec) : Frame [.cqs] s1 (queueRec (bump (bump (if P then s1 else setDedup s1 t x)
      (Reg.ADM_TEN_QUEUED_QUEUED t) 1) (Reg.PRT_ACCT_JOBS_JOBS t) 1) t m.sub.cq y) :=
    .after queueRec_frame (.after (bump_quiet plain1).up (.after (bump_quiet plain1).up (.ite (.refl _) setDedup_quiet.up)))
  exact ⟨rfl, ((rest _ _ _).req _).trans created, h1.trans (rest _ _ _).up⟩

/-- A cohort of one valid member as it is passed to admission. -/
def newCohort (s : State) (t r model bucket i : Nat) : Cohort :=
  { tenant := t, cls := r, model := model, bucket := bucket, arrival := s.qTime, members := [i], st := .queued,
    evaluated := false, hold := 0, waitSince := 0, wPf := 0, committed := 0, kvLeft := 0 }

theorem completeCohort_created {t r model bucket pick : Nat} {m : Member} {x : Nat × Pkg} (hx : servedModel s t r model = some x)
    (hm : m.code = 0) (hd : dedupMatch s t m.sub.token = none) :
    let e := createReq { s with nextCohort := s.nextCohort + 1 } t r x.1 bucket s.nextCohort 0 pick m
    completeCohort s t r model bucket pick [m] =
      setAdmQueue (setCohort e.1 s.nextCohort (some (newCohort s t r model bucket e.2))) t r
        (admQueue e.1 t r ++ [s.nextCohort]) := by
  have hd' : dedupMatch { s with nextCohort := s.nextCohort + 1 } t m.sub.token = none := hd
  unfold completeCohort
  rw [hx]
  simp only [List.any_cons, List.any_nil, hm, createAll, hd']
  rfl

theorem completeCohort_duplicate {t r model bucket pick h : Nat} {m : Member} {x : Nat × Pkg}
    (hx : servedModel s t r model = some x) (hm : m.code = 0) (hd : dedupMatch s t m.sub.token = some h) :
    completeCohort s t r model bucket pick [m] = dupRec { s with nextCohort := s.nextCohort + 1 } t h m := by
  have hd' : dedupMatch { s with nextCohort := s.nextCohort + 1 } t m.sub.token = some h := hd
  unfold completeCohort
  rw [hx]
  simp only [List.any_cons, List.any_nil, hm, createAll, hd']
  rfl

/-- The member a SUBMIT outside a cohort is. -/
def loneMember (s : State) (t r : Nat) (ws : List W128) (ext : Option (List Byte)) (code : Nat) : Member :=
  { sub := submitFields ws
    bias := match ext with | some b => if (submitFields ws).extAddr = 0 then [] else extBias (submitFields ws) b | none => []
    stops := match ext with | some b => if (submitFields ws).extAddr = 0 then [] else extStops (submitFields ws) b | none => []
    code := code, echo := echoHere s t r (submitFields ws).token 0 }

/-- What a SUBMIT outside a cohort does before its head passes: its request, its duplicate's record, or its refusal. -/
def submitAlone (s a : State) (t r : Nat) (ws : List W128) (ext : Option (List Byte)) (pick code : Nat) : State :=
  let f := submitFields ws
  if code = 0 then completeCohort a t r f.model (bucketOf f.promptLen) pick [loneMember s t r ws ext code]
  else refuseItem a t r (refusalCq a t f.cq) code (echoHere s t r f.token 0)

/-- A SUBMIT whose turn it is, on a ring without an open cohort. -/
theorem execSubmit_eq {t r pick : Nat} {ws : List W128} {prompt : Option (List W32)} {ext : Option (List Byte)}
    (hread : readSubmit s t r ws = .ready) (htype : itemType ws = 1) (hcoh : (sq s t r).cohort = none)
    (hroom : cqRoom s t [refusalCq s t (submitFields ws).cq] = true) (hturn : itsTurn s t r = true) :
    ∃ read, execSubmit t r ws prompt ext pick s = .next (passItem
      (submitAlone s (ringServed s t r) t r ws ext pick (submitCode s t r ws prompt ext none)) t r ws.length read) := by
  have hneed : breakNeed s t r = [] := by simp [breakNeed, hcoh]
  have hbreak : breakCohort (ringServed s t r) t r = ringServed s t r := by
    unfold breakCohort ringServed; rw [sq_setSq_same]; simp only [hcoh]
  refine ⟨(if prompt.isSome then 4 * (submitFields ws).promptLen else 0) + (if (submitFields ws).extAddr = 0 then 0 else 800), ?_⟩
  unfold execSubmit
  simp only [hread, htype, hcoh, ite_self, ne_eq, not_true_eq_false, if_false]
  rw [hneed, List.nil_append, consume_of_turn hroom hturn]
  simp only [hbreak]
  rfl

end Sys2Proof.Machine

namespace Sys2Proof
open Machine

/-- Settles O2: each outcome is that of `submitAlone`, which leaves the ring's registers and DRAM alone before the head
passes. -/
theorem submitCreatesRequest : Obligations.SubmitCreatesRequest := by
  intro s t r pick ws prompt ext _ hread htype hcoh hroom hturn hsize
  dsimp only
  obtain ⟨read, hexec⟩ := execSubmit_eq (prompt := prompt) (ext := ext) (pick := pick) hread htype hcoh hroom hturn
  have hserved : Frame [] s (ringServed s t r) := setSq_quiet
  have passed {ps : List Area} {v : State} (f : Frame ps s v) (n : Area.rings ∉ ps := by decide)
      (m : Area.dram ∉ ps := by decide) : sqHead (passItem v t r ws.length read) t r = (sqHead s t r + ws.length) % sqSize s t r ∧
        SameMem s (passItem v t r ws.length read) :=
    ⟨sqHead_passItem f _ _ hsize n, fun a => (passItem_frame.mem (by decide) a).trans (f.mem m a)⟩
  refine ⟨fun hcode hdup => ?_, fun h hcode hdup => ?_, fun hcode => ?_⟩
  · obtain ⟨x, hx⟩ := servedModel_of_valid hcode
    rw [hcode, submitAlone, if_pos rfl,
      completeCohort_created (s := ringServed s t r) (m := loneMember s t r ws ext 0) hx rfl hdup] at hexec
    obtain ⟨hi, hreq, hcreate⟩ := createReq_spec (s := { ringServed s t r with nextCohort := s.nextCohort + 1 }) t r x.1
      (bucketOf (submitFields ws).promptLen) s.nextCohort pick (loneMember s t r ws ext 0)
    set e := createReq { ringServed s t r with nextCohort := s.nextCohort + 1 } t r x.1
      (bucketOf (submitFields ws).promptLen) s.nextCohort 0 pick (loneMember s t r ws ext 0)
    have he : Frame [.reqs, .cqs] s e.1 := hcreate.after (.of_core rfl)
    have hq (c : Cohort) (l : List Nat) : Frame [.cohorts, .admQ] e.1 (setAdmQueue (setCohort e.1 s.nextCohort (some c)) t r l) :=
      .after setAdmQueue_frame.up setCohort_frame.up
    refine ⟨_, hexec, passed (ps := [.reqs, .cqs, .cohorts, .admQ]) (he.up.trans (hq _ _).up), e.2, _, _,
      (passItem_frame.req _).trans (((hq _ _).req _).trans (hi ▸ hreq)), rfl, rfl, rfl, rfl, rfl,
      (passItem_frame.cohort _).trans ((setAdmQueue_frame.cohort _).trans (cohort_setCohort_same _ _ _)), rfl, rfl, ?_⟩
    rw [passItem_frame.queue, admQueue_setAdmQueue_same]
    exact congrArg (· ++ [s.nextCohort]) (he.queue t r)
  · obtain ⟨x, hx⟩ := servedModel_of_valid hcode
    rw [hcode, submitAlone, if_pos rfl,
      completeCohort_duplicate (s := ringServed s t r) (m := loneMember s t r ws ext 0) hx rfl hdup] at hexec
    have hv : Frame [.cqs] s (dupRec { ringServed s t r with nextCohort := s.nextCohort + 1 } t h (loneMember s t r ws ext 0)) :=
      .after (bump_quiet plain2).up (.after queueRec_frame (.of_core rfl))
    exact ⟨_, hexec, passed hv, passItem_frame.reqs.trans hv.reqs, _,
      (congrArg Cq.waiting (passItem_frame.cq _ _)).trans (waiting_dupRec t h (loneMember s t r ws ext 0)), rfl, rfl⟩
  · rw [submitAlone, if_neg hcode] at hexec
    have hv : Frame [.cqs] s (refuseItem (ringServed s t r) t r (refusalCq s t (submitFields ws).cq)
        (submitCode s t r ws prompt ext none) (echoHere s t r (submitFields ws).token 0)) :=
      .after (bumpSat_quiet areaOf_sqCnt).up (.after queueRec_frame hserved.up)
    exact ⟨_, hexec, passed hv, passItem_frame.reqs.trans hv.reqs, _,
      (congrArg Cq.waiting (passItem_frame.cq _ _)).trans (waiting_refuseItem _ _ _ _ _), rfl⟩

end Sys2Proof
end

section
set_option Elab.async false
namespace Sys2Proof.Machine
variable {s : State}

/-! ## The end of one request -/

theorem releaseReq_onlyReq (s : State) (i : Nat) (r : Req) : Only req? i s (releaseReq s i r) := by
  have freed (a : State) (f : PageUse → Bool) (n : Nat) : Frame [] a (credit (freeWhere a (r.ctx / 32) f) r.tenant n) :=
    .after credit_quiet freeWhere_quiet
  unfold releaseReq
  dsimp only
  split
  · exact (freed _ _ _).onlyReq
  · split
    · exact .after (.setReq _) (.after credit_quiet.onlyReq (freed _ _ _).onlyReq)
    · exact .after credit_quiet.onlyReq (freed _ _ _).onlyReq

/-- A request whose pages go back stays in its entry. -/
theorem releaseReq_isSome (i : Nat) (r : Req) : (req? (releaseReq s i r) i).isSome = (req? s i).isSome := by
  have freed (f : PageUse → Bool) (n : Nat) : Frame [] s (credit (freeWhere s (r.ctx / 32) f) r.tenant n) :=
    .after credit_quiet freeWhere_quiet
  unfold releaseReq
  dsimp only
  split
  · rw [(freed _ _).req i]
  · split
    · next h => rw [req_setReq_same, ← (freed _ _).req i, ← credit_quiet.req i, h]; rfl
    · rw [credit_quiet.req i, (freed _ _).req i]

theorem leaveLive_onlyReq (s : State) (i : Nat) (r : Req) (st : ReqState) (code : Nat) (n : Bool) :
    Only req? i s (leaveLive s i r st code n) := by
  have h : Only req? i s (leaveCohort s (releaseReq (giveShares s i r) i r) i r st code n) :=
    .after leaveCohort_frame.onlyReq (.after (releaseReq_onlyReq _ i r) giveShares_frame.onlyReq)
  rw [leaveLive_eq]
  dsimp only
  split
  · exact .after (.setReq _) h
  · exact h

/-- A request that ends stays in its entry, in its end state. -/
theorem leaveLive_state {i : Nat} {r x : Req} (st : ReqState) (code : Nat) (n : Bool) (h : req? s i = some x) :
    ∃ r', req? (leaveLive s i r st code n) i = some r' ∧ r'.st = st := by
  have there : (req? (leaveCohort s (releaseReq (giveShares s i r) i r) i r st code n) i).isSome = true := by
    rw [leaveCohort_frame.req i, releaseReq_isSome, giveShares_frame.req i, h]; rfl
  obtain ⟨y, hy⟩ := Option.isSome_iff_exists.mp there
  rw [leaveLive_eq]
  simp only [hy]
  exact ⟨_, req_setReq_same _ _ _, rfl⟩

/-- An end with a FINAL record. -/
theorem endReq_live {i : Nat} {r : Req} (st : ReqState) (code : Nat) (h : req? s i = some r) (hl : isLive r.st = true) :
    endReq s i st code false = queueRec (leaveLive (useEntry s i) i r st code true) r.tenant r.sub.cq
      { handle := handleOf i r.gen, status := code, flags := flagFinal, count := 0, body := noBody } := by
  simp [endReq, h, hl]

theorem endReq_dead {i : Nat} {r : Req} (st : ReqState) (code : Nat) (h : req? s i = some r) (hl : isLive r.st = false) :
    endReq s i st code false = s := by simp [endReq, h, hl]

theorem endReq_none {i : Nat} (st : ReqState) (code : Nat) (h : req? s i = none) : endReq s i st code false = s := by
  simp [endReq, h]

theorem endReq_onlyReq (s : State) (i : Nat) (st : ReqState) (code : Nat) : Only req? i s (endReq s i st code false) := by
  cases h : req? s i with
  | none => rw [endReq_none st code h]; exact .refl s
  | some r =>
    cases hl : isLive r.st with
    | false => rw [endReq_dead st code h hl]; exact .refl s
    | true =>
      rw [endReq_live st code h hl]
      exact .after queueRec_frame.onlyReq (.after (leaveLive_onlyReq _ _ _ _ _ _) useEntry_quiet.onlyReq)

/-- The request in entry `i` is in state `x`. -/
def ReqIs (i : Nat) (x : ReqState) (u : State) : Prop := ∃ r, req? u i = some r ∧ r.st = x

theorem ReqIs.frame {ps : List Area} {i : Nat} {x : ReqState} {u : State} (h : ReqIs i x s) (f : Frame ps s u)
    (n : Area.reqs ∉ ps := by decide) : ReqIs i x u := by
  unfold ReqIs; rw [f.req i n]; exact h

theorem ReqIs.other {i j : Nat} {x : ReqState} {u : State} (h : ReqIs j x s) (o : Only req? i s u) (n : j ≠ i) : ReqIs j x u := by
  unfold ReqIs; rw [o j n]; exact h

theorem endReq_reqIs {i : Nat} {x : ReqState} (st : ReqState) (code : Nat) (h : ReqIs i x s) (hl : isLive x = true) :
    ReqIs i st (endReq s i st code false) := by
  obtain ⟨r, hr, rfl⟩ := h
  rw [endReq_live st code hr hl]
  exact ReqIs.frame (leaveLive_state st code true ((useEntry_quiet.req i).trans hr)) queueRec_frame

theorem endReq_keepsEnd {i : Nat} {x : ReqState} (st : ReqState) (code : Nat) (h : ReqIs i x s) (hl : isLive x = false) :
    ReqIs i x (endReq s i st code false) := by
  obtain ⟨r, hr, rfl⟩ := h
  rw [endReq_dead st code hr hl]
  exact ⟨r, hr, rfl⟩

/-- An operation done on each entry of a list, which there leads from `x` to `y` and otherwise keeps `y`, leads each request
of the list from `x` to `y`. -/
theorem foldl_reqIs {f : State → Nat → State} {x y : ReqState} (only : ∀ a j, Only req? j a (f a j))
    (act : ∀ a i, ReqIs i x a → ReqIs i y (f a i)) (keep : ∀ a i, ReqIs i y a → ReqIs i y (f a i)) {l : List Nat} {i : Nat}
    (hi : i ∈ l) (h : ReqIs i x s) : ReqIs i y (l.foldl f s) := by
  have stays (l : List Nat) (a : State) (e : ReqIs i y a) : ReqIs i y (l.foldl f a) := by
    induction l generalizing a with
    | nil => exact e
    | cons j l ih =>
      by_cases hj : i = j
      · subst hj; exact ih _ (keep a i e)
      · exact ih _ (e.other (only a j) hj)
  induction l generalizing s with
  | nil => cases hi
  | cons j l ih =>
    by_cases hj : i = j
    · subst hj; exact stays l _ (act s i h)
    · exact ih ((List.mem_cons.mp hi).resolve_left hj) (h.other (only s j) hj)

/-- When every member ends in one end state, each that was live stands in it. -/
theorem endAll_reqIs {l : List Nat} {i : Nat} {x : ReqState} (st : ReqState) (code : Nat) (hl : isLive x = true)
    (hd : isLive st = false) (hi : i ∈ l) (h : ReqIs i x s) : ReqIs i st (l.foldl (fun a j => endReq a j st code false) s) :=
  foldl_reqIs (fun a j => endReq_onlyReq a j st code) (fun _ _ e => endReq_reqIs st code e hl)
    (fun _ _ e => endReq_keepsEnd st code e hd) hi h

/-! ## A cohort that is rejected -/

/-- A cohort that is rejected leaves the table and its queue, and each of its ARRIVED members ends REJECTED. -/
theorem rejectCohort_gone {co code : Nat} {c : Cohort} (h : cohort? s co = some c) :
    cohort? (rejectCohort s co code) co = none ∧ co ∉ admQueue (rejectCohort s co code) c.tenant c.cls ∧
      ∀ i ∈ c.members, ReqIs i .arrived s → ReqIs i .rejected (rejectCohort s co code) := by
  rw [rejectCohort_eq h]
  dsimp only
  set s1 := c.members.foldl (fun a i => endReq a i .rejected code false) s
  refine ⟨?_, ?_, fun i hi hr => ?_⟩
  · rw [noteRejected_quiet.cohort, setAdmQueue_frame.cohort, cohort_setCohort_same]
  · rw [noteRejected_quiet.queue, admQueue_setAdmQueue_same]
    simp
  · exact (endAll_reqIs .rejected code rfl rfl hi hr).frame (ps := [.cohorts, .admQ])
      (.after noteRejected_quiet.up (.after setAdmQueue_frame.up setCohort_frame.up))

end Sys2Proof.Machine
end

section
set_option Elab.async false
namespace Sys2Proof.Machine
variable {s : State}

/-! ## A cohort that is admitted -/

theorem admitMember_dead {i : Nat} {r : Req} (h : req? s i = some r) (hr : r.st ≠ .arrived) : admitMember s i = s := by
  simp [admitMember, h, hr]

theorem admitMember_onlyReq (s : State) (i : Nat) : Only req? i s (admitMember s i) := by
  unfold admitMember; split
  · refine .ite (.refl _) ?_
    have set (x : Option Req) (f : Fld) (hf : areaOf f.key = none) : Only req? i s (lower (setReq (useEntry s i) i x) f 1) :=
      .after (lower_quiet hf).onlyReq (.after (.setReq _) useEntry_quiet.onlyReq)
    exact .ite (.after (bump_quiet plain3).onlyReq (set _ _ plain1)) (set _ _ plain1)
  · exact .refl _

theorem admitMember_reqIs {i : Nat} (h : ReqIs i .arrived s) : ReqIs i .admitted (admitMember s i) := by
  obtain ⟨r, hr, hst⟩ := h
  have rest (a : State) (P : Prop) [Decidable P] (t k n : Nat) :
      Frame [] a (if P then bump a (Reg.PRT_ACCT_WAIT_WAIT t k n) 1 else a) := .ite (bump_quiet plain3) (.refl _)
  have admitted (y : Req) (hy : y.st = .admitted) :
      ReqIs i .admitted (lower (setReq (useEntry s i) i (some y)) (Reg.ADM_TEN_QUEUED_QUEUED r.tenant) 1) :=
    ⟨y, ((lower_quiet plain1).req i).trans (req_setReq_same _ _ _), hy⟩
  unfold admitMember
  rw [hr]
  dsimp only
  rw [if_neg (not_not_intro hst)]
  exact (admitted _ rfl).frame (rest _ _ _ _ _)

/-- A cohort that is admitted stands so in the table, with every ARRIVED member ADMITTED. -/
theorem admitCohort_admits {co : Nat} {c : Cohort} (h : cohort? s co = some c) :
    (∃ h', cohort? (admitCohort s co) co = some h' ∧ h'.st = .admitted) ∧
      ∀ i ∈ c.members, ReqIs i .arrived s → ReqIs i .admitted (admitCohort s co) := by
  have stays (a : State) (i : Nat) (e : ReqIs i .admitted a) : ReqIs i .admitted (admitMember a i) := by
    obtain ⟨r, hr, hst⟩ := e
    rw [admitMember_dead hr (by rw [hst]; decide)]
    exact ⟨r, hr, hst⟩
  rw [admitCohort_eq h]
  refine ⟨⟨_, (noteDue_quiet.cohort _).trans (cohort_setCohort_same _ _ _), rfl⟩, fun i hi hr => ?_⟩
  exact (foldl_reqIs admitMember_onlyReq (fun _ _ e => admitMember_reqIs e) stays hi hr).frame (ps := [.cohorts])
    (.after noteDue_quiet.up setCohort_frame)

/-! ## MASK pages -/

/-- What a cohort keeps while its members' masks are taken. -/
def Cohort.core (c : Cohort) : List Nat × Nat × Nat × CohortState := (c.members, c.tenant, c.cls, c.st)

theorem useReservation_keeps (s : State) (i n : Nat) :
    (∀ j x, ReqIs j x s → ReqIs j x (useReservation s i n)) ∧
      ∀ co, (cohort? (useReservation s i n) co).map Cohort.core = (cohort? s co).map Cohort.core := by
  unfold useReservation
  cases hr : req? s i with
  | none => exact ⟨fun _ _ h => h, fun _ => rfl⟩
  | some r =>
    dsimp only
    set s1 := setReq s i (some { r with kvUsed := r.kvUsed + n })
    have h1 (j : Nat) (x : ReqState) (h : ReqIs j x s) : ReqIs j x s1 := by
      by_cases hj : j = i
      · subst hj
        obtain ⟨y, hy, hx⟩ := h
        exact ⟨_, req_setReq_same _ _ _, by rw [← hx, ← Option.some.inj (hr.symm.trans hy)]⟩
      · unfold ReqIs; rw [Only.setReq _ j hj]; exact h
    cases hc : cohort? s1 r.cohort with
    | none => exact ⟨h1, fun _ => rfl⟩
    | some c =>
      refine ⟨fun j x h => (h1 j x h).frame (ps := [.cohorts]) (.after (lower_quiet plain1).up setCohort_frame), fun co => ?_⟩
      dsimp only
      rw [(lower_quiet plain1).cohort, cohort_setCohort]
      split
      · next h => subst h; rw [setReq_frame.cohort] at hc; rw [hc]; rfl
      · rfl

/-- Without a mask there is nothing to take. -/
theorem takeMasks_of_unmasked {p : Nat} {l : List (Nat × Req)} (h : ∀ e ∈ l, e.2.sub.maskAddr = 0) :
    takeMasks p s l = (s, true) := by
  induction l with
  | nil => rfl
  | cons e l ih =>
    obtain ⟨i, r⟩ := e
    rw [takeMasks, if_pos (h (i, r) (List.mem_cons_self ..)), ih fun e he => h e (List.mem_cons_of_mem _ he)]

/-- The MASK page of the request `r` in entry `i`, just taken, is charged, and the copy of its mask held to its traffic. -/
def chargeMask (s : State) (p i : Nat) (r : Req) : State :=
  let pg := (pagesWhere s p (· == .mask (hnat i r))).head?
  let s2 := setReq s i (some { r with maskPage := pg, charged := true })
  let n := match pkgOf s2 r.slot with | some k => ceilDiv k.vocab 8 | none => 0
  let s3 := chargeHeld (chargeHeld s2 p 1 (.mask i) n) p 0 (.mask i) n
  useReservation (charge s3 r.tenant 1) i 1

theorem takeMasks_cons (p i : Nat) (r : Req) (l : List (Nat × Req)) : takeMasks p s ((i, r) :: l) =
    if r.sub.maskAddr = 0 then takeMasks p s l
    else match takePages s p [.mask (hnat i r)] (.tenant r.tenant) with
      | none => (s, false)
      | some s1 => takeMasks p (chargeMask s1 p i r) l := by
  rw [takeMasks]; rfl

/-- Neither a request's state nor a cohort but for its pages changes. -/
def KeepsMembers (s u : State) : Prop :=
  Frame [.dram, .held, .reqs, .cohorts] s u ∧ (∀ j, ReqIs j .arrived s → ReqIs j .arrived u) ∧
  ∀ co, (cohort? u co).map Cohort.core = (cohort? s co).map Cohort.core

theorem KeepsMembers.trans {t u : State} (h : KeepsMembers s t) (g : KeepsMembers t u) : KeepsMembers s u :=
  ⟨h.1.trans g.1, fun j e => g.2.1 j (h.2.1 j e), fun co => (g.2.2 co).trans (h.2.2 co)⟩

theorem Frame.keepsMembers {u : State} (h : Frame [.dram, .held] s u) : KeepsMembers s u :=
  ⟨h.up, fun _ e => e.frame h, fun co => by rw [h.cohort]⟩

theorem chargeMask_keeps {p i : Nat} {r : Req} (hr : r.st = .arrived) : KeepsMembers s (chargeMask s p i r) := by
  have set (x : Req) (hx : x.st = .arrived) : KeepsMembers s (setReq s i (some x)) := by
    refine ⟨setReq_frame.up, fun j e => ?_, fun co => by rw [setReq_frame.cohort]⟩
    by_cases hj : j = i
    · subst hj; exact ⟨x, req_setReq_same _ _ _, hx⟩
    · exact e.other (.setReq _) hj
  have charged (a : State) (n : Nat) : Frame [.dram, .held] a
      (charge (chargeHeld (chargeHeld a p 1 (.mask i) n) p 0 (.mask i) n) r.tenant 1) :=
    .after charge_quiet.up (.after chargeHeld_frame chargeHeld_frame)
  have used (a : State) : KeepsMembers a (useReservation a i 1) :=
    ⟨useReservation_frame.up, fun j => (useReservation_keeps a i 1).1 j _, (useReservation_keeps a i 1).2⟩
  unfold chargeMask
  extract_lets pg s2 n s3
  exact (set _ hr : KeepsMembers s s2).trans ((charged s2 n).keepsMembers.trans (used _))

theorem takeMasks_keeps {p : Nat} {l : List (Nat × Req)} (h : ∀ e ∈ l, e.2.st = .arrived) : KeepsMembers s (takeMasks p s l).1 := by
  have same (a : State) : KeepsMembers a a := Frame.keepsMembers (.refl a)
  induction l generalizing s with
  | nil => exact same s
  | cons e l ih =>
    obtain ⟨i, r⟩ := e
    have hl : ∀ e ∈ l, e.2.st = .arrived := fun e he => h e (List.mem_cons_of_mem _ he)
    rw [takeMasks_cons]
    split
    · exact ih hl
    · split
      · exact same s
      · next s1 hs1 =>
        exact (takePages_frame hs1).up.keepsMembers.trans ((chargeMask_keeps (h (i, r) (List.mem_cons_self ..))).trans (ih hl))

/-! ## A cohort that is accepted -/

theorem mem_arrivedMembers {c : Cohort} {e : Nat × Req} :
    e ∈ arrivedMembers s c ↔ e.1 ∈ c.members ∧ req? s e.1 = some e.2 ∧ e.2.st = .arrived := by
  obtain ⟨i, r⟩ := e
  simp only [arrivedMembers, List.mem_filterMap]
  constructor
  · rintro ⟨j, hj, h⟩
    split at h
    · next x hx =>
      split at h
      · next hst => cases h; exact ⟨hj, hx, hst⟩
      · cases h
    · cases h
  · rintro ⟨hi, hr, hst⟩
    exact ⟨i, hi, by simp only [hr, hst, if_true]⟩

/-- An accepted cohort has left its queue: it is counted, and its masks are to be taken. -/
def acceptQueued (s : State) (co : Nat) (c : Cohort) (slot : Nat) (k : Pkg) : State :=
  let t := c.tenant
  let ms := arrivedMembers s c
  let m := ms.length
  let w := getF s (Reg.ADM_TEN_CTL_W_PF t)
  let s1 := bump (bump s (Reg.ADM_TEN_LIVE_LIVE t) m) (Reg.MDL_SLOT_LIVE_LIVE slot) m
  let s2 := bump s1 (Reg.ADM_TEN_RESERVED_RESERVED t) (m * c.bucket * w)
  let pages := prefillPages k c.bucket ms
  let s3 := bump s2 (Reg.ADM_TEN_KVRSV_KVRSV t) pages
  let s4 := setCohort s3 co
    (some { c with st := .copying, wPf := w, hold := 0, members := ms.map (·.1), kvLeft := pages })
  let s5 := setAdmQueue s4 t c.cls ((admQueue s4 t c.cls).filter (· != co))
  showHold (bump s5 (Reg.TRC_RE_COUNT 1) 1) t c.cls

theorem acceptCohort_eq (s : State) (co : Nat) (c : Cohort) (slot : Nat) (k : Pkg) : acceptCohort s co c slot k =
    let ms := arrivedMembers s c
    let s6 := acceptQueued s co c slot k
    let e := takeMasks ((partOf s c.tenant).getD 0) s6 (arrivedMembers s6 { c with members := ms.map (·.1) })
    if e.2 then (if ms.all fun x => x.2.sub.maskAddr == 0 then admitCohort e.1 co else e.1)
    else rejectCohort (lower e.1 (Reg.TRC_RE_COUNT 1) 1) co 0x0207 := rfl

theorem acceptQueued_spec (co : Nat) (c : Cohort) (slot : Nat) (k : Pkg) :
    Frame [.cohorts, .admQ] s (acceptQueued s co c slot k) ∧
      (cohort? (acceptQueued s co c slot k) co).map Cohort.core =
        some ((arrivedMembers s c).map (·.1), c.tenant, c.cls, .copying) ∧
      co ∉ admQueue (acceptQueued s co c slot k) c.tenant c.cls := by
  have last (a : State) : Frame [] a (showHold (bump a (Reg.TRC_RE_COUNT 1) 1) c.tenant c.cls) :=
    .after showHold_quiet (bump_quiet plain1)
  refine ⟨.after (last _).up (.after setAdmQueue_frame.up (.after setCohort_frame.up (.after (bump_quiet plain1).up
    (.after (bump_quiet plain1).up (.after (bump_quiet plain1).up (bump_quiet plain1).up))))), ?_, ?_⟩
  · unfold acceptQueued
    rw [(last _).cohort, setAdmQueue_frame.cohort, cohort_setCohort_same]
    rfl
  · unfold acceptQueued
    rw [(last _).queue, admQueue_setAdmQueue_same]
    simp

end Sys2Proof.Machine
end

section
set_option Elab.async false
namespace Sys2Proof.Machine
variable {s : State}

/-- The cohort is gone from the table and the queue of (t, c), and those of `ms` that were ARRIVED have ended REJECTED. -/
def RejectedWhole (s : State) (co t c : Nat) (ms : List Nat) (u : State) : Prop :=
  cohort? u co = none ∧ co ∉ admQueue u t c ∧ ∀ i ∈ ms, ReqIs i .arrived s → ReqIs i .rejected u

/-- Without masks a cohort is admitted as soon as it is accepted. -/
theorem acceptCohort_unmasked (co : Nat) (c : Cohort) (slot : Nat) (k : Pkg)
    (h : (arrivedMembers s c).all (fun e => e.2.sub.maskAddr == 0) = true) :
    let u := acceptCohort s co c slot k
    co ∉ admQueue u c.tenant c.cls ∧ (∃ h', cohort? u co = some h' ∧ h'.st = .admitted) ∧
      ∀ i ∈ c.members, ReqIs i .arrived s → ReqIs i .admitted u := by
  obtain ⟨frame, core, gone⟩ := acceptQueued_spec (s := s) co c slot k
  obtain ⟨h6, hc, hcore⟩ := Option.map_eq_some_iff.mp core
  simp only [Cohort.core, Prod.mk.injEq] at hcore
  obtain ⟨hm, -⟩ := hcore
  have unmasked : ∀ e ∈ arrivedMembers (acceptQueued s co c slot k) { c with members := (arrivedMembers s c).map (·.1) },
      e.2.sub.maskAddr = 0 := fun e he => by
    obtain ⟨hin, hr, hst⟩ := mem_arrivedMembers.mp he
    obtain ⟨x, hx, hxe⟩ := List.mem_map.mp hin
    obtain ⟨hxm, hxr, -⟩ := mem_arrivedMembers.mp hx
    have : x.2 = e.2 := Option.some.inj (hxr.symm.trans (hxe ▸ (frame.req e.1).symm.trans hr))
    simpa [this] using List.all_eq_true.mp h x hx
  obtain ⟨admitted, members⟩ := admitCohort_admits hc
  simp only [acceptCohort_eq, takeMasks_of_unmasked unmasked, h, if_true]
  refine ⟨by rwa [admitCohort_frame.queue], admitted, fun i hi hr => members i ?_ (hr.frame frame)⟩
  obtain ⟨r, hr, hst⟩ := hr
  exact hm ▸ List.mem_map.mpr ⟨(i, r), mem_arrivedMembers.mpr ⟨hi, hr, hst⟩, rfl⟩

/-- With masks a cohort that is accepted is copying them, or is rejected for want of a page. -/
theorem acceptCohort_masked (co : Nat) (c : Cohort) (slot : Nat) (k : Pkg)
    (h : (arrivedMembers s c).all (fun e => e.2.sub.maskAddr == 0) = false) :
    let u := acceptCohort s co c slot k
    co ∉ admQueue u c.tenant c.cls ∧
      ((∃ h', cohort? u co = some h' ∧ h'.st = .copying) ∨ RejectedWhole s co c.tenant c.cls c.members u) := by
  obtain ⟨frame, core, gone⟩ := acceptQueued_spec (s := s) co c slot k
  obtain ⟨f, arrived, cohorts⟩ := takeMasks_keeps (s := acceptQueued s co c slot k) (p := (partOf s c.tenant).getD 0)
    (l := arrivedMembers (acceptQueued s co c slot k) { c with members := (arrivedMembers s c).map (·.1) })
    (fun e he => (mem_arrivedMembers.mp he).2.2)
  simp only [acceptCohort_eq, h]
  set e := takeMasks _ _ _
  obtain ⟨h6, hc, hcore⟩ := Option.map_eq_some_iff.mp ((cohorts co).trans core)
  simp only [Cohort.core, Prod.mk.injEq] at hcore
  obtain ⟨hm, ht, hcl, hst⟩ := hcore
  split
  · exact ⟨by simpa [f.queue] using gone, .inl ⟨h6, hc, hst⟩⟩
  · have q : Frame [] e.1 (lower e.1 (Reg.TRC_RE_COUNT 1) 1) := lower_quiet plain1
    obtain ⟨none, unqueued, rejected⟩ := rejectCohort_gone (code := 0x0207) ((q.cohort co).trans hc)
    rw [ht, hcl] at unqueued
    refine ⟨unqueued, .inr ⟨none, unqueued, fun i hi hr => rejected i ?_ ((arrived i (hr.frame frame)).frame q)⟩⟩
    obtain ⟨r, hr, hst⟩ := hr
    exact hm ▸ List.mem_map.mpr ⟨(i, r), mem_arrivedMembers.mpr ⟨hi, hr, hst⟩, rfl⟩

/-! ## The evaluation of a head -/

theorem modelFor_of_accept {c : Cohort} (h : evaluate s c = .accept) : ∃ m, modelFor s c.tenant c.model = some m := by
  cases e : modelFor s c.tenant c.model with
  | some m => exact ⟨m, rfl⟩
  | none =>
    simp only [evaluate, e] at h
    split at h <;> cases h

/-- A head waits for its concurrency (2) or for its budget (1). -/
theorem evaluate_wait {c : Cohort} {x : Nat} (h : evaluate s c = .wait x) : x = 1 ∨ x = 2 := by
  simp only [evaluate] at h
  split at h
  · cases h
  · split at h
    · cases h
    · split_ifs at h <;> cases h <;> simp

section
variable {t c co : Nat} {h : Cohort} (hq : (admQueue s t c).head? = some co) (hc : cohort? s co = some h)
include hq hc

/-- A head whose wait is over is rejected. -/
theorem evalHead_due (hd : h.hold ≠ 0 ∧ waitOver s h = true) :
    evalHead s t c = (rejectCohort s co (holdCode h.hold), false) := by
  simp [evalHead, hq, hc, hd]

theorem evalHead_refuse {code : Nat} (hd : ¬(h.hold ≠ 0 ∧ waitOver s h = true)) (he : evaluate s h = .refuse code) :
    evalHead s t c = (rejectCohort s co code, false) := by
  unfold evalHead
  simp only [hq, hc, if_neg hd, he]

theorem evalHead_wait {x : Nat} (hd : ¬(h.hold ≠ 0 ∧ waitOver s h = true)) (he : evaluate s h = .wait x) :
    evalHead s t c = (showHold (setCohort s co (some { h with
      hold := x, waitSince := if h.hold = 0 then s.qTime else h.waitSince, evaluated := true })) t c, true) := by
  unfold evalHead
  simp only [hq, hc, if_neg hd, he]

theorem evalHead_accept {m : Nat × Pkg} (hd : ¬(h.hold ≠ 0 ∧ waitOver s h = true)) (he : evaluate s h = .accept)
    (hm : modelFor s t h.model = some m) :
    evalHead s t c = (acceptCohort s co { h with evaluated := true } m.1 m.2, false) := by
  unfold evalHead
  simp only [hq, hc, if_neg hd, he, hm]

end

/-- A head that is held shows its cause in ADM_TEN_WAIT. -/
theorem showHold_spec {t c co x : Nat} {h : Cohort} (hc4 : c < 4) (hx : x < 4) (hq : (admQueue s t c).head? = some co)
    (hc : cohort? s co = some h) (hh : h.hold = x) : getF (showHold s t c) (holdFld t c) = x := by
  have wide : (holdFld t c).lo + (holdFld t c).w ≤ 64 := by simp only [holdFld]; omega
  have : headHold s (admQueue s t c) = x := by simp [headHold, hq, hc, hh]
  rw [showHold, this, getF_setF_same _ _ _ wide]
  exact Nat.mod_eq_of_lt hx

/-! ## The scan -/

theorem getF_setScan (s : State) (x : AdmScan) (f : Fld) : getF { s with scan := x } f = getF s f := rfl

theorem scanPath_last {t c : Nat} (h : 4 * t + c < 256) : scanPath s t c = (scanPath s t c).dropLast ++ [4 * t + c] := by
  unfold scanPath
  rw [List.range_succ, List.map_append, List.map_singleton, List.dropLast_concat]
  congr 2
  omega

/-- ADMISSION_EVALUATE evaluates the head to which its scan comes, unless a lower class of the tenant waits. -/
theorem execAdmissionEvaluate_eq {t c : Nat} (h : 4 * t + c < 256) (hc : c < 4) (hs : serving s = true)
    (ht : (scanQueues s (scanPath s t c).dropLast).2 ≠ some t) :
    ∃ n, execAdmissionEvaluate t c s = .next
      { (evalHead (scanQueues s (scanPath s t c).dropLast).1 t c).1 with
        scan := { (evalHead (scanQueues s (scanPath s t c).dropLast).1 t c).1.scan with next := n } } := by
  have hk : (4 * t + c) / 4 = t ∧ (4 * t + c) % 4 = c := by omega
  have e : (scanQueues s (scanPath s t c)).1 = (evalHead (scanQueues s (scanPath s t c).dropLast).1 t c).1 := by
    conv_lhs => rw [scanPath_last h, scanQueues, List.foldl_append]
    rw [← scanQueues, List.foldl_cons, List.foldl_nil, hk.1, hk.2, if_neg ht]
  unfold execAdmissionEvaluate
  simp only [hs, e]
  exact ⟨_, rfl⟩

end Sys2Proof.Machine

namespace Sys2Proof
open Machine

/-- Settles O6: the last queue of the scan's path is (t, c), and `evalHead` decides its head by the verdict. -/
theorem admissionDecidesTheHead : Obligations.AdmissionDecidesTheHead := by
  intro s t c co h hwf hserving a hscan hhead hcohort ht hc
  subst ht hc
  have hrange : h.tenant < 64 ∧ h.cls < 4 := by simpa [Instr.wf, tenantOk, ringOk] using hwf
  obtain ⟨n, hexec⟩ := execAdmissionEvaluate_eq (s := s) (by omega) hrange.2 hserving hscan
  change execAdmissionEvaluate _ _ s = .next { (evalHead a _ _).1 with scan := _ } at hexec
  have moved (v : State) : Frame [] v { v with scan := { v.scan with next := n } } := .of_core rfl
  dsimp only
  have rejected (code : Nat) (hev : evalHead a h.tenant h.cls = (rejectCohort a co code, false)) :
      Answers (.admissionEvaluate h.tenant h.cls) s (RejectedWhole a co h.tenant h.cls h.members) := by
    rw [hev] at hexec
    obtain ⟨none, unqueued, ended⟩ := rejectCohort_gone (code := code) hcohort
    exact ⟨_, hexec, ((moved _).cohort co).trans none, by rwa [(moved _).queue],
      fun i hi hr => (ended i hi hr).frame (moved _)⟩
  refine ⟨fun hdue hev => ?_, fun hcase => ?_, fun x hdue hev => ?_⟩
  · obtain ⟨m, hm⟩ := modelFor_of_accept hev
    rw [evalHead_accept hhead hcohort hdue hev hm] at hexec
    refine ⟨_, hexec, ?_, fun hmask => ?_, fun hmask => ?_⟩
    · rw [(moved _).queue]
      cases hmask : (arrivedMembers a h).all fun e => e.2.sub.maskAddr == 0 with
      | true => exact (acceptCohort_unmasked co { h with evaluated := true } m.1 m.2 hmask).1
      | false => exact (acceptCohort_masked co { h with evaluated := true } m.1 m.2 hmask).1
    · obtain ⟨-, ⟨h', hc', hst⟩, members⟩ := acceptCohort_unmasked co { h with evaluated := true } m.1 m.2 hmask
      exact ⟨⟨h', ((moved _).cohort co).trans hc', hst⟩, fun i hi r hr har => (members i hi ⟨r, hr, har⟩).frame (moved _)⟩
    · obtain ⟨-, ⟨h', hc', hst⟩ | ⟨none, unqueued, ended⟩⟩ := acceptCohort_masked co { h with evaluated := true } m.1 m.2 hmask
      · exact .inl ⟨h', ((moved _).cohort co).trans hc', hst⟩
      · exact .inr ⟨((moved _).cohort co).trans none, by rwa [(moved _).queue],
          fun i hi r hr har => (ended i hi ⟨r, hr, har⟩).frame (moved _)⟩
  · obtain ⟨code, hev⟩ : ∃ code, evalHead a h.tenant h.cls = (rejectCohort a co code, false) := by
      by_cases hdue : h.hold ≠ 0 ∧ waitOver a h = true
      · exact ⟨_, evalHead_due hhead hcohort hdue⟩
      · obtain ⟨code, hev⟩ := hcase.resolve_left hdue
        exact ⟨code, evalHead_refuse hhead hcohort hdue hev⟩
    obtain ⟨u, hu, none, unqueued, ended⟩ := rejected code hev
    exact ⟨u, hu, none, unqueued, fun i hi r hr har => ended i hi ⟨r, hr, har⟩⟩
  · rw [evalHead_wait hhead hcohort hdue hev] at hexec
    have small : x < 4 := by rcases evaluate_wait hev with rfl | rfl <;> decide
    set held : Cohort := { h with hold := x, waitSince := if h.hold = 0 then a.qTime else h.waitSince, evaluated := true }
    have queue := (setCohort_frame (s := a) (i := co) (x := some held)).queue h.tenant h.cls
    refine ⟨_, hexec, ?_, by rw [(moved _).queue, showHold_quiet.queue, queue], held, ?_, rfl, rfl⟩
    · rw [getF_setScan]
      exact showHold_spec hrange.2 small (queue.symm ▸ hhead) (cohort_setCohort_same a co (some held)) rfl
    · rw [(moved _).cohort, showHold_quiet.cohort, cohort_setCohort_same]

end Sys2Proof
end

section
set_option Elab.async false
namespace Sys2Proof.Machine
variable {s : State}

/-! ## Bytes of partition memory -/

theorem Frame.translate {ps : List Area} {u : State} (h : Frame ps s u) (p a : Nat) (n : Area.layout ∉ ps := by decide) :
    translate u p a = translate s p a := by
  unfold Machine.translate topOf channels grovesOf firstGrove
  rw [h.getF .layout areaOf_partCfg n, h.getF .layout areaOf_partCfg n]

/-- Two addresses of a partition never meet in one byte of DRAM (R194). -/
theorem translate_inj {p a b x : Nat} (ha : translate s p a = some x) (hb : translate s p b = some x) : a = b := by
  have bound {c y : Nat} (h : translate s p c = some y) : c < topOf s p := by
    by_contra k; rw [translate_none s (Nat.not_lt.mp k)] at h; cases h
  have hn : 0 < channels s p := by
    by_contra k
    have := bound ha
    simp [topOf, Nat.eq_zero_of_not_pos k] at this
  have low {c : Nat} (h : c < topOf s p) : c / 4096 / channels s p < 520192 := by
    rw [Nat.div_div_eq_div_mul, Nat.div_lt_iff_lt_mul (by positivity)]
    unfold topOf at h; omega
  have la := low (bound ha)
  have lb := low (bound hb)
  rw [translate_some s (bound ha)] at ha
  rw [translate_some s (bound hb)] at hb
  have e := Option.some.inj (ha.trans hb.symm)
  have hm : a / 4096 % channels s p = b / 4096 % channels s p := by omega
  have hd : a / 4096 / channels s p = b / 4096 / channels s p := by omega
  have hq : a / 4096 = b / 4096 := by
    rw [← Nat.div_add_mod (a / 4096) (channels s p), ← Nat.div_add_mod (b / 4096) (channels s p), hm, hd]
  omega

theorem loadByte_storeAt (p a c : Nat) (b : Byte) :
    loadByte (storeAt s p a b).1 c = if translate s p a = some c then b else loadByte s c := by
  unfold storeAt
  cases h : translate s p a with
  | none => rfl
  | some x =>
    simp only [loadByte_storeByte, Option.some.injEq, eq_comm]

/-- A store leaves every byte alone that none of its addresses names. -/
theorem loadByte_storePart_other {p c : Nat} (bs : List Byte) {a : Nat} (h : ∀ j, j < bs.length → translate s p (a + j) ≠ some c) :
    loadByte (storePart s p a bs).1 c = loadByte s c := by
  induction bs generalizing s a with
  | nil => rfl
  | cons b bs ih =>
    rw [storePart, ih fun j hj => ?_, loadByte_storeAt, if_neg (by simpa using h 0 (Nat.succ_pos _))]
    rw [storeAt_frame.translate, Nat.add_assoc, Nat.add_comm 1]
    exact h (j + 1) (Nat.succ_lt_succ hj)

/-- A byte that is stored is the byte that reads back. -/
theorem loadByte_storePart_same {p x : Nat} (bs : List Byte) {a j : Nat} (hj : j < bs.length) (h : translate s p (a + j) = some x) :
    loadByte (storePart s p a bs).1 x = bs.getD j 0#8 := by
  induction bs generalizing s a j with
  | nil => cases hj
  | cons b bs ih =>
    rw [storePart]
    cases j with
    | zero =>
      rw [loadByte_storePart_other bs fun i _ e => ?_, loadByte_storeAt, if_pos (by simpa using h)]
      · rfl
      · rw [storeAt_frame.translate] at e
        have := translate_inj e h
        omega
    | succ j =>
      refine ih (Nat.lt_of_succ_lt_succ hj) ?_
      rwa [storeAt_frame.translate, Nat.add_assoc, Nat.add_comm 1]

/-- A partition write stores its bytes; the lines they pass hold nothing else. -/
theorem dram_writePart (p : Nat) (who : Agent) (a : Nat) (bs : List Byte) :
    (writePart s p who a bs).1.dram = (storePart s p a bs).1.dram := touchPart_quiet.dram

end Sys2Proof.Machine
end

section
set_option Elab.async false
namespace Sys2Proof.Machine
variable {s : State}

/-! ## Held traffic while no store waits -/

/-- Bytes from Cezlink to be stored. -/
def isStore (f : HeldFor) : Bool := match f with | .store .. => true | _ => false

theorem noStoreWaits_iff (p : Nat) : NoStoreWaits s p ↔ ∀ k < 4, ∀ w ∈ (heldOf s p k).waits, isStore w.1 = false := by
  have e : NoStoreWaits s p ↔ waitsFor s p isStore = false := Iff.rfl
  rw [e, waitsFor, List.any_eq_false]
  simp only [List.mem_range, List.any_eq_true, not_exists, not_and, Bool.not_eq_true]

/-- Where no store waits for the memory regulator of `p`, DRAM keeps, and none waits after. -/
def Calm (p : Nat) (s u : State) : Prop := NoStoreWaits s p → NoStoreWaits u p ∧ u.dram = s.dram

namespace Calm
variable {p : Nat} {t u : State}

theorem refl (s : State) : Calm p s s := fun h => ⟨h, rfl⟩
theorem after (g : Calm p t u) (f : Calm p s t) : Calm p s u := fun h =>
  ⟨(g (f h).1).1, (g (f h).1).2.trans (f h).2⟩

theorem ite {P : Prop} [Decidable P] (f : Calm p s t) (g : Calm p s u) : Calm p s (if P then t else u) := by
  split
  · exact f
  · exact g

theorem foldl {α : Type} {f : State → α → State} (h : ∀ a x, Calm p a (f a x)) (l : List α) (s : State) :
    Calm p s (l.foldl f s) := by
  induction l generalizing s with
  | nil => exact refl s
  | cons x xs ih => exact (ih _).after (h s x)

end Calm

theorem Frame.calm {ps : List Area} {u : State} (h : Frame ps s u) (p : Nat) (n : Area.held ∉ ps := by decide)
    (m : Area.dram ∉ ps := by decide) : Calm p s u := fun k => ⟨by
  unfold NoStoreWaits waitsFor heldOf; rw [h.held n]; exact k, h.dram m⟩

theorem heldOf_setHeld (s : State) (p k i : Nat) (x : Held) : heldOf (setHeld s p k x) p i = if i = k then x else heldOf s p i := by
  unfold heldOf setHeld
  rw [spGet_spPut]
  by_cases h : i = k
  · rw [if_pos h, if_pos (by omega)]
  · rw [if_neg h, if_neg (by omega)]

/-- What waits at one regulator after, where no store is among it. -/
theorem setHeld_calm {p k : Nat} {x : Held} (h : ∀ w ∈ x.waits, isStore w.1 = false) : Calm p s (setHeld s p k x) := by
  refine fun hs => ⟨(noStoreWaits_iff p).mpr fun i hi w hw => ?_, rfl⟩
  rw [heldOf_setHeld] at hw
  split at hw
  · exact h w hw
  · exact (noStoreWaits_iff p).mp hs i hi w hw

/-- What issues, and what waits still, is what waited. -/
theorem issueWaits_kinds (u : Nat) (l : List (HeldFor × Nat)) (lv : Int) : (issueWaits u l lv).1.map (·.1) = l.map (·.1) := by
  induction l generalizing lv with
  | nil => rfl
  | cons w l ih =>
    unfold issueWaits
    split
    · rfl
    · split
      · simp only [List.map_cons, ih]
      · rfl

theorem waitIssued_quiet {p : Nat} {e : HeldFor × Nat} (h : isStore e.1 = false) : Frame [] s (waitIssued p s e) := by
  unfold waitIssued
  split
  · exact sendPage_quiet
  · cases h
  · exact .refl _

theorem waitsIssued_quiet {p : Nat} {l : List (HeldFor × Nat)} (h : ∀ w ∈ l, isStore w.1 = false) :
    Frame [] s (l.foldl (waitIssued p) s) := by
  induction l generalizing s with
  | nil => exact .refl s
  | cons w l ih =>
    exact (waitIssued_quiet (h w (List.mem_cons_self ..))).trans (ih fun x hx => h x (List.mem_cons_of_mem _ hx))

theorem issueHeld_calm {p k : Nat} (hk : k < 4) : Calm p s (issueHeld s p k) := by
  intro hs
  have kinds := (noStoreWaits_iff p).mp hs k hk
  have issued (l : List (HeldFor × Nat)) (e : l.map (·.1) = (heldOf s p k).waits.map (·.1)) : ∀ w ∈ l, isStore w.1 = false := by
    intro w hw
    have : w.1 ∈ (heldOf s p k).waits.map (·.1) := e ▸ List.mem_map_of_mem hw
    obtain ⟨x, hx, hxw⟩ := List.mem_map.mp this
    exact hxw ▸ kinds x hx
  unfold issueHeld
  extract_lets h e all f
  have hf : ∀ w ∈ f.1, isStore w.1 = false := by
    refine issued f.1 ?_
    show (if isSet s (Reg.PRT_REG_CTL_EN p k) = true then e else all).1.map (·.1) = _
    split
    · exact issueWaits_kinds _ _ _
    · simp only [all, List.map_map]; rfl
  exact (setHeld_calm fun w hw => hf w (List.mem_of_mem_filter hw)).after
    ((waitsIssued_quiet hf).trans (.refl _) |>.after setRegLevel_quiet |>.calm p) hs

theorem chargeHeld_calm {p k n : Nat} {f : HeldFor} (hk : k < 4) (hf : isStore f = false) : Calm p s (chargeHeld s p k f n) := by
  unfold chargeHeld
  split
  · refine (issueHeld_calm hk).after fun hs => setHeld_calm (fun w hw => ?_) hs
    rcases List.mem_append.mp hw with hw | hw
    · exact (noStoreWaits_iff p).mp hs k hk w hw
    · rw [List.mem_singleton.mp hw]; exact hf
  · exact (waitIssued_quiet hf).calm p

theorem sendIssued_calm {p : Nat} : Calm p s (sendIssued s p) := by
  have sent (l : List (HeldFor × Nat)) (a : State) : Frame [] a (l.foldl (fun a w => match w.1 with
      | .msg _ node no m => (launch a p 0 0 node no m).1
      | _ => a) a) := .foldl (fun _ w => by
    split
    · exact launch_quiet
    · exact .refl _) _ _
  exact fun hs => ((sent _ _).calm p).after (setHeld_calm fun w hw =>
    (noStoreWaits_iff p).mp hs 2 (by decide) w (List.mem_of_mem_filter hw)) hs

theorem sendBulk_calm {p n k : Nat} {m : LinkMsg} : Calm p s (sendBulk s p n k m) :=
  sendIssued_calm.after ((chargeHeld_calm (by decide) rfl).after (msgNo_quiet.calm p))

theorem sendTo_calm {p : Nat} {st : Step} {kv : Bool} {n d : Nat} {bs : List Byte} : Calm p s (sendTo s p st kv n d bs) := by
  unfold sendTo; split
  · exact .refl _
  · exact .foldl (fun _ _ => sendBulk_calm) _ _

theorem sendTo_frame {p : Nat} {st : Step} {kv : Bool} {n d : Nat} {bs : List Byte} :
    Frame [.dram, .held] s (sendTo s p st kv n d bs) := by
  unfold sendTo; split
  · exact .refl _
  · exact .foldl (fun _ _ => sendBulk_frame) _ _

end Sys2Proof.Machine
end

section
set_option Elab.async false
namespace Sys2Proof.Machine

/-! ## One instruction of a task -/

section
variable {r : Run} {p cl : Nat}

theorem Run.load_quiet {a n : Nat} : Frame [] r.s (r.load p a n).2.s ∧ (r.load p a n).2.st = r.st := ⟨touchPart_quiet, rfl⟩

theorem Run.values_quiet {pl : Place} {n : Nat} : Frame [] r.s (r.values p pl n).2.s ∧ (r.values p pl n).2.st = r.st := by
  cases pl with
  | reg w => exact ⟨.refl _, rfl⟩
  | acc w => exact ⟨.refl _, rfl⟩
  | scratch f e k => exact ⟨.refl _, rfl⟩
  | mem f e k => exact ⟨Run.load_quiet.1.trans Run.load_quiet.1, rfl⟩

theorem Run.sources_quiet {n : Nat} (ps : List Place) :
    Frame [] r.s (r.sources p n ps).2.s ∧ (r.sources p n ps).2.st = r.st := by
  induction ps generalizing r with
  | nil => exact ⟨.refl _, rfl⟩
  | cons pl ps ih =>
    obtain ⟨f1, e1⟩ := Run.values_quiet (r := r) (p := p) (pl := pl) (n := n)
    obtain ⟨f2, e2⟩ := ih (r := (r.values p pl n).2)
    exact ⟨f1.trans f2, e2.trans e1⟩

theorem Run.flag_quiet {f : Fld} {on : Bool} (h : areaOf f.key = none) :
    Frame [] r.s (r.flag f on).s ∧ (r.flag f on).st = r.st := by
  unfold Run.flag
  split
  · exact ⟨raise_quiet h, rfl⟩
  · exact ⟨.refl _, rfl⟩

theorem Run.flags_quiet {a b c : Bool} : Frame [] r.s (r.flags cl a b c).s ∧ (r.flags cl a b c).st = r.st := by
  have h1 := Run.flag_quiet (r := r) (f := Reg.GRV_EVT_STATUS_SAT (cl / 80)) (on := a) plainGrove
  have h2 := Run.flag_quiet (r := r.flag (Reg.GRV_EVT_STATUS_SAT (cl / 80)) a) (f := Reg.GRV_EVT_STATUS_NAN_GEN (cl / 80))
    (on := b) plainGrove
  have h3 := Run.flag_quiet (r := (r.flag (Reg.GRV_EVT_STATUS_SAT (cl / 80)) a).flag (Reg.GRV_EVT_STATUS_NAN_GEN (cl / 80)) b)
    (f := Reg.GRV_EVT_STATUS_SCALE_NAN (cl / 80)) (on := c) plainGrove
  exact ⟨h1.1.trans (h2.1.trans h3.1), h3.2.trans (h2.2.trans h1.2)⟩

/-- What a run keeps of its step: all but the assay pieces. -/
def AssayOnly (a b : Step) : Prop := ∃ l, b = { a with assay := l }

theorem AssayOnly.refl (a : Step) : AssayOnly a a := ⟨a.assay, rfl⟩
theorem AssayOnly.of_eq {a b : Step} (h : b = a) : AssayOnly a b := h ▸ .refl a
theorem AssayOnly.trans {a b c : Step} (h : AssayOnly a b) (g : AssayOnly b c) : AssayOnly a c := by
  obtain ⟨l, rfl⟩ := h
  obtain ⟨m, rfl⟩ := g
  exact ⟨m, rfl⟩

/-- The bytes of DRAM that spans of partition memory cover. -/
def Covers (s : State) (p : Nat) (ws : List (Nat × Nat)) (c : Nat) : Prop :=
  ∃ w ∈ ws, ∃ j, j < w.2 ∧ translate s p (w.1 + j) = some c

/-- Where no store waits for the memory regulator of `p`, none waits after, and no byte of DRAM that the spans do not cover
changes. -/
def Writes (p : Nat) (ws : List (Nat × Nat)) (s u : State) : Prop := NoStoreWaits s p → NoStoreWaits u p ∧
  ∀ c, ¬Covers s p ws c → loadByte u c = loadByte s c

theorem Calm.writes {s u : State} {ws : List (Nat × Nat)} (h : Calm p s u) : Writes p ws s u := fun k =>
  ⟨(h k).1, fun c _ => by unfold loadByte; rw [(h k).2]⟩

theorem Writes.trans {s t u : State} {ps : List Area} {vs ws : List (Nat × Nat)} (h : Writes p vs s t) (f : Frame ps s t)
    (g : Writes p ws t u) (n : Area.layout ∉ ps := by decide) : Writes p (vs ++ ws) s u := fun k => by
  obtain ⟨h1, h2⟩ := h k
  obtain ⟨g1, g2⟩ := g h1
  refine ⟨g1, fun c hc => (g2 c fun ⟨w, hw, hx⟩ => ?_).trans (h2 c fun ⟨w, hw, hx⟩ => hc ⟨w, List.mem_append_left _ hw, hx⟩)⟩
  obtain ⟨j, hj, e⟩ := hx
  exact hc ⟨w, List.mem_append_right _ hw, j, hj, f.translate p _ n ▸ e⟩

/-- More spans cover more. -/
theorem Writes.mono {s u : State} {vs ws : List (Nat × Nat)} (h : Writes p vs s u)
    (le : ∀ v ∈ vs, v.2 = 0 ∨ ∃ w ∈ ws, w.1 = v.1 ∧ v.2 ≤ w.2) : Writes p ws s u := fun k =>
  ⟨(h k).1, fun c hc => (h k).2 c fun ⟨v, hv, j, hj, e⟩ => by
    rcases le v hv with h0 | ⟨w, hw, h1, h2⟩
    · omega
    · exact hc ⟨w, hw, j, by omega, h1 ▸ e⟩⟩

theorem Run.store_spec {a : Nat} {bs : List Byte} : Frame [.dram] r.s (r.store p a bs).s ∧ (r.store p a bs).st = r.st ∧
    Writes p [(a, bs.length)] r.s (r.store p a bs).s := by
  refine ⟨writePart_frame, rfl, fun h => ⟨?_, fun c hc => ?_⟩⟩
  · unfold NoStoreWaits waitsFor heldOf
    rw [show (r.store p a bs).s.held = r.s.held from writePart_frame.held]
    exact h
  · show spGet _ (writePart r.s p .part a bs).1.dram c = _
    rw [dram_writePart]
    exact loadByte_storePart_other bs fun j hj e => hc ⟨_, List.mem_singleton_self _, j, hj, e⟩

end

/-! ### The bytes of a tensor -/

theorem length_flatMap_le {α β : Type} {l : List α} {f : α → List β} {n : Nat} (h : ∀ x ∈ l, (f x).length ≤ n) :
    (l.flatMap f).length ≤ l.length * n := by
  rw [List.length_flatMap]
  simpa using List.sum_le_card_nsmul (l.map fun x => (f x).length) n (by simpa using h)

theorem length_leBytes (n v : Nat) : (leBytes n v).length = n := by
  induction n generalizing v with
  | zero => rfl
  | succ n ih => rw [leBytes, List.length_cons, ih]

/-- Blocks of 32 elements: no more than the elements fill, and none longer. -/
theorem chunks_blocks {α : Type} (fuel : Nat) (xs : List α) :
    (chunks 32 fuel xs).length ≤ ceilDiv xs.length 32 ∧ ∀ c ∈ chunks 32 fuel xs, c.length ≤ 32 := by
  induction fuel generalizing xs with
  | zero => exact ⟨Nat.zero_le _, fun c hc => by cases hc⟩
  | succ f ih =>
    unfold chunks
    cases xs with
    | nil => exact ⟨Nat.zero_le _, fun c hc => by cases hc⟩
    | cons x xs =>
      obtain ⟨count, sizes⟩ := ih ((x :: xs).drop 32)
      refine ⟨?_, fun c hc => ?_⟩
      · simp only [List.isEmpty_cons, List.length_drop, ceilDiv, List.length_cons] at count ⊢
        rw [if_neg Bool.false_ne_true, List.length_cons]
        omega
      · rcases List.mem_cons.mp hc with rfl | hc
        · exact List.length_take_le ..
        · exact sizes c hc

theorem length_packElems {f : Format} (hf : isMx f = true) {es : List Nat} (h : es.length ≤ 32) :
    (packElems f es).length ≤ elemBytes f 32 := by
  have six : ((List.range 8).flatMap fun g => leBytes 3 ((List.range 4).foldl (fun a k =>
      a + (es[4 * g + k]?).getD 0 * 2 ^ (6 * k)) 0)).length ≤ 24 :=
    length_flatMap_le (n := 3) fun _ _ => (length_leBytes _ _).le
  cases f with
  | fp32 | bf16 | fp16 => cases hf
  | e3m2 | e2m3 => exact six
  | e4m3 | e5m2 => simpa [packElems, elemBytes, ceilDiv] using h
  | e2m1 => simp [packElems, elemBytes, ceilDiv]

theorem mxQuant_bytes (f : Format) (xs : List W32) :
    ∃ es : List Nat, es.length = xs.length ∧ (mxQuant f xs).bytes = packElems f es := by
  unfold mxQuant
  extract_lets vs k zeroOf bad
  split
  · exact ⟨_, by simp [vs], rfl⟩
  · split
    · exact ⟨_, by simp [vs], rfl⟩
    · exact ⟨_, by simp [vs], rfl⟩

theorem elemBytes_blocks {f : Format} (hf : isMx f = true) (n : Nat) : elemBytes f n = ceilDiv n 32 * elemBytes f 32 := by
  cases f with
  | fp32 | bf16 | fp16 => cases hf
  | e3m2 | e2m3 | e4m3 | e5m2 | e2m1 => simp [elemBytes, ceilDiv, Nat.mul_comm]

/-- A tensor that is written fills no more than its element and scale arrays (R136). -/
theorem length_writeFormat (f : Format) (xs : List W32) :
    (writeFormat f xs).elems.length ≤ elemBytes f xs.length ∧ (writeFormat f xs).scales.length ≤ scaleBytes f xs.length := by
  unfold writeFormat scaleBytes
  cases hf : isMx f with
  | true =>
    obtain ⟨count, sizes⟩ := chunks_blocks xs.length xs
    simp only [if_true, List.length_map]
    refine ⟨?_, count⟩
    have block : ∀ b ∈ (chunks 32 xs.length xs).map (mxQuant f), b.bytes.length ≤ elemBytes f 32 := by
      intro b hb
      obtain ⟨c, hc, rfl⟩ := List.mem_map.mp hb
      obtain ⟨es, hl, he⟩ := mxQuant_bytes f c
      rw [he]
      exact length_packElems hf (hl ▸ sizes c hc)
    calc _ ≤ ((chunks 32 xs.length xs).map (mxQuant f)).length * elemBytes f 32 := length_flatMap_le block
      _ ≤ ceilDiv xs.length 32 * elemBytes f 32 := by rw [List.length_map]; exact Nat.mul_le_mul_right _ count
      _ = elemBytes f xs.length := (elemBytes_blocks hf _).symm
  | false =>
    refine ⟨?_, Nat.le_refl 0⟩
    have width : (elemFmt f).width / 8 * xs.length = elemBytes f xs.length := by
      cases f with
      | fp32 | bf16 | fp16 => rfl
      | e3m2 | e2m3 | e4m3 | e5m2 | e2m1 => cases hf
    rw [← width, Nat.mul_comm]
    simpa using length_flatMap_le (l := xs.map fun x => fpEncode (elemFmt f) (f32 x))
      (f := fun c => leBytes ((elemFmt f).width / 8) c.1) fun _ _ => (length_leBytes _ _).le

/-- A format without scales writes none. -/
theorem scales_of_plain {f : Format} (hf : isMx f = false) (xs : List W32) : (writeFormat f xs).scales = [] := by
  simp [writeFormat, hf]

end Sys2Proof.Machine
end

section
set_option Elab.async false
namespace Sys2Proof.Machine
variable {r : Run} {p cl : Nat}

/-! ## What an instruction writes -/

/-- A run goes on: DRAM and held traffic apart nothing but bookkeeping changes, the step keeps all but its assay pieces, and
only the bytes that the spans cover are written. -/
def RunsOn (p : Nat) (ws : List (Nat × Nat)) (r x : Run) : Prop :=
  Frame [.dram, .held] r.s x.s ∧ AssayOnly r.st x.st ∧ Writes p ws r.s x.s

theorem RunsOn.of_quiet {ws : List (Nat × Nat)} {x : Run} (h : Frame [] r.s x.s ∧ x.st = r.st) : RunsOn p ws r x :=
  ⟨h.1.up, .of_eq h.2, (h.1.calm p).writes⟩

theorem RunsOn.trans {vs ws : List (Nat × Nat)} {x y : Run} (h : RunsOn p vs r x) (g : RunsOn p ws x y) : RunsOn p (vs ++ ws) r y :=
  ⟨h.1.trans g.1, h.2.1.trans g.2.1, h.2.2.trans h.1 g.2.2⟩

theorem RunsOn.mono {vs ws : List (Nat × Nat)} {x : Run} (h : RunsOn p vs r x)
    (le : ∀ v ∈ vs, v.2 = 0 ∨ ∃ w ∈ ws, w.1 = v.1 ∧ v.2 ≤ w.2) : RunsOn p ws r x := ⟨h.1, h.2.1, h.2.2.mono le⟩

/-- What only reads, sets flags or writes inside the cluster, before or after. -/
theorem RunsOn.before {ws : List (Nat × Nat)} {x y : Run} (g : RunsOn p ws x y) (h : Frame [] r.s x.s ∧ x.st = r.st) :
    RunsOn p ws r y := (RunsOn.of_quiet (ws := []) h).trans g
theorem RunsOn.andThen {ws : List (Nat × Nat)} {x y : Run} (h : RunsOn p ws r x) (g : Frame [] x.s y.s ∧ y.st = x.st) :
    RunsOn p ws r y := by simpa using h.trans (.of_quiet (ws := []) g)

theorem Run.store_runsOn (a : Nat) (bs : List Byte) : RunsOn p [(a, bs.length)] r (r.store p a bs) := by
  obtain ⟨f, e, w⟩ := Run.store_spec (r := r) (p := p) (a := a) (bs := bs)
  exact ⟨f.up, .of_eq e, w⟩

/-- The spans that results of `n` values written to a place may cover. -/
def placeWrites (pl : Place) (n : Nat) : List (Nat × Nat) :=
  match pl with
  | .mem f e k => [(e, elemBytes f n), (k, scaleBytes f n)]
  | _ => []

/-- A tensor in memory: elements, then scales, then the flags. -/
def Run.putMem (r : Run) (p cl : Nat) (f : Format) (e k : Nat) (ws : List W32) : Run :=
  let x := writeFormat f ws
  ((r.store p e x.elems).store p k x.scales).flags cl x.sat x.nanGen x.scaleNan

theorem Run.putMem_runsOn (f : Format) (e k : Nat) (ws : List W32) :
    RunsOn p [(e, elemBytes f ws.length), (k, scaleBytes f ws.length)] r (r.putMem p cl f e k ws) := by
  obtain ⟨elems, scales⟩ := length_writeFormat f ws
  refine (((Run.store_runsOn e _).trans (Run.store_runsOn k _)).andThen Run.flags_quiet).mono fun v hv => .inr ?_
  rcases List.mem_cons.mp hv with rfl | hv
  · exact ⟨_, List.mem_cons_self .., rfl, elems⟩
  · rw [List.mem_singleton.mp hv]
    exact ⟨_, List.mem_cons_of_mem _ (List.mem_singleton_self _), rfl, scales⟩

theorem Run.put_mem (f : Format) (e k : Nat) (tensor : Option (Nat × Nat)) (ws : List W32) :
    (r.put p cl (.mem f e k) tensor ws).s = (r.putMem p cl f e k ws).s ∧
      AssayOnly (r.putMem p cl f e k ws).st (r.put p cl (.mem f e k) tensor ws).st := by
  cases tensor with
  | none => exact ⟨rfl, .refl _⟩
  | some t => exact ⟨rfl, _, rfl⟩

theorem Run.put_runsOn (pl : Place) (tensor : Option (Nat × Nat)) (ws : List W32) :
    RunsOn p (placeWrites pl ws.length) r (r.put p cl pl tensor ws) := by
  cases pl with
  | reg w => exact .of_quiet ⟨.refl _, rfl⟩
  | acc w => exact .of_quiet ⟨.refl _, rfl⟩
  | scratch f e k =>
    exact (RunsOn.of_quiet Run.flags_quiet).before ⟨.refl _, rfl⟩
  | mem f e k =>
    obtain ⟨hs, ha⟩ := Run.put_mem (r := r) (p := p) (cl := cl) f e k tensor ws
    obtain ⟨frame, assay, writes⟩ := Run.putMem_runsOn (r := r) (p := p) (cl := cl) f e k ws
    exact ⟨hs ▸ frame, assay.trans ha, hs ▸ writes⟩

/-- The results of a vector operation on `n` elements, with the numeric events of their operands' conversions. -/
def vecResults (f : VecFn) (vs : List (List FpVal)) (n : Nat) : List FpRes :=
  (List.range n).map fun i =>
    let o := operandsAt vs i
    o.foldl (fun a q => thenOp q a) (vecApply f (o.map (·.w)))

theorem length_vecResults (f : VecFn) (vs : List (List FpVal)) (n : Nat) : ((vecResults f vs n).map (·.w)).length = n := by
  simp [vecResults]

/-- The events of the operands leave the value that is computed. -/
theorem vecResults_words (f : VecFn) (vs : List (List FpVal)) (n : Nat) : (vecResults f vs n).map (·.w) =
    (List.range n).map fun i => (vecApply f ((operandsAt vs i).map (·.w))).w := by
  have value (o : List FpRes) (a : FpRes) : (o.foldl (fun a q => thenOp q a) a).w = a.w := by
    induction o generalizing a with
    | nil => rfl
    | cons q o ih => exact ih _
  simp only [vecResults, List.map_map]
  exact List.map_congr_left fun i _ => value _ _

theorem runOp_vec (f : VecFn) (dst : Place) (srcs : List Place) (n : Nat) (tensor : Option (Nat × Nat)) :
    runOp p cl r (.vec f dst srcs n tensor) =
      let x := r.sources p n srcs
      let rs := vecResults f x.1 n
      (x.2.put p cl dst tensor (rs.map (·.w))).flags cl (rs.any (·.sat)) (rs.any (·.nanGen)) false := rfl

/-- Each instruction writes its own spans. -/
theorem runOp_runsOn (op : ClusterOp) : RunsOn p (opWrites op) r (runOp p cl r op) := by
  cases op with
  | mac acc a b n =>
    have read : Frame [] r.s ((r.values p a n).2.values p b n).2.s ∧ ((r.values p a n).2.values p b n).2.st = r.st :=
      ⟨Run.values_quiet.1.trans Run.values_quiet.1, Run.values_quiet.2.trans Run.values_quiet.2⟩
    exact ((Run.put_runsOn (.acc acc) none _).andThen Run.flags_quiet).before read
  | vec f dst srcs n tensor =>
    have h := Run.put_runsOn (r := (r.sources p n srcs).2) (p := p) (cl := cl) dst tensor
      ((vecResults f (r.sources p n srcs).1 n).map (·.w))
    rw [length_vecResults] at h
    have e : placeWrites dst n = opWrites (.vec f dst srcs n tensor) := by cases dst <;> rfl
    rw [runOp_vec, ← e]
    exact (h.andThen Run.flags_quiet).before (Run.sources_quiet srcs)
  | put a bs => exact Run.store_runsOn a bs
  | send kv node src n dst =>
    have sent (x : Run) (bs : List Byte) : RunsOn p [] x { x with s := sendTo x.s p x.st kv node dst bs } :=
      ⟨sendTo_frame, .refl _, sendTo_calm.writes⟩
    exact (sent _ _).before Run.load_quiet
  | tile => exact .of_quiet ⟨.refl _, rfl⟩

/-- Instructions in order write the spans of each. -/
theorem runOps_runsOn (ops : List ClusterOp) : RunsOn p (ops.flatMap opWrites) r (runOps p cl r ops) := by
  induction ops generalizing r with
  | nil => exact .of_quiet ⟨.refl _, rfl⟩
  | cons op ops ih => exact (runOp_runsOn op).trans ih

/-! ### What reads back -/

/-- A byte that one `put` writes reads back. -/
theorem loadByte_runOps_put {a j x : Nat} {bs : List Byte} (hj : j < bs.length) (h : translate r.s p (a + j) = some x) :
    loadByte (runOps p cl r [.put a bs]).s x = bs.getD j 0#8 := by
  show spGet _ (writePart r.s p .part a bs).1.dram x = _
  rw [dram_writePart]
  exact loadByte_storePart_same bs hj h

/-- A tensor of a format without scales that is written reads back. -/
theorem loadByte_putMem {f : Format} {e k j x : Nat} {ws : List W32} (hf : isMx f = false)
    (hj : j < (writeFormat f ws).elems.length)
    (h : translate r.s p (e + j) = some x) :
    loadByte (r.putMem p cl f e k ws).s x = (writeFormat f ws).elems.getD j 0#8 := by
  show spGet _ (Run.flags _ cl _ _ _).s.dram x = _
  rw [Run.flags_quiet.1.dram]
  show spGet _ (writePart (r.store p e (writeFormat f ws).elems).s p .part k (writeFormat f ws).scales).1.dram x = _
  rw [dram_writePart, scales_of_plain hf]
  show spGet _ (writePart r.s p .part e (writeFormat f ws).elems).1.dram x = _
  rw [dram_writePart]
  exact loadByte_storePart_same _ hj h

/-- What one vector operation writes to a format without scales is the encoding of the values it computes. -/
theorem loadByte_runOps_vec {f : VecFn} {fmt : Format} {e k n j x : Nat} {ps : List Place} {w : Option (Nat × Nat)}
    (hf : isMx fmt = false) :
    let ws := (List.range n).map fun i => (vecApply f ((operandsAt (r.sources p n ps).1 i).map (·.w))).w
    j < (writeFormat fmt ws).elems.length → translate r.s p (e + j) = some x →
      loadByte (runOps p cl r [.vec f (.mem fmt e k) ps n w]).s x = (writeFormat fmt ws).elems.getD j 0#8 := by
  intro ws hj h
  have words : (vecResults f (r.sources p n ps).1 n).map (·.w) = ws := vecResults_words f _ n
  have hput := (Run.put_mem (r := (r.sources p n ps).2) (p := p) (cl := cl) fmt e k w ws).1
  have tr : translate (r.sources p n ps).2.s p (e + j) = some x := by rw [(Run.sources_quiet ps).1.translate]; exact h
  have flagged (x : Run) (a b c : Bool) (y : Nat) : loadByte (x.flags cl a b c).s y = loadByte x.s y :=
    Run.flags_quiet.1.mem (by decide) y
  clear_value ws
  rw [runOps, List.foldl_cons, List.foldl_nil, runOp_vec]
  simp only [words, flagged, hput]
  exact loadByte_putMem hf hj tr

end Sys2Proof.Machine
end

section
set_option Elab.async false
namespace Sys2Proof.Machine
variable {s : State} {p : Nat}

/-! ## The step in EXECUTE -/

/-- What a step keeps while its tasks are placed and its merge runs: context, tag, plan, assay pieces, and its tasks in
program order, those that run before those held. -/
def Step.core (x : Step) : Nat × Nat × List PlanItem × List AssayPiece × List Task :=
  (x.ctx, x.tag, x.plan, x.assay, x.running.map (·.2.1) ++ x.held)

/-- The holder of the groves has left ISSUE and keeps what `st` has. -/
def Runs (p : Nat) (st : Step) (u : State) : Prop := Holds u p fun x => x.core = st.core ∧ x.st ≠ .issue

/-- The lane's operations while tasks run: no store issues, the holder goes on, and of what the frames speak of only these
areas change. -/
def GoesOn (p : Nat) (st : Step) (s u : State) : Prop := Calm p s u ∧ (Runs p st s → Runs p st u)

theorem GoesOn.trans {st : Step} {t u : State} (h : GoesOn p st s t) (g : GoesOn p st t u) : GoesOn p st s u :=
  ⟨g.1.after h.1, fun e => g.2 (h.2 e)⟩

theorem Runs.frame {ps : List Area} {st : Step} {u : State} (h : Runs p st s) (f : Frame ps s u)
    (n : Area.holders ∉ ps := by decide) : Runs p st u := by
  unfold Runs Holds; rw [f.holder p n]; exact h

theorem Frame.goesOn {ps : List Area} {st : Step} {u : State} (h : Frame ps s u) (n : Area.holders ∉ ps := by decide)
    (k : Area.held ∉ ps := by decide) (m : Area.dram ∉ ps := by decide) : GoesOn p st s u :=
  ⟨h.calm p k m, fun e => e.frame h n⟩

theorem setCur_frame {x : Step} : Frame [.lanes, .holders] s (setCur s p x) := setLane_frame

/-- A lane that is written with a holder that keeps what `st` has. -/
theorem setLane_goesOn {st x : Step} {l : Lane} (hl : l.cur = some x) (hx : Runs p st s → x.core = st.core ∧ x.st ≠ .issue) :
    GoesOn p st s (setLane s p l) :=
  ⟨setLane_frame.calm p, fun e => ⟨x, by rw [lane_setLane_same, hl], hx e⟩⟩

theorem offerTask_calm {cl : Nat} {t : Task} : Calm p s (offerTask s p cl t) :=
  .ite (.refl s) (chargeHeld_calm (by decide) rfl)

theorem offerTask_frame {cl : Nat} {t : Task} : Frame [.dram, .held] s (offerTask s p cl t) :=
  .ite (.refl s) chargeHeld_frame

theorem placeTask_quietBefore (c : Nat) : Frame [] s (setCluster (draw (bump s (Reg.GRV_DISPATCHED_TASKS (c / 80)) 1)).2 c
    { Cluster.dead with placement := (draw (bump s (Reg.GRV_DISPATCHED_TASKS (c / 80)) 1)).1 }) :=
  .after setCluster_quiet (.after draw_quiet (bump_quiet plainGrove))

theorem placeTask_calm {c : Nat} {t : Task} : Calm p s (placeTask s p c t) :=
  offerTask_calm.after ((placeTask_quietBefore c).calm p)

theorem placeTask_frame {c : Nat} {t : Task} : Frame [.dram, .held] s (placeTask s p c t) :=
  offerTask_frame.after (placeTask_quietBefore c).up

/-- Tasks take clusters in program order. -/
theorem placeTasks_spec (n : Nat) (st : Step) : Calm p s (placeTasks p n s st).1 ∧ Frame [.dram, .held] s (placeTasks p n s st).1 ∧
    (placeTasks p n s st).2.core = st.core ∧ (placeTasks p n s st).2.st = st.st := by
  induction n generalizing s st with
  | zero => exact ⟨.refl s, .refl s, rfl, rfl⟩
  | succ n ih =>
    unfold placeTasks
    split
    · next t rest c hheld _ =>
      obtain ⟨calm, frame, core, state⟩ := ih (s := placeTask s p c t)
        { st with held := rest, running := st.running ++ [(c, t, s.cTime)] }
      refine ⟨calm.after placeTask_calm, frame.after placeTask_frame, core.trans ?_, state⟩
      simp [Step.core, hheld]
    · exact ⟨.refl s, .refl s, rfl, rfl⟩

theorem dispatch_goesOn {st : Step} : GoesOn p st s (dispatch s p) := by
  unfold dispatch
  dsimp only
  split
  · next x hx =>
    split
    · exact (Frame.refl (ps := []) s).goesOn
    · obtain ⟨calm, frame, core, state⟩ := placeTasks_spec (s := s) (p := p) x.held.length x
      refine ⟨setCur_frame.calm p |>.after calm, fun ⟨y, hy, hc, hi⟩ => ?_⟩
      obtain rfl : y = x := Option.some.inj (hy.symm.trans hx)
      exact ⟨_, by rw [setCur, lane_setLane_same], core.trans hc, by rw [state]; exact hi⟩
  · exact (Frame.refl (ps := []) s).goesOn

theorem raisePreempt_goesOn {st : Step} {b : Option Nat} {m : Bool} : GoesOn p st s (raisePreempt s p b m) := by
  unfold raisePreempt
  split
  · exact (Frame.refl (ps := []) s).goesOn
  · next x hx =>
    have same : Runs p st s → x.core = st.core ∧ x.st ≠ .issue := fun ⟨y, hy, h⟩ => by
      obtain rfl : y = x := Option.some.inj (hy.symm.trans hx)
      exact h
    extract_lets empty start pr l s1
    have raised : GoesOn p st s s1 := setLane_goesOn rfl same
    split
    · exact raised.trans setGroves_frame.goesOn
    · exact raised

theorem saveIfStopped_goesOn {st : Step} : GoesOn p st s (saveIfStopped s p) := by
  have kept (l : Lane) (hc : l.cur = (lane s p).cur) (ha : l.acks = (lane s p).acks) :
      GoesOn p st s (setGroves (setLane s p l) p 5) :=
    GoesOn.trans (Frame.goesOn (setLane_keeps hc ha)) setGroves_frame.goesOn
  unfold saveIfStopped
  extract_lets l
  split
  · split
    · exact kept _ rfl rfl
    · exact (Frame.refl (ps := []) s).goesOn
  · exact (Frame.refl (ps := []) s).goesOn

theorem mergeEvents_quiet (a b c : Nat) : Frame [] s (eventResidual (eventNoCandidate (eventNonfinite s a) b) c) := by
  have event (u : State) (f g : Fld) (hf : areaOf f.key = none) (hg : areaOf g.key = none) (n : Nat) :
      Frame [] u (if n = 0 then u else bumpSat (raise u f) g n) := .ite (.refl u) (.after (bumpSat_quiet hg) (raise_quiet hf))
  exact .after (event _ _ _ plain0 plain0 c) (.after (event _ _ _ plain0 plain0 b) (event _ _ _ plain0 plain0 a))

theorem toSample_goesOn {st : Step} : GoesOn p st s (toSample s p) := by
  unfold toSample
  dsimp only
  split
  · next x hx =>
    split
    · refine GoesOn.trans (setLane_goesOn (l := { lane s p with cur := _ }) rfl fun ⟨y, hy, hc, _⟩ => ?_)
        (mergeEvents_quiet _ _ _).goesOn
      obtain rfl : y = x := Option.some.inj (hy.symm.trans hx)
      exact ⟨hc, by simp⟩
    · exact (Frame.refl (ps := []) s).goesOn
  · exact (Frame.refl (ps := []) s).goesOn

/-! ### STEP_EXECUTE -/

/-- A prompt that is read again changes nothing of the step but its tokens. -/
theorem rereadPrompt_spec (vocab : Nat) (acc : State × Step) (e : Nat × List W32) :
    Frame [] acc.1 (rereadPrompt p vocab acc e).1 ∧ (rereadPrompt p vocab acc e).2.core = acc.2.core ∧
      (rereadPrompt p vocab acc e).2.st = acc.2.st := by
  unfold rereadPrompt
  split
  · exact ⟨.refl _, rfl, rfl⟩
  · split
    · exact ⟨.refl _, rfl, rfl⟩
    · exact ⟨.after (bump_quiet plain2) chargeOnly_quiet, rfl, rfl⟩

theorem rereadPrompts_spec (vocab : Nat) (l : List (Nat × List W32)) (acc : State × Step) :
    Frame [] acc.1 (l.foldl (rereadPrompt p vocab) acc).1 ∧ (l.foldl (rereadPrompt p vocab) acc).2.core = acc.2.core ∧
      (l.foldl (rereadPrompt p vocab) acc).2.st = acc.2.st := by
  induction l generalizing acc with
  | nil => exact ⟨.refl _, rfl, rfl⟩
  | cons e l ih =>
    obtain ⟨f, c, t⟩ := rereadPrompt_spec (p := p) vocab acc e
    obtain ⟨fs, cs, ts⟩ := ih (rereadPrompt p vocab acc e)
    exact ⟨f.trans fs, cs.trans c, ts.trans t⟩

/-- The lane as a step enters EXECUTE with its tasks: they are placed, and a halted lane stops the step at once (R173). -/
def enterExecute (s : State) (p : Nat) (plan : PlanTasks) (st : Step) : State :=
  let vocab := match slotOf s st.ctx with | some x => x.pkg.vocab | none => 0
  let e := plan.prompts.foldl (rereadPrompt p vocab)
    (s, { st with st := .execute, held := plan.tasks, watch := watchSlots s p st.ctx })
  let s2 := dispatch (setCur (setGroves e.1 p 1) p e.2) p
  if (lane s2 p).halted && st.group.isNone then raisePreempt s2 p none true else toSample s2 p

theorem execStepExecute_eq {plan : PlanTasks} {st : Step} (hc : (lane s p).cur = some st) (hm : mayExecute s p st = true) :
    execStepExecute p plan s = .next (enterExecute s p plan st) := by
  unfold execStepExecute enterExecute
  rw [hc]
  dsimp only
  rw [if_neg (by simp [hm])]
  exact (apply_ite Host.Outcome.next _ _ _).symm

/-- Tasks are placed in program order, and no store issues. -/
theorem enterExecute_spec (plan : PlanTasks) (st : Step) :
    Calm p s (enterExecute s p plan st) ∧ Runs p { st with held := plan.tasks } (enterExecute s p plan st) := by
  unfold enterExecute
  extract_lets vocab e s2
  obtain ⟨frame, core, state⟩ := rereadPrompts_spec (p := p) vocab plan.prompts
    (s, { st with st := .execute, held := plan.tasks, watch := watchSlots s p st.ctx })
  set s1 := setCur (setGroves e.1 p 1) p e.2 with h1
  have calm : Calm p s s1 := (setCur_frame.calm p).after ((setGroves_frame.calm p).after (frame.calm p))
  have runs : Runs p { st with held := plan.tasks } s1 :=
    ⟨e.2, by rw [h1, setCur, lane_setLane_same], core, by rw [state]; simp⟩
  have go : GoesOn p { st with held := plan.tasks } s1 s2 := dispatch_goesOn
  split
  · exact ⟨(go.trans raisePreempt_goesOn).1.after calm, (go.trans raisePreempt_goesOn).2 runs⟩
  · exact ⟨(go.trans toSample_goesOn).1.after calm, (go.trans toSample_goesOn).2 runs⟩

end Sys2Proof.Machine
end

section
set_option Elab.async false
namespace Sys2Proof.Machine
variable {s : State} {p : Nat}

/-! ## A refused access -/

/-- Steps and contexts of a teardown: no fault is recorded by it. -/
theorem teardownCtx_frame {g code : Nat} : Frame leaveAreas s (teardownCtx s g code) := by
  have again (a : State) (x : Nat) : Frame leaveAreas a (recreateCtx a x) := by
    unfold recreateCtx resetEst; split
    · exact .after (setF_quiet plainCtx).up (.after (setF_quiet plain1).up setCtx_frame.up)
    · exact .refl _
  unfold teardownCtx
  dsimp only
  split
  · exact .after (again _ _) (.after (again _ _) (lasting_frame.stopCtx _ _ _))
  · exact .after (again _ _) (lasting_frame.stopCtx _ _ _)

theorem tearFaulted_frame {g : Nat} : Frame leaveAreas s (tearFaulted s g) := by
  unfold tearFaulted
  dsimp only
  split
  · exact .refl _
  · split
    · exact .refl _
    · exact .ite (lasting_frame.loseGroup _ _ _) (.after afterLeave_frame teardownCtx_frame)

/-- The flag of a fault's class in FLT_STATUS. -/
theorem raise_faultStatus (s : State) (n w : Nat) : Frame [.chip] s (raise s ⟨Reg.FLT_STATUS, n, w⟩) :=
  raise_area .chip (show areaOf Reg.FLT_STATUS = some .chip by decide)

theorem flagClass_frame {c : Nat} {x : Bool} : Frame [.chip] s (flagClass s c x) := by
  unfold flagClass
  extract_lets s1
  have h1 : Frame [.chip] s s1 := .ite (raise_faultStatus _ _ _) (.ite (raise_faultStatus _ _ _)
    (.ite (raise_faultStatus _ _ _) (.ite (raise_faultStatus _ _ _) (.refl _))))
  exact h1.trans (.ite (raise_faultStatus _ _ _) (.refl _))

/-- A record that finds room in the queue stands at its end. -/
theorem queueFault_queue {r : FaultRec} (h : s.fltQueue.length < 16) : (queueFault s r).fltQueue = s.fltQueue ++ [r] := by
  have words (l : List Nat) (f : Nat → BitVec 64) (a : State) :
      (l.foldl (fun a k => wr a (Reg.FLT_LAST k) (f k)) a).fltQueue = a.fltQueue := by
    induction l generalizing a with
    | nil => rfl
    | cons k l ih => exact ih _
  unfold queueFault
  rw [if_neg (by omega)]
  exact words _ _ _

/-- An F2 fault is recorded with the collector's time, whatever its teardown does. -/
theorem contextFault_recorded {id g detail : Nat} {x : Bool} (h : s.fltQueue.length < 16) :
    Recorded s (contextFault s id g detail x) id := by
  unfold contextFault
  extract_lets t
  have counted : Frame [.chip] s (flagClass (bump s (Reg.FLT_CNT_COUNT 2) 1) 2 x) :=
    flagClass_frame.after (setF_frame .chip (by decide))
  have queue : (recordFault s id 2 x false (ctxPart t) (ctxLocal t) detail).fltQueue = _ :=
    queueFault_queue (s := flagClass (bump s (Reg.FLT_CNT_COUNT 2) 1) 2 x) (by rwa [counted.faults])
  unfold Recorded
  rw [tearFaulted_frame.faults, queue]
  exact ⟨_, List.mem_append_right _ (List.mem_singleton_self _), rfl, rfl⟩

theorem refusedAccess_recorded {g : Nat} (h : s.fltQueue.length < 16) : Recorded s (refusedAccess s g) 0x02 := by
  have f : Frame [] s (raise s Reg.MEM_EVT_STATUS_XLATE_REFUSED) := raise_quiet plain0
  obtain ⟨r, hr, hid, htime⟩ := contextFault_recorded (s := raise s Reg.MEM_EVT_STATUS_XLATE_REFUSED) (id := 0x02) (g := g)
    (detail := 0) (x := false) (by rwa [f.faults])
  exact ⟨r, hr, hid, htime.trans f.aTime⟩

/-! ## TASK_COMPLETE -/

/-- The run of a task that ends, whose cluster takes its step off the ones that run. -/
def endingRun (s : State) (cl b : Nat) (st : Step) : Run :=
  let s0 := bump s (Reg.TRC_CL_COUNT cl 0) ((s.cTime - b) * cclkMhz s / 500)
  ⟨s0, cluster s0 cl, { st with running := st.running.filter fun x => x.1 != cl }, false⟩

/-- The lane once a task has run: its cluster is free. -/
def freeAfter (p cl : Nat) (r : Run) : State := setCur (setCluster r.s cl Cluster.dead) p r.st

theorem execTaskComplete_eq {g l tag task : Nat} {st : Step} {t : Task} {b : Nat} (hc : (lane s p).cur = some st)
    (htag : st.tag = tag) (hst : st.st = .execute) (hr : (lane s p).restoreAt = none) (hi : stoppedI (lane s p) s.qTime = false)
    (hw : waitsFor s p (· == .task (80 * g + l)) = false)
    (hf : st.running.find? (fun e => e.1 == 80 * g + l) = some (80 * g + l, t, b)) (hid : t.id = task) :
    let r := runOps p (80 * g + l) (endingRun s (80 * g + l) b st) t.ops
    execTaskComplete p g l tag task s = .next (if r.bad then refusedAccess (freeAfter p (80 * g + l) r) st.ctx
      else toSample (dispatch (saveIfStopped (freeAfter p (80 * g + l) r) p) p) p) := by
  unfold execTaskComplete
  simp only [hc, hf]
  rw [if_neg (by simp [htag, hst, hr, hi, hw, hid])]
  exact (apply_ite Host.Outcome.next _ _ _).symm

/-- A completion of another step's tag or of another task is discarded (R68). -/
theorem execTaskComplete_stale {g l tag task : Nat} {st : Step} (hc : (lane s p).cur = some st)
    (h : ∀ e ∈ st.running, e.1 = 80 * g + l → st.tag ≠ tag ∨ e.2.1.id ≠ task) : execTaskComplete p g l tag task s = .next s := by
  unfold execTaskComplete
  simp only [hc]
  cases hf : st.running.find? fun e => e.1 == 80 * g + l with
  | none => rfl
  | some e =>
    have stale := h e (List.mem_of_find?_eq_some hf) (by simpa using List.find?_some hf)
    dsimp only
    rw [if_pos (by tauto)]

theorem endingRun_frame (cl b : Nat) (st : Step) : Frame [] s (endingRun s cl b st).s := bump_quiet plain2

section
variable {cl b : Nat} {st : Step} {t : Task}

/-- What the ended task has run in. -/
theorem freeAfter_frame : Frame [.dram, .held, .lanes, .holders] s (freeAfter p cl (runOps p cl (endingRun s cl b st) t.ops)) :=
  .after setCur_frame.up (.after setCluster_quiet.up ((runOps_runsOn t.ops).1.up.after (endingRun_frame cl b st).up))

/-- A step goes on from the end of a task, its tasks in program order. -/
theorem taskEnds_runs (hst : st.st = .execute) :
    let r := runOps p cl (endingRun s cl b st) t.ops
    Runs p r.st (toSample (dispatch (saveIfStopped (freeAfter p cl r) p) p) p) ∧
      r.st.core = (st.ctx, st.tag, st.plan, r.st.assay, (st.running.filter fun e => e.1 != cl).map (·.2.1) ++ st.held) := by
  intro r
  obtain ⟨assay, hr⟩ : AssayOnly _ r.st := (runOps_runsOn (p := p) (cl := cl) (r := endingRun s cl b st) t.ops).2.1
  have start : Runs p r.st (freeAfter p cl r) := ⟨r.st, by rw [freeAfter, setCur, lane_setLane_same], rfl, by
    rw [hr]; show st.st ≠ .issue; rw [hst]; decide⟩
  refine ⟨toSample_goesOn.2 (dispatch_goesOn.2 (saveIfStopped_goesOn.2 start)), ?_⟩
  rw [hr]
  rfl

/-- What the task has written stands in DRAM when the lane has gone on. -/
theorem taskEnds_memory (hs : NoStoreWaits s p) :
    let r := runOps p cl (endingRun s cl b st) t.ops
    ∀ a, loadByte (toSample (dispatch (saveIfStopped (freeAfter p cl r) p) p) p) a = loadByte r.s a := by
  intro r a
  have waits0 : NoStoreWaits (endingRun s cl b st).s p := ((endingRun_frame cl b st).calm p (by decide) (by decide) hs).1
  have waits : NoStoreWaits r.s p := ((runOps_runsOn (p := p) (cl := cl) t.ops).2.2 waits0).1
  have freed : Calm p r.s (freeAfter p cl r) := (setCur_frame.calm p).after (setCluster_quiet.calm p)
  have calm : Calm p r.s (toSample (dispatch (saveIfStopped (freeAfter p cl r) p) p) p) :=
    ((toSample_goesOn (st := r.st)).1.after
      ((dispatch_goesOn (st := r.st)).1.after (saveIfStopped_goesOn (st := r.st)).1)).after freed
  unfold loadByte
  rw [(calm waits).2]

end

end Sys2Proof.Machine

namespace Sys2Proof
open Machine

/-- Settles O10: the tasks keep their program order through placement, and the instructions of a task write their own spans
only, where no store waits to issue with them. -/
theorem tasksRunAndWriteWhatTheyWrite : Obligations.TasksRunAndWriteWhatTheyWrite := by
  refine ⟨?_, ?_, ?_⟩
  · intro s p plan st _ hcur hmay
    obtain ⟨calm, x, hx, hcore, hissue⟩ := enterExecute_spec (s := s) (p := p) plan st
    simp only [Step.core, Prod.mk.injEq] at hcore
    obtain ⟨hctx, htag, hplan, -, horder⟩ := hcore
    exact ⟨_, execStepExecute_eq hcur hmay, fun hs a => by unfold loadByte; rw [(calm hs).2],
      x, hx, hctx, htag, hissue, hplan, horder⟩
  · intro s p g l tag task st t b _ cl hcur htag hst hrestore hstopped hwaits hfind hid s0 r0 r
    have hexec := execTaskComplete_eq hcur htag hst hrestore hstopped hwaits hfind hid
    change execTaskComplete p g l tag task s = .next (if r.bad then refusedAccess (freeAfter p cl r) st.ctx
      else toSample (dispatch (saveIfStopped (freeAfter p cl r) p) p) p) at hexec
    have quiet : Frame [] s r0.s := endingRun_frame cl b st
    refine ⟨fun hgood => ?_, fun hbad hroom => ?_⟩
    · rw [hgood, if_neg Bool.false_ne_true] at hexec
      obtain ⟨⟨x, hx, hcore, -⟩, hr⟩ := taskEnds_runs (s := s) (p := p) (cl := cl) (b := b) (t := t) hst
      rw [hr] at hcore
      simp only [Step.core, Prod.mk.injEq] at hcore
      obtain ⟨hctx, htag', -, hassay, horder⟩ := hcore
      refine ⟨_, hexec, ⟨x, hx, hctx, htag', hassay, horder⟩, fun hs => ?_⟩
      have memory (a : Nat) := taskEnds_memory (cl := cl) (b := b) (st := st) (t := t) hs a
      have writes := ((runOps_runsOn (p := p) (cl := cl) (r := r0) t.ops).2.2 (quiet.calm p (by decide) (by decide) hs).1).2
      refine ⟨fun a ha => ?_, fun a bs hops j x hj hx => ?_, fun f fmt e k ps n w hops hf j x hj hx => ?_⟩
      · refine (memory a).trans ((writes a fun ⟨w, hw, j, hj, e⟩ => ?_).trans (quiet.mem (by decide) a))
        obtain ⟨op, hop, hw⟩ := List.mem_flatMap.mp hw
        exact ha op hop w hw j hj (quiet.translate p _ ▸ e)
      · refine (memory x).trans ?_
        rw [hops]
        exact loadByte_runOps_put hj (quiet.translate p _ ▸ hx)
      · refine (memory x).trans ?_
        rw [hops]
        exact loadByte_runOps_vec hf hj (quiet.translate p _ ▸ hx)
    · rw [hbad, if_pos rfl] at hexec
      have frame : Frame [.dram, .held, .lanes, .holders] s (freeAfter p cl r) := freeAfter_frame
      obtain ⟨x, hx, hid', htime⟩ := refusedAccess_recorded (s := freeAfter p cl r) (g := st.ctx) (by rwa [frame.faults])
      exact ⟨_, hexec, x, hx, hid', htime.trans frame.aTime⟩
  · intro s p g l tag task st _ hcur hstale
    exact ⟨s, execTaskComplete_stale hcur hstale, rfl⟩

end Sys2Proof
end

section
set_option Elab.async false
/-! ## What every command keeps

No command puts another in the queue or moves device time or a domain's copy of it (only an idle step moves them), except
that a cold reset starts them again at 0; and none spoils the canonical form of stacked DRAM. The lemmas of this part say
so once for each operation, in the order of the model's files. A fold's step, an operation passed as an argument and an
operation that may answer nothing each have a hypothesis or a rule of their own. -/
namespace Sys2Proof.Machine

/-- The queue of commands, device time and the domains' copies of it. -/
abbrev queueAndClocks (s : State) : List Instr × Nat × Nat × Nat × Nat × Nat × Nat × Nat × Nat × Nat :=
  (s.pending, s.time, s.qTime, s.fTime, s.lTime, s.cTime, s.mTime, s.pTime, s.aTime, s.sTime)

/-- From `s` to `u` the queue, device time and its copies have not changed, and memory is in canonical form if it was. -/
structure Kept (s u : State) : Prop where
  fixed : queueAndClocks u = queueAndClocks s
  memOk : MemOk s → MemOk u

/-- The bound of the copies speaks of device time and its copies only. -/
theorem timesOk_congr {s u : State} (h : queueAndClocks u = queueAndClocks s) (ok : TimesOk s) : TimesOk u := by
  simp only [queueAndClocks, Prod.mk.injEq] at h
  unfold TimesOk at *
  obtain ⟨-, h1, h2, h3, h4, h5, h6, h7, h8, h9⟩ := h
  rwa [h1, h2, h3, h4, h5, h6, h7, h8, h9]

namespace Kept
variable {s t u : State}

theorem refl (s : State) : Kept s s := ⟨rfl, id⟩

/-- The last operation first. -/
theorem after (g : Kept t u) (h : Kept s t) : Kept s u := ⟨g.fixed.trans h.fixed, g.memOk ∘ h.memOk⟩

theorem ite {P : Prop} [Decidable P] (h : Kept s t) (g : Kept s u) : Kept s (if P then t else u) := by
  split
  · exact h
  · exact g

/-- An update of other fields than the clocks and memory. -/
theorem of_core (h : (queueAndClocks u, u.dram) = (queueAndClocks s, s.dram) := by with_reducible rfl) : Kept s u := by
  obtain ⟨hc, hd⟩ := Prod.mk.inj h
  exact ⟨hc, fun ok => by unfold MemOk at *; rwa [hd]⟩

/-- As `of_core`, of a state that has been kept. -/
theorem core (h : Kept s t) (e : (queueAndClocks u, u.dram) = (queueAndClocks t, t.dram) := by with_reducible rfl) :
    Kept s u :=
  (of_core e).after h

/-- The state an operation answers, or the one before it. -/
theorem getD {o : Option State} (h : ∀ u, o = some u → Kept s u) (k : Kept s t) : Kept s (o.getD t) := by
  cases o with
  | none => exact k
  | some u => exact h u rfl

/-- A fold keeps what each of its operations keeps; `π` is where the state stands in what the fold carries. -/
theorem foldl_on {α β : Type} (π : β → State) {f : β → α → β} (h : ∀ a x, Kept (π a) (π (f a x))) (l : List α) (b : β) :
    Kept (π b) (π (l.foldl f b)) := by
  induction l generalizing b with
  | nil => exact refl _
  | cons x xs ih => exact (ih _).after (h b x)

theorem foldl {α : Type} {f : State → α → State} (h : ∀ a x, Kept a (f a x)) (l : List α) (s : State) :
    Kept s (l.foldl f s) := foldl_on id h l s

theorem foldl_fst {α β : Type} {f : State × β → α → State × β} (h : ∀ a x, Kept a.1 (f a x).1) (l : List α)
    (r : State × β) : Kept r.1 (l.foldl f r).1 := foldl_on Prod.fst h l r

end Kept

/-- The outcome is a next state that keeps what every command keeps, or none. -/
def KeptNext (s : State) (o : Host.Outcome State Fault Refusal) : Prop := ∀ u, o = .next u → Kept s u

namespace KeptNext
variable {s t u : State} {o o' : Host.Outcome State Fault Refusal}

theorem next (h : Kept s u) : KeptNext s (.next u) := by
  rintro _ ⟨⟩
  exact h

theorem ite {P : Prop} [Decidable P] (h : KeptNext s o) (g : KeptNext s o') : KeptNext s (if P then o else o') := by
  split
  · exact h
  · exact g

/-- The last operation first. -/
theorem after (g : KeptNext t o) (h : Kept s t) : KeptNext s o := fun u e => (g u e).after h

end KeptNext

end Sys2Proof.Machine
end

section
set_option Elab.async false
/-! ### The lemmas of each operation, by the files of the model -/
namespace Sys2Proof.Machine
variable {s : State}

/-! Of `Machine/Ops.lean`. -/

theorem wr_kept {key : Nat} {v : BitVec 64} : Kept s (wr s key v) := .of_core rfl

theorem setF_kept {f : Fld} {x : Nat} : Kept s (setF s f x) := wr_kept

theorem bump_kept {f : Fld} {n : Nat} : Kept s (bump s f n) := setF_kept

theorem bumpSat_kept {f : Fld} {n : Nat} : Kept s (bumpSat s f n) := setF_kept

theorem lower_kept {f : Fld} {n : Nat} : Kept s (lower s f n) := setF_kept

theorem resetReg_kept {key : Nat} : Kept s (resetReg s key) := wr_kept

theorem resetRegs_kept {p : Nat → Bool} : Kept s (resetRegs s p) := .of_core rfl

theorem setLane_kept {p : Nat} {l : Lane} : Kept s (setLane s p l) := .of_core rfl

theorem setSq_kept {t r : Nat} {q : Sq} : Kept s (setSq s t r q) := .of_core rfl

theorem setCq_kept {t c : Nat} {q : Cq} : Kept s (setCq s t c q) := .of_core rfl

theorem setReq_kept {i : Nat} {r : Option Req} : Kept s (setReq s i r) := .of_core rfl

theorem setCohort_kept {i : Nat} {c : Option Cohort} : Kept s (setCohort s i c) := .of_core rfl

theorem setAdmQueue_kept {t c : Nat} {l : List Nat} : Kept s (setAdmQueue s t c l) := .of_core rfl

theorem setCtx_kept {g : Nat} {c : Option Ctx} : Kept s (setCtx s g c) := .of_core rfl

theorem setSlot_kept {n : Nat} {x : Option Slot} : Kept s (setSlot s n x) := .of_core rfl

theorem setPage_kept {p i : Nat} {x : Page} : Kept s (setPage s p i x) := .of_core rfl

theorem setTenant_kept {t : Nat} {x : Tenant} : Kept s (setTenant s t x) := .of_core rfl

theorem setPart_kept {p : Nat} {x : Part} : Kept s (setPart s p x) := .of_core rfl

theorem setFn_kept {n : Nat} {x : Fn} : Kept s (setFn s n x) := .of_core rfl

theorem setVec_kept {n v : Nat} {x : Vec} : Kept s (setVec s n v x) := .of_core rfl

theorem setDedup_kept {t : Nat} {l : List (Nat × Nat)} : Kept s (setDedup s t l) := .of_core rfl

theorem emit_kept {x : Tx} : Kept s (emit s x) := .of_core rfl

theorem drive_kept {x : Tx} : Kept s (drive s x) := .ite (.refl _) emit_kept

theorem flashCmd_kept : Kept s (flashCmd s) := .after drive_kept drive_kept

theorem sendMsi_kept {n v : Nat} : Kept s (sendMsi s n v) := by
  unfold sendMsi
  exact .ite setVec_kept emit_kept

theorem statusMsg_kept {key : Nat} : Kept s (statusMsg s key) := by
  unfold statusMsg
  split
  · exact sendMsi_kept
  · exact .refl _

theorem raise_kept {f : Fld} : Kept s (raise s f) := by
  unfold raise
  exact .ite (.after statusMsg_kept setF_kept) setF_kept

theorem reassert_kept {key : Nat} : Kept s (reassert s key) := .ite statusMsg_kept (.refl _)

theorem draw_kept : Kept s (draw s).2 := by
  unfold draw
  exact .of_core

theorem setEcc_kept {w n : Nat} : Kept s (setEcc s w n) := .of_core rfl

theorem storeByte_kept {a : Nat} {b : Byte} : Kept s (storeByte s a b) := ⟨rfl, storeByte_memOk s a b⟩

theorem zeroWhere_kept {p : Nat → Bool} : Kept s (zeroWhere s p) := ⟨rfl, zeroWhere_memOk s p⟩

theorem storeAt_kept {p a : Nat} {b : Byte} : Kept s (storeAt s p a b).1 := by
  unfold storeAt
  split
  · exact storeByte_kept
  · exact .refl _

theorem storePart_kept {p : Nat} {bs : List Byte} : ∀ {s : State} {a : Nat}, Kept s (storePart s p a bs).1 := by
  induction bs with
  | nil => exact .refl _
  | cons b bs ih => exact .after ih storeAt_kept

theorem setFlash_kept {a : Nat} {b : List Byte} : Kept s (setFlash s a b) := .of_core rfl

theorem garbleFlash_kept {a n : Nat} : Kept s (garbleFlash s a n) := by
  unfold garbleFlash
  exact .after setFlash_kept draw_kept

/-! Of `Machine/RegAccess.lean`. -/

theorem writeFields_kept {key : Nat} {data mask : BitVec 64} : Kept s (writeFields s key data mask) := by
  unfold writeFields
  dsimp only
  split
  · exact .refl _
  · exact .ite (.after raise_kept (.ite (.after raise_kept wr_kept) wr_kept)) (.ite (.after raise_kept wr_kept) wr_kept)

theorem hwSetDuring_kept {key written hw : Nat} : Kept s (hwSetDuring s key written hw) := by
  unfold hwSetDuring
  exact .ite (.after setF_kept wr_kept) wr_kept

theorem clearRc_kept {key : Nat} : Kept s (clearRc s key) := by
  unfold clearRc
  split
  · exact .refl _
  · exact wr_kept

theorem ifRunning_kept {d : Nat} {f : State → State} (h : ∀ a, Kept a (f a)) : Kept s (ifRunning s d f) :=
  .ite (h _) raise_kept

theorem reach_kept {key : Nat} {f : State → Host.Outcome State Fault Refusal} (h : ∀ a, KeptNext a (f a)) :
    KeptNext s (reach s key f) :=
  .ite (.next raise_kept) (.ite (.next raise_kept) (h _))

theorem afterWrite_kept {key : Nat} : Kept s (afterWrite s key) := .ite reassert_kept (.ite reassert_kept (.refl _))

/-! Of `Machine/Cache.lean`. -/

theorem setL2_kept {line : Nat} {x : Option L2Line} : Kept s (setL2 s line x) := .of_core rfl

theorem countGrove_kept {g k n : Nat} : Kept s (countGrove s g k n) := .ite (.refl _) bump_kept

theorem dropLine_kept {line : Nat} : Kept s (dropLine s line) := by
  unfold dropLine
  split
  · exact .after countGrove_kept setL2_kept
  · exact .refl _

theorem allocate_kept {who : Agent} {write : Bool} {line : Nat} : Kept s (allocate s who write line) := by
  unfold allocate
  dsimp only
  split
  · exact .refl _
  · exact .after setL2_kept (.after (.foldl (fun _ _ => dropLine_kept) _ _) draw_kept)

theorem touchLine_kept {who : Agent} {write : Bool} {line n : Nat} : Kept s (touchLine s who write line n) := by
  unfold touchLine
  dsimp only
  split
  · split
    · exact .after countGrove_kept (.after dropLine_kept countGrove_kept)
    · exact countGrove_kept
    · exact .after setL2_kept countGrove_kept
  · split
    · exact .after countGrove_kept countGrove_kept
    · exact .after countGrove_kept countGrove_kept
    · exact .after countGrove_kept (.after allocate_kept countGrove_kept)

theorem touch_kept {who : Agent} {write : Bool} {x n : Nat} : Kept s (touch s who write x n) :=
  .foldl (fun _ _ => touchLine_kept) _ _

theorem touchPart_kept {p : Nat} {who : Agent} {write : Bool} {a n : Nat} : Kept s (touchPart s p who write a n) := by
  unfold touchPart
  refine .foldl (fun a e => ?_) _ _
  split
  · exact touchLine_kept
  · exact .refl _

theorem writePart_kept {p : Nat} {who : Agent} {a : Nat} {bs : List Byte} : Kept s (writePart s p who a bs).1 := by
  unfold writePart
  exact .after touchPart_kept storePart_kept

theorem clearL2_kept {f : Nat → Bool} : Kept s (clearL2 s f) := .of_core rfl

theorem moveEntry_kept {write : Bool} {i : Nat} : Kept s (moveEntry s write i) := touch_kept

/-! Of `Machine/Pages.lean`. -/

theorem zeroPage_kept {p i : Nat} : Kept s (zeroPage s p i) := zeroWhere_kept

theorem assignPage_kept {p i : Nat} {u : PageUse} {o : PageOwner} : Kept s (assignPage s p i u o) := by
  unfold assignPage
  exact .after setPage_kept (.ite (.refl _) zeroPage_kept)

theorem reusePage_kept {p i : Nat} {u : PageUse} : Kept s (reusePage s p i u) := by
  unfold reusePage
  exact setPage_kept

theorem takePages_kept {p : Nat} {us : List PageUse} {o : PageOwner} {u : State} (h : takePages s p us o = some u) :
    Kept s u := by
  unfold takePages at h
  split at h
  · cases h; exact .foldl (fun _ _ => assignPage_kept) _ _
  · cases h

theorem mapPages_kept {p : Nat} {f : PageUse → Bool} {g : PageUse → PageUse} : Kept s (mapPages s p f g) :=
  .foldl (fun _ _ => reusePage_kept) _ _

theorem freeWhere_kept {p : Nat} {f : PageUse → Bool} : Kept s (freeWhere s p f) := mapPages_kept

theorem charge_kept {t n : Nat} : Kept s (charge s t n) := bump_kept

theorem credit_kept {t n : Nat} : Kept s (credit s t n) := lower_kept

/-! Of `Machine/Requests.lean`. -/

theorem queueRec_kept {t c : Nat} {r : Rec} : Kept s (queueRec s t c r) := by
  unfold queueRec
  exact setCq_kept

theorem dropEntry_kept {i : Nat} : Kept s (dropEntry s i) := .of_core rfl

theorem spillEntry_kept : Kept s (spillEntry s) := by
  unfold spillEntry
  split
  · exact .refl _
  · split
    · exact .after bump_kept (.after moveEntry_kept dropEntry_kept)
    · exact .refl _

theorem useEntry_kept {i : Nat} : Kept s (useEntry s i) := by
  unfold useEntry
  exact .ite .of_core (.core (.ite (.after bump_kept (.after moveEntry_kept spillEntry_kept)) spillEntry_kept))

theorem useEntries_kept {is : List Nat} : Kept s (useEntries s is) := .foldl (fun _ _ => useEntry_kept) _ _

theorem useReservation_kept {i n : Nat} : Kept s (useReservation s i n) := by
  unfold useReservation
  dsimp only
  split
  · exact .refl _
  · split
    · exact .after lower_kept (.after setCohort_kept setReq_kept)
    · exact setReq_kept

theorem releaseShares_kept {r : Req} : Kept s (releaseShares s r) := by
  unfold releaseShares
  dsimp only
  split
  · exact .ite (.after lower_kept (.after setCohort_kept lower_kept)) (.refl _)
  · exact .refl _

theorem showHold_kept {t c : Nat} : Kept s (showHold s t c) := setF_kept

theorem noteDue_kept {t slot : Nat} : Kept s (noteDue s t slot) := by
  unfold noteDue
  exact .of_core

theorem admitCohort_kept {co : Nat} : Kept s (admitCohort s co) := by
  unfold admitCohort
  dsimp only
  split
  · exact .refl _
  · refine .after noteDue_kept (.after setCohort_kept ?_)
    refine .foldl (fun a e => ?_) _ _
    split
    · exact .ite (.refl _) (.ite (.after bump_kept (.after lower_kept (.after setReq_kept useEntry_kept)))
        (.after lower_kept (.after setReq_kept useEntry_kept)))
    · exact .refl _

theorem admitCopied_kept {co : Nat} : Kept s (admitCopied s co) := by
  unfold admitCopied
  split
  · exact .ite admitCohort_kept (.refl _)
  · exact .refl _

theorem releaseReq_kept {i : Nat} {r : Req} : Kept s (releaseReq s i r) := by
  unfold releaseReq
  dsimp only
  split
  · exact .after credit_kept freeWhere_kept
  · split
    · exact .after setReq_kept (.after credit_kept (.after credit_kept freeWhere_kept))
    · exact .after credit_kept (.after credit_kept freeWhere_kept)

theorem dropMember_kept {i : Nat} {r : Req} : Kept s (dropMember s i r) := by
  unfold dropMember
  dsimp only
  split
  · exact .refl _
  · exact .ite (.after showHold_kept (.after setAdmQueue_kept setCohort_kept)) setCohort_kept

theorem countEnd_kept {r : Req} : Kept s (countEnd s r) := by
  unfold countEnd
  exact .after bump_kept (.ite (.after lower_kept (.after lower_kept (.ite lower_kept (.refl _)))) (.ite lower_kept
    (.refl _)))

theorem noteEnded_kept {i : Nat} {r : Req} : Kept s (noteEnded s i r) := by
  unfold noteEnded
  dsimp only
  split
  · exact .of_core
  · exact .refl _

theorem dropWaits_kept {f : HeldFor → Bool} : Kept s (dropWaits s f) := .of_core rfl

theorem leaveNext_kept {p h : Nat} : Kept s (leaveNext s p h) := by
  unfold leaveNext
  dsimp only
  split
  · exact .refl _
  · exact .ite (.refl _) (.ite (.after setLane_kept freeWhere_kept) (.after setLane_kept freeWhere_kept))

theorem leaveLive_kept {i : Nat} {r : Req} {st : ReqState} {code : Nat} {counted : Bool} :
    Kept s (leaveLive s i r st code counted) := by
  unfold leaveLive
  extract_lets s1 s2 s3 s4 s5 s6
  have hs1 : Kept s s1 := .after countEnd_kept (.after releaseShares_kept (.after leaveNext_kept dropWaits_kept))
  have hs3 : Kept s s3 := .after noteEnded_kept (.after dropMember_kept (.after releaseReq_kept hs1))
  have hs4 : Kept s s4 := by
    unfold s4
    split
    · exact .ite (.after bump_kept hs3) hs3
    · exact hs3
  have hs6 : Kept s s6 := .after noteDue_kept (.ite (.after bump_kept hs4) hs4)
  split
  · exact .after setReq_kept hs6
  · exact hs6

theorem freeEntryOf_kept {i gen : Nat} : Kept s (freeEntryOf s i gen) := by
  unfold freeEntryOf
  exact .core (t := setReq (dropEntry s i) i none) (.after setReq_kept dropEntry_kept)

theorem endCopies_kept {i : Nat} : Kept s (endCopies s i) := by
  unfold endCopies
  dsimp only
  split
  · exact .refl _
  · exact .ite (.after credit_kept (.after setReq_kept freeWhere_kept)) (.after freeEntryOf_kept (.after credit_kept
      (.after setReq_kept freeWhere_kept)))

theorem endCopiesOf_kept {f : Req → Bool} : Kept s (endCopiesOf s f) :=
  .foldl (fun _ _ => .ite endCopies_kept (.refl _)) _ _

theorem endReq_kept {i : Nat} {st : ReqState} {code : Nat} {silent : Bool} : Kept s (endReq s i st code silent) := by
  unfold endReq
  dsimp only
  split
  · exact .refl _
  · exact .ite (.refl _) (.ite (.ite (.after leaveLive_kept useEntry_kept) (.after freeEntryOf_kept
      (.after leaveLive_kept useEntry_kept))) (.after queueRec_kept (.after leaveLive_kept useEntry_kept)))

theorem cancelReq_kept {i : Nat} : Kept s (cancelReq s i) := by
  unfold cancelReq
  split
  · exact .ite (.after admitCopied_kept (.after bump_kept endReq_kept)) (.refl _)
  · exact .refl _

theorem applyCancel_kept {i : Nat} : Kept s (applyCancel s i) := by
  unfold applyCancel
  split
  · exact .ite .of_core cancelReq_kept
  · exact .refl _

theorem settleCancels_kept : Kept s (settleCancels s) := by
  unfold settleCancels
  refine .after (.foldl (fun a e => ?_) _ _) .of_core
  split
  · exact cancelReq_kept
  · exact .refl _

theorem expireOut_kept {i now : Nat} : Kept s (expireOut s i now) := by
  unfold expireOut
  split
  · exact endReq_kept
  · exact .refl _

theorem expireReq_kept {i : Nat} : Kept s (expireReq s i) := by
  unfold expireReq
  split
  · exact endReq_kept
  · exact .refl _

/-! Of `Machine/Traffic.lean`. -/

theorem setRegLevel_kept {p k : Nat} {x : Int} : Kept s (setRegLevel s p k x) := setF_kept

theorem chargeOnly_kept {p k n : Nat} : Kept s (chargeOnly s p k n) := .ite setRegLevel_kept (.refl _)

theorem setHeld_kept {p k : Nat} {x : Held} : Kept s (setHeld s p k x) := .of_core rfl

theorem sendPage_kept {p i pg slot : Nat} : Kept s (sendPage s p i pg slot) := by
  unfold sendPage
  dsimp only
  split
  · exact .refl _
  · exact .ite (.after emit_kept (.after emit_kept touchPart_kept)) (.after emit_kept touchPart_kept)

theorem waitIssued_kept {p : Nat} {e : HeldFor × Nat} : Kept s (waitIssued p s e) := by
  unfold waitIssued
  split
  · exact sendPage_kept
  · exact .foldl (fun _ _ => writePart_kept) _ _
  · exact .refl _

theorem issueHeld_kept {p k : Nat} : Kept s (issueHeld s p k) := by
  unfold issueHeld
  exact .after setHeld_kept (.after (.foldl (fun _ _ => waitIssued_kept) _ _) setRegLevel_kept)

theorem chargeHeld_kept {p k : Nat} {f : HeldFor} {n : Nat} : Kept s (chargeHeld s p k f n) := by
  unfold chargeHeld
  exact .ite (.after issueHeld_kept setHeld_kept) waitIssued_kept

theorem refillReg_kept {p k : Nat} : Kept s (refillReg s p k) := by
  unfold refillReg
  exact .after issueHeld_kept (.after setHeld_kept (.after setRegLevel_kept (.ite bump_kept (.refl _))))

theorem chargeTenant_kept {t k n : Nat} : Kept s (chargeTenant s t k n) := by
  unfold chargeTenant
  split
  · exact chargeOnly_kept
  · exact .refl _

theorem setTrace_kept {p : Nat} {x : Trace} : Kept s (setTrace s p x) := .of_core rfl

theorem lossRecord_kept {p : Nat} : Kept s (lossRecord s p) := by
  unfold lossRecord
  exact .ite setTrace_kept (.refl _)

theorem loseTrace_kept {p time : Nat} : Kept s (loseTrace s p time) := by
  unfold loseTrace
  exact .after raise_kept (.after bump_kept setTrace_kept)

theorem traceRec_kept {p kind time : Nat} {bytes : List Byte} : Kept s (traceRec s p kind time bytes) := by
  unfold traceRec
  exact .ite (.refl _) (.ite (.after setTrace_kept lossRecord_kept) (.after loseTrace_kept lossRecord_kept))

theorem dropTrace_kept {p : Nat} : Kept s (dropTrace s p) := by
  unfold dropTrace
  dsimp only
  split
  · exact .refl _
  · exact .after loseTrace_kept setTrace_kept

theorem traceStep_kept {p g tag ev seqs pos : Nat} : Kept s (traceStep s p g tag ev seqs pos) := traceRec_kept

theorem traceWait_kept {p g tag start stop obj objId : Nat} {waiter awaited : Nat × Nat} {abandoned : Bool} :
    Kept s (traceWait s p g tag start stop obj objId waiter awaited abandoned) := by
  unfold traceWait
  exact .ite (.refl _) traceRec_kept

theorem traceLink_kept {p g tag port ftype peer msg stamp time : Nat} {recv : Bool} :
    Kept s (traceLink s p g tag port ftype peer msg stamp time recv) :=
  traceRec_kept

theorem execMark_kept {p cl id time : Nat} {fin : Bool} : Kept s (execMark p cl id time fin s) := by
  unfold execMark
  split
  · exact .ite traceRec_kept (.refl _)
  · exact .refl _

theorem execMarkBegin_kept {p cl id : Nat} : KeptNext s (execMarkBegin p cl id s) := by
  unfold execMarkBegin
  exact .next execMark_kept

theorem execMarkEnd_kept {p cl id : Nat} : KeptNext s (execMarkEnd p cl id s) := by
  unfold execMarkEnd
  exact .next execMark_kept

theorem ringRecord_kept {p : Nat} {bytes : List Byte} : Kept s (ringRecord s p bytes) := by
  unfold ringRecord
  exact .after chargeOnly_kept (.ite (.after bump_kept (.after setF_kept (.after bump_kept (.after writePart_kept
    (.foldl (fun _ _ => .foldl (fun _ _ => writePart_kept) _ _) _ _))))) (.after setF_kept (.after bump_kept
    (.after writePart_kept (.foldl (fun _ _ => .foldl (fun _ _ => writePart_kept) _ _) _ _)))))

theorem execTraceRecordWrite_kept {p : Nat} : KeptNext s (execTraceRecordWrite p s) := by
  unfold execTraceRecordWrite
  dsimp only
  split
  · exact .next (.refl _)
  · exact .ite (.next (.refl _)) (.ite (.next setHeld_kept) (.ite (.next (.after raise_kept (.after setTrace_kept
      (.after setF_kept setF_kept)))) (.next (.after lossRecord_kept (.after ringRecord_kept setTrace_kept)))))

theorem execTraceEnable_kept {p : Nat} {v : W32} : KeptNext s (execTraceEnable p v s) := by
  unfold execTraceEnable
  exact reach_kept (fun _ => .ite (.next writeFields_kept) (.next (.after setF_kept (.after setF_kept
    (.after setF_kept (.after setF_kept (.after setF_kept writeFields_kept)))))))

theorem execTraceDisable_kept {p : Nat} {v : W32} : KeptNext s (execTraceDisable p v s) :=
  reach_kept (fun _ => .ite (.next (.refl _)) (.next writeFields_kept))

/-! Of `Machine/Intake.lean`. -/

theorem noteNotReady_kept {t r : Nat} {ws : List W128} : Kept s (noteNotReady s t r ws) := by
  unfold noteNotReady
  exact .after bumpSat_kept setSq_kept

theorem advanceHead_kept {t r n : Nat} : Kept s (advanceHead s t r n) := by
  unfold advanceHead
  dsimp only
  refine .after (.foldl (fun a e => ?_) _ _) (.after bump_kept (.after bump_kept (.after setF_kept
    (.after setF_kept chargeTenant_kept))))
  split
  · exact setSq_kept
  · exact .refl _

theorem releaseFences_kept {t r : Nat} : Kept s (releaseFences s t r) := by
  unfold releaseFences
  dsimp only
  refine .foldl (fun a e => ?_) _ _
  split
  · exact setSq_kept
  · exact .refl _

theorem setOpenCohort_kept {t r : Nat} {c : Option OpenCohort} : Kept s (setOpenCohort s t r c) := by
  unfold setOpenCohort
  exact .after setF_kept setSq_kept

theorem takeTurn_kept {t r : Nat} : Kept s (takeTurn s t r) := by
  unfold takeTurn
  exact .of_core

theorem consume_kept {t r : Nat} {need : List Nat} {k : State → State} (h : ∀ a, Kept a (k a)) :
    Kept s (consume s t r need k) := by
  unfold consume
  exact .ite (.ite setSq_kept (.after raise_kept setSq_kept)) (.ite (.after takeTurn_kept (.after
    (h _) setSq_kept)) setSq_kept)

theorem refuseItem_kept {t r c code : Nat} {echo : List Byte} : Kept s (refuseItem s t r c code echo) :=
  .after bumpSat_kept queueRec_kept

theorem createReq_kept {t r slot bucket co mi pick : Nat} {m : Member} :
    Kept s (createReq s t r slot bucket co mi pick m).1 := by
  unfold createReq
  exact .after queueRec_kept (.after bump_kept (.after bump_kept (.ite (.after setReq_kept useEntry_kept)
    (.after setDedup_kept (.after setReq_kept useEntry_kept)))))

theorem dupRec_kept {t h : Nat} {m : Member} : Kept s (dupRec s t h m) := .after bump_kept queueRec_kept

theorem createAll_kept {t r slot bucket co pick : Nat} {ms : List Member} : ∀ {s : State} {mi : Nat} {acc : List Nat},
    Kept s (createAll t r slot bucket co pick s ms mi acc).1 := by
  induction ms with
  | nil => exact .refl _
  | cons m ms ih =>
    intro s mi acc
    unfold createAll
    split
    · exact .after ih dupRec_kept
    · exact .after ih createReq_kept

theorem completeCohort_kept {t r model bucket pick : Nat} {ms : List Member} :
    Kept s (completeCohort s t r model bucket pick ms) := by
  unfold completeCohort
  dsimp only
  split
  · exact .foldl (fun _ _ => refuseItem_kept) _ _
  · exact .ite (.foldl (fun _ _ => refuseItem_kept) _ _) (.ite (.after createAll_kept .of_core)
      (.after setAdmQueue_kept (.after setCohort_kept (.after createAll_kept .of_core))))

theorem breakCohort_kept {t r : Nat} : Kept s (breakCohort s t r) := by
  unfold breakCohort
  split
  · exact .refl _
  · exact .after setOpenCohort_kept queueRec_kept

theorem execSubmit_kept {t r : Nat} {ws : List W128} {prompt : Option (List W32)} {ext : Option (List Byte)} {pick : Nat} :
    KeptNext s (execSubmit t r ws prompt ext pick s) := by
  unfold execSubmit
  dsimp only
  split
  · exact .next (.refl _)
  · exact .next (.refl _)
  · exact .next noteNotReady_kept
  · split
    · exact .next (.refl _)
    · split
      · exact .next (consume_kept (fun _ => .after chargeTenant_kept (.after advanceHead_kept (.ite
          (.after setOpenCohort_kept completeCohort_kept) setOpenCohort_kept))))
      · exact .next (consume_kept (fun _ => .after chargeTenant_kept (.after advanceHead_kept (.ite
          (.after completeCohort_kept breakCohort_kept) (.after refuseItem_kept breakCohort_kept)))))

theorem execCohort_kept {t r : Nat} {ws : List W128} : KeptNext s (execCohort t r ws s) := by
  unfold execCohort
  dsimp only
  split
  · exact .next (.refl _)
  · exact .next (.refl _)
  · exact .next noteNotReady_kept
  · exact .ite (.next (.refl _)) (.next (consume_kept (fun _ => .after advanceHead_kept (.ite
      (.after setOpenCohort_kept breakCohort_kept) (.after refuseItem_kept breakCohort_kept)))))

theorem execCancel_kept {t r : Nat} {ws : List W128} : KeptNext s (execCancel t r ws s) := by
  unfold execCancel
  dsimp only
  split
  · exact .next (.refl _)
  · exact .next (.refl _)
  · exact .next noteNotReady_kept
  · exact .ite (.next (.refl _)) (.next (consume_kept (fun _ => .after advanceHead_kept (.ite
      (.after refuseItem_kept breakCohort_kept) (.ite (.after applyCancel_kept breakCohort_kept) (.ite
      (.after queueRec_kept breakCohort_kept) (.after refuseItem_kept breakCohort_kept)))))))

theorem execFence_kept {t r : Nat} {ws : List W128} : KeptNext s (execFence t r ws s) := by
  unfold execFence
  dsimp only
  split
  · exact .next (.refl _)
  · exact .next (.refl _)
  · exact .next noteNotReady_kept
  · exact .ite (.next (.refl _)) (.next (consume_kept (fun _ => .after advanceHead_kept (.ite
      (.after setSq_kept breakCohort_kept) (.after refuseItem_kept breakCohort_kept)))))

theorem execReservedItemType_kept {t r : Nat} {ws : List W128} : KeptNext s (execReservedItemType t r ws s) := by
  unfold execReservedItemType
  split
  · exact .next (.refl _)
  · exact .next (.refl _)
  · exact .next noteNotReady_kept
  · exact .ite (.next (.refl _)) (.next (consume_kept (fun _ => .after advanceHead_kept
      (.after refuseItem_kept breakCohort_kept))))

theorem execFencePass_kept {t r : Nat} : KeptNext s (execFencePass t r s) := by
  unfold execFencePass
  dsimp only
  split
  · exact .next (.refl _)
  · exact .ite (.next (.refl _)) (.ite (.next (.after queueRec_kept setSq_kept)) (.next setSq_kept))

theorem execItemReread_kept {t r : Nat} {ws : List W128} : KeptNext s (execItemReread t r ws s) := by
  unfold execItemReread
  dsimp only
  split
  · exact .next (.refl _)
  · exact .ite (.next (.refl _)) (.ite (.next setSq_kept) (.next noteNotReady_kept))

theorem misrouted_kept : Kept s (misrouted s) := bumpSat_kept

theorem execSqDoorbell_kept {t r : Nat} {viaPf : Bool} {v : Nat} : KeptNext s (execSqDoorbell t r viaPf v s) := by
  unfold execSqDoorbell
  exact reach_kept (fun _ => .ite (.next misrouted_kept) (.ite (.next raise_kept) (.ite (.next raise_kept) (.next
    (.after setSq_kept setF_kept)))))

theorem execCqDoorbell_kept {t c : Nat} {viaPf : Bool} {v : Nat} : KeptNext s (execCqDoorbell t c viaPf v s) := by
  unfold execCqDoorbell
  exact reach_kept (fun _ => .ite (.next misrouted_kept) (.ite (.next raise_kept) (.next setCq_kept)))

theorem startFlush_kept {t r : Nat} {disabling : Bool} : Kept s (startFlush s t r disabling) := by
  unfold startFlush
  exact setSq_kept

theorem execFlush_kept {t r : Nat} : KeptNext s (execFlush t r s) := reach_kept (fun _ => .next startFlush_kept)

theorem execFlushDone_kept {t r : Nat} : KeptNext s (execFlushDone t r s) := by
  unfold execFlushDone
  dsimp only
  split
  · exact .next (.refl _)
  · refine .next (.after raise_kept (.after releaseFences_kept ?_))
    split
    · refine .after setF_kept (.after setSq_kept (.after setF_kept (.after setF_kept ?_)))
      split
      · exact .after setOpenCohort_kept queueRec_kept
      · exact .refl _
    · refine .after setSq_kept (.after setF_kept (.after setF_kept ?_))
      split
      · exact .after setOpenCohort_kept queueRec_kept
      · exact .refl _

theorem writeCfg_kept {key : Nat} {locked : Bool} {flag : Fld} {cfg : W32} : Kept s (writeCfg s key locked flag cfg) := by
  unfold writeCfg
  exact .ite (.after raise_kept writeFields_kept) writeFields_kept

theorem execSqEnable_kept {t r : Nat} {cfg : W32} : KeptNext s (execSqEnable t r cfg s) := by
  unfold execSqEnable
  exact reach_kept (fun _ => .ite (.next (.refl _)) (.ite (.next writeCfg_kept) (.ite (.next
    (.after raise_kept writeCfg_kept)) (.next (.after setSq_kept (.after setF_kept (.after setF_kept (.after setF_kept
    (.after setF_kept writeCfg_kept)))))))))

theorem execSqDisable_kept {t r : Nat} {cfg : W32} : KeptNext s (execSqDisable t r cfg s) := by
  unfold execSqDisable
  exact reach_kept (fun _ => .ite (.next (.refl _)) (.next (.ite (.after startFlush_kept writeCfg_kept) writeCfg_kept)))

theorem execCqEnable_kept {t c : Nat} {cfg : W32} : KeptNext s (execCqEnable t c cfg s) := by
  unfold execCqEnable
  exact reach_kept (fun _ => .ite (.next (.refl _)) (.ite (.next writeCfg_kept) (.next (.after setCq_kept
    (.after setF_kept (.after setF_kept (.after setF_kept writeCfg_kept)))))))

theorem execCqDisable_kept {t c : Nat} {cfg : W32} : KeptNext s (execCqDisable t c cfg s) := by
  unfold execCqDisable
  exact reach_kept (fun _ => .ite (.next (.refl _)) (.ite (.next (.after raise_kept writeCfg_kept)) (.next
    (.after setF_kept writeCfg_kept))))

/-! Of `Machine/FaultLog.lean`. -/

theorem withFaultn_kept {f : State → State} (h : ∀ a, Kept a (f a)) : Kept s (withFaultn s f) := by
  unfold withFaultn
  exact .ite (h _) (.after drive_kept (h _))

theorem setCause_kept {k : Nat} : Kept s (setCause s k) := withFaultn_kept (fun _ => setF_kept)

theorem queueFault_kept {r : FaultRec} : Kept s (queueFault s r) := by
  unfold queueFault
  exact .ite raise_kept (.after setF_kept (.after (.foldl (fun _ _ => wr_kept) _ _) .of_core))

theorem flagClass_kept {cls : Nat} {lasting : Bool} : Kept s (flagClass s cls lasting) := by
  unfold flagClass
  exact .ite (.after raise_kept (.ite raise_kept (.ite raise_kept (.ite raise_kept (.ite raise_kept (.refl _))))))
    (.ite raise_kept (.ite raise_kept (.ite raise_kept (.ite raise_kept (.refl _)))))

theorem recordFault_kept {id cls : Nat} {lasting promoted : Bool} {part ctx detail : Nat} :
    Kept s (recordFault s id cls lasting promoted part ctx detail) := by
  unfold recordFault
  exact .ite (.ite bump_kept (.refl _)) (.after queueFault_kept (.after flagClass_kept (.ite bump_kept (.refl _))))

/-! Of `Machine/Link.lean`. -/

theorem setPort_kept {n : Nat} {x : Port} : Kept s (setPort s n x) := .of_core rfl

theorem sendControl_kept {n : Nat} {nak : Option Nat} : Kept s (sendControl s n nak) := by
  unfold sendControl
  exact emit_kept

theorem freeBuffer_kept {n k : Nat} : Kept s (freeBuffer s n k) := by
  unfold freeBuffer
  exact setPort_kept

theorem leaveBuffer_kept {n k : Nat} : Kept s (leaveBuffer s n k) :=
  .ite (.after sendControl_kept freeBuffer_kept) (.refl _)

theorem countIdle_kept {n : Nat} : Kept s (countIdle s n) := by
  unfold countIdle
  exact setPort_kept

theorem sendFlit_kept {n : Nat} {u : State} (h : sendFlit s n = some u) : Kept s u := by
  unfold sendFlit at h
  dsimp only at h
  split at h
  · cases h
  · split at h
    · cases h
    · split at h
      · cases h
      · cases h; exact .after leaveBuffer_kept (.after bump_kept (.after emit_kept setPort_kept))

theorem pump_kept {n fuel : Nat} : ∀ {s : State}, Kept s (pump n fuel s) := by
  induction fuel with
  | zero => exact .refl _
  | succ k ih =>
    intro s
    unfold pump
    split
    · next h => exact .after ih (sendFlit_kept h)
    · exact .refl _

theorem pumpPort_kept {n : Nat} : Kept s (pumpPort s n) := .after pump_kept countIdle_kept

theorem queueFlits_kept {n from_ : Nat} {fs : List Flit} : Kept s (queueFlits s n from_ fs) := by
  unfold queueFlits
  exact .after pumpPort_kept setPort_kept

theorem rerouteMsg_kept {n : Nat} {m : Nat × Nat × Nat} : Kept s (rerouteMsg n s m) := by
  unfold rerouteMsg
  extract_lets x mine fs s1
  split
  · extract_lets y s2
    have hs2 : Kept s s2 := .after setPort_kept setPort_kept
    exact .ite (.refl _) (.after pumpPort_kept (.core hs2))
  · exact .refl _

theorem reroute_kept : Kept s (reroute s) := .foldl (fun _ _ => .foldl (fun _ _ => rerouteMsg_kept) _ _) _ _

theorem linkDropped_kept : Kept s (linkDropped s) := raise_kept

theorem sendFlits_kept {node : Nat} {fs : List Flit} : Kept s (sendFlits s node fs).1 := by
  unfold sendFlits
  dsimp only
  split
  · exact .refl _
  · split
    · exact queueFlits_kept
    · exact .after linkDropped_kept bumpSat_kept

theorem sendBare_kept {node : Nat} {m : LinkMsg} : Kept s (sendBare s node m) := by
  unfold sendBare
  dsimp only
  split
  · exact .after emit_kept (.after sendFlits_kept .of_core)
  · exact .after sendFlits_kept .of_core

theorem launch_kept {p g tag node no : Nat} {m : LinkMsg} : Kept s (launch s p g tag node no m).1 := by
  unfold launch
  dsimp only
  split
  · exact sendFlits_kept
  · exact .after emit_kept (.ite (.after traceLink_kept sendFlits_kept) sendFlits_kept)

theorem sendIssued_kept {p : Nat} : Kept s (sendIssued s p) := by
  unfold sendIssued
  dsimp only
  refine .after (.foldl (fun a e => ?_) _ _) setHeld_kept
  split
  · exact launch_kept
  · exact .refl _

theorem sendMsg_kept {p g tag node : Nat} {m : LinkMsg} : Kept s (sendMsg s p g tag node m) := by
  unfold sendMsg
  exact .ite (.after chargeOnly_kept (.after launch_kept .of_core)) (.after launch_kept .of_core)

theorem sendBulk_kept {p n node : Nat} {m : LinkMsg} : Kept s (sendBulk s p n node m) :=
  .after sendIssued_kept (.after chargeHeld_kept .of_core)

theorem issueNow_kept {p k : Nat} : Kept s (issueNow s p k) := .after sendIssued_kept issueHeld_kept

theorem execRegulatorRefill_kept : KeptNext s (execRegulatorRefill s) := by
  unfold execRegulatorRefill
  exact .ite (.next (.refl _)) (.next (.core (.foldl (fun _ _ => .ite (.after sendIssued_kept (.foldl
    (fun _ _ => refillReg_kept) _ _)) (.refl _)) _ _)))

/-! Of `Machine/PowerOps.lean`. -/

theorem updatePred_kept : Kept s (updatePred s) := by
  unfold updatePred
  exact .after (.foldl (fun _ _ => setF_kept) _ _) (.after setF_kept (.after setF_kept .of_core))

theorem setPower_kept {p mw : Nat} : Kept s (setPower s p mw) := by
  unfold setPower
  exact .after updatePred_kept setLane_kept

theorem notePower_kept {trimmed : Bool} : Kept s (notePower s trimmed) := .of_core rfl

theorem powerEvent_kept {k : Nat} : Kept s (powerEvent s k) := .ite bumpSat_kept bumpSat_kept

theorem showPower_kept : Kept s (showPower s) := by
  unfold showPower
  exact .ite (.after setF_kept setF_kept) setF_kept

theorem thermModel_kept : Kept s (thermModel s).2 := by
  unfold thermModel
  dsimp only
  split
  · exact draw_kept
  · exact .refl _

theorem thermCap_kept : Kept s (thermCap s).2 := by
  unfold thermCap
  exact thermModel_kept

theorem setBounds_kept {prev up down : Nat} : Kept s (setBounds s prev up down) := by
  unfold setBounds
  exact .after updatePred_kept (.core (.after setF_kept (.after setF_kept (.after setF_kept thermCap_kept))))

theorem beginBattery_kept : Kept s (beginBattery s) := .after powerEvent_kept (.after raise_kept setF_kept)

theorem setVid_kept {code : Nat} : Kept s (setVid s code) := .after drive_kept setF_kept

/-! Of `Machine/StepOps.lean`. -/

theorem setGroup_kept {slot : Nat} {x : Option Group} : Kept s (setGroup s slot x) := .of_core rfl

theorem mapPeers_kept {slot : Nat} {f : Peer → Peer} : Kept s (mapPeers s slot f) := by
  unfold mapPeers
  split
  · exact setGroup_kept
  · exact .refl _

theorem setGroves_kept {p x : Nat} : Kept s (setGroves s p x) := .foldl (fun _ _ => setF_kept) _ _

theorem killClusters_kept {p : Nat} {f : Nat → Bool} : Kept s (killClusters s p f) := by
  unfold killClusters
  exact .core dropWaits_kept

theorem raiseAbandon_kept {p g : Nat} : Kept s (raiseAbandon s p g) := by
  unfold raiseAbandon
  exact .after setLane_kept (.after setGroves_kept killClusters_kept)

theorem stepRecord_kept {p : Nat} {st : Step} {ev : Nat} : Kept s (stepRecord s p st ev) := traceStep_kept

theorem freeStaged_kept {p : Nat} {plan : List PlanItem} : Kept s (freeStaged s p plan) := freeWhere_kept

theorem returnPeerPages_kept {st : Step} : Kept s (returnPeerPages s st) := by
  unfold returnPeerPages
  split
  · exact mapPeers_kept
  · exact .refl _

theorem clearCur_kept {s0 : State} {p : Nat} : Kept s0 (clearCur s0 p) := by
  unfold clearCur
  exact .after setLane_kept dropWaits_kept

theorem assayRecord_kept {p : Nat} {st : Step} {slot tensor : Nat} {ps : List AssayPiece} {q : List Nat}
    {abandoned : Bool} :
    Kept s (assayRecord s p st slot tensor ps q abandoned) := by
  unfold assayRecord
  exact traceRec_kept

theorem assaySlot_kept {p : Nat} {st : Step} {abandoned : Bool} {w : Nat × Nat} : Kept s (assaySlot p st abandoned s w) := by
  unfold assaySlot
  exact .ite (.refl _) (.ite .of_core (.ite (.ite (.after assayRecord_kept .of_core) .of_core) (.ite
    (.after raise_kept (.after setF_kept (.after (.foldl (fun _ _ => setF_kept) _ _) (.ite
    (.after assayRecord_kept .of_core) .of_core)))) (.after setF_kept (.after (.foldl (fun _ _ => setF_kept) _ _)
    (.ite (.after assayRecord_kept .of_core) .of_core))))))

theorem assayEnd_kept {p : Nat} {st : Step} {abandoned : Bool} : Kept s (assayEnd s p st abandoned) :=
  .foldl (fun _ _ => assaySlot_kept) _ _

theorem logAbandon_kept {p : Nat} {st : Step} {code : Nat} : Kept s (logAbandon s p st code) := by
  unfold logAbandon
  exact .after setF_kept (.after setF_kept (.after setF_kept (.after setF_kept (.after setF_kept
    (.after setF_kept bump_kept)))))

theorem abandonStep_kept {p : Nat} {st : Step} {code : Nat} : Kept s (abandonStep s p st code) := by
  unfold abandonStep
  dsimp only
  refine .after (.foldl (fun a e => ?_) _ _) ?_
  · split
    · exact .ite expireReq_kept (.refl _)
    · exact .refl _
  · refine .after assayEnd_kept (.after stepRecord_kept (.after returnPeerPages_kept (.after freeStaged_kept ?_)))
    split
    · exact .after setCtx_kept (.after raise_kept (.after bump_kept logAbandon_kept))
    · exact .after raise_kept (.after bump_kept logAbandon_kept)

theorem abandonGroup_kept {p : Nat} {st : Step} : Kept s (abandonGroup s p st) := by
  unfold abandonGroup
  dsimp only
  split
  · exact .refl _
  · exact .ite (.refl _) (.after setLane_kept (.foldl (fun _ _ => sendMsg_kept) _ _))

theorem discardStep_kept {p : Nat} {st : Step} : Kept s (discardStep s p st) :=
  .after returnPeerPages_kept freeStaged_kept

theorem dropSteps_kept {p : Nat} {f : Nat → Bool} : Kept s (dropSteps s p f) := by
  unfold dropSteps
  dsimp only
  split
  · exact .ite (.after clearCur_kept (.after raiseAbandon_kept (.after abandonGroup_kept (.after setLane_kept (.foldl
      (fun _ _ => discardStep_kept) _ _))))) (.after setLane_kept (.foldl (fun _ _ => discardStep_kept) _ _))
  · exact .ite (.after clearCur_kept (.after raiseAbandon_kept (.after setLane_kept (.foldl
      (fun _ _ => discardStep_kept) _ _)))) (.after setLane_kept (.foldl (fun _ _ => discardStep_kept) _ _))

/-! Of `Machine/Admission.lean`. -/

theorem setLevel_kept {t : Nat} {x : Int} : Kept s (setLevel s t x) := wr_kept

theorem rejectCohort_kept {co code : Nat} : Kept s (rejectCohort s co code) := by
  unfold rejectCohort
  split
  · exact .refl _
  · extract_lets s1 s2 s3 s4 s5
    have hs1 : Kept s s1 := .foldl (fun _ _ => endReq_kept) _ _
    have hs2 : Kept s s2 := .after setAdmQueue_kept (.after setCohort_kept hs1)
    have hs3 : Kept s s3 := .after showHold_kept (.after bump_kept hs2)
    have hs4 : Kept s s4 := .ite (.after raise_kept hs3) hs3
    have hs5 : Kept s s5 := .ite (.after raise_kept hs4) hs4
    exact .ite (.after raise_kept hs5) hs5

theorem takeMasks_kept {p : Nat} {rs : List (Nat × Req)} : ∀ {s : State}, Kept s (takeMasks p s rs).1 := by
  induction rs with
  | nil => exact .refl _
  | cons e rest ih =>
    intro s
    unfold takeMasks
    split
    · exact ih
    · split
      · exact .refl _
      · next h =>
        exact .after ih (.after useReservation_kept (.after charge_kept (.after chargeHeld_kept
          (.after chargeHeld_kept (.after setReq_kept (takePages_kept h))))))

theorem acceptCohort_kept {co : Nat} {c : Cohort} {slot : Nat} {k : Pkg} : Kept s (acceptCohort s co c slot k) := by
  unfold acceptCohort
  extract_lets t ms m w s1 s2 pages s3 s4 s5 s6 e
  have hs1 : Kept s s1 := .after bump_kept bump_kept
  have hs2 : Kept s s2 := .after bump_kept hs1
  have hs3 : Kept s s3 := .after bump_kept hs2
  have hs4 : Kept s s4 := .after setCohort_kept hs3
  have hs5 : Kept s s5 := .after setAdmQueue_kept hs4
  have hs6 : Kept s s6 := .after showHold_kept (.after bump_kept hs5)
  have he : Kept s e.1 := .after takeMasks_kept hs6
  exact .ite (.ite (.after admitCohort_kept he) he) (.after rejectCohort_kept (.after lower_kept he))

theorem evalHead_kept {t c : Nat} : Kept s (evalHead s t c).1 := by
  unfold evalHead
  dsimp only
  split
  · exact .refl _
  · split
    · exact .refl _
    · split
      · exact rejectCohort_kept
      · split
        · exact rejectCohort_kept
        · exact .after showHold_kept setCohort_kept
        · split
          · exact acceptCohort_kept
          · exact .refl _

theorem scanQueues_kept {ks : List Nat} : Kept s (scanQueues s ks).1 := by
  refine .foldl_fst (fun a k => ?_) ks (s, none)
  split
  · exact .refl _
  · exact evalHead_kept

theorem execAdmissionEvaluate_kept {t c : Nat} : KeptNext s (execAdmissionEvaluate t c s) := by
  unfold execAdmissionEvaluate
  exact .ite (.next (.refl _)) (.next (.core (t := (scanQueues s (scanPath s t c)).1) scanQueues_kept))

theorem recheckHeads_kept {ks : List Nat} : Kept s (recheckHeads s ks) := by
  unfold recheckHeads
  exact scanQueues_kept

theorem recheckDue_kept : Kept s (recheckDue s) := by
  unfold recheckDue
  exact .ite (.refl _) (.after recheckHeads_kept .of_core)

theorem refillLevels_kept : Kept s (refillLevels s) := .foldl (fun _ _ => setLevel_kept) _ _

theorem execBudgetRefill_kept : KeptNext s (execBudgetRefill s) := by
  unfold execBudgetRefill
  exact .ite (.next (.refl _)) (.next (.after recheckHeads_kept (.core (t := refillLevels s) refillLevels_kept)))

theorem execQueueDeadlineScan_kept : KeptNext s (execQueueDeadlineScan s) := by
  unfold execQueueDeadlineScan
  split
  · exact .next (.refl _)
  · refine .next ?_
    refine .foldl (fun a e => ?_) _ _
    split
    · exact .ite rejectCohort_kept (.refl _)
    · exact .refl _

theorem writeSampler_kept {i : Nat} : Kept s (writeSampler s i) := by
  unfold writeSampler
  dsimp only
  split
  · split
    · exact .after (.foldl (fun _ _ => storePart_kept) _ _) zeroPage_kept
    · exact .refl _
  · exact .refl _

theorem copySampler_kept {i : Nat} : Kept s (copySampler s i).1 := by
  unfold copySampler
  split
  · exact .refl _
  · split
    · exact .refl _
    · refine .foldl_fst (fun a q => ?_) _ (s, false)
      split
      · exact .refl _
      · exact sendMsg_kept

theorem execMaskCopyDone_kept {i : Nat} {mask ext : Option (List Byte)} : KeptNext s (execMaskCopyDone i mask ext s) := by
  unfold execMaskCopyDone
  dsimp only
  split
  · exact .next (.refl _)
  · split
    · split
      · exact .next (.refl _)
      · split
        · exact .next rejectCohort_kept
        · exact .ite (.next rejectCohort_kept) (.next (.ite (.after rejectCohort_kept (.after copySampler_kept
            (.after writeSampler_kept (.after bump_kept (.after setReq_kept chargeTenant_kept)))))
            (.after admitCopied_kept (.after copySampler_kept (.after writeSampler_kept (.after bump_kept
            (.after setReq_kept chargeTenant_kept)))))))
    · exact .next (.refl _)

theorem execDeadlineCheck_kept : KeptNext s (execDeadlineCheck s) := by
  unfold execDeadlineCheck
  split
  · exact .next (.refl _)
  · refine .next ?_
    refine .foldl (fun a e => ?_) _ _
    split
    · exact .ite expireOut_kept (.refl _)
    · exact .refl _

/-! Of `Machine/Compose.lean`. -/

theorem reservePlan_kept {c : Composing} {plan : List PlanItem} : Kept s (reservePlan s c plan) := by
  unfold reservePlan
  exact .getD (fun _ h => .after (takePages_kept h) (.getD (fun _ h => .after
    (takePages_kept h) useEntries_kept) useEntries_kept)) (.getD (fun _ h => .after
    (takePages_kept h) useEntries_kept) useEntries_kept)

theorem endCompose_kept {p : Nat} : Kept s (endCompose s p) := by
  unfold endCompose
  exact setLane_kept

theorem sendPlan_kept {p : Nat} {st : Step} : Kept s (sendPlan s p st) := by
  unfold sendPlan
  dsimp only
  split
  · exact .refl _
  · exact .after (.foldl (fun _ _ => sendMsg_kept) _ _) mapPeers_kept

theorem issueStep_kept {p : Nat} : Kept s (issueStep s p) := by
  unfold issueStep
  dsimp only
  split
  · exact .refl _
  · split
    · exact .refl _
    · split
      · exact .refl _
      · exact .after sendPlan_kept (.after stepRecord_kept (.after setPower_kept (.after bump_kept
          (.after setLane_kept setCtx_kept))))

theorem composeNow_kept {p : Nat} {c : Composing} : Kept s (composeNow s p c) := by
  unfold composeNow
  extract_lets g b s1 s2 _ s3 plan s4 s5 _ s5' _ s5'' _
  have hs1 : Kept s s1 := .ite raise_kept (.refl _)
  have hs2 : Kept s s2 := .ite (.after raise_kept hs1) hs1
  have hs3 : Kept s s3 := .after setLane_kept hs2
  have hs4 : Kept s s4 := .ite hs3 (.after notePower_kept (.after bumpSat_kept (.after raise_kept hs3)))
  have hs5 : Kept s s5 := .after endCompose_kept hs4
  have hs5' : Kept s s5' := .after bumpSat_kept (.after raise_kept hs4)
  have hs5'' : Kept s s5'' := .after endCompose_kept (.after reservePlan_kept hs4)
  exact .ite (.after setLane_kept hs5) (.ite (.after notePower_kept (.after setLane_kept hs5')) (.after issueStep_kept
    (.after setLane_kept hs5'')))

theorem execStepCompose_kept {p : Nat} : KeptNext s (execStepCompose p s) := by
  unfold execStepCompose
  split
  · exact .next (.refl _)
  · exact .ite (.next (.refl _)) (.ite (.next composeNow_kept) (.next endCompose_kept))

theorem retryCompose_kept {p : Nat} : Kept s (retryCompose s p) := by
  unfold retryCompose
  dsimp only
  split
  · exact .refl _
  · exact .ite (.after composeNow_kept setLane_kept) (.after endCompose_kept setLane_kept)

theorem execPowerWaitRetry_kept {p : Nat} : KeptNext s (execPowerWaitRetry p s) := by
  unfold execPowerWaitRetry
  split
  · exact .next (.refl _)
  · exact .ite (.next (.refl _)) (.next retryCompose_kept)

theorem retryWaits_kept {but : Option Nat} : Kept s (retryWaits s but) :=
  .foldl (fun _ _ => .ite (.refl _) retryCompose_kept) _ _

theorem notePassed_kept {p : Nat} {work : List Nat} {chosen : Option Nat} : Kept s (notePassed s p work chosen) := by
  unfold notePassed
  exact setLane_kept

theorem startRestore_kept {p : Nat} {z : Step} {rest : List Step} : Kept s (startRestore s p z rest) := by
  unfold startRestore
  exact .after setGroves_kept setLane_kept

theorem execHolderSelect_kept {p : Nat} : KeptNext s (execHolderSelect p s) := by
  unfold execHolderSelect
  dsimp only
  split
  · exact .next (.refl _)
  · split
    · exact .next notePassed_kept
    · exact .ite (.next (.after startRestore_kept notePassed_kept)) (.next (.refl _))
    · split
      · exact .ite (.next (.after startRestore_kept notePassed_kept)) (.next (.refl _))
      · split
        · exact .next (.refl _)
        · exact .next (.after setLane_kept notePassed_kept)

/-! Of `Machine/ModelOps.lean`. -/

theorem clearCtxRegs_kept {g : Nat} : Kept s (clearCtxRegs s g) := by
  unfold clearCtxRegs
  exact .foldl (fun _ _ => resetReg_kept) _ _

theorem resetEst_kept {g : Nat} : Kept s (resetEst s g) := .after setF_kept setF_kept

theorem createCtx_kept {g slotN : Nat} {first : Bool} {q : CtxParams} {mask saveBase units : Nat} :
    Kept s (createCtx s g slotN first q mask saveBase units) := by
  unfold createCtx
  exact .after bump_kept (.after resetEst_kept (.after setF_kept (.after setF_kept (.after setF_kept (.after setF_kept
    (.after setF_kept (.after setF_kept (.after setF_kept (.after setF_kept (.after setF_kept
    (.after setCtx_kept clearCtxRegs_kept)))))))))))

theorem freeDraftSlots_kept {i : Nat} : Kept s (freeDraftSlots s i) := by
  unfold freeDraftSlots
  dsimp only
  split
  · exact .after credit_kept setReq_kept
  · exact .refl _

theorem freeDraftPages_kept {p i : Nat} {r : Req} : Kept s (freeDraftPages s p i r) := by
  unfold freeDraftPages
  exact .ite (.after credit_kept freeWhere_kept) (.after freeDraftSlots_kept (.after credit_kept freeWhere_kept))

theorem endPair_kept {g : Nat} : Kept s (endPair s g) := by
  unfold endPair
  split
  · extract_lets p n s1 s2
    have hs1 : Kept s s1 := by
      refine .foldl (fun a e => .ite ?_ (.refl _)) _ _
      extract_lets a1
      split
      · exact .after setReq_kept freeDraftPages_kept
      · exact freeDraftPages_kept
    have hs2 : Kept s s2 := .after setF_kept (.after setCtx_kept hs1)
    clear_value s2
    split
    · exact hs2
    · exact .after setF_kept (.after setF_kept (.after setF_kept (.after setF_kept (.after setF_kept
        (.after setCtx_kept hs2)))))
  · exact .refl _

theorem discardPre_kept {g : Nat} : Kept s (discardPre s g) := by
  unfold discardPre
  exact .after setLane_kept (.foldl (fun _ _ => discardStep_kept) _ _)

theorem unpairCtx_kept {g : Nat} : Kept s (unpairCtx s g) := by
  unfold unpairCtx
  split
  · exact .after endPair_kept discardPre_kept
  · split
    · split
      · exact setCtx_kept
      · exact .refl _
    · exact endPair_kept

theorem rejectCopying_kept {n : Nat} : Kept s (rejectCopying s n) := by
  unfold rejectCopying
  dsimp only
  refine .foldl (fun a e => ?_) _ _
  split
  · exact .ite rejectCohort_kept (.refl _)
  · exact .refl _

theorem forgetOwner_kept {g : Nat} : Kept s (forgetOwner s g) := by
  unfold forgetOwner
  exact .foldl (fun _ _ => .ite setPage_kept (.refl _)) _ _

theorem evictSlot_kept {n : Nat} : Kept s (evictSlot s n) := by
  unfold evictSlot
  dsimp only
  refine .after setF_kept (.after (.foldl (fun _ _ => resetReg_kept) _ _) (.after setSlot_kept (.after (.foldl
    (fun _ _ => forgetOwner_kept) _ _) (.after freeWhere_kept (.after (.foldl (fun _ _ => .after clearCtxRegs_kept
    (.after setCtx_kept dropSteps_kept)) _ _) (.after dropWaits_kept (.after rejectCopying_kept ?_)))))))
  refine .foldl (fun a e => ?_) _ _
  split
  · exact endPair_kept
  · exact endPair_kept

theorem clearGroup_kept {n : Nat} : Kept s (clearGroup s n) :=
  .after (.foldl (fun _ _ => resetReg_kept) _ _) setGroup_kept

theorem evictModel_kept {n : Nat} : Kept s (evictModel s n) := .after raise_kept (.after clearGroup_kept evictSlot_kept)

theorem stopCtx_kept {g code : Nat} : Kept s (stopCtx s g code) :=
  .after (.foldl (fun _ _ => endReq_kept) _ _) dropSteps_kept

theorem recreateCtx_kept {g : Nat} : Kept s (recreateCtx s g) := by
  unfold recreateCtx
  split
  · exact .after resetEst_kept setCtx_kept
  · exact .refl _

theorem teardownCtx_kept {g code : Nat} : Kept s (teardownCtx s g code) := by
  unfold teardownCtx
  dsimp only
  split
  · exact .after recreateCtx_kept (.after recreateCtx_kept stopCtx_kept)
  · exact .after recreateCtx_kept stopCtx_kept

theorem loseGroup_kept {n code : Nat} {detected : Bool} : Kept s (loseGroup s n code detected) := by
  unfold loseGroup
  split
  · exact .refl _
  · extract_lets p c s1 s2 _ s2b s3 s4
    have hs1 : Kept s s1 := .foldl (fun _ _ => sendBare_kept) _ _
    have hs2 : Kept s s2 := .after (.foldl (fun _ _ => stopCtx_kept) _ _) hs1
    have hs2b : Kept s s2b := .after freeWhere_kept (.after setLane_kept hs2)
    have hs3 : Kept s s3 := .after raise_kept (.after evictSlot_kept (.after setGroup_kept hs2b))
    have hs4 : Kept s s4 := .after raise_kept (.after setF_kept hs3)
    exact .ite (.after recordFault_kept hs4) hs4

theorem evictWhole_kept {n code : Nat} : Kept s (evictWhole s n code) := by
  unfold evictWhole
  split
  · exact loseGroup_kept
  · split
    · exact .after evictModel_kept (.foldl (fun _ _ => sendBare_kept) _ _)
    · exact evictModel_kept

theorem forceEvict_kept {n : Nat} : Kept s (forceEvict s n) := by
  unfold forceEvict
  exact .ite (.after evictWhole_kept (.foldl (fun _ _ => .ite (.refl _) stopCtx_kept) _ _)) (.foldl (fun _ _ => .ite
    (.refl _) stopCtx_kept) _ _)

theorem afterLeave_kept {g : Nat} : Kept s (afterLeave s g) := by
  unfold afterLeave
  split
  · exact .refl _
  · extract_lets s1 dslot go
    have hs1 : Kept s s1 := .ite endPair_kept (.refl _)
    have hgo (a : State) (n : Nat) : Kept a (go a n) := by
      unfold go
      split
      · exact .ite forceEvict_kept (.refl _)
      · exact .refl _
    clear_value dslot
    split
    · exact .after (hgo ..) (.after (hgo ..) hs1)
    · exact .after (hgo ..) hs1

/-! Of `Machine/LayoutOps.lean`. -/

theorem setBit_kept {f : Fld} {b : Nat} {v : Bool} : Kept s (setBit s f b v) := by
  unfold setBit
  exact setF_kept

theorem holdOpen_kept {t : Nat} : Kept s (holdOpen s t) := by
  unfold holdOpen
  dsimp only
  split
  · exact .refl _
  · exact .after setF_kept setTenant_kept

theorem restoreOpen_kept {t : Nat} : Kept s (restoreOpen s t) := by
  unfold restoreOpen
  dsimp only
  split
  · exact .after setF_kept setTenant_kept
  · exact .refl _

theorem resumeOpen_kept {p : Nat} : Kept s (resumeOpen s p) := .foldl (fun _ _ => restoreOpen_kept) _ _

theorem unbindTenant_kept {t : Nat} : Kept s (unbindTenant s t) := by
  unfold unbindTenant
  dsimp only
  refine .after setF_kept (.after setF_kept (.after setF_kept ?_))
  split
  · exact setBit_kept
  · exact .refl _

theorem bindTenant_kept {t p bgroup : Nat} : Kept s (bindTenant s t p bgroup) := by
  unfold bindTenant
  exact .after setBit_kept (.after setF_kept (.after setF_kept (.after setF_kept unbindTenant_kept)))

theorem showGrove_kept {g : Nat} : Kept s (showGrove s g) := by
  unfold showGrove
  exact .after setF_kept setF_kept

theorem retireCluster_kept {g l : Nat} : Kept s (retireCluster s g l) := by
  unfold retireCluster
  exact .after showGrove_kept (.after setF_kept setF_kept)

theorem loadMap_kept {g : Nat} {b : List Byte} : Kept s (loadMap s g b) := by
  unfold loadMap
  exact .after showGrove_kept (.after (.foldl (fun _ _ => setF_kept) _ _) (.foldl (fun _ _ => setF_kept) _ _))

theorem resetGrove_kept {g : Nat} : Kept s (resetGrove s g) := by
  unfold resetGrove
  exact .after setF_kept resetRegs_kept

theorem ownGrove_kept {g : Nat} {p : Option Nat} : Kept s (ownGrove s g p) := by
  unfold ownGrove
  exact .after setBit_kept (.after setF_kept setF_kept)

theorem zeroPart_kept {p : Nat} : Kept s (zeroPart s p) := zeroWhere_kept

theorem layoutPart_kept {p trace save : Nat} : Kept s (layoutPart s p trace save) := by
  unfold layoutPart
  extract_lets _ s1 s2 s3
  have hs1 : Kept s s1 := setPart_kept
  have hs2 : Kept s s2 := .after setF_kept (.after setF_kept (.after setF_kept hs1))
  have hs3 : Kept s s3 := .core hs2
  refine .after (.foldl (fun a e => ?_) _ _) hs3
  split
  · exact .ite setPage_kept (.ite setTrace_kept (.refl _))
  · exact .refl _

theorem stopTrace_kept {p : Nat} : Kept s (stopTrace s p) := .after setF_kept setTrace_kept

theorem makePart_kept {p first n trace save : Nat} {full : Bool} : Kept s (makePart s p first n trace save full) := by
  unfold makePart
  exact .after layoutPart_kept (.after stopTrace_kept (.after clearL2_kept (.after zeroPart_kept (.after setF_kept
    (.after setF_kept (.after (.foldl (fun _ _ => ownGrove_kept) _ _) (.after setF_kept
    (.after setF_kept setF_kept))))))))

theorem clearLane_kept {p : Nat} : Kept s (clearLane s p) := by
  unfold clearLane
  exact .after (.foldl (fun _ _ => .ite wr_kept (.refl _)) _ _) (.after setLane_kept resetRegs_kept)

theorem resetRegulators_kept {p : Nat} {all : Bool} : Kept s (resetRegulators s p all) := by
  unfold resetRegulators
  exact .core resetRegs_kept

theorem failLoad_kept {n code : Nat} : Kept s (failLoad s n code) := .after raise_kept setF_kept

theorem evictAll_kept {p : Nat} : Kept s (evictAll s p) := by
  unfold evictAll
  exact .foldl (fun _ _ => .ite (.after failLoad_kept evictWhole_kept) evictWhole_kept) _ _

theorem clearClusters_kept {f : Nat → Bool} : Kept s (clearClusters s f) := .of_core rfl

theorem failOwed_kept {p i : Nat} : Kept s (failOwed p s i) := by
  unfold failOwed
  dsimp only
  split
  · exact .refl _
  · split
    · exact .after setPart_kept (.after setCq_kept (.after endReq_kept setReq_kept))
    · exact .after endReq_kept setReq_kept

theorem startPartReset_kept {p : Nat} : Kept s (startPartReset s p) := by
  unfold startPartReset
  split
  · exact .refl _
  · extract_lets _ s1 s2 s3 s4 s5 s6 s7 s8 s9
    have hs1 : Kept s s1 := .after setF_kept setPart_kept
    have hs2 : Kept s s2 := .after setBit_kept hs1
    have hs3 : Kept s s3 := .after (.foldl (fun _ _ => holdOpen_kept) _ _) hs2
    have hs4 : Kept s s4 := .after dropSteps_kept hs3
    have hs5 : Kept s s5 := .after endCopiesOf_kept (.after (.foldl (fun _ _ => failOwed_kept) _ _) hs4)
    have hs6 : Kept s s6 := .after clearLane_kept (.after evictAll_kept hs5)
    have hs7 : Kept s s7 := .after (.foldl (fun _ _ => resetGrove_kept) _ _) hs6
    have hs8 : Kept s s8 := .after resetRegulators_kept hs7
    have hs9 : Kept s s9 := .after clearClusters_kept (.after clearL2_kept hs8)
    exact .after layoutPart_kept (.after stopTrace_kept (.after zeroPart_kept hs9))

/-! Of `Machine/Mailbox.lean`. -/

theorem answer_kept {c : MbxCmd} {result : Nat} {resp : List Byte} : Kept s (answer s c result resp) := by
  unfold answer
  exact .ite (.after emit_kept .of_core) (.after raise_kept (.after setF_kept (.after (.foldl
    (fun _ _ => setF_kept) _ _) (.after setF_kept (.after setF_kept .of_core)))))

theorem settleFor_kept {n : Nat} : ∀ {s : State}, Kept s (settleFor n s) := by
  induction n with
  | zero => exact .refl _
  | succ k ih =>
    intro s
    unfold settleFor
    split
    · exact .refl _
    · split
      · exact .refl _
      · exact .after ih answer_kept

theorem settle_kept : Kept s (settle s) := settleFor_kept

theorem fallReady_kept : Kept s (fallReady s) := .ite setF_kept (.refl _)

theorem respond_kept {c : MbxCmd} {result : Nat} {resp : List Byte} : Kept s (respond s c result resp) :=
  .after fallReady_kept (.after settle_kept answer_kept)

theorem markStarted_kept {c : MbxCmd} : Kept s (markStarted s c) := .of_core rfl

theorem runCmd_kept {op : Nat} {ok : List Byte → Bool} {f : MbxCmd → State} (h : ∀ a, Kept s (f a)) :
    KeptNext s (runCmd s op ok f) := by
  unfold runCmd
  split
  · exact .next (h _)
  · exact .next (.refl _)

theorem execMailboxGo_kept : KeptNext s (execMailboxGo s) := by
  unfold execMailboxGo
  exact reach_kept (fun _ => .ite (.next raise_kept) (.ite (.next raise_kept) (.ite (.next raise_kept) (.next
    (.after settle_kept (.after setF_kept .of_core))))))

theorem execSmbusMctpRequest_kept {op tag len : Nat} {payload : List Byte} :
    KeptNext s (execSmbusMctpRequest op tag len payload s) :=
  .ite (.next (.refl _)) (.ite (.next emit_kept) (.ite (.next emit_kept) (.next (.after settle_kept .of_core))))

theorem execSmbusSclTimeout_kept : KeptNext s (execSmbusSclTimeout s) := by
  unfold execSmbusSclTimeout
  exact .next (.refl _)

/-! Of `Machine/Ports.lean`. -/

theorem loseUnrouted_kept : Kept s (loseUnrouted s) := by
  unfold loseUnrouted
  refine .foldl (fun a e => ?_) _ _
  split
  · exact .ite loseGroup_kept (.refl _)
  · exact .refl _

theorem portSettled_kept {n code : Nat} : Kept s (portSettled s n code) := by
  unfold portSettled
  split
  · exact respond_kept
  · exact .refl _

theorem stopPort_kept {n : Nat} : Kept s (stopPort s n) := by
  unfold stopPort
  exact .after (.foldl (fun _ _ => .ite (.refl _) (.after bumpSat_kept setPort_kept)) _ _) (.after (.foldl
    (fun _ _ => leaveBuffer_kept) _ _) (.after setF_kept (.after setF_kept (.after bumpSat_kept setPort_kept))))

theorem portDown_kept {n : Nat} {silent : Bool} {code : Nat} : Kept s (portDown s n silent code) := by
  unfold portDown
  exact .after portSettled_kept (.after loseUnrouted_kept (.ite stopPort_kept (.after setCause_kept
    (.after raise_kept stopPort_kept))))

theorem resendFrom_kept {n : Nat} {fs : List (Nat × Flit)} : Kept s (resendFrom s n fs) :=
  .foldl (fun _ _ => .after bump_kept emit_kept) _ _

theorem portActive_kept {n : Nat} : Kept s (portActive s n) := by
  unfold portActive
  exact .after portSettled_kept (.after reroute_kept (.after pumpPort_kept (.after resendFrom_kept
    (.after setF_kept setPort_kept))))

theorem enterStage_kept {n st : Nat} : Kept s (enterStage s n st) := by
  unfold enterStage
  exact .after setF_kept setPort_kept

theorem startTrain_kept {n : Nat} : Kept s (startTrain s n) := by
  unfold startTrain
  exact .ite (.refl _) (.after enterStage_kept (.after setF_kept setPort_kept))

theorem alignDone_kept {n aligned : Nat} : Kept s (alignDone s n aligned) := by
  unfold alignDone
  dsimp only
  split
  · exact .after emit_kept (.after enterStage_kept (.after setPort_kept setF_kept))
  · split
    · exact .after emit_kept (.after enterStage_kept (.after setPort_kept setF_kept))
    · exact portDown_kept

theorem degradeAligned_kept {n aligned : Nat} : Kept s (degradeAligned s n aligned) := by
  unfold degradeAligned
  dsimp only
  split
  · exact portDown_kept
  · exact .after emit_kept (.after setPort_kept setF_kept)

theorem execLinkTrainStageDone_kept {n margins aligned : Nat} : KeptNext s (execLinkTrainStageDone n margins aligned s) := by
  unfold execLinkTrainStageDone
  exact .ite (.next enterStage_kept) (.ite (.next (.after enterStage_kept setF_kept)) (.ite (.next alignDone_kept)
    (.ite (.next portActive_kept) (.ite (.next degradeAligned_kept) (.next (.refl _))))))

theorem execLinkTrainTimeout_kept {n aligned : Nat} : KeptNext s (execLinkTrainTimeout n aligned s) := by
  unfold execLinkTrainTimeout
  exact .ite (.next (.refl _)) (.ite (.next portDown_kept) (.ite (.next enterStage_kept) (.ite (.next alignDone_kept)
    (.next portDown_kept))))

theorem execTrainExch_kept {n node port _width _stepping : Nat} :
    KeptNext s (execTrainExch n node port _width _stepping s) := by
  unfold execTrainExch
  exact .ite (.next (.refl _)) (.ite (.next (.after portDown_kept (.after raise_kept (.after setF_kept setF_kept))))
    (.next (.after setF_kept (.after setF_kept setF_kept))))

theorem degradeExchanged_kept {n : Nat} : Kept s (degradeExchanged s n) := .ite portActive_kept (.refl _)

theorem execLinkDegradeDone_kept {n aligned : Nat} : KeptNext s (execLinkDegradeDone n aligned s) :=
  .ite (.next (.refl _)) (.ite (.next degradeExchanged_kept) (.next (.after degradeExchanged_kept degradeAligned_kept)))

theorem execRetrainPort_kept : KeptNext s (execRetrainPort s) := by
  unfold execRetrainPort
  dsimp only
  split
  · exact .next (.refl _)
  · exact .ite (.next (.refl _)) (.ite (.next respond_kept) (.ite (.next respond_kept) (.next
      (.after startTrain_kept markStarted_kept))))

theorem flitFault_kept {n : Nat} {lasting : Bool} : Kept s (flitFault s n lasting) := recordFault_kept

theorem badFlit_kept {n lseq : Nat} : Kept s (badFlit s n lseq) := by
  unfold badFlit
  exact .ite (.ite (.after portDown_kept (.after flitFault_kept bumpSat_kept)) (.after raise_kept
    (.after enterStage_kept (.after setF_kept (.after setPort_kept (.after flitFault_kept bumpSat_kept))))))
    (.after sendControl_kept setPort_kept)

theorem forwardFlit_kept {n : Nat} {f : Flit} : Kept s (forwardFlit s n f) := by
  unfold forwardFlit
  dsimp only
  split
  · exact .after leaveBuffer_kept linkDropped_kept
  · split
    · exact .after leaveBuffer_kept (.after linkDropped_kept bumpSat_kept)
    · split
      · exact .ite (.after leaveBuffer_kept (.after bumpSat_kept .of_core)) (.after queueFlits_kept .of_core)
      · exact .after leaveBuffer_kept (.ite (.after linkDropped_kept (.after bumpSat_kept .of_core)) .of_core)

theorem takeFlit_kept {f : Flit} : Kept s (takeFlit s f) := by
  unfold takeFlit
  exact .ite .of_core (.ite .of_core (.refl _))

theorem acceptFlit_kept {n : Nat} {f : Flit} : Kept s (acceptFlit s n f) :=
  .ite
    (.after leaveBuffer_kept linkDropped_kept)
    (.ite (.after leaveBuffer_kept linkDropped_kept) (.ite forwardFlit_kept (.after leaveBuffer_kept takeFlit_kept)))

theorem execDataFlitReceive_kept {n : Nat} {bytes : List Byte} : KeptNext s (execDataFlitReceive n bytes s) := by
  unfold execDataFlitReceive
  dsimp only
  split
  · exact .next (.refl _)
  · split
    · exact .next badFlit_kept
    · exact .ite (.next (.refl _)) (.next (.after acceptFlit_kept (.after sendControl_kept (.after bump_kept
        (.after setPort_kept (.ite (.after flitFault_kept bumpSat_kept) (.refl _)))))))

theorem execControlFlitReceive_kept {n : Nat} {crcOk : Bool} {ack nak : Option Nat} {credits : List Nat} :
    KeptNext s (execControlFlitReceive n crcOk ack nak credits s) := by
  unfold execControlFlitReceive
  dsimp only
  split
  · exact .next (.refl _)
  · split
    · exact .next bumpSat_kept
    · refine .next (.after pumpPort_kept ?_)
      split
      · exact .after resendFrom_kept setPort_kept
      · exact setPort_kept

theorem timeoutMsg_kept {src msg : Nat} {u : State × Nat} (h : timeoutMsg s src msg = some u) : Kept s u.1 := by
  unfold timeoutMsg at h
  split at h
  · split at h
    · cases h
    · cases h; exact .after linkDropped_kept (.after bumpSat_kept .of_core)
  · cases h

/-! Of `Machine/Faults.lean`. -/

theorem spoilSlot_kept : Kept s (spoilSlot s) := by
  unfold spoilSlot
  split
  · exact .refl _
  · split
    · exact .refl _
    · extract_lets e d _
      have hd : Kept s d.2 := .after draw_kept (.foldl (fun _ _ => garbleFlash_kept) _ _)
      have h_ : Kept s _ := hd
      exact .core h_

theorem endUpdate_kept : Kept s (endUpdate s) := .after setF_kept .of_core

theorem closeUpdate_kept : Kept s (closeUpdate s) := .after endUpdate_kept spoilSlot_kept

theorem abortCmd_kept : Kept s (abortCmd s) := by
  unfold abortCmd
  split
  · exact respond_kept
  · exact .refl _

theorem leaveGroups_kept : Kept s (leaveGroups s) := by
  unfold leaveGroups
  refine .foldl (fun a e => ?_) _ _
  split
  · exact .foldl (fun _ _ => sendBare_kept) _ _
  · exact .refl _

theorem stopChip_kept {id : Nat} : Kept s (stopChip s id) := by
  unfold stopChip
  exact .ite (.refl _) (.after abortCmd_kept (.after closeUpdate_kept (.after updatePred_kept (.core
    (.after setCause_kept (.after setF_kept (.after (.foldl (fun _ _ => dropSteps_kept) _ _) leaveGroups_kept)))))))

theorem chipFault_kept {id part ctx detail : Nat} {lasting promoted : Bool} :
    Kept s (chipFault s id part ctx detail lasting promoted) :=
  .after stopChip_kept recordFault_kept

theorem partFault_kept {id p ctx detail : Nat} : Kept s (partFault s id p ctx detail) := by
  unfold partFault
  exact .ite chipFault_kept (.ite (.after startPartReset_kept (.after setCause_kept recordFault_kept))
    (.after setCause_kept recordFault_kept))

theorem groveFault_kept {id g detail : Nat} {other : State → State} (h : ∀ a, Kept a (other a)) :
    Kept s (groveFault s id g detail other) := by
  unfold groveFault
  split
  · exact partFault_kept
  · exact h _

theorem tearCtx_kept {t : Nat} : Kept s (tearCtx s t) := .after afterLeave_kept teardownCtx_kept

theorem tearFaulted_kept {g : Nat} : Kept s (tearFaulted s g) := by
  unfold tearFaulted
  dsimp only
  split
  · exact .refl _
  · split
    · exact .refl _
    · exact .ite loseGroup_kept tearCtx_kept

theorem contextFault_kept {id g detail : Nat} {lasting : Bool} : Kept s (contextFault s id g detail lasting) := by
  unfold contextFault
  exact .after tearFaulted_kept recordFault_kept

theorem listRetired_kept {x : Nat} : Kept s (listRetired s x) := by
  unfold listRetired
  exact .ite (.after raise_kept (.core (t := raise s Reg.MEM_EVT_STATUS_PAGE_RETIRED) raise_kept)) (.core
    (t := raise s Reg.MEM_EVT_STATUS_PAGE_RETIRED) raise_kept)

theorem retirePage_kept {p i : Nat} : Kept s (retirePage s p i) := by
  unfold retirePage
  dsimp only
  split
  · exact reusePage_kept
  · split
    · exact .after credit_kept reusePage_kept
    · exact .after credit_kept reusePage_kept
    · exact .ite (.after credit_kept (.after setReq_kept reusePage_kept)) reusePage_kept
    · exact reusePage_kept

theorem abandonCopies_kept {u : PageUse} : Kept s (abandonCopies s u) := by
  unfold abandonCopies
  split
  · split
    · exact .ite (.after endCopies_kept dropWaits_kept) (.refl _)
    · exact .refl _
  · exact .refl _

theorem arenaFault_kept {p i x : Nat} : Kept s (arenaFault s p i x) := by
  unfold arenaFault
  dsimp only
  split
  · exact recordFault_kept
  · exact .after recordFault_kept (.after retirePage_kept listRetired_kept)
  · exact .ite (.after evictWhole_kept (.after (.foldl (fun _ _ => stopCtx_kept) _ _) (.after (.foldl
      (fun _ _ => recordFault_kept) _ _) (.after retirePage_kept listRetired_kept)))) (.after (.foldl
      (fun _ _ => recordFault_kept) _ _) (.after retirePage_kept listRetired_kept))
  · split
    · exact .after abandonCopies_kept (.after contextFault_kept (.after retirePage_kept listRetired_kept))
    · exact .after recordFault_kept (.after retirePage_kept listRetired_kept)

theorem lastingRead_kept {x : Nat} : Kept s (lastingRead s x) := by
  unfold lastingRead
  dsimp only
  split
  · exact .after chipFault_kept (.after setF_kept raise_kept)
  · split
    · exact .after recordFault_kept (.after listRetired_kept (.after setF_kept raise_kept))
    · split
      · exact .after setF_kept raise_kept
      · split
        · exact .after recordFault_kept (.after raise_kept (.after setTrace_kept (.after listRetired_kept
            (.after setF_kept raise_kept))))
        · split
          · split
            · exact .after contextFault_kept (.after listRetired_kept (.after setF_kept raise_kept))
            · exact .after recordFault_kept (.after listRetired_kept (.after setF_kept raise_kept))
          · exact .after arenaFault_kept (.after setF_kept raise_kept)

theorem dramRead_kept {x : Nat} {e : EccRead} : Kept s (dramRead s x e) := by
  unfold dramRead
  exact .ite (.refl _) (.ite (.after recordFault_kept (.after bumpSat_kept setEcc_kept)) (.ite
    (.after recordFault_kept (.after raise_kept (.after bumpSat_kept setEcc_kept)))
    (.after lastingRead_kept setEcc_kept)))

theorem readWords_kept {x n : Nat} : Kept s (readWords s x n) := .ite (.refl _) (.foldl (fun _ _ => dramRead_kept) _ _)

theorem nextPass_kept : Kept s (nextPass s) := .ite .of_core (.refl _)

theorem scrubWord_kept {w : Nat} {e : EccRead} : Kept s (scrubWord s w e) := by
  unfold scrubWord
  exact .ite nextPass_kept (.ite (.after setEcc_kept (.after dramRead_kept (.core (t := nextPass s) nextPass_kept)))
    (.after dramRead_kept (.core (t := nextPass s) nextPass_kept)))

theorem watchdogFires_kept : Kept s (watchdogFires s) := by
  unfold watchdogFires
  exact .ite (.refl _) (.ite (.after recordFault_kept (.after setCause_kept (.after setF_kept setF_kept)))
    (.after setF_kept (.core (t := setF s Reg.MGT_MBX_STATUS_READY 0) setF_kept)))

theorem execWatchdogKick_kept : KeptNext s (execWatchdogKick s) := by
  unfold execWatchdogKick
  exact .ite (.next .of_core) (.next (.refl _))

theorem execWatchdogExpiry_kept : KeptNext s (execWatchdogExpiry s) := .ite (.next (.refl _)) (.next watchdogFires_kept)

theorem corrected_kept : Kept s (corrected s) := recordFault_kept

theorem lineFault_kept {g set way : Nat} : Kept s (lineFault s g set way) := by
  unfold lineFault
  split
  · exact .refl _
  · exact .ite (groveFault_kept (fun _ => chipFault_kept)) (.after recordFault_kept countGrove_kept)

theorem loseAssay_kept {p k : Nat} : Kept s (loseAssay s p k) := by
  unfold loseAssay
  dsimp only
  split
  · exact .ite (.after raise_kept (.after bump_kept setLane_kept)) (.refl _)
  · exact .refl _

theorem collect_kept {a : FaultSrc} : Kept s (collect s a) := by
  unfold collect
  dsimp only
  split
  · exact .after corrected_kept (.after raise_kept bumpSat_kept)
  · split
    · exact .after contextFault_kept raise_kept
    · exact .after recordFault_kept raise_kept
  · exact .after contextFault_kept raise_kept
  · exact dramRead_kept
  · exact groveFault_kept (fun _ => chipFault_kept)
  · exact corrected_kept
  · exact .ite (groveFault_kept (fun _ => recordFault_kept)) (.ite (groveFault_kept (fun _ => recordFault_kept)) (.ite
      (.after portDown_kept recordFault_kept) (.ite (.after watchdogFires_kept recordFault_kept) chipFault_kept)))
  · exact partFault_kept
  · exact corrected_kept
  · exact partFault_kept
  · exact corrected_kept
  · exact .after chipFault_kept (.ite raise_kept (.refl _))
  · exact .after corrected_kept raise_kept
  · exact chipFault_kept
  · exact lineFault_kept
  · exact .ite (.after watchdogFires_kept (.core (t := recordFault
      (raise s Reg.CFG_EVT_STATUS_STORE_ECC) 32 1 false false nobody nobody 0) (.after recordFault_kept raise_kept)))
      (.core (t := recordFault (raise s Reg.CFG_EVT_STATUS_STORE_ECC) 32 1 false false nobody nobody 0)
      (.after recordFault_kept raise_kept))
  · exact dropTrace_kept
  · exact loseAssay_kept
  · exact corrected_kept
  · exact .after chipFault_kept draw_kept

theorem execFaultReport_kept {src : FaultSrc} : KeptNext s (execFaultReport src s) :=
  .ite (.next (.refl _)) (.next collect_kept)

theorem execPllLossOfLock_kept {b : Nat} : KeptNext s (execPllLossOfLock b s) := by
  unfold execPllLossOfLock
  exact .ite (.next (.refl _)) (.ite (.next (.after watchdogFires_kept (.after recordFault_kept setBit_kept))) (.next
    (.after chipFault_kept setBit_kept)))

theorem faultnWrite_kept {v mask : BitVec 64} : Kept s (faultnWrite s v mask) := by
  unfold faultnWrite
  exact .ite (.after raise_kept (withFaultn_kept (fun _ => .foldl (fun _ _ => .ite setF_kept (.refl _)) _ _)))
    (withFaultn_kept (fun _ => .foldl (fun _ _ => .ite setF_kept (.refl _)) _ _))

theorem execFaultnClear_kept {v : W32} : KeptNext s (execFaultnClear v s) := reach_kept (fun _ => .next faultnWrite_kept)

theorem drainFaults_kept : Kept s (drainFaults s) := by
  unfold drainFaults
  exact .ite (.refl _) (.after setF_kept .of_core)

theorem execReadFaultLog_kept : KeptNext s (execReadFaultLog s) := by
  unfold execReadFaultLog
  exact runCmd_kept (fun _ => .after respond_kept drainFaults_kept)

theorem execClearFaultLog_kept : KeptNext s (execClearFaultLog s) := by
  unfold execClearFaultLog
  exact runCmd_kept (fun _ => .after respond_kept (.core (t := drainFaults s) drainFaults_kept))

theorem execTeardownContext_kept : KeptNext s (execTeardownContext s) := by
  unfold execTeardownContext
  exact runCmd_kept (fun _ => .ite respond_kept (.ite respond_kept (.ite respond_kept
    (.after respond_kept tearCtx_kept))))

theorem execResetPartition_kept : KeptNext s (execResetPartition s) := by
  unfold execResetPartition
  dsimp only
  split
  · exact .next (.refl _)
  · exact .ite (.next (.refl _)) (.ite (.next respond_kept) (.ite (.next respond_kept) (.next
      (.after startPartReset_kept markStarted_kept))))

theorem execPartitionResetComplete_kept {p : Nat} : KeptNext s (execPartitionResetComplete p s) := by
  unfold execPartitionResetComplete
  split
  · exact .next (.refl _)
  · extract_lets x s1 st s2 s3
    have hs1 : Kept s s1 := .after (.foldl (fun _ _ => queueRec_kept) _ _) setPart_kept
    have hs2 : Kept s s2 := .after setBit_kept (.after setF_kept hs1)
    have hs3 : Kept s s3 := .ite (.after resumeOpen_kept hs2) hs2
    split
    · exact .next (.after respond_kept hs3)
    · exact .next hs3

theorem silenceReq_kept {i : Nat} : Kept s (silenceReq s i) := by
  unfold silenceReq
  dsimp only
  split
  · exact .refl _
  · exact .after freeWhere_kept (.after endReq_kept setReq_kept)

theorem tenantReset_kept {t : Nat} : Kept s (tenantReset s t) := by
  unfold tenantReset
  extract_lets s1 s2 _ s3 s4 s5 s6
  have hs1 : Kept s s1 := .after endCopiesOf_kept (.foldl (fun _ _ => silenceReq_kept) _ _)
  have hs2 : Kept s s2 := .after (.foldl (fun _ _ => .ite freeEntryOf_kept (.refl _)) _ _) hs1
  have hs3 : Kept s s3 := .core hs2
  have hs4 : Kept s s4 := .after resetRegs_kept (.after setDedup_kept hs3)
  have hs5 : Kept s s5 := .after (.foldl (fun _ _ => resetReg_kept) _ _) hs4
  have hs6 : Kept s s6 := .after (.foldl (fun _ _ => resetReg_kept) _ _) hs5
  exact .core hs6

theorem execResetTenant_kept : KeptNext s (execResetTenant s) := by
  unfold execResetTenant
  exact runCmd_kept (fun _ => .ite respond_kept (.ite respond_kept (.after respond_kept tenantReset_kept)))

/-! Of `Machine/Nvm.lean`. -/

theorem showSet_kept : Kept s (showSet s) := by
  unfold showSet
  dsimp only
  split
  · exact .after setF_kept (.after setF_kept (.after setF_kept setF_kept))
  · exact .after setF_kept (.after setF_kept (.after setF_kept setF_kept))

theorem storeDue_kept : Kept s (storeDue s) := .of_core rfl

theorem eraseSector_kept {k : Nat} : Kept s (eraseSector s k) := by
  unfold eraseSector
  exact .of_core

theorem eraseBank_kept {b used : Nat} : Kept s (eraseBank s b used) := by
  unfold eraseBank
  exact .after bump_kept (.core (.core (.foldl (fun _ _ => eraseSector_kept) _ _)))

theorem storeCore_kept {auto ok : Bool} : Kept s (storeCore s auto ok).1 := by
  unfold storeCore
  dsimp only
  split
  · split
    · exact .refl _
    · split
      · exact .after raise_kept (.core eraseBank_kept)
      · exact .after raise_kept (.after showSet_kept (.after setF_kept (.after setF_kept (.core eraseBank_kept))))
  · split
    · exact .refl _
    · split
      · exact .after raise_kept (.core eraseBank_kept)
      · exact .after raise_kept (.after showSet_kept (.after setF_kept (.after setF_kept (.core eraseBank_kept))))

theorem makeIntents_kept : Kept s (makeIntents s) := .ite storeCore_kept (.refl _)

theorem eraseOther_kept {ks : List Nat} : Kept s (eraseOther s ks) :=
  .foldl (fun _ _ => .after eraseSector_kept makeIntents_kept) _ _

theorem snapshot_kept : Kept s (snapshot s) := by
  unfold snapshot
  extract_lets _ l _ s1 first blank s2 _ s2' _ _
  have hs1 : Kept s s1 := .of_core
  have hs2 : Kept s s2 := .after eraseOther_kept hs1
  have hs2' : Kept s s2' := .after eraseOther_kept hs1
  exact .ite (.core hs2) (.ite (.ite (.core hs2') (.core hs1)) (.core hs1))

theorem store_kept {auto ok : Bool} : Kept s (store s auto ok).1 := by
  unfold store
  exact .after storeCore_kept snapshot_kept

theorem showOwner_kept : Kept s (showOwner s) := by
  unfold showOwner
  dsimp only
  split
  · exact .ite (.after setF_kept (.after setF_kept setF_kept)) (.after setF_kept setF_kept)
  · exact .ite (.after setF_kept (.after raise_kept (.after raise_kept (.after setF_kept setF_kept))))
      (.after raise_kept (.after raise_kept (.after setF_kept setF_kept)))

theorem writeOwner_kept {c : OwnerCopy} : Kept s (writeOwner s c) := by
  unfold writeOwner
  exact .after setF_kept (.after setF_kept (.after showOwner_kept (.ite .of_core (.ite (.core
    (t := eraseOther s [49]) eraseOther_kept) (.ite .of_core (.core (t := eraseOther s [48]) eraseOther_kept))))))

theorem raiseArb_kept {v : Nat} : Kept s (raiseArb s v) := by
  unfold raiseArb
  exact .ite writeOwner_kept (.refl _)

theorem storeMap_kept : Kept s (storeMap s) := by
  unfold storeMap
  exact .ite .of_core (.ite (.core (t := eraseOther s (halfSectors 60 2)) eraseOther_kept) (.ite .of_core (.core
    (t := eraseOther s (halfSectors 58 2)) eraseOther_kept)))

theorem repairSectors_kept : Kept s (repairSectors s) := by
  unfold repairSectors
  exact .ite (.foldl (fun _ _ => .after eraseSector_kept .of_core) _ _) (.after raise_kept (.foldl
    (fun _ _ => .after eraseSector_kept .of_core) _ _))

theorem showTrial_kept : Kept s (showTrial s) := by
  unfold showTrial
  exact .after setF_kept (.after setF_kept setF_kept)

theorem putSlotSt_kept {x : SlotSt} : Kept s (putSlotSt s x) := by
  unfold putSlotSt
  exact .after showTrial_kept (.after storeDue_kept .of_core)

theorem migrate_kept {conv : List SetRec} {from_ rel : Nat} : Kept s (migrate s conv from_ rel) := by
  unfold migrate
  exact .ite (.refl _) (.after showSet_kept (.after storeDue_kept .of_core))

/-! Of `Machine/Spdm.lean`. -/

theorem withSpdm_kept {f : Spdm → Spdm} : Kept s (withSpdm s f) := .of_core rfl

theorem unexpected_kept : Kept s (unexpected s).2 := by
  unfold unexpected
  exact .refl _

theorem answerVersion_kept {req : List Byte} : Kept s (answerVersion s req).2 := by
  unfold answerVersion
  dsimp only
  exact withSpdm_kept

theorem answerCapabilities_kept {req : List Byte} : Kept s (answerCapabilities s req).2 := by
  unfold answerCapabilities
  dsimp only
  split
  · exact .refl _
  · dsimp only
    exact .after withSpdm_kept (.after draw_kept (.after draw_kept draw_kept))

theorem answerAlgorithms_kept {req : List Byte} : Kept s (answerAlgorithms s req).2 := by
  unfold answerAlgorithms
  dsimp only
  split
  · exact .refl _
  · split
    · exact .refl _
    · dsimp only
      exact withSpdm_kept

theorem answerDigests_kept {req : List Byte} : Kept s (answerDigests s req).2 := by
  unfold answerDigests
  dsimp only
  split
  · exact .refl _
  · dsimp only
    exact withSpdm_kept

theorem answerCertificate_kept {req : List Byte} : Kept s (answerCertificate s req).2 := by
  unfold answerCertificate
  extract_lets off rest
  split
  · exact .refl _
  · split
    · exact .refl _
    · dsimp only
      exact withSpdm_kept

theorem answerChallenge_kept {req : List Byte} : Kept s (answerChallenge s req).2 := by
  unfold answerChallenge
  dsimp only
  split
  · exact .refl _
  · split
    · exact .refl _
    · dsimp only
      exact .after withSpdm_kept (.after draw_kept draw_kept)

theorem answerMeasurements_kept {req : List Byte} : Kept s (answerMeasurements s req).2 := by
  unfold answerMeasurements
  extract_lets op signed rec_ n g r l
  have hg : Kept s g.2 := .after draw_kept draw_kept
  split
  · exact .refl _
  · split
    · exact .refl _
    · split
      · dsimp only
        exact .after withSpdm_kept hg
      · dsimp only
        exact .after withSpdm_kept hg

/-- Whatever the request, its answer keeps what every command keeps. -/
theorem answerOf_kept {kind : Nat} {req : List Byte} : Kept s (answerOf kind s req).2 := by
  unfold answerOf
  split_ifs
  exacts [answerVersion_kept, answerCapabilities_kept, answerAlgorithms_kept, answerDigests_kept, answerCertificate_kept,
    answerChallenge_kept, answerMeasurements_kept, .refl _]

theorem answerDoe_kept {kind : Nat} {req : List Byte} : Kept s (answerDoe s kind req) :=
  .ite emit_kept (.after emit_kept answerOf_kept)

theorem setReady_kept : Kept s (setReady s) := by
  unfold setReady
  exact .after (.foldl (fun _ _ => answerDoe_kept) _ _) (.after setF_kept .of_core)

theorem doeRequest_kept {kind : Nat} {req : List Byte} : KeptNext s (doeRequest kind req s) := by
  unfold doeRequest
  exact .ite (.next (.refl _)) (.ite (.next answerDoe_kept) (.next .of_core))

theorem execDoeDiscovery_kept {req : List Byte} : KeptNext s (execDoeDiscovery req s) := doeRequest_kept

theorem execGetVersion_kept {req : List Byte} : KeptNext s (execGetVersion req s) := doeRequest_kept

theorem execGetCapabilities_kept {req : List Byte} : KeptNext s (execGetCapabilities req s) := doeRequest_kept

theorem execNegotiateAlgorithms_kept {req : List Byte} : KeptNext s (execNegotiateAlgorithms req s) := doeRequest_kept

theorem execGetDigests_kept {req : List Byte} : KeptNext s (execGetDigests req s) := doeRequest_kept

theorem execGetCertificate_kept {req : List Byte} : KeptNext s (execGetCertificate req s) := doeRequest_kept

theorem execChallenge_kept {req : List Byte} : KeptNext s (execChallenge req s) := doeRequest_kept

theorem execGetMeasurements_kept {req : List Byte} : KeptNext s (execGetMeasurements req s) := doeRequest_kept

theorem execSpdmUnsupportedRequest_kept {req : List Byte} : KeptNext s (execSpdmUnsupportedRequest req s) :=
  doeRequest_kept

theorem execDoeAbort_kept : KeptNext s (execDoeAbort s) := by
  unfold execDoeAbort
  exact .next .of_core

/-! Of `Machine/Settings.lean`. -/

theorem bootStage_kept {k : Nat} : Kept s (bootStage s k) := .after setF_kept setF_kept

theorem bootDone_kept {k : Nat} : Kept s (bootDone s k) := by
  unfold bootDone
  exact .after settle_kept (.core (t := bootStage s k) bootStage_kept)

theorem retryFault_kept {lasting : Bool} : Kept s (retryFault s lasting) := recordFault_kept

theorem nvmReads_kept {transient : Nat} {lost : List NvmPart} : Kept s (nvmReads s transient lost) := by
  unfold nvmReads
  exact .after (.foldl (fun _ _ => .after retryFault_kept (.after raise_kept .of_core)) _ _) (.foldl
    (fun _ _ => .after retryFault_kept raise_kept) _ _)

theorem loadSettings_kept : Kept s (loadSettings s) := by
  unfold loadSettings
  exact .after showTrial_kept (.after showSet_kept (.after showOwner_kept (.ite (.after raise_kept (.after setF_kept
    (.after setF_kept (.after setF_kept (.after setF_kept .of_core))))) (.after setF_kept (.after setF_kept
    (.after setF_kept (.after setF_kept .of_core)))))))

theorem execSettingsLoad_kept {transient : Nat} {lost : List NvmPart} : KeptNext s (execSettingsLoad transient lost s) := by
  unfold execSettingsLoad
  exact .ite (.next (.refl _)) (.next (.after settle_kept (.after setReady_kept (.after bootStage_kept
    (.after loadSettings_kept (.after repairSectors_kept (.after nvmReads_kept .of_core)))))))

theorem execStoreSettings_kept {ok : Bool} : KeptNext s (execStoreSettings ok s) := by
  unfold execStoreSettings
  exact runCmd_kept (fun _ => .ite respond_kept (.after respond_kept store_kept))

theorem execDiscardSettings_kept : KeptNext s (execDiscardSettings s) := by
  unfold execDiscardSettings
  exact runCmd_kept (fun _ => .after respond_kept (.after showSet_kept .of_core))

theorem execReadSetting_kept : KeptNext s (execReadSetting s) := by
  unfold execReadSetting
  refine runCmd_kept (fun _ => ?_)
  split
  · exact respond_kept
  · exact respond_kept

theorem editHost_kept {tag : Nat} {data : Option (List Byte)} : Kept s (editHost s tag data) := by
  unfold editHost
  dsimp only
  split
  · exact .after showSet_kept .of_core
  · split
    · exact .after showSet_kept .of_core
    · exact .refl _

theorem execWriteSetting_kept : KeptNext s (execWriteSetting s) := by
  unfold execWriteSetting
  exact runCmd_kept (fun _ => .ite respond_kept (.ite (.ite respond_kept (.after respond_kept editHost_kept))
    (.ite respond_kept (.ite respond_kept (.after respond_kept editHost_kept)))))

theorem execReadLifetime_kept : KeptNext s (execReadLifetime s) := by
  unfold execReadLifetime
  dsimp only
  refine runCmd_kept (fun _ => ?_)
  split
  · exact respond_kept
  · exact .after respond_kept draw_kept

theorem execGetOwnerNonce_kept : KeptNext s (execGetOwnerNonce s) := by
  unfold execGetOwnerNonce
  exact runCmd_kept (fun _ => .after respond_kept (.core (t := (draw s).2) draw_kept))

theorem useNonce_kept : Kept s (useNonce s) := .of_core rfl

theorem ownerWrite_kept {c : MbxCmd} {x : OwnerCopy} {ok : Bool} : Kept s (ownerWrite s c x ok) :=
  .ite (.after respond_kept writeOwner_kept) (.after respond_kept raise_kept)

theorem execSetOwnerState_kept {ok : Bool} : KeptNext s (execSetOwnerState ok s) := by
  unfold execSetOwnerState
  dsimp only
  refine runCmd_kept (fun _ => ?_)
  split
  · exact respond_kept
  · split
    · exact respond_kept
    · split
      · exact ownerWrite_kept
      · split
        · exact respond_kept
        · exact .ite (.after ownerWrite_kept useNonce_kept) (.after respond_kept useNonce_kept)

theorem execInstallOwnerKey_kept {ok : Bool} : KeptNext s (execInstallOwnerKey ok s) := by
  unfold execInstallOwnerKey
  dsimp only
  refine runCmd_kept (fun _ => ?_)
  split
  · exact respond_kept
  · split
    · exact ownerWrite_kept
    · split
      · exact respond_kept
      · split
        · exact respond_kept
        · exact .ite (.after ownerWrite_kept useNonce_kept) (.after respond_kept useNonce_kept)

theorem execAutomaticStore_kept {ok : Bool} : KeptNext s (execAutomaticStore ok s) :=
  .ite (.next store_kept) (.next (.refl _))

theorem execLifetimeSnapshot_kept : KeptNext s (execLifetimeSnapshot s) := .ite (.next snapshot_kept) (.next (.refl _))

/-! Of `Machine/Images.lean`. -/

theorem eraseFlash_kept {a n : Nat} : Kept s (eraseFlash s a n) := .after setFlash_kept flashCmd_kept

theorem programFlash_kept {a : Nat} {b : List Byte} : Kept s (programFlash s a b) := .after setFlash_kept flashCmd_kept

theorem regionReads_kept {code : Nat} {x : RegionRead} : Kept s (regionReads s code x) :=
  .ite
    (.after retryFault_kept (.after raise_kept (.after flashCmd_kept flashCmd_kept)))
    (.ite (.after retryFault_kept (.after raise_kept (.after flashCmd_kept flashCmd_kept))) flashCmd_kept)

theorem execGetConfigStatus_kept : KeptNext s (execGetConfigStatus s) := by
  unfold execGetConfigStatus
  exact runCmd_kept (fun _ => respond_kept)

theorem execFlashInfo_kept : KeptNext s (execFlashInfo s) := runCmd_kept (fun _ => respond_kept)

theorem execFlashRead_kept {ok : Bool} : KeptNext s (execFlashRead ok s) := by
  unfold execFlashRead
  exact runCmd_kept (fun _ => .ite respond_kept (.ite respond_kept (.ite respond_kept
    (.ite respond_kept respond_kept))))

theorem execFlashErase_kept {ok : Bool} : KeptNext s (execFlashErase ok s) := by
  unfold execFlashErase
  exact runCmd_kept (fun _ => .ite respond_kept (.ite respond_kept (.ite (.after respond_kept eraseFlash_kept)
    (.after respond_kept garbleFlash_kept))))

theorem execFlashProgram_kept {ok : Bool} : KeptNext s (execFlashProgram ok s) := by
  unfold execFlashProgram
  exact runCmd_kept (fun _ => .ite respond_kept (.ite respond_kept (.ite (.after respond_kept garbleFlash_kept)
    (.after respond_kept programFlash_kept))))

theorem execSelectProfile_kept : KeptNext s (execSelectProfile s) := by
  unfold execSelectProfile
  exact runCmd_kept (fun _ => .ite respond_kept (.ite (.ite respond_kept (.after respond_kept editHost_kept)) (.ite
    (.after respond_kept (.after setF_kept setF_kept)) (.after respond_kept (.after setF_kept setF_kept)))))

theorem runStaging_kept {op : Nat} {f : MbxCmd → State} (h : ∀ a, Kept s (f a)) : KeptNext s (runStaging s op f) :=
  runCmd_kept (fun _ => .ite (h _) respond_kept)

theorem execLoadVolatileBegin_kept : KeptNext s (execLoadVolatileBegin s) := by
  unfold execLoadVolatileBegin
  exact runStaging_kept (fun _ => .ite respond_kept (.ite respond_kept (.after respond_kept .of_core)))

theorem execLoadVolatileChunk_kept : KeptNext s (execLoadVolatileChunk s) := by
  unfold execLoadVolatileChunk
  dsimp only
  refine runStaging_kept (fun _ => ?_)
  split
  · exact respond_kept
  · exact .ite respond_kept (.after respond_kept .of_core)

theorem execLoadVolatileCancel_kept : KeptNext s (execLoadVolatileCancel s) := by
  unfold execLoadVolatileCancel
  dsimp only
  refine runStaging_kept (fun _ => ?_)
  split
  · exact respond_kept
  · exact .after respond_kept .of_core

/-! Of `Machine/Completion.lean`. -/

theorem cqMsg_kept {t c : Nat} : Kept s (cqMsg s t c) := by
  unfold cqMsg
  exact .ite (.after sendMsi_kept chargeTenant_kept) (.after sendMsi_kept chargeTenant_kept)

theorem coalesce_kept {t c : Nat} {first : Bool} : Kept s (coalesce s t c first) := by
  unfold coalesce
  exact .ite (.after cqMsg_kept setCq_kept) setCq_kept

theorem releaseEntry_kept {r : Rec} : Kept s (releaseEntry s r) := by
  unfold releaseEntry
  split
  · split
    · exact .ite (.refl _) freeEntryOf_kept
    · exact .refl _
  · exact .refl _

theorem execCompletionRecordWrite_kept {t c : Nat} : KeptNext s (execCompletionRecordWrite t c s) := by
  unfold execCompletionRecordWrite
  dsimp only
  split
  · exact .next (.refl _)
  · exact .ite (.next (.refl _)) (.ite (.next raise_kept) (.next (.after releaseEntry_kept (.after coalesce_kept (.ite
      (.after setF_kept (.after setF_kept (.after emit_kept (.after setCq_kept chargeTenant_kept)))) (.after setF_kept
      (.after emit_kept (.after setCq_kept chargeTenant_kept))))))))

theorem execCoalesceTimeout_kept {t c : Nat} : KeptNext s (execCoalesceTimeout t c s) := by
  unfold execCoalesceTimeout
  exact .ite (.next (.refl _)) (.next (.after cqMsg_kept setCq_kept))

theorem sendPending_kept {n : Nat} : Kept s (sendPending s n) := by
  unfold sendPending
  exact .ite (.refl _) (.foldl (fun _ _ => .after emit_kept setVec_kept) _ _)

theorem execMsixUnmask_kept {n : Nat} {what : MsixPart} : KeptNext s (execMsixUnmask n what s) := by
  unfold execMsixUnmask
  dsimp only
  split
  · exact .next (.refl _)
  · refine .next (.after sendPending_kept ?_)
    split
    · exact setVec_kept
    · exact setFn_kept
    · exact setFn_kept

/-! Of `Machine/Models.lean`. -/

theorem execLoadCostTable_kept : KeptNext s (execLoadCostTable s) := by
  unfold execLoadCostTable
  refine runCmd_kept (fun _ => ?_)
  split
  · exact .after respond_kept .of_core
  · exact respond_kept

theorem execClearCostTable_kept : KeptNext s (execClearCostTable s) := runCmd_kept (fun _ => .after respond_kept .of_core)

theorem evictUntil_kept {p : Nat} {ok : Nat → Bool} {l : List Nat} : ∀ {s : State}, Kept s (evictUntil p ok l s).1 := by
  induction l with
  | nil => exact .refl _
  | cons n rest ih =>
    intro s
    unfold evictUntil
    split
    · exact .refl _
    · exact .after ih evictWhole_kept

theorem makeRoom_kept {p : Nat} {k : Pkg} {noTight : Bool} : Kept s (makeRoom s p k noTight).1 := by
  unfold makeRoom
  dsimp only
  split
  · exact .refl _
  · split
    · exact evictUntil_kept
    · split
      · exact evictUntil_kept
      · exact .refl _

theorem refuseLoad_kept {c : MbxCmd} {code : Nat} {ev : List Nat} : Kept s (refuseLoad s c code ev) := respond_kept

theorem failSource_kept {c : MbxCmd} {p : Nat} : Kept s (failSource s c p) := .after refuseLoad_kept recordFault_kept

theorem beginLoad_kept {n p ctxNo save : Nat} {k : Pkg} {g : ProgInfo} {fit : Nat × Nat × Bool} {pl : List Byte} :
    Kept s (beginLoad s n p ctxNo save k g fit pl) := by
  unfold beginLoad
  extract_lets gen pages peer s1 s2 s3 s4 s5 s6 body
  have hs1 : Kept s s1 := .getD (fun _ h => takePages_kept h) (.refl _)
  have hs2 : Kept s s2 := .after setSlot_kept (.core hs1)
  have hs3 : Kept s s3 := .after setF_kept (.after setF_kept (.after setF_kept hs2))
  have hs4 : Kept s s4 := .after setF_kept (.after setF_kept hs3)
  have hs5 : Kept s s5 := .after setF_kept (.after setF_kept (.after setF_kept hs4))
  have hs6 : Kept s s6 := .ite (.after raise_kept (.after setF_kept hs5)) hs5
  exact .after chargeHeld_kept (.ite hs6 (.after chargeHeld_kept hs6))

theorem placeLoad_kept {c : MbxCmd} {p n : Nat} {k : Pkg} {g : ProgInfo} {ev : List Nat} :
    Kept s (placeLoad s c p n k g ev) := by
  unfold placeLoad
  extract_lets fl r ev'
  have hr : Kept s r.1 := by
    unfold r
    split
    · exact makeRoom_kept
    · exact .refl _
  clear_value r
  generalize findSave r.1 p (saveArea (grovesOf r.1 p) g.liveSram) = save
  generalize fitRule k (fl.testBit 2) (freePages r.1 p) = fit
  split
  · exact refuseLoad_kept
  · cases fit with
    | none => exact .after refuseLoad_kept hr
    | some fit =>
      cases save with
      | none => exact .after refuseLoad_kept hr
      | some save => exact .after respond_kept (.after beginLoad_kept hr)

theorem execLoadModel_kept {src : Option (List Byte × ProgInfo)} : KeptNext s (execLoadModel src s) := by
  refine runCmd_kept fun c => ?_
  extract_lets pl p peer addr len s0
  have hs0 : Kept s s0 := .ite sendBare_kept (.refl _)
  refine .ite respond_kept (.ite respond_kept (.ite respond_kept (.ite failSource_kept ?_)))
  split
  · exact .after failSource_kept hs0
  · refine .ite (.after respond_kept hs0) (.ite (.after respond_kept hs0) (.ite (.after respond_kept hs0) ?_))
    split
    · exact .after placeLoad_kept hs0
    · split
      · exact .after respond_kept hs0
      · exact .after placeLoad_kept (.after evictWhole_kept hs0)

theorem endLoad_kept {n code : Nat} : Kept s (endLoad s n code) := by
  unfold endLoad
  exact .after failLoad_kept (.after recordFault_kept (.after clearGroup_kept evictSlot_kept))

theorem enterReady_kept {n : Nat} : Kept s (enterReady s n) := .after raise_kept (.after setF_kept setF_kept)

theorem execModelTransferDone_kept {n : Nat} {crc : W32} {bytes : List (Nat × Byte)} :
    KeptNext s (execModelTransferDone n crc bytes s) := by
  unfold execModelTransferDone
  dsimp only
  split
  · exact .next (.refl _)
  · exact .ite (.next (.refl _)) (.ite (.next endLoad_kept) (.ite (.next (.after setF_kept (.after setF_kept
      (.after setF_kept (.after createCtx_kept (.foldl (fun _ _ => writePart_kept) _ _)))))) (.next
      (.after enterReady_kept (.after setF_kept (.after createCtx_kept (.foldl (fun _ _ => writePart_kept) _ _)))))))

theorem execModelTransferFailed_kept {n : Nat} : KeptNext s (execModelTransferFailed n s) :=
  .ite (.next endLoad_kept) (.next (.refl _))

theorem endPeerLoads_kept {node : Nat} : Kept s (endPeerLoads s node) := by
  unfold endPeerLoads
  refine .foldl (fun a e => ?_) _ _
  split
  · split
    · exact .ite endLoad_kept (.refl _)
    · exact .refl _
  · exact .refl _

theorem execMsgReassemblyTimeout_kept {src msg : Nat} : KeptNext s (execMsgReassemblyTimeout src msg s) := by
  unfold execMsgReassemblyTimeout
  split
  · exact .next (.refl _)
  · next h => exact .next (.ite (.after endPeerLoads_kept (timeoutMsg_kept h)) (timeoutMsg_kept h))

theorem takeClasses_kept {n mask : Nat} : Kept s (takeClasses s n mask) := by
  unfold takeClasses
  exact .foldl (fun _ _ => setF_kept) _ _

theorem execAddContext_kept : KeptNext s (execAddContext s) := by
  refine runCmd_kept fun c => ?_
  extract_lets b mask q
  split
  · exact respond_kept
  · extract_lets p units
    refine .ite respond_kept (.ite respond_kept (.ite respond_kept (.ite respond_kept ?_)))
    split
    · exact respond_kept
    · refine .ite respond_kept ?_
      split
      · exact respond_kept
      · extract_lets s1 s2 s3
        have hs1 : Kept s s1 := .getD (fun _ h => takePages_kept h) (.refl _)
        have hs3 : Kept s s3 := .after createCtx_kept (.after takeClasses_kept (.after bump_kept hs1))
        exact .after respond_kept hs3

theorem discardFor_kept {n : Nat} : Kept s (discardFor s n) := by
  unfold discardFor
  refine .foldl (fun a e => ?_) _ _
  split
  · exact .after discardPre_kept discardPre_kept
  · exact discardPre_kept

theorem barSlot_kept {n : Nat} : Kept s (barSlot s n) := by
  unfold barSlot
  refine .foldl (fun a e => ?_) _ _
  split
  · exact setCtx_kept
  · exact .refl _

theorem startEvict_kept {n : Nat} : Kept s (startEvict s n) := by
  unfold startEvict
  dsimp only
  split
  · exact .after forceEvict_kept (.after setSlot_kept (.after discardFor_kept (.after barSlot_kept setF_kept)))
  · exact .after discardFor_kept (.after barSlot_kept setF_kept)

theorem execEvictModel_kept : KeptNext s (execEvictModel s) := by
  unfold execEvictModel
  refine runCmd_kept (fun _ => ?_)
  split
  · exact respond_kept
  · split
    · exact respond_kept
    · exact .ite (.after respond_kept evictModel_kept) (.ite (.after respond_kept startEvict_kept)
        (.after respond_kept setF_kept))

theorem execEvictModelForce_kept : KeptNext s (execEvictModelForce s) := by
  unfold execEvictModelForce
  refine runCmd_kept (fun _ => ?_)
  split
  · exact respond_kept
  · split
    · exact respond_kept
    · exact .after respond_kept (.ite evictModel_kept startEvict_kept)

theorem execModelDrainEvict_kept {n : Nat} : KeptNext s (execModelDrainEvict n s) := by
  unfold execModelDrainEvict
  exact .ite (.next (.refl _)) (.ite (.next startEvict_kept) (.ite (.next forceEvict_kept) (.next (.refl _))))

theorem setPin_kept {c : MbxCmd} {pin : Bool} : Kept s (setPin s c pin) := by
  unfold setPin
  split
  · exact respond_kept
  · exact .ite respond_kept (.ite respond_kept (.after respond_kept setF_kept))

theorem execPinModel_kept : KeptNext s (execPinModel s) := runCmd_kept (fun _ => setPin_kept)

theorem execUnpinModel_kept : KeptNext s (execUnpinModel s) := runCmd_kept (fun _ => setPin_kept)

theorem makePair_kept {g d : Nat} : Kept s (makePair s g d) := by
  unfold makePair
  dsimp only
  split
  · exact .after setF_kept (.after setF_kept (.after setF_kept (.after setF_kept (.after setF_kept (.after setF_kept
      (.after setCtx_kept setCtx_kept))))))
  · exact .refl _

theorem execPairDraft_kept : KeptNext s (execPairDraft s) := by
  unfold execPairDraft
  dsimp only
  refine runCmd_kept (fun _ => ?_)
  split
  · split
    · exact .ite (.after respond_kept makePair_kept) respond_kept
    · exact respond_kept
  · exact respond_kept

theorem execUnpairDraft_kept : KeptNext s (execUnpairDraft s) := by
  unfold execUnpairDraft
  dsimp only
  refine runCmd_kept (fun _ => ?_)
  split
  · exact respond_kept
  · split
    · exact respond_kept
    · exact .ite respond_kept (.after respond_kept unpairCtx_kept)

/-! Of `Machine/RegWrite.lean`. -/

/-- What an arm answers, or the state before it. -/
theorem after_kept {o : Host.Outcome State Fault Refusal} (h : KeptNext s o) : Kept s (after s o) := by
  unfold after
  split
  · exact h _ rfl
  · exact .refl _

theorem flagRsv_kept {key : Nat} {data mask : BitVec 64} : Kept s (flagRsv s key data mask) := by
  unfold flagRsv
  split
  · exact .ite raise_kept (.refl _)
  · exact .refl _

theorem badValue_kept : Kept s (badValue s) := raise_kept

theorem writeTenCtl_kept {t : Nat} {data mask : BitVec 64} : Kept s (writeTenCtl s t data mask) := by
  unfold writeTenCtl
  dsimp only
  split
  · split
    · exact .after raise_kept writeFields_kept
    · split
      · exact .after setTenant_kept writeFields_kept
      · exact writeFields_kept
  · exact writeFields_kept

theorem writeIf_kept {key : Nat} {data mask : BitVec 64} {ok : State → Bool} : Kept s (writeIf s key data mask ok) := by
  unfold writeIf
  exact .ite writeFields_kept (.after flagRsv_kept badValue_kept)

theorem writePair_kept {key : Nat} {data mask : BitVec 64} {lo hi : Fld} : Kept s (writePair s key data mask lo hi) := by
  unfold writePair
  exact .ite writeFields_kept (.after badValue_kept (.after setF_kept (.after setF_kept writeFields_kept)))

theorem writeRoute_kept {h : Nat} {data mask : BitVec 64} : Kept s (writeRoute s h data mask) := by
  unfold writeRoute
  exact .ite (.foldl (fun _ _ => .ite (.refl _) setBit_kept) _ _) (.after raise_kept (.foldl (fun _ _ => .ite
    (.refl _) setBit_kept) _ _))

theorem writeDbgwin_kept {data mask : BitVec 64} : Kept s (writeDbgwin s data mask) := by
  unfold writeDbgwin
  exact .ite (.after raise_kept writeFields_kept) writeFields_kept

theorem writeNode_kept {data mask : BitVec 64} : Kept s (writeNode s data mask) := by
  unfold writeNode
  exact .ite (.after raise_kept writeFields_kept) writeFields_kept

theorem writePortCtl_kept {n : Nat} {data mask : BitVec 64} : Kept s (writePortCtl s n data mask) := by
  unfold writePortCtl
  exact .ite (.ite writeFields_kept (.after portDown_kept writeFields_kept)) (.ite
    (.after startTrain_kept writeFields_kept) writeFields_kept)

theorem writeCtx_kept {p n key : Nat} {data mask : BitVec 64} : Kept s (writeCtx s p n key data mask) := by
  unfold writeCtx
  dsimp only
  split
  · exact flagRsv_kept
  · split
    · exact .after setF_kept writeFields_kept
    · split
      · split
        · exact writeFields_kept
        · split
          · exact .after setF_kept writeFields_kept
          · exact writeFields_kept
      · exact writeFields_kept

theorem writeAssay_kept {p w : Nat} {data mask : BitVec 64} : Kept s (writeAssay s p w data mask) := by
  unfold writeAssay
  exact .ite (.core (t := writeFields s (Reg.TRC_ASSAY_CTL p w) data mask) writeFields_kept) writeFields_kept

theorem writeArea_kept {key : Nat} {data mask : BitVec 64} : Kept s (writeArea s key data mask) :=
  .ite raise_kept (.ite (.refl _) writeFields_kept)

theorem writePark_kept {t key : Nat} {data mask : BitVec 64} : Kept s (writePark s t key data mask) :=
  .ite writeFields_kept (.after raise_kept flagRsv_kept)

theorem writeBase_kept {key : Nat} {on : Bool} {flag : Fld} {data mask : BitVec 64} :
    Kept s (writeBase s key on flag data mask) := by
  unfold writeBase
  exact .ite (.after raise_kept flagRsv_kept) writeFields_kept

theorem writeRing_kept {t o key : Nat} {data mask : BitVec 64} : Kept s (writeRing s t o key data mask) := by
  unfold writeRing
  exact .ite (.ite writeBase_kept (.ite (after_kept (.ite execSqEnable_kept execSqDisable_kept)) (.ite
    (.after flagRsv_kept (.ite (after_kept execFlush_kept) (.refl _))) writeFields_kept))) (.ite writeBase_kept (.ite
    (after_kept (.ite execCqEnable_kept execCqDisable_kept)) writeFields_kept))

theorem writeRegulator_kept {key : Nat} {data mask : BitVec 64} : Kept s (writeRegulator s key data mask) := by
  unfold writeRegulator
  exact .ite (.after issueNow_kept writeFields_kept) writeFields_kept

theorem writeReg_kept {key : Nat} {data mask : BitVec 64} : Kept s (writeReg s key data mask) := by
  unfold writeReg
  exact .ite (.ite writeRoute_kept (.ite writeDbgwin_kept writeFields_kept)) (.ite (.ite (.after flagRsv_kept (.ite
    (after_kept execMailboxGo_kept) (.refl _))) (.ite writeArea_kept writeFields_kept)) (.ite writeRing_kept (.ite
    (.ite writeTenCtl_kept (.ite writeIf_kept writeFields_kept)) (.ite (.ite writeIf_kept
    (.ite writeCtx_kept writeFields_kept)) (.ite writeRegulator_kept (.ite (.ite writePark_kept writeFields_kept)
    (.ite (.ite writeNode_kept (.ite writePortCtl_kept writeFields_kept)) (.ite (.ite writePair_kept
    (.ite writePair_kept writeFields_kept)) (.ite (.ite (after_kept (.ite execTraceEnable_kept execTraceDisable_kept))
    (.ite writeAssay_kept writeFields_kept)) (.ite (.ite faultnWrite_kept (.ite (withFaultn_kept
    (fun _ => writeFields_kept)) writeFields_kept)) writeFields_kept))))))))))

theorem hwSets_kept {key written flags : Nat} : Kept s (hwSets s key written flags) :=
  .ite (.refl _) (.ite (.foldl (fun _ _ => .ite setCause_kept (.refl _)) _ _) hwSetDuring_kept)

theorem hostWrite_kept {key : Nat} {data mask : BitVec 64} {hw : Nat} : Kept s (hostWrite s key data mask hw) := by
  unfold hostWrite
  exact after_kept (reach_kept (fun _ => .next (.after afterWrite_kept (.after hwSets_kept writeReg_kept))))

theorem writeWord_kept {o : Nat} {v : BitVec 64} {hw : Nat} : Kept s (writeWord s o v hw) := by
  unfold writeWord
  split
  · exact ifRunning_kept (fun _ => .refl _)
  · split
    · exact raise_kept
    · exact hostWrite_kept

theorem writeBar0_kept {o len : Nat} {v : BitVec 64} {hw : Nat} : Kept s (writeBar0 s o len v hw) := by
  unfold writeBar0
  split
  · exact writeWord_kept
  · split
    · exact .ite hostWrite_kept (.after writeWord_kept writeWord_kept)
    · exact .after writeWord_kept writeWord_kept

theorem logPcie_kept {n : Nat} {e : PcieErr} : Kept s (logPcie s n e) := by
  unfold logPcie
  exact setFn_kept

theorem refuseBar_kept {who : Requester} : Kept s (refuseBar s who) := by
  unfold refuseBar
  split
  · exact .ite (.refl _) logPcie_kept
  · exact .ite logPcie_kept (.refl _)
  · exact .refl _

theorem writeMsix_kept {n o : Nat} {v : BitVec 64} : Kept s (writeMsix s n o v) := by
  unfold writeMsix
  exact ifRunning_kept (fun _ => .ite setVec_kept (.ite setVec_kept (.ite setVec_kept (.ite setVec_kept (.ite
    (after_kept execMsixUnmask_kept) (.refl _))))))

theorem writeDoorbell_kept {t o : Nat} {viaPf : Bool} {v : BitVec 64} : Kept s (writeDoorbell s t o viaPf v) := by
  refine ifRunning_kept fun a => ?_
  extract_lets n s1
  have hs1 : Kept a s1 := .ite raise_kept (.refl _)
  exact .ite (.after (after_kept execSqDoorbell_kept) hs1) (.ite (.after
    (after_kept execCqDoorbell_kept) hs1) raise_kept)

theorem writeBar2_kept {o : Nat} {v : BitVec 64} : Kept s (writeBar2 s o v) :=
  .ite writeDoorbell_kept (.ite writeMsix_kept (.ite (ifRunning_kept (fun _ => .refl _)) raise_kept))

theorem writeVf_kept {t o : Nat} {v : BitVec 64} {hw : Nat} : Kept s (writeVf s t o v hw) := by
  unfold writeVf
  split
  · exact writeWord_kept
  · split
    · exact writeDoorbell_kept
    · split
      · exact writeMsix_kept
      · split
        · exact ifRunning_kept (fun _ => .refl _)
        · split
          · exact ifRunning_kept (fun _ => .ite raise_kept (.refl _))
          · split
            · exact ifRunning_kept (fun _ => .refl _)
            · split
              · exact writeWord_kept
              · exact raise_kept

theorem execRegisterWrite_kept {who : Requester} {bar : Bar} {o len : Nat} {v : W64} {hw : Nat} :
    KeptNext s (execRegisterWrite who bar o len v hw s) := by
  unfold execRegisterWrite
  dsimp only
  split
  · exact .next refuseBar_kept
  · split
    · exact .next raise_kept
    · split
      · exact .next writeBar0_kept
      · exact .next (.ite (.after writeBar2_kept writeBar2_kept) writeBar2_kept)
      · exact .ite (.next writeBar0_kept) (.next (.ite (.after writeVf_kept writeVf_kept) writeVf_kept))

theorem execDbRouteWrite_kept {h : Nat} {v : W32} : KeptNext s (execDbRouteWrite h v s) :=
  .ite (.next (.refl _)) (.next hostWrite_kept)

theorem execDbgwinCtlWrite_kept {v : W32} : KeptNext s (execDbgwinCtlWrite v s) := by
  unfold execDbgwinCtlWrite
  exact .next hostWrite_kept

/-! Of `Machine/Partitions.lean`. -/

theorem execDrainPartition_kept : KeptNext s (execDrainPartition s) := by
  unfold execDrainPartition
  exact runCmd_kept (fun _ => .ite respond_kept (.ite respond_kept (.after respond_kept (.ite (.after (.foldl
    (fun _ _ => cancelReq_kept) _ _) (.after (.foldl (fun _ _ => holdOpen_kept) _ _) setF_kept)) (.after (.foldl
    (fun _ _ => holdOpen_kept) _ _) setF_kept)))))

theorem execDrainDone_kept {p : Nat} : KeptNext s (execDrainDone p s) :=
  .ite (.next (.after raise_kept setF_kept)) (.next (.refl _))

theorem execResumePartition_kept : KeptNext s (execResumePartition s) := by
  unfold execResumePartition
  exact runCmd_kept (fun _ => .ite respond_kept (.ite respond_kept (.ite respond_kept (.after respond_kept
    (.after setF_kept resumeOpen_kept)))))

theorem dissolvePart_kept {p : Nat} : Kept s (dissolvePart s p) := by
  unfold dissolvePart
  exact .after setPart_kept (.core (.after setF_kept (.after (.foldl (fun _ _ => resetReg_kept) _ _) (.after (.foldl
    (fun _ _ => .after ownGrove_kept resetGrove_kept) _ _) (.after stopTrace_kept
    (.after clearLane_kept evictAll_kept))))))

theorem formPart_kept {e : PartEntry} : Kept s (formPart s e) := by
  unfold formPart
  exact .after (.foldl (fun _ _ => holdOpen_kept) _ _) (.after setF_kept (.after resetRegulators_kept makePart_kept))

theorem execReconfigure_kept : KeptNext s (execReconfigure s) := by
  unfold execReconfigure
  exact runCmd_kept (fun _ => .ite respond_kept (.ite respond_kept (.ite respond_kept (.ite respond_kept
    (.ite respond_kept (.after respond_kept (.after raise_kept (.after (.foldl (fun _ _ => formPart_kept) _ _) (.after
    (.foldl (fun _ _ => .foldl (fun _ _ => unbindTenant_kept) _ _) _ _) (.foldl
    (fun _ _ => dissolvePart_kept) _ _))))))))))

theorem execMigrateTenant_kept : KeptNext s (execMigrateTenant s) := by
  unfold execMigrateTenant
  exact runCmd_kept (fun _ => .ite respond_kept (.ite respond_kept (.ite respond_kept (.after respond_kept (.ite
    (.after (.foldl (fun _ _ => cancelReq_kept) _ _) (.after setTenant_kept (.after holdOpen_kept setF_kept)))
    (.after setTenant_kept (.after holdOpen_kept setF_kept)))))))

theorem execMigrateDone_kept {t : Nat} : KeptNext s (execMigrateDone t s) := by
  unfold execMigrateDone
  exact .ite (.next (.refl _)) (.next (.after raise_kept (.after setF_kept (.ite (.after restoreOpen_kept (.ite
    (.after bindTenant_kept setTenant_kept) (.after unbindTenant_kept setTenant_kept))) (.ite
    (.after bindTenant_kept setTenant_kept) (.after unbindTenant_kept setTenant_kept))))))

/-! Of `Machine/Profile.lean`. -/

theorem loadRepairMap_kept : Kept s (loadRepairMap s) := .foldl (fun _ _ => loadMap_kept) _ _

theorem applyLayout_kept {d : List Byte} : Kept s (applyLayout s d) := by
  unfold applyLayout
  exact .after (.foldl (fun _ _ => .after setF_kept makePart_kept) _ _) (.after setF_kept (.after setF_kept (.foldl
    (fun _ _ => ownGrove_kept) _ _)))

theorem applyTenants_kept {d : Option (List Byte)} : Kept s (applyTenants s d) := by
  unfold applyTenants
  exact .foldl (fun _ _ => .after setBit_kept (.ite bindTenant_kept unbindTenant_kept)) _ _

theorem applyShelves_kept {d : Option (List Byte)} : Kept s (applyShelves s d) := by
  unfold applyShelves
  dsimp only
  split
  · exact .refl _
  · exact .core (.foldl (fun _ _ => .after setF_kept (.after setF_kept setF_kept)) _ _)

theorem applyRamp_kept {d : Option (List Byte)} : Kept s (applyRamp s d) := by
  unfold applyRamp
  dsimp only
  split
  · exact .refl _
  · exact .after setF_kept (.after setF_kept (.after setF_kept (.after setF_kept (.after setF_kept setF_kept))))

theorem applyPower_kept {b : List Byte} : Kept s (applyPower s b) := by
  unfold applyPower
  exact .after (.foldl (fun _ _ => setF_kept) _ _) (.after setF_kept (.after setF_kept (.after setF_kept
    (.after setF_kept (.after setF_kept (.after setF_kept (.after setF_kept setF_kept)))))))

theorem applyFirst_kept {l : List ProfRec} : Kept s (applyFirst s l) := by
  unfold applyFirst
  exact .after applyPower_kept (.after applyRamp_kept (.after applyShelves_kept
    (.after applyTenants_kept applyLayout_kept)))

theorem applyPair_kept {e : Nat × Nat} : Kept s (applyPair s e) := writeWord_kept

theorem applyCezlink_kept {d : Option (List Byte)} : Kept s (applyCezlink s d) := by
  unfold applyCezlink
  dsimp only
  split
  · exact .after (.foldl (fun _ _ => .after setF_kept setF_kept) _ _) (.after (.foldl
      (fun _ _ => resetReg_kept) _ _) resetReg_kept)
  · exact .after (.foldl (fun _ _ => .after setF_kept setF_kept) _ _) (.after (.foldl
      (fun _ _ => .after setF_kept setF_kept) _ _) (.after setF_kept (.after setF_kept
      (.after setF_kept resetReg_kept))))

theorem applyProfile_kept {l : List ProfRec} : Kept s (applyProfile s l) := by
  unfold applyProfile
  exact .after (.foldl (fun _ _ => setLevel_kept) _ _) (.core (.after (.foldl (fun _ _ => .foldl
    (fun _ _ => applyPair_kept) _ _) _ _) applyFirst_kept))

/-! Of `Machine/Boot.lean`. -/

theorem stickButton_kept {st : Nat} : Kept s (stickButton s st) := by
  unfold stickButton
  exact .after recordFault_kept (.after setCause_kept (.after raise_kept (.after setF_kept setF_kept)))

theorem startBoot_kept {profsel smbAddr : Nat} {btnLow : Bool} : Kept s (startBoot s profsel smbAddr btnLow) := by
  unfold startBoot
  exact .ite (.after stickButton_kept (.after bootStage_kept (.after setF_kept (.after setF_kept setF_kept))))
    (.after setF_kept (.after bootStage_kept (.after setF_kept (.after setF_kept setF_kept))))

theorem execPorDeassert_kept {profsel smbAddr : Nat} {btnLow : Bool} :
    KeptNext s (execPorDeassert profsel smbAddr btnLow s) := by
  unfold execPorDeassert
  exact .ite (.next (.refl _)) (.next (.ite .of_core (.after startBoot_kept .of_core)))

theorem execUndervoltageEnd_kept {profsel smbAddr : Nat} {btnLow : Bool} :
    KeptNext s (execUndervoltageEnd profsel smbAddr btnLow s) := by
  unfold execUndervoltageEnd
  exact .ite (.next (.refl _)) (.next (.ite .of_core (.after startBoot_kept .of_core)))

theorem tearSector_kept {k : Nat} : Kept s (tearSector s k) := by
  unfold tearSector
  exact .ite (.core (t := eraseSector s k) eraseSector_kept) (.refl _)

theorem setLocks_kept {ks : List Nat} {on : Bool} : Kept s (setLocks s ks on) := .foldl (fun _ _ => setBit_kept) _ _

theorem setLoaded_kept {k rel : Nat} {b : List Byte} : Kept s (setLoaded s k rel b) := .of_core rfl

theorem loadGroveUcode_kept {g : Nat} : Kept s (loadGroveUcode s g) := by
  unfold loadGroveUcode
  exact .after setLoaded_kept wr_kept

theorem loadLaneUcode_kept {p : Nat} : Kept s (loadLaneUcode s p) := by
  unfold loadLaneUcode
  exact setLoaded_kept

theorem loadTables_kept : Kept s (loadTables s) := by
  unfold loadTables
  exact .after setLoaded_kept wr_kept

theorem startS4_kept {trained : Bool} : Kept s (startS4 s trained) := by
  unfold startS4
  extract_lets s1 s2 s3 ok _
  have hs1 : Kept s s1 := .after setVid_kept (.after setF_kept (.after setF_kept setLocks_kept))
  have hs2 : Kept s s2 := .after (.foldl (fun _ _ => loadGroveUcode_kept) _ _) (.after loadRepairMap_kept hs1)
  have hs3 : Kept s s3 := .after loadTables_kept (.after (.foldl (fun _ _ => loadLaneUcode_kept) _ _) hs2)
  exact .after bootStage_kept (.core hs3)

theorem releaseFlash_kept : Kept s (releaseFlash s) := by
  unfold releaseFlash
  exact .ite (.refl _) (.after drive_kept .of_core)

theorem execTclkLock_kept : KeptNext s (execTclkLock s) := by
  unfold execTclkLock
  exact .ite (.next (.refl _)) (.next (.after bootStage_kept (.after releaseFlash_kept (.core (t := setLocks s
    ([7, 6, 1] ++ if s.boot.perst = true then [] else [3]) true) setLocks_kept))))

theorem stopHeartwood_kept : Kept s (stopHeartwood s) := .after setF_kept (.ite (.refl _) setF_kept)

theorem execRootLoaderCheck_kept {x : RegionRead} : KeptNext s (execRootLoaderCheck x s) := by
  unfold execRootLoaderCheck
  exact .ite (.next (.refl _)) (.ite (.next (.core (.after setLoaded_kept (.after setF_kept (.ite retryFault_kept
    (.refl _)))))) (.next (.core (t := if x = RegionRead.clean ∨ x = RegionRead.retried then s else retryFault s true)
    (.ite (.refl _) retryFault_kept))))

theorem enterHold_kept {code : Nat} {recovery : Bool} : Kept s (enterHold s code recovery) := by
  unfold enterHold
  exact .after bootDone_kept (.after setReady_kept (.after setF_kept (.after setF_kept setF_kept)))

theorem execFlashModeSelect_kept {x : Option Sfdp} : KeptNext s (execFlashModeSelect x s) := by
  unfold execFlashModeSelect
  dsimp only
  split
  · exact .next (.refl _)
  · split
    · exact .next (.after enterHold_kept (.after setF_kept flashCmd_kept))
    · exact .ite (.next (.after enterHold_kept (.after setF_kept flashCmd_kept))) (.next (.after bootStage_kept
        (.after setF_kept (.after setF_kept (.after setF_kept (.after setF_kept flashCmd_kept))))))

theorem failTrial_kept {code : Nat} : Kept s (failTrial s code) := by
  unfold failTrial
  exact .after raise_kept putSlotSt_kept

theorem bootSlot_kept : Kept s (bootSlot s).2 := by
  unfold bootSlot
  dsimp only
  split
  · exact .refl _
  · split
    · split
      · exact failTrial_kept
      · exact .refl _
    · exact .refl _

theorem checkDir_kept {off : Nat} {x : RegionRead} : Kept s (checkDir s off x).1 := by
  unfold checkDir
  exact regionReads_kept

theorem checkEntry_kept {n : Nat} {x : RegionRead} : Kept s (checkEntry s n x).1 := by
  unfold checkEntry
  dsimp only
  split
  · exact .after setF_kept (.after setF_kept (.after setF_kept (.ite regionReads_kept (.refl _))))
  · exact .after setF_kept (.after setF_kept (.ite regionReads_kept (.refl _)))

theorem checkSlots_kept {reads : List (Nat × RegionRead)} : Kept s (checkSlots s reads).1 := by
  unfold checkSlots
  dsimp only
  split
  · exact .after setF_kept (.after checkEntry_kept bootSlot_kept)
  · split
    · split
      · split
        · exact .after setF_kept (.after checkEntry_kept (.after failTrial_kept (.after checkEntry_kept bootSlot_kept)))
        · exact .after checkEntry_kept (.after failTrial_kept (.after checkEntry_kept bootSlot_kept))
      · split
        · exact .after setF_kept (.after checkEntry_kept (.after failTrial_kept (.after checkEntry_kept bootSlot_kept)))
        · exact .after checkEntry_kept (.after failTrial_kept (.after checkEntry_kept bootSlot_kept))
    · split
      · split
        · exact .after setF_kept (.after checkEntry_kept (.after checkEntry_kept bootSlot_kept))
        · exact .after checkEntry_kept (.after checkEntry_kept bootSlot_kept)
      · split
        · exact .after setF_kept (.after checkEntry_kept (.after checkEntry_kept bootSlot_kept))
        · exact .after checkEntry_kept (.after checkEntry_kept bootSlot_kept)

theorem storeSlot_kept {m : Nat} {r : Region} : Kept s (storeSlot s m r) := by
  unfold storeSlot
  extract_lets other _ s1 _
  have hs1 : Kept s s1 := .after setF_kept .of_core
  exact .ite (.after setF_kept (.core hs1)) hs1

theorem usePending_kept : Kept s (usePending s) := .after setF_kept setF_kept

theorem checkProfile_kept {reads : List (Nat × RegionRead)} : Kept s (checkProfile s reads) := by
  unfold checkProfile
  extract_lets pick
  have hpick (a : State) (v : Bool) (n : Nat) (r : Option Region) : Kept a (pick a v n r) := .after usePending_kept .of_core
  split
  · exact hpick ..
  · split
    · extract_lets c
      have hc : Kept s c.1 := checkEntry_kept
      exact .ite (.after (hpick ..) hc) (.after setF_kept (.after setF_kept (.after setF_kept (.after (hpick ..) hc))))
    · exact hpick ..

theorem execImageCheck_kept {reads : List (Nat × RegionRead)} : KeptNext s (execImageCheck reads s) := by
  unfold execImageCheck
  split
  · exact .next (.refl _)
  · extract_lets trained s0 a b d
    have ha : Kept s a.1 := .after checkDir_kept (.after setF_kept (.after setF_kept setF_kept))
    have hd : Kept s d.1 := by
      unfold d
      split
      · exact .after setF_kept ha
      · exact .after setF_kept (.after checkDir_kept ha)
    split
    · exact .next (.after enterHold_kept hd)
    · extract_lets s1 c
      have hs1 : Kept s s1 := .core hd
      have hc : Kept s c.1 := .after checkSlots_kept hs1
      clear_value c
      split
      · split
        · exact .next (.after enterHold_kept hc)
        · exact .next (.after startS4_kept (.after checkProfile_kept (.after storeSlot_kept hc)))
      · exact .next (.after startS4_kept (.after checkProfile_kept hs1))

theorem takeOver_kept {m : Nat} {r : Region} {conv : List SetRec} : Kept s (takeOver s m r conv) := by
  unfold takeOver
  extract_lets rel from_ _ s1 s2 s3 _ s4 x s5
  have hs1 : Kept s s1 := .after setF_kept .of_core
  have hs2 : Kept s s2 := .after setLoaded_kept (.after wr_kept hs1)
  have hs3 : Kept s s3 := .after migrate_kept hs2
  have hs4 : Kept s s4 := .core hs3
  have hs5 : Kept s s5 := .ite (.after raise_kept (.after putSlotSt_kept hs4)) hs4
  exact .after settle_kept (.after setReady_kept hs5)

theorem execBootHandoff_kept {conv : List SetRec} : KeptNext s (execBootHandoff conv s) := by
  unfold execBootHandoff
  split
  · exact .ite (.next (.after takeOver_kept wr_kept)) (.next (.refl _))
  · exact .next (.refl _)

theorem execChannelTrainingDone_kept {first second : Nat} : KeptNext s (execChannelTrainingDone first second s) := by
  unfold execChannelTrainingDone
  split
  · exact .next (.refl _)
  · extract_lets fs bad good s1 s2 s3 _ s4 s5 _
    have hs1 : Kept s s1 := .foldl (fun _ _ => setBit_kept) _ _
    have hs2 : Kept s s2 := .ite hs1 (.after setF_kept hs1)
    have hs3 : Kept s s3 := .after (.foldl (fun _ _ => recordFault_kept) _ _) hs2
    have hs4 : Kept s s4 := .after (.foldl (fun _ _ => setBit_kept) _ _) hs3
    have hs5 : Kept s s5 := .after stopChip_kept (.after setCause_kept (.after recordFault_kept hs4))
    exact .ite (.next (.core hs3)) (.next (.core hs5))

theorem failCluster_kept {e : Nat × Nat} : Kept s (failCluster s e) := by
  unfold failCluster
  dsimp only
  split
  · exact retireCluster_kept
  · exact .after showGrove_kept setF_kept

theorem failClusters_kept {fails : List (Nat × Nat)} : Kept s (failClusters s fails) := by
  unfold failClusters
  exact .ite (.core (.foldl (fun _ _ => .after recordFault_kept failCluster_kept) _ _)) (.after storeMap_kept (.core
    (.foldl (fun _ _ => .after recordFault_kept failCluster_kept) _ _)))

theorem execGroveSelfTest_kept {fails : List (Nat × Nat)} : KeptNext s (execGroveSelfTest fails s) := by
  unfold execGroveSelfTest
  exact .ite (.next (.refl _)) (.next (.core (t := failClusters s fails) failClusters_kept))

theorem execLayoutComplete_kept : KeptNext s (execLayoutComplete s) := by
  unfold execLayoutComplete
  split
  · exact .next (.refl _)
  · extract_lets l s0 s1 s2 s3
    have hs0 : Kept s s0 := ⟨rfl, fun _ => rfl⟩
    have hs1 : Kept s s1 := .after applyLayout_kept hs0
    have hs2 : Kept s s2 := .after bootStage_kept (.after resetRegs_kept hs1)
    have hs3 : Kept s s3 := .ite (.after applyCezlink_kept hs2) hs2
    exact .next (.after (.foldl (fun _ _ => startTrain_kept) _ _) hs3)

theorem execCezlinkPortsSettled_kept : KeptNext s (execCezlinkPortsSettled s) := by
  unfold execCezlinkPortsSettled
  exact .ite (.next (.refl _)) (.ite (.next enterHold_kept) (.next .of_core))

theorem startPlanisher_kept : Kept s (startPlanisher s) := by
  unfold startPlanisher
  exact .after showPower_kept (.ite (.after beginBattery_kept (.after setBounds_kept (.after setF_kept
    (.after setF_kept (.after setF_kept .of_core))))) (.after setBounds_kept (.after setF_kept (.after setF_kept
    (.after setF_kept .of_core)))))

theorem execServiceEntry_kept : KeptNext s (execServiceEntry s) := by
  unfold execServiceEntry
  split
  · exact .next (.refl _)
  · split
    · exact .next (.refl _)
    · extract_lets s0 s1 s2 lanes _ s3
      have hs0 : Kept s s0 := applyProfile_kept
      clear_value s0
      have hs1 : Kept s s1 := ⟨hs0.fixed, id⟩
      have hs2 : Kept s s2 := .after setF_kept (.after setF_kept hs1)
      have hs3 : Kept s s3 := .core hs2
      exact .next (.after startPlanisher_kept (.after bootDone_kept (.core hs3)))

theorem warmDue_kept {k : Nat} : Kept s (warmDue s k) := .of_core rfl

theorem warmFlt_kept : Kept s (warmFlt s) := by
  unfold warmFlt
  exact .after setF_kept (.after setF_kept wr_kept)

theorem warmRestore_kept : Kept s (warmRestore s) := by
  unfold warmRestore
  exact .after setVid_kept (.core (.after setF_kept (.after setLocks_kept (.after wr_kept
    (.after warmFlt_kept resetRegs_kept)))))

theorem execWarmChipReset_kept : KeptNext s (execWarmChipReset s) := by
  unfold execWarmChipReset
  split
  · exact .next (.refl _)
  · split
    · exact .next (.refl _)
    · extract_lets hold recovery s1 _ _ _ _ _ s2 s3 s4 flash s5 s6
      have hs1 : Kept s s1 := .after (.foldl (fun _ _ => dropSteps_kept) _ _) leaveGroups_kept
      have hs2 : Kept s s2 := .core (t := closeUpdate s1) (.after closeUpdate_kept hs1)
      have hs3 : Kept s s3 := .ite (.after snapshot_kept hs2) hs2
      have hs4 : Kept s s4 := by
        unfold s4
        split
        · exact .ite (.after respond_kept hs3) hs3
        · exact hs3
      have hs5 : Kept s s5 := .after bump_kept (.after setF_kept (.after setF_kept (.after setF_kept hs4)))
      have hs6 : Kept s s6 := .after (.foldl (fun _ _ => setF_kept) _ _) hs5
      exact .next (.core hs6)

theorem warmS4_kept : Kept s (warmS4 s) := .ite (.after startS4_kept checkProfile_kept) (.refl _)

theorem execBallastRundownDone_kept : KeptNext s (execBallastRundownDone s) := by
  unfold execBallastRundownDone
  split
  · exact .next (.refl _)
  · extract_lets _ s1 s2 s3 _
    have hs1 : Kept s s1 := .after warmRestore_kept .of_core
    have hs2 : Kept s s2 := .ite hs1 (.after setLocks_kept hs1)
    have hs3 : Kept s s3 := .after stopHeartwood_kept hs2
    exact .ite (.next (.after bootStage_kept (.core hs3))) (.ite (.next (.after bootStage_kept hs2)) (.next
      (.after warmS4_kept hs2)))

theorem execResetChip_kept : KeptNext s (execResetChip s) :=
  runCmd_kept (fun _ => .ite respond_kept (.after warmDue_kept respond_kept))

theorem execF4HoldExpiry_kept : KeptNext s (execF4HoldExpiry s) := by
  unfold execF4HoldExpiry
  dsimp only
  split
  · exact .next (.refl _)
  · exact .ite (.next (.refl _)) (.ite (.next warmDue_kept) (.next (.after bootStage_kept (.after resetReg_kept (.core
      (t := setF (stopHeartwood (warmRestore s)) Reg.MGT_BOOT_INFO_RESTARTED 1) (.after setF_kept
      (.after stopHeartwood_kept warmRestore_kept)))))))

theorem execLoadVolatileEnd_kept : KeptNext s (execLoadVolatileEnd s) := by
  refine runStaging_kept fun c => ?_
  split
  · exact respond_kept
  · extract_lets _ s1 r base bad s2 s3 s4
    have hs1 : Kept s s1 := .of_core
    clear_value bad
    refine .ite (.after respond_kept hs1) ?_
    split
    · exact .after respond_kept (.after setF_kept hs1)
    · refine .ite (.after respond_kept hs1) ?_
      have hs2 : Kept s s2 := .after warmRestore_kept (.after respond_kept hs1)
      have hs3 : Kept s s3 := .after setF_kept (.after setF_kept (.after setF_kept hs2))
      have hs4 : Kept s s4 := .after (.foldl (fun _ _ => setF_kept) _ _) hs3
      exact .after startS4_kept (.core hs4)

theorem execThermtrip_kept : KeptNext s (execThermtrip s) := by
  unfold execThermtrip
  split
  · exact .next (.refl _)
  · extract_lets s1 s2 s3 _ _ keep vid
    have hs3 : Kept s s3 := .after setF_kept (.after setF_kept (.after setF_kept (.after resetRegs_kept
      (.after setCause_kept (.after recordFault_kept spoilSlot_kept)))))
    clear_value s3
    have hkeep : Kept s keep := ⟨hs3.fixed, fun _ => rfl⟩
    have hvid : Kept s vid := .ite hkeep (.after drive_kept hkeep)
    exact .next (.after drive_kept hvid)

theorem pcieReset_kept : Kept s (pcieReset s) := .after resetReg_kept .of_core

theorem perstLike_kept : Kept s (perstLike s) := by
  unfold perstLike
  exact .ite (.after warmDue_kept (.after setLocks_kept pcieReset_kept)) (.after setLocks_kept pcieReset_kept)

theorem execPerstAssert_kept : KeptNext s (execPerstAssert s) := by
  unfold execPerstAssert
  exact .ite (.next (.refl _)) (.next (.after perstLike_kept .of_core))

theorem execPerstDeassert_kept : KeptNext s (execPerstDeassert s) := by
  unfold execPerstDeassert
  exact .ite (.next (.refl _)) (.next (.ite (.after setLocks_kept .of_core) .of_core))

theorem execHotReset_kept : KeptNext s (execHotReset s) := by
  unfold execHotReset
  exact .ite (.next (.refl _)) (.next (.ite perstLike_kept (.after setLocks_kept perstLike_kept)))

theorem execButtonLowStable_kept : KeptNext s (execButtonLowStable s) :=
  .ite (.next (.refl _)) (.next (.after setF_kept setF_kept))

theorem execButtonPress_kept : KeptNext s (execButtonPress s) := by
  unfold execButtonPress
  exact .ite (.next (.refl _)) (.ite (.next (.after setF_kept setF_kept)) (.next (.after warmDue_kept
    (.after bump_kept (.after setF_kept setF_kept)))))

theorem execButtonStuck_kept : KeptNext s (execButtonStuck s) := .ite (.next (.refl _)) (.next stickButton_kept)

theorem execButtonHonoured_kept : KeptNext s (execButtonHonoured s) :=
  .ite (.next (.refl _)) (.next (.after setF_kept setF_kept))

theorem execHeartwoodResume_kept : KeptNext s (execHeartwoodResume s) := by
  unfold execHeartwoodResume
  split
  · exact .next (.refl _)
  · extract_lets s1 _ s2
    have hs1 : Kept s s1 := .after retryFault_kept (.after setF_kept setLocks_kept)
    have hs2 : Kept s s2 := .core hs1
    exact .ite (.next (.after warmS4_kept (.after settle_kept (.after setReady_kept
      (.after repairSectors_kept hs2))))) (.next hs2)

/-! Of `Machine/Clock.lean`. -/

theorem passCancels_kept {before : State} : Kept s (passCancels before s) := .ite (.refl _) settleCancels_kept

/-! Of `Machine/Cluster.lean`. -/

theorem setCluster_kept {cl : Nat} {c : Cluster} : Kept s (setCluster s cl c) := .of_core rfl

theorem sendTo_kept {p : Nat} {st : Step} {kv : Bool} {node dst : Nat} {bs : List Byte} :
    Kept s (sendTo s p st kv node dst bs) := by
  unfold sendTo
  dsimp only
  split
  · exact .refl _
  · exact .foldl (fun _ _ => sendBulk_kept) _ _

theorem writeKept_kept {p a : Nat} {c : Cluster} : Kept s (writeKept s p a c) := by
  unfold writeKept
  exact .after (.foldl (fun _ _ => writePart_kept) _ _) (.after (.foldl (fun _ _ => writePart_kept) _ _) (.foldl
    (fun _ _ => writePart_kept) _ _))

theorem saveStep_kept {p : Nat} {st : Step} {modeI : Bool} : Kept s (saveStep s p st modeI).1 := by
  unfold saveStep
  exact .after killClusters_kept (.after writePart_kept (.foldl (fun _ _ => writeKept_kept) _ _))

theorem touchKept_kept {p a : Nat} {c : Cluster} : Kept s (touchKept s p a c) := by
  unfold touchKept
  exact .after (.foldl (fun _ _ => touchPart_kept) _ _) (.after (.foldl (fun _ _ => touchPart_kept) _ _) (.foldl
    (fun _ _ => touchPart_kept) _ _))

theorem restoreStep_kept {p : Nat} {st : Step} : Kept s (restoreStep s p st) := by
  unfold restoreStep
  exact .foldl (fun _ _ => .after setCluster_kept touchKept_kept) _ _

/-! Of `Machine/Tasks.lean`. -/

theorem setCur_kept {p : Nat} {st : Step} : Kept s (setCur s p st) := by
  unfold setCur
  exact setLane_kept

theorem offerTask_kept {p cl : Nat} {t : Task} : Kept s (offerTask s p cl t) := .ite (.refl _) chargeHeld_kept

theorem placeTask_kept {p c : Nat} {t : Task} : Kept s (placeTask s p c t) := by
  unfold placeTask
  exact .after offerTask_kept (.after setCluster_kept (.after draw_kept bump_kept))

theorem placeTasks_kept {p n : Nat} : ∀ {s : State} {st : Step}, Kept s (placeTasks p n s st).1 := by
  induction n with
  | zero => exact .refl _
  | succ k ih =>
    intro s st
    unfold placeTasks
    split
    · exact .after ih placeTask_kept
    · exact .refl _

theorem dispatch_kept {p : Nat} : Kept s (dispatch s p) := by
  unfold dispatch
  dsimp only
  split
  · exact .ite (.refl _) (.after setCur_kept placeTasks_kept)
  · exact .refl _

theorem raisePreempt_kept {p : Nat} {by_ : Option Nat} {modeI : Bool} : Kept s (raisePreempt s p by_ modeI) := by
  unfold raisePreempt
  dsimp only
  split
  · exact .refl _
  · exact .ite (.after setGroves_kept setLane_kept) setLane_kept

theorem eventNonfinite_kept {n : Nat} : Kept s (eventNonfinite s n) := .ite (.refl _) (.after bumpSat_kept raise_kept)

theorem eventNoCandidate_kept {n : Nat} : Kept s (eventNoCandidate s n) := .ite (.refl _) (.after bumpSat_kept raise_kept)

theorem eventResidual_kept {n : Nat} : Kept s (eventResidual s n) := .ite (.refl _) (.after bumpSat_kept raise_kept)

theorem eventLate_kept : Kept s (eventLate s) := .after bumpSat_kept raise_kept

theorem mergeStep_kept {p : Nat} {st : Step} : Kept s (mergeStep s p st) := by
  unfold mergeStep
  exact .after eventResidual_kept (.after eventNoCandidate_kept (.after eventNonfinite_kept setCur_kept))

theorem toSample_kept {p : Nat} : Kept s (toSample s p) := by
  unfold toSample
  dsimp only
  split
  · exact .ite mergeStep_kept (.refl _)
  · exact .refl _

theorem rereadPrompt_kept {p vocab : Nat} {acc : State × Step} {e : Nat × List W32} :
    Kept acc.1 (rereadPrompt p vocab acc e).1 := by
  unfold rereadPrompt
  split
  · exact .refl _
  · split
    · exact .refl _
    · exact .after bump_kept chargeOnly_kept

theorem execStepExecute_kept {p : Nat} {plan : PlanTasks} : KeptNext s (execStepExecute p plan s) := by
  unfold execStepExecute
  split
  · exact .next (.refl _)
  · split
    · exact .next (.refl _)
    · extract_lets vocab e s2
      have he : Kept s e.1 := .foldl_fst (fun _ _ => rereadPrompt_kept) _ (s, _)
      have hs2 : Kept s s2 := .after dispatch_kept (.after setCur_kept (.after setGroves_kept he))
      exact .ite (.next (.after raisePreempt_kept hs2)) (.next (.after toSample_kept hs2))

theorem saveIfStopped_kept {p : Nat} : Kept s (saveIfStopped s p) := by
  unfold saveIfStopped
  dsimp only
  split
  · exact .ite (.after setGroves_kept setLane_kept) (.refl _)
  · exact .refl _

theorem refusedAccess_kept {g : Nat} : Kept s (refusedAccess s g) := .after contextFault_kept raise_kept

theorem Run.flag_kept {r : Run} {f : Fld} {on : Bool} : Kept r.s (r.flag f on).s := by
  unfold Run.flag
  split
  · exact raise_kept
  · exact .refl _

theorem Run.flags_kept {r : Run} {cl : Nat} {a b c : Bool} :
    Kept r.s (r.flags cl a b c).s := .after flag_kept (.after flag_kept flag_kept)

theorem Run.load_kept {r : Run} {p a n : Nat} : Kept r.s (r.load p a n).2.s := touchPart_kept

theorem Run.store_kept {r : Run} {p a : Nat} {bs : List Byte} : Kept r.s (r.store p a bs).s := writePart_kept

theorem Run.values_kept {r : Run} {p n : Nat} {pl : Place} : Kept r.s (r.values p pl n).2.s := by
  cases pl with
  | mem => exact .after load_kept load_kept
  | _ => exact .refl _

theorem Run.put_kept {r : Run} {p cl : Nat} {pl : Place} {tensor : Option (Nat × Nat)} {ws : List W32} :
    Kept r.s (r.put p cl pl tensor ws).s := by
  cases pl with
  | mem => cases tensor <;> exact .after flags_kept (.after store_kept store_kept)
  | scratch => exact .after flags_kept (.refl _)
  | _ => exact .refl _

theorem Run.sources_kept {p n : Nat} {pls : List Place} : ∀ {r : Run}, Kept r.s (r.sources p n pls).2.s := by
  induction pls with
  | nil => exact .refl _
  | cons pl rest ih => exact .after ih values_kept

theorem runOp_kept {r : Run} {p cl : Nat} {op : ClusterOp} : Kept r.s (runOp p cl r op).s := by
  cases op with
  | mac => exact .after Run.flags_kept (.after Run.put_kept (.after Run.values_kept Run.values_kept))
  | vec => exact .after Run.flags_kept (.after Run.put_kept Run.sources_kept)
  | put => exact Run.store_kept
  | send => exact .after sendTo_kept Run.load_kept
  | tile => exact .refl _

theorem runOps_kept {r : Run} {p cl : Nat} {ops : List ClusterOp} :
    Kept r.s (runOps p cl r ops).s := .foldl_on Run.s (fun _ _ => runOp_kept) _ _

theorem execTaskComplete_kept {p g l tag task : Nat} : KeptNext s (execTaskComplete p g l tag task s) := by
  unfold execTaskComplete
  extract_lets cl
  split
  · exact .next (.refl _)
  · split
    · exact .next (.refl _)
    · split
      · exact .next (.refl _)
      · extract_lets s0 r s1
        have hr : Kept s r.s := .after runOps_kept bump_kept
        have hs1 : Kept s s1 := .after setCur_kept (.after setCluster_kept hr)
        exact .ite (.next (.after refusedAccess_kept hs1)) (.next (.after toSample_kept (.after dispatch_kept
          (.after saveIfStopped_kept hs1))))

theorem execTaskWatchdog_kept {p cl : Nat} : KeptNext s (execTaskWatchdog p cl s) := by
  unfold execTaskWatchdog
  dsimp only
  split
  · exact .next (.refl _)
  · split
    · exact .next (.refl _)
    · exact .ite (.next (.refl _)) (.next contextFault_kept)

theorem flagShard_kept {p : Nat} {os : List ShardOut} : Kept s (flagShard s p os) := by
  unfold flagShard
  exact .ite (.after raise_kept (.ite (.after raise_kept draw_kept) draw_kept)) (.ite
    (.after raise_kept draw_kept) draw_kept)

theorem drawDrafts_kept {st : Step} : Kept s (drawDrafts s st).1 := by
  unfold drawDrafts
  extract_lets items j
  refine .foldl_fst (fun a it => .foldl_fst (fun b h => ?_) _ _) _ (s, _)
  split
  · extract_lets n ls ks s1
    have hs1 : Kept b.1 s1 := eventNonfinite_kept
    split
    · exact .refl _
    · split
      · exact hs1
      · exact hs1
  · exact .refl _

theorem sendCand_kept {p : Nat} {st : Step} : Kept s (sendCand s p st) := by
  unfold sendCand
  dsimp only
  split
  · exact .refl _
  · split
    · exact .foldl (fun _ _ => sendMsg_kept) _ _
    · exact .refl _

theorem execCandidateArrive_kept {p tag shard : Nat} {ps : List PosLogits} :
    KeptNext s (execCandidateArrive p tag shard ps s) := by
  unfold execCandidateArrive
  dsimp only
  split
  · exact .next eventLate_kept
  · exact .ite (.next eventLate_kept) (.ite (.next (.refl _)) (.ite (.ite (.next (.refl _)) (.ite (.next
      (.after sendCand_kept (.after setCur_kept flagShard_kept))) (.next (.after setCur_kept flagShard_kept)))) (.ite
      (.ite (.next (.refl _)) (.ite (.next (.after setCur_kept (.after drawDrafts_kept flagShard_kept))) (.next
      (.after setCur_kept flagShard_kept)))) (.ite (.next (.refl _)) (.next (.after toSample_kept
      (.after setCur_kept flagShard_kept)))))))

/-! Of `Machine/Commit.lean`. -/

theorem commitPages_kept {p i : Nat} {r : Req} {pLog2 append : Nat} {draft : Bool} :
    Kept s (commitPages s p i r pLog2 append draft) := by
  unfold commitPages
  exact .after useReservation_kept (.after charge_kept mapPages_kept)

theorem commitSeqPages_kept {p g : Nat} {dr : Option Nat} {i : Nat} {r : Req} {ptr : Nat × Nat} :
    Kept s (commitSeqPages s p g dr i r ptr) := by
  unfold commitSeqPages
  dsimp only
  split
  · refine .after commitPages_kept ?_
    split
    · exact commitPages_kept
    · exact .refl _
  · split
    · exact commitPages_kept
    · exact .refl _

theorem chargeLevel_kept {t n : Nat} : Kept s (chargeLevel s t n) := .ite (.refl _) setLevel_kept

theorem chargePrefill_kept {p : Nat} {r : Req} {n : Nat} : Kept s (chargePrefill s p r n) := by
  unfold chargePrefill
  dsimp only
  split
  · exact .after bump_kept (.after lower_kept chargeLevel_kept)
  · exact bump_kept

theorem chargeTokens_kept {p : Nat} {r : Req} {n : Nat} : Kept s (chargeTokens s p r n) := by
  unfold chargeTokens
  exact .ite (.refl _) (.ite (.after bump_kept (.after bump_kept chargeLevel_kept)) (.after bump_kept chargeLevel_kept))

theorem emitSeq_kept {p i : Nat} {dr : Draw} : Kept s (emitSeq s p i dr).1 := by
  unfold emitSeq
  dsimp only
  split
  · exact .refl _
  · exact .after (.foldl (fun _ _ => queueRec_kept) _ _) (.ite (.after leaveLive_kept (.ite (.after bump_kept
      (.after bump_kept (.after bump_kept (.after bump_kept (.after bump_kept (.after chargeTokens_kept (.ite
      (.after bump_kept setReq_kept) setReq_kept))))))) (.after bump_kept (.after bump_kept (.after bump_kept
      (.after bump_kept (.after chargeTokens_kept (.ite (.after bump_kept setReq_kept) setReq_kept))))))))
      (.after writeSampler_kept (.ite (.after bump_kept (.after bump_kept (.after bump_kept (.after bump_kept
      (.after bump_kept (.after chargeTokens_kept (.ite (.after bump_kept setReq_kept) setReq_kept)))))))
      (.after bump_kept (.after bump_kept (.after bump_kept (.after bump_kept (.after chargeTokens_kept (.ite
      (.after bump_kept setReq_kept) setReq_kept)))))))))

theorem updateEst_kept {p : Nat} {st : Step} : Kept s (updateEst s p st) := by
  unfold updateEst
  exact setF_kept

theorem updateShare_kept {g out pf : Nat} : Kept s (updateShare s g out pf) := by
  unfold updateShare
  exact .after setF_kept (.ite draw_kept (.refl _))

theorem noteLast_kept {st : Step} : Kept s (noteLast s st) := by
  unfold noteLast
  dsimp only
  split
  · split
    · refine .after setF_kept ?_
      split
      · exact setF_kept
      · exact .refl _
    · split
      · exact setF_kept
      · exact .refl _
  · split
    · exact setF_kept
    · exact .refl _

theorem noteTime_kept {n : Nat} : Kept s (noteTime s n) := by
  unfold noteTime
  exact .ite (.after setF_kept setF_kept) setF_kept

theorem sendCommit_kept {p : Nat} {st : Step} {cs : List CommitSeq} : Kept s (sendCommit s p st cs) := by
  unfold sendCommit
  dsimp only
  split
  · exact .refl _
  · exact .after (.foldl (fun _ _ => sendMsg_kept) _ _) mapPeers_kept

theorem commitSeq_kept {p : Nat} {st : Step} {it : PlanItem} {acc : Committing} {h : Nat} :
    Kept acc.s (commitSeq p st it acc h).s := by
  unfold commitSeq
  extract_lets s dr adv
  split
  · exact .refl _
  · split
    · exact .refl _
    · split
      · exact expireReq_kept
      · extract_lets ptr s1 s2 s3 s4 e
        have hs1 : Kept acc.s s1 := commitSeqPages_kept (s := acc.s)
        have hs2 : Kept acc.s s2 := by
          unfold s2
          split
          · exact .after setReq_kept hs1
          · exact hs1
        have hs3 : Kept acc.s s3 := .ite (.after chargePrefill_kept hs2) hs2
        have hs4 : Kept acc.s s4 := .ite (.after bump_kept hs3) hs3
        show Kept acc.s e.1
        unfold e
        split
        · exact .after emitSeq_kept hs4
        · exact hs4

theorem commitItem_kept {p : Nat} {st : Step} {acc : Committing} {it : PlanItem} :
    Kept acc.s (commitItem p st acc it).s := by
  unfold commitItem
  extract_lets e
  have he : Kept acc.s e.s := .foldl_on Committing.s (fun _ _ => commitSeq_kept) _ _
  split
  · split
    · exact .after setCohort_kept he
    · exact he
  · exact he

theorem commitStep_kept {p : Nat} {st : Step} : Kept s (commitStep s p st) := by
  unfold commitStep
  extract_lets e s1 s2 s3 s4 s5
  have he : Kept s e.s := .foldl_on Committing.s (fun _ _ => commitItem_kept) _ { s := s, msgs := [], out := 0, pf := 0 }
  have hs1 : Kept s s1 := .after freeStaged_kept (.after updateShare_kept (.after sendCommit_kept he))
  have hs2 : Kept s s2 := by
    unfold s2
    split
    · exact .after setCtx_kept hs1
    · exact hs1
  have hs3 : Kept s s3 := .after noteTime_kept (.after noteLast_kept (.after updateEst_kept hs2))
  have hs4 : Kept s s4 := .after bump_kept (.after bump_kept hs3)
  have hs5 : Kept s s5 := .after assayEnd_kept (.after stepRecord_kept hs4)
  exact .after afterLeave_kept (.after setGroves_kept (.after clearCur_kept hs5))

theorem execStepCommit_kept {p : Nat} : KeptNext s (execStepCommit p s) := by
  unfold execStepCommit
  split
  · exact .ite (.next (.refl _)) (.next (.after settleCancels_kept (.after issueStep_kept
      (.after retryWaits_kept commitStep_kept))))
  · exact .next (.refl _)

/-! Of `Machine/Planisher.lean`. -/

theorem setRampPeer_kept {i : Nat} {x : RampPeer} : Kept s (setRampPeer s i x) := .of_core rfl

theorem agePeer_kept {i : Nat} : Kept s (agePeer s i) := by
  unfold agePeer
  exact .ite (.refl _) (.ite (.after setF_kept setRampPeer_kept) (.ite (.after setF_kept (.after raise_kept
    (.after powerEvent_kept (.after bumpSat_kept setRampPeer_kept)))) (.after bumpSat_kept setRampPeer_kept)))

theorem allowancesOf_kept : Kept s (allowancesOf s).1 := by
  unfold allowancesOf
  dsimp only
  split
  · exact .after setF_kept (.after setF_kept (.foldl (fun _ _ => agePeer_kept) _ _))
  · exact .refl _

theorem switchTo_kept {k : Nat} : Kept s (switchTo s k) := .after updatePred_kept (.after setF_kept setF_kept)

theorem changeStep_kept {k : Nat} : Kept s (changeStep s k) := by
  unfold changeStep
  dsimp only
  split
  · exact .refl _
  · split
    · exact .ite .of_core (.refl _)
    · exact .ite (.after updatePred_kept (.after setVid_kept (.core .of_core))) (.after setVid_kept
        (.after switchTo_kept .of_core))

theorem stepRules_kept {tgt ballast : Nat} {capped : Bool} : Kept s (stepRules s tgt ballast capped) := by
  unfold stepRules
  exact .ite (.refl _) (.ite (.ite (.refl _) changeStep_kept) (.ite changeStep_kept (.ite changeStep_kept (.refl _))))

theorem execCclkSwitch_kept : KeptNext s (execCclkSwitch s) := by
  unfold execCclkSwitch
  dsimp only
  split
  · exact .next (.refl _)
  · split
    · exact .next (.refl _)
    · refine .next ?_
      split
      · exact .after changeStep_kept (.after switchTo_kept .of_core)
      · exact .after switchTo_kept .of_core

theorem readSensors_kept {rs : List (Nat × Int)} : Kept s (readSensors s rs) := by
  unfold readSensors
  extract_lets upd l _ s1 t s2 top _ _ s3 calm
  have hs1 : Kept s s1 := .of_core
  have hs2 : Kept s s2 := by
    unfold s2
    clear_value t
    split
    · exact .after setF_kept hs1
    · exact hs1
  have hs3 : Kept s s3 := .ite (.core hs2) hs2
  exact .core hs3

theorem readMonitor_kept {meas : Option Nat} : Kept s (readMonitor s meas) := by
  unfold readMonitor
  dsimp only
  split
  · exact .after setF_kept .of_core
  · exact .ite (.after raise_kept .of_core) .of_core

theorem excursion_kept {pred : Nat} : Kept s (excursion s pred).1 := by
  unfold excursion
  extract_lets m above n brk _ s1 st e g s2
  have hs1 : Kept s s1 := .of_core
  have hs2 : Kept s s2 := .ite (.after setF_kept (.after draw_kept hs1)) (.after setF_kept hs1)
  split
  · exact .refl _
  · split
    · exact hs1
    · dsimp only
      exact .after powerEvent_kept (.after raise_kept hs2)

theorem coolant_kept {hundred : Bool} : Kept s (coolant s hundred) := by
  unfold coolant
  exact .after setF_kept (.core (t := if getF s Reg.PWR_THERM3_TAU_COOL_S = 0 then (draw s).2 else s) (.ite draw_kept
    (.refl _)))

theorem gainStep_kept {hundred : Bool} : Kept s (gainStep s hundred) := by
  unfold gainStep
  exact .ite .of_core (.ite .of_core (.after setF_kept .of_core))

theorem closePeriod_kept : Kept s (closePeriod s).1 := by
  unfold closePeriod
  extract_lets pred b tgt s1 s2 n hundred _ x q s3
  have hs1 : Kept s s1 := .ite (.after raise_kept powerEvent_kept) (.refl _)
  have hs2 : Kept s s2 := .after updatePred_kept (.after setF_kept hs1)
  have hx : Kept s x.1 := .after excursion_kept (.after gainStep_kept (.after coolant_kept (.core hs2)))
  exact .core hx

theorem execPlanisherPeriod_kept {meas : Option Nat} {sensors : List (Nat × Int)} :
    KeptNext s (execPlanisherPeriod meas sensors s) := by
  unfold execPlanisherPeriod
  split
  · exact .next (.refl _)
  · extract_lets _ s1 c a s2 s3 _ s4
    have hs1 : Kept s s1 := .after readMonitor_kept (.after readSensors_kept .of_core)
    have hc : Kept s c.1 := .after closePeriod_kept hs1
    have ha : Kept s a.1 := .after allowancesOf_kept hc
    have hs2 : Kept s s2 := .after setBounds_kept ha
    have hs3 : Kept s s3 := .after showPower_kept (.after stepRules_kept (.after showPower_kept hs2))
    have hs4 : Kept s s4 := .ite (.core hs3) hs3
    exact .ite (.next (.after showPower_kept hs1)) (.ite (.next (.after showPower_kept hs2)) (.next
      (.after retryWaits_kept hs4)))

theorem execHandoverHoldExpiry_kept {p : Nat} : KeptNext s (execHandoverHoldExpiry p s) := by
  unfold execHandoverHoldExpiry
  exact .ite (.next (.refl _)) (.next setPower_kept)

theorem limitChanged_kept : Kept s (limitChanged s) := .ite (.after retryWaits_kept showPower_kept) showPower_kept

theorem execBatteryModeBegin_kept {bbuLow : Bool} : KeptNext s (execBatteryModeBegin bbuLow s) := by
  unfold execBatteryModeBegin
  exact .ite (.next (.ite .of_core (.refl _))) (.next (.after limitChanged_kept (.after beginBattery_kept
    (.ite .of_core (.refl _)))))

theorem execBatteryModeEnd_kept : KeptNext s (execBatteryModeEnd s) := by
  unfold execBatteryModeEnd
  exact .ite (.next (.ite (.refl _) .of_core)) (.next (.after limitChanged_kept (.after setF_kept (.ite
    (.refl _) .of_core))))

theorem pmbusSend_kept {d cmd : Nat} : Kept s (pmbusSend s d cmd) := emit_kept

theorem pmbusRead_kept {d cmd : Nat} {again : Bool} : Kept s (pmbusRead s d cmd again) := by
  unfold pmbusRead
  exact .ite (.after recordFault_kept (.after pmbusSend_kept pmbusSend_kept)) pmbusSend_kept

theorem shelfLost_kept {d cmd : Nat} : Kept s (shelfLost s d cmd) := by
  unfold shelfLost
  exact .after setCause_kept (.after recordFault_kept (.after raise_kept (.after powerEvent_kept (.after setF_kept
    (.after pmbusSend_kept pmbusSend_kept)))))

theorem showStatus_kept {d status : Nat} : Kept s (showStatus s d status) := by
  unfold showStatus
  exact .ite (.after setF_kept (.after setF_kept setF_kept)) (.after setF_kept setF_kept)

theorem showRead_kept {d : Nat} {x : ShelfRead} {cmd : Nat} : Kept s (showRead s d x cmd) := by
  unfold showRead
  exact .ite (.after setF_kept (.ite .of_core (.ite showStatus_kept (.ite setF_kept (.ite setF_kept (.refl _))))))
    (.ite .of_core (.ite showStatus_kept (.ite setF_kept (.ite setF_kept (.refl _)))))

theorem pollReads_kept {d : Nat} {x : ShelfRead} {l : List Nat} : ∀ {k : Nat} {s : State}, Kept s (pollReads d x l k s) := by
  induction l with
  | nil => exact .refl _
  | cons c cs ih =>
    intro k s
    unfold pollReads
    split
    · exact shelfLost_kept
    · exact .after ih (.after showRead_kept pmbusRead_kept)

theorem pollOne_kept {reads : List (Nat × ShelfRead)} {tenth : Bool} {d : Nat} : Kept s (pollOne reads tenth s d) := by
  unfold pollOne
  dsimp only
  split
  · exact .refl _
  · split
    · exact shelfLost_kept
    · exact pollReads_kept

theorem afterShelf_kept {old : State} : Kept s (afterShelf old s) := by
  refine .after limitChanged_kept ?_
  split
  · exact .of_core
  · exact .refl _

theorem execPmbusPoll_kept {reads : List (Nat × ShelfRead)} : KeptNext s (execPmbusPoll reads s) := by
  unfold execPmbusPoll
  split
  · exact .next (.refl _)
  · exact .next (.after afterShelf_kept (.after (.foldl (fun _ _ => pollOne_kept) _ _) .of_core))

theorem execShelfRetry_kept {d : Nat} {status : Option (Nat × Bool)} : KeptNext s (execShelfRetry d status s) := by
  unfold execShelfRetry
  extract_lets at_ _ s1
  split
  · exact .next (.refl _)
  · have hs1 : Kept s s1 := .of_core
    split
    · exact .next (.after recordFault_kept (.after pmbusSend_kept (.after pmbusSend_kept hs1)))
    · exact .next (.after afterShelf_kept (.after showStatus_kept (.after pmbusSend_kept (.after setF_kept
        (.after pmbusRead_kept hs1)))))

theorem execThermalEmergencyBegin_kept {alertLow : Bool} : KeptNext s (execThermalEmergencyBegin alertLow s) := by
  unfold execThermalEmergencyBegin
  extract_lets _ s1 hot s2 e s3 _
  have hs1 : Kept s s1 := .ite .of_core (.refl _)
  have hs2 : Kept s s2 := .after powerEvent_kept (.after raise_kept (.after setF_kept hs1))
  have he : Kept s e.2 := .after thermCap_kept hs2
  have hs3 : Kept s s3 := .after setF_kept he
  exact .ite (.next hs1) (.next (.after limitChanged_kept (.after updatePred_kept (.after changeStep_kept
    (.core hs3)))))

theorem execThermalEmergencyEnd_kept : KeptNext s (execThermalEmergencyEnd s) := by
  unfold execThermalEmergencyEnd
  dsimp only
  split
  · exact .next (.ite (.refl _) .of_core)
  · exact .ite (.next (.ite (.refl _) .of_core)) (.next (.after limitChanged_kept (.after updatePred_kept
      (.after setF_kept (.ite (.refl _) .of_core)))))

theorem execRamp_kept {src : Nat} {r : RampMsg} : KeptNext s (execRamp src r s) := by
  unfold execRamp
  exact .ite (.next linkDropped_kept) (.ite (.next (.refl _)) (.next setRampPeer_kept))

theorem execRampSend_kept : KeptNext s (execRampSend s) := by
  unfold execRampSend
  dsimp only
  split
  · exact .next (.refl _)
  · exact .ite (.next (.refl _)) (.next (.after (.foldl (fun _ _ => sendBare_kept) _ _) .of_core))

theorem traceStamp_kept {port peer msg stamp : Nat} {recv : Bool} : Kept s (traceStamp s port peer msg stamp recv) :=
  .foldl (fun _ _ => traceLink_kept) _ _

theorem execStamp_kept {h : LinkHdr} {time : Nat} : KeptNext s (execStamp h time s) :=
  .ite (.next linkDropped_kept) (.next traceStamp_kept)

theorem execStampSend_kept : KeptNext s (execStampSend s) := by
  unfold execStampSend
  exact .ite (.next (.refl _)) (.next (.after (.foldl (fun _ _ => .ite (.refl _) (.after emit_kept
    (.after traceStamp_kept (.after queueFlits_kept .of_core)))) _ _) .of_core))

/-! Of `Machine/Preempt.lean`. -/

theorem composeFor_kept {p g : Nat} : Kept s (composeFor s p g) := by
  unfold composeFor
  exact .ite (.refl _) setLane_kept

theorem execPreemptRaise_kept {p : Nat} : KeptNext s (execPreemptRaise p s) := by
  unfold execPreemptRaise
  dsimp only
  split
  · exact .next (.refl _)
  · split
    · exact .next (.refl _)
    · split
      · exact .next (.refl _)
      · exact .next (.after composeFor_kept raisePreempt_kept)

theorem stopTask_kept {tiles : Bool} {p : Nat} {r : Run} {e : Nat × Task × Nat} : Kept r.s (stopTask tiles p r e).s := by
  unfold stopTask
  split
  · exact .refl _
  · extract_lets s0 x
    have hs0 : Kept r.s s0 := .after dropWaits_kept draw_kept
    have hx : Kept r.s x.s := .after (runOps_kept (r := ⟨s0, _, _, _⟩)) hs0
    exact .after setCluster_kept hx

theorem stopAll_kept {p : Nat} {st : Step} : Kept s (stopAll s p st).s :=
  .foldl_on Run.s (fun _ _ => stopTask_kept) _ ⟨s, Cluster.dead, st, false⟩

theorem execClusterTileStop_kept {p cl : Nat} : KeptNext s (execClusterTileStop p cl s) := by
  unfold execClusterTileStop
  extract_lets l
  split
  · split
    · split
      · exact .next (.refl _)
      · extract_lets r s1
        have hr : Kept s r.s := stopTask_kept (r := ⟨s, _, _, _⟩)
        have hs1 : Kept s s1 := .after setCur_kept hr
        exact .ite (.next (.after refusedAccess_kept hs1)) (.next (.after saveIfStopped_kept hs1))
    · exact .next (.refl _)
  · exact .next (.refl _)

theorem toModeI_kept {p : Nat} {pr : Preempt} : Kept s (toModeI s p pr) := by
  unfold toModeI
  exact .after setGroves_kept setLane_kept

theorem execPreemptEscalate_kept {p : Nat} : KeptNext s (execPreemptEscalate p s) := by
  unfold execPreemptEscalate
  split
  · exact .ite (.next (.refl _)) (.next (.after raise_kept toModeI_kept))
  · exact .next (.refl _)

theorem countPreempted_kept {st : Step} : Kept s (countPreempted s st) :=
  .ite (.refl _) (.foldl (fun _ _ => .ite bump_kept (.refl _)) _ _)

theorem noteSave_kept {p : Nat} {st : Step} {pr : Preempt} {at_ : Nat} : Kept s (noteSave s p st pr at_) := by
  unfold noteSave
  exact .after bump_kept (.after setF_kept (.ite (.after bumpSat_kept (.ite (.after setF_kept setF_kept) setF_kept))
    (.after bumpSat_kept (.ite (.after setF_kept setF_kept) setF_kept))))

theorem issuePreempting_kept {p : Nat} : Kept s (issuePreempting s p) := by
  unfold issuePreempting
  dsimp only
  split
  · split
    · exact .after composeFor_kept (.after setLane_kept discardStep_kept)
    · exact issueStep_kept
  · split
    · exact .ite (.refl _) (.after composeFor_kept setLane_kept)
    · exact .refl _
  · exact .refl _

theorem execPreemptSaveDone_kept {p : Nat} : KeptNext s (execPreemptSaveDone p s) := by
  unfold execPreemptSaveDone
  extract_lets l
  split
  · split
    · exact .next (.refl _)
    · split
      · exact .next (.refl _)
      · extract_lets r bytes e _ st1 _ s1 s2 s3
        have hr : Kept s r.s := stopAll_kept
        have he : Kept s e.1 := .after saveStep_kept (.after chargeOnly_kept hr)
        have hs1 : Kept s s1 := .after setLane_kept he
        have hs2 : Kept s s2 := .after noteSave_kept hs1
        have hs3 : Kept s s3 :=
          .after stepRecord_kept (.after countPreempted_kept (.after setPower_kept (.after setGroves_kept hs2)))
        exact .ite (.next (.after refusedAccess_kept (.after setCur_kept hr))) (.next (.after issuePreempting_kept hs3))
  · exact .next (.refl _)

theorem preemptWait_kept {p : Nat} {st : Step} {abandoned : Bool} : Kept s (preemptWait s p st abandoned) := by
  unfold preemptWait
  split
  · exact traceWait_kept
  · exact .refl _

theorem execRestoreDone_kept {p : Nat} {bad : Option Nat} : KeptNext s (execRestoreDone p bad s) := by
  unfold execRestoreDone
  dsimp only
  split
  · split
    · exact .next lastingRead_kept
    · exact .ite (.next (.refl _)) (.ite (.next (.after raisePreempt_kept (.after dispatch_kept
        (.after preemptWait_kept (.after stepRecord_kept (.after setF_kept (.after setPower_kept
        (.after setGroves_kept (.after (.foldl (fun _ _ => offerTask_kept) _ _) (.after setLane_kept
        (.after restoreStep_kept chargeOnly_kept))))))))))) (.next (.after toSample_kept (.after dispatch_kept
        (.after preemptWait_kept (.after stepRecord_kept (.after setF_kept (.after setPower_kept
        (.after setGroves_kept (.after (.foldl (fun _ _ => offerTask_kept) _ _) (.after setLane_kept
        (.after restoreStep_kept chargeOnly_kept))))))))))))
  · exact .next (.refl _)

theorem execImodeStopTimeout_kept {p cl : Nat} : KeptNext s (execImodeStopTimeout p cl s) := by
  unfold execImodeStopTimeout
  dsimp only
  split
  · split
    · exact .ite (.next partFault_kept) (.next (.refl _))
    · exact .next (.refl _)
  · exact .next (.refl _)

theorem execSaveWriteTimeout_kept {p : Nat} : KeptNext s (execSaveWriteTimeout p s) := by
  unfold execSaveWriteTimeout
  dsimp only
  split
  · split
    · exact .ite (.next partFault_kept) (.next (.refl _))
    · exact .next (.refl _)
  · exact .next (.refl _)

theorem execDebugHalt_kept {p : Nat} : KeptNext s (execDebugHalt p s) := by
  unfold execDebugHalt
  dsimp only
  split
  · exact .next (.refl _)
  · split
    · exact .ite (.next (.after setLane_kept setLane_kept)) (.next (.after toModeI_kept
        (.after setLane_kept setLane_kept)))
    · exact .ite (.next (.after raisePreempt_kept setLane_kept)) (.next setLane_kept)
    · exact .next setLane_kept

theorem dropNext_kept {p : Nat} : Kept s (dropNext s p) := by
  unfold dropNext
  dsimp only
  refine .after setLane_kept ?_
  split
  · exact discardStep_kept
  · exact .refl _

theorem execDebugHaltRelease_kept {p : Nat} : KeptNext s (execDebugHaltRelease p s) := by
  unfold execDebugHaltRelease
  dsimp only
  split
  · exact .next (.refl _)
  · split
    · exact .ite (.next (.after startRestore_kept (.after dropNext_kept setLane_kept))) (.next
        (.after issueStep_kept setLane_kept))
    · exact .next (.after issueStep_kept setLane_kept)

theorem abandonFlag_kept {p : Nat} : Kept s (abandonFlag s p) := by
  unfold abandonFlag
  dsimp only
  split
  · exact raise_kept
  · split
    · split
      · exact .ite raise_kept raise_kept
      · exact raise_kept
    · exact .refl _

theorem abandonHolder_kept {p : Nat} {st : Step} : Kept s (abandonHolder s p st) := by
  unfold abandonHolder
  exact .after afterLeave_kept (.after raiseAbandon_kept (.after clearCur_kept (.after abandonGroup_kept
    (.after abandonStep_kept (.ite (.after preemptWait_kept abandonFlag_kept) abandonFlag_kept)))))

theorem abandonPreempted_kept {p : Nat} {st : Step} : Kept s (abandonPreempted s p st) := by
  unfold abandonPreempted
  exact .after afterLeave_kept (.after setLane_kept (.after abandonStep_kept (.after preemptWait_kept raise_kept)))

theorem execStepDeadline_kept {p n : Nat} : KeptNext s (execStepDeadline p n s) := by
  unfold execStepDeadline
  dsimp only
  split
  · exact .next (.refl _)
  · split
    · exact .next (.after settleCancels_kept abandonHolder_kept)
    · split
      · exact .next abandonPreempted_kept
      · exact .next (.refl _)

theorem abandonDone_kept {p : Nat} : Kept s (abandonDone s p) := by
  unfold abandonDone
  dsimp only
  split
  · exact .refl _
  · refine .after issueStep_kept ?_
    split
    · split
      · exact .after sendMsg_kept (.after setLane_kept (.ite (.after setGroves_kept setLane_kept) setLane_kept))
      · exact .after setLane_kept (.ite (.after setGroves_kept setLane_kept) setLane_kept)
    · exact .ite (.after setGroves_kept setLane_kept) setLane_kept

theorem execGroveAbandonAck_kept {p g : Nat} : KeptNext s (execGroveAbandonAck p g s) := by
  unfold execGroveAbandonAck
  exact .ite (.next (.refl _)) (.next (.ite (.after retryWaits_kept (.after abandonDone_kept setLane_kept))
    (.after abandonDone_kept setLane_kept)))

theorem execComposeTimeout_kept {p : Nat} : KeptNext s (execComposeTimeout p s) :=
  .ite (.next partFault_kept) (.next (.refl _))

/-! Of `Machine/Groups.lean`. -/

theorem execSetRoutes_kept : KeptNext s (execSetRoutes s) := by
  unfold execSetRoutes
  exact runCmd_kept (fun _ => .ite respond_kept (.after respond_kept (.after loseUnrouted_kept (.after reroute_kept
    (.foldl (fun _ _ => .after setF_kept setF_kept) _ _)))))

theorem showGroup_kept {n st role gid members : Nat} {nodes : List (Nat × Nat)} :
    Kept s (showGroup s n st role gid members nodes) := by
  unfold showGroup
  exact .after (.foldl (fun _ _ => setF_kept) _ _) (.after setF_kept (.after setF_kept (.after setF_kept setF_kept)))

theorem execDefineGroup_kept : KeptNext s (execDefineGroup s) := by
  unfold execDefineGroup
  dsimp only
  refine runCmd_kept (fun _ => ?_)
  split
  · exact respond_kept
  · split
    · exact respond_kept
    · exact .ite respond_kept (.after respond_kept (.after showGroup_kept setGroup_kept))

theorem hear_kept {slot node : Nat} : Kept s (hear s slot node) := mapPeers_kept

theorem heardMsg_kept {slot : Nat} {h : LinkHdr} {ftype tag : Nat} : Kept s (heardMsg s slot h ftype tag) :=
  .after traceLink_kept hear_kept

theorem linkWait_kept {p g tag start : Nat} {waiter : Nat × Nat} {h : LinkHdr} :
    Kept s (linkWait s p g tag start waiter h) :=
  traceWait_kept

theorem groupMsg_kept {g : Option (Nat × Group)} {f : Nat → Group → State} (h : ∀ a b, Kept s (f a b)) :
    KeptNext s (groupMsg s g f) := by
  unfold groupMsg
  split
  · exact .next linkDropped_kept
  · split
    · exact .ite (.next (h _ _)) (.next (.refl _))
    · exact .next (.refl _)

theorem execMgmtForm_kept {h : LinkHdr} {gid modelId index : Nat} : KeptNext s (execMgmtForm h gid modelId index s) := by
  unfold execMgmtForm
  dsimp only
  split
  · exact .next (.refl _)
  · split
    · exact .next (.refl _)
    · split
      · exact .next (.refl _)
      · refine .next (.after sendBare_kept ?_)
        split
        · exact hear_kept
        · exact .after showGroup_kept setGroup_kept

theorem formGroup_kept {n : Nat} {x : Group} : Kept s (formGroup s n x) := by
  unfold formGroup
  exact .after enterReady_kept (.after setGroup_kept (.after setF_kept setF_kept))

theorem execMgmtFormAck_kept {h : LinkHdr} {gid : Nat} {info : FormInfo} : KeptNext s (execMgmtFormAck h gid info s) := by
  unfold execMgmtFormAck
  dsimp only
  split
  · exact .next (.refl _)
  · exact .ite (.next (.after formGroup_kept setGroup_kept)) (.next setGroup_kept)

theorem execFormResend_kept {n : Nat} : KeptNext s (execFormResend n s) := by
  unfold execFormResend
  split
  · exact .ite (.next (.refl _)) (.next (.after (.foldl (fun _ _ => sendBare_kept) _ _) setGroup_kept))
  · exact .next (.refl _)

theorem execMgmtHeartbeat_kept {h : LinkHdr} {gid : Nat} {answer : Bool} :
    KeptNext s (execMgmtHeartbeat h gid answer s) := by
  unfold execMgmtHeartbeat
  split
  · exact .next (.refl _)
  · split
    · split
      · exact .next hear_kept
      · exact .next (.refl _)
    · split
      · exact .next (.after sendBare_kept (.after setF_kept hear_kept))
      · exact .next (.refl _)

theorem execHeartbeatSend_kept {n : Nat} : KeptNext s (execHeartbeatSend n s) := by
  unfold execHeartbeatSend
  split
  · exact .ite (.next (.refl _)) (.next (.after (.foldl (fun _ _ => sendBare_kept) _ _) setGroup_kept))
  · exact .next (.refl _)

theorem execPeerLoss_kept {n node : Nat} : KeptNext s (execPeerLoss n node s) := by
  unfold execPeerLoss
  split
  · exact .ite (.next loseGroup_kept) (.next (.refl _))
  · exact .next (.refl _)

theorem execMgmtLeave_kept {h : LinkHdr} {gid : Nat} : KeptNext s (execMgmtLeave h gid s) := by
  unfold execMgmtLeave
  dsimp only
  split
  · exact .next (.refl _)
  · split
    · exact .ite (.next (.refl _)) (.ite (.next loseGroup_kept) (.next mapPeers_kept))
    · split
      · exact .ite (.next loseGroup_kept) (.next (.refl _))
      · exact .next (.refl _)

theorem peerRecord_kept {p : Nat} {st : Step} {ev : Nat} : Kept s (peerRecord s p st ev) := traceStep_kept

theorem execPlan_kept {h : LinkHdr} {gid tag : Nat} {seqs : List PlanSeq} : KeptNext s (execPlan h gid tag seqs s) := by
  unfold execPlan
  refine groupMsg_kept fun n x => ?_
  extract_lets p g s1
  have hs1 : Kept s s1 := .after setF_kept heardMsg_kept
  split
  · exact hs1
  · split
    · exact hs1
    · extract_lets us
      split
      · exact .after sendMsg_kept (.after bumpSat_kept hs1)
      · next ht =>
        extract_lets x1 st _ s3 s4
        have hs2 : Kept s _ := .after (takePages_kept ht) hs1
        have hs3 : Kept s s3 := .after setLane_kept (.after setGroup_kept hs2)
        have hs4 : Kept s s4 := .after peerRecord_kept (.after setPower_kept (.after bump_kept hs3))
        exact .after sendMsg_kept hs4

theorem commitPeerSeq_kept {p layersP : Nat} {cs : List CommitSeq} {acc : State × Group} {q : PlanSeq} :
    Kept acc.1 (commitPeerSeq p layersP cs acc q).1 := by
  unfold commitPeerSeq
  extract_lets f h
  split
  · exact freeWhere_kept
  · dsimp only
    exact mapPages_kept

theorem execCommit_kept {h : LinkHdr} {gid tag : Nat} {seqs : List CommitSeq} :
    KeptNext s (execCommit h gid tag seqs s) := by
  unfold execCommit
  refine groupMsg_kept fun n x => ?_
  extract_lets p s1
  have hs1 : Kept s s1 := heardMsg_kept
  split
  · extract_lets e s2 s3
    have he : Kept s e.1 := .after (.foldl_fst (fun _ _ => commitPeerSeq_kept) _ (s1, _)) hs1
    have hs2 : Kept s s2 := .after bump_kept (.after setGroup_kept he)
    have hs3 : Kept s s3 := .after assayEnd_kept (.after peerRecord_kept hs2)
    exact .after issueStep_kept (.after retryWaits_kept (.after afterLeave_kept (.after setGroves_kept
      (.after clearCur_kept hs3))))
  · exact hs1

theorem execAbandon_kept {h : LinkHdr} {gid tag : Nat} : KeptNext s (execAbandon h gid tag s) := by
  unfold execAbandon
  dsimp only
  refine groupMsg_kept (fun _ _ => (.after setLane_kept (.after raiseAbandon_kept ?_)))
  split
  · exact .after clearCur_kept (.after assayEnd_kept (.after peerRecord_kept (.after bump_kept
      (.after freeWhere_kept heardMsg_kept))))
  · exact .after freeWhere_kept heardMsg_kept

theorem execRelease_kept {h : LinkHdr} {gid : Nat} {idxs : List Nat} : KeptNext s (execRelease h gid idxs s) := by
  unfold execRelease
  exact groupMsg_kept (fun _ _ => .after setGroup_kept (.after freeWhere_kept heardMsg_kept))

theorem execSamppage_kept {h : LinkHdr} {gid idx : Nat} {mask : List Byte} {bias : List (Nat × W32)} :
    KeptNext s (execSamppage h gid idx mask bias s) := by
  unfold execSamppage
  refine groupMsg_kept (fun _ _ => ?_)
  extract_lets p s1 u b
  have hs1 : Kept s s1 := hear_kept
  split
  · exact hs1
  · next h =>
      extract_lets pg a s3 x1 _
      have hs3 : Kept s s3 :=
    .after writePart_kept (.after writePart_kept (.after zeroPage_kept (.after (takePages_kept h) hs1)))
      exact .after setGroup_kept hs3

theorem execPlanAck_kept {h : LinkHdr} {gid tag free : Nat} {short : Bool} :
    KeptNext s (execPlanAck h gid tag free short s) := by
  unfold execPlanAck
  dsimp only
  refine groupMsg_kept (fun _ _ => ?_)
  split
  · exact heardMsg_kept
  · exact .ite (.ite (.after linkWait_kept (.after mapPeers_kept heardMsg_kept)) (.after mapPeers_kept heardMsg_kept))
      (.after setCur_kept (.ite (.after linkWait_kept (.after mapPeers_kept heardMsg_kept))
      (.after mapPeers_kept heardMsg_kept)))

theorem execCand_kept {h : LinkHdr} {gid tag : Nat} {lists : List CandPos} : KeptNext s (execCand h gid tag lists s) := by
  unfold execCand
  dsimp only
  refine groupMsg_kept (fun _ _ => ?_)
  split
  · exact .ite (.after eventLate_kept heardMsg_kept) (.ite heardMsg_kept (.after toSample_kept
      (.after setCur_kept heardMsg_kept)))
  · exact .after eventLate_kept heardMsg_kept

theorem execAbandonAck_kept {h : LinkHdr} {gid tag : Nat} : KeptNext s (execAbandonAck h gid tag s) := by
  unfold execAbandonAck
  exact groupMsg_kept (fun _ _ => .ite heardMsg_kept (.ite (.after retryWaits_kept (.after abandonDone_kept
    (.after setLane_kept (.after linkWait_kept heardMsg_kept)))) (.after abandonDone_kept (.after setLane_kept
    (.after linkWait_kept heardMsg_kept)))))

theorem execReleaseSend_kept {n : Nat} : KeptNext s (execReleaseSend n s) := by
  unfold execReleaseSend
  dsimp only
  split
  · exact .ite (.next (.refl _)) (.next (.after (.foldl (fun _ _ => sendMsg_kept) _ _) setGroup_kept))
  · exact .next (.refl _)

theorem offerBytes_kept {p : Nat} {bytes : List (Nat × Byte)} : Kept s (offerBytes s p bytes) :=
  .ite (.refl _) chargeHeld_kept

theorem execKvxfer_kept {h : LinkHdr} {gid tag : Nat} {bytes : List (Nat × Byte)} :
    KeptNext s (execKvxfer h gid tag bytes s) := by
  unfold execKvxfer
  dsimp only
  refine groupMsg_kept (fun _ _ => ?_)
  split
  · exact .after offerBytes_kept hear_kept
  · exact hear_kept

theorem execColl_kept {h : LinkHdr} {gid : Nat} {x : Tensor} : KeptNext s (execColl h gid x s) := by
  unfold execColl
  dsimp only
  refine groupMsg_kept (fun _ _ => ?_)
  split
  · exact .after offerBytes_kept hear_kept
  · exact hear_kept

theorem execMgmtPeerModelRequest_kept {h : LinkHdr} {handle : Nat} : KeptNext s (execMgmtPeerModelRequest h handle s) := by
  unfold execMgmtPeerModelRequest
  dsimp only
  split
  · exact .next (.refl _)
  · split
    · exact .next (.refl _)
    · exact .ite (.next (.refl _)) (.next (.after (.foldl (fun _ _ => sendBulk_kept) _ _) setSlot_kept))

theorem execModelxfer_kept {h : LinkHdr} {n : Nat} {bytes : List (Nat × Byte)} : KeptNext s (execModelxfer h n bytes s) := by
  unfold execModelxfer
  dsimp only
  split
  · exact .next linkDropped_kept
  · split
    · exact .next (.refl _)
    · exact .ite (.next (.refl _)) (.next (.foldl (fun _ _ => writePart_kept) _ _))

/-! Of `Machine/Park.lean`. -/

theorem parkPage_kept {p i h : Nat} {e : PageUse × Nat} : Kept s (parkPage p i h s e) := by
  unfold parkPage
  dsimp only
  split
  · exact .after chargeHeld_kept (.after chargeHeld_kept reusePage_kept)
  · exact .refl _

theorem parkSeq_kept {p i : Nat} {r : Req} : Kept s (parkSeq s p i r) := by
  unfold parkSeq
  exact .after (.foldl (fun _ _ => parkPage_kept) _ _) setReq_kept

theorem execParkStart_kept {p : Nat} : KeptNext s (execParkStart p s) := by
  unfold execParkStart
  extract_lets parks unparks short order skipped s1
  have hs1 : Kept s s1 := by
    refine .foldl (fun a e => ?_) _ _
    split
    · exact bumpSat_kept
    · exact .refl _
  clear_value s1
  refine .ite (.next (.refl _)) ?_
  split
  · split
    · exact .next (.after parkSeq_kept hs1)
    · exact .next hs1
  · exact .next hs1

theorem failCopies_kept {i : Nat} {r : Req} : Kept s (failCopies s i r) := by
  unfold failCopies
  exact .after endCopies_kept (.ite (.after endReq_kept (.after recordFault_kept dropWaits_kept))
    (.after recordFault_kept dropWaits_kept))

theorem trimSlots_kept {i : Nat} : Kept s (trimSlots s i) := by
  unfold trimSlots
  split
  · exact .ite (.refl _) freeDraftSlots_kept
  · exact .refl _

theorem execParkComplete_kept {p i : Nat} {ok : Bool} : KeptNext s (execParkComplete p i ok s) := by
  unfold execParkComplete
  dsimp only
  split
  · exact .next (.refl _)
  · exact .ite (.next (.refl _)) (.ite (.next failCopies_kept) (.ite (.next (.refl _)) (.ite (.next endCopies_kept)
      (.next (.after bump_kept (.after bumpSat_kept (.after trimSlots_kept (.after freeWhere_kept setReq_kept))))))))

theorem execUnparkStart_kept {p : Nat} : KeptNext s (execUnparkStart p s) := by
  unfold execUnparkStart
  dsimp only
  split
  · exact .next (.refl _)
  · split
    · exact .next (.refl _)
    · exact .ite (.next (.refl _)) (.next (.after chargeHeld_kept (.after chargeHeld_kept (.after setReq_kept (.getD
        (fun _ h => .after (takePages_kept h) (.getD (fun _ h => takePages_kept h) (.refl _))) (.getD
        (fun _ h => takePages_kept h) (.refl _)))))))

theorem execUnparkComplete_kept {p i : Nat} {ok : Bool} {data : List (List Byte)} :
    KeptNext s (execUnparkComplete p i ok data s) := by
  unfold execUnparkComplete
  split
  · exact .next (.refl _)
  · refine .ite (.next (.refl _)) (.ite (.next failCopies_kept) (.ite (.next (.refl _)) (.ite
      (.next endCopies_kept) ?_)))
    extract_lets h s1 s2a s2 s3
    have hs1 : Kept s s1 := by
      refine .foldl (fun a e => ?_) _ _
      split
      · exact writePart_kept
      · exact .refl _
    have hs2a : Kept s s2a := .after trimSlots_kept (.ite hs1 (.after freeWhere_kept hs1))
    exact .next (.after bumpSat_kept (.after setReq_kept (.after mapPages_kept hs2a)))

theorem execScrubRead_kept {addr : Nat} {e : EccRead} : KeptNext s (execScrubRead addr e s) :=
  .ite (.next scrubWord_kept) (.next (.refl _))

/-! Of `Machine/HostIf.lean`. -/

theorem resetFns_kept {p : Nat → Bool} : Kept s (resetFns s p) := .of_core rfl

theorem dropVfs_kept : Kept s (dropVfs s) := by
  unfold dropVfs
  exact .after resetFns_kept (.after setFn_kept (.after setF_kept (.foldl (fun _ _ => tenantReset_kept) _ _)))

theorem execVfFlr_kept {t : Nat} : KeptNext s (execVfFlr t s) :=
  .ite (.next (.refl _)) (.next (.after resetFns_kept tenantReset_kept))

theorem endPf0Cmds_kept : Kept s (endPf0Cmds s) := by
  unfold endPf0Cmds
  split
  · exact respond_kept
  · exact .refl _

theorem execPf0Flr_kept : KeptNext s (execPf0Flr s) := by
  unfold execPf0Flr
  exact .ite (.next (.refl _)) (.next (.after resetFns_kept (.core (t := endPf0Cmds (setF
    (dropVfs s) Reg.HST_DBGWIN_CTL_ENABLE 0)) (.after endPf0Cmds_kept (.after setF_kept dropVfs_kept)))))

theorem execVfEnableSet_kept {n : Nat} : KeptNext s (execVfEnableSet n s) := by
  unfold execVfEnableSet
  exact .ite (.next (.refl _)) (.next (.after setF_kept setFn_kept))

theorem execVfEnableClear_kept : KeptNext s (execVfEnableClear s) := .ite (.next (.refl _)) (.next dropVfs_kept)

theorem execBusMasterEnable_kept {n : Nat} {cmd : PciCommand} {ctl : DeviceControl} :
    KeptNext s (execBusMasterEnable n cmd ctl s) := by
  unfold execBusMasterEnable
  exact .ite (.next (.refl _)) (.next (.after sendPending_kept setFn_kept))

theorem execD3hotEntry_kept {n : Nat} {enter : Bool} : KeptNext s (execD3hotEntry n enter s) := by
  unfold execD3hotEntry
  exact .ite (.next (.refl _)) (.next (.after sendPending_kept setFn_kept))

theorem execLinkSpeedChange_kept {speed width : Nat} {flit : Bool} :
    KeptNext s (execLinkSpeedChange speed width flit s) := by
  unfold execLinkSpeedChange
  split
  · exact .next (.refl _)
  · extract_lets old s1 s2
    have hs1 : Kept s s1 := .after setF_kept (.after setF_kept setF_kept)
    have hs2 : Kept s s2 := .ite (.after raise_kept hs1) hs1
    exact .next (.ite (.after raise_kept hs2) hs2)

theorem execPcieLinkDown_kept : KeptNext s (execPcieLinkDown s) :=
  .ite (.next (.refl _)) (.next (.after chipFault_kept setF_kept))

theorem execPcieFatalError_kept : KeptNext s (execPcieFatalError s) :=
  .ite (.next (.refl _)) (.next (.after chipFault_kept logPcie_kept))

theorem failPrefill_kept {co : Nat} : Kept s (failPrefill s co) := by
  unfold failPrefill
  dsimp only
  split
  · exact .refl _
  · split
    · exact .refl _
    · split
      · exact .refl _
      · exact .after (.foldl (fun _ _ => endReq_kept) _ _) recordFault_kept

theorem dmaConsequence_kept {x : DmaRead} : Kept s (dmaConsequence s x) := by
  unfold dmaConsequence
  split
  · exact .after raise_kept setSq_kept
  · exact after_kept execSubmit_kept
  · exact failPrefill_kept
  · split
    · exact rejectCohort_kept
    · exact .refl _
  · split
    · exact .ite (after_kept execParkComplete_kept) (after_kept execUnparkComplete_kept)
    · exact .refl _
  · exact after_kept execLoadModel_kept
  · exact after_kept execModelTransferFailed_kept

theorem execDmaReadFailed_kept {what : DmaRead} {kind : DmaKind} {addr : Nat} :
    KeptNext s (execDmaReadFailed what kind addr s) := by
  unfold execDmaReadFailed
  exact .ite (.next (.refl _)) (.next (.after dmaConsequence_kept (.after raise_kept (.after setF_kept
    (.after setF_kept (.after setF_kept (.after setF_kept (.after bumpSat_kept logPcie_kept))))))))

theorem execUnexpectedCompletion_kept {n : Nat} : KeptNext s (execUnexpectedCompletion n s) :=
  .ite (.next (.refl _)) (.next (.after raise_kept logPcie_kept))

/-! Of `Machine/RegRead.lean`. -/

theorem readDevtime_kept {who : Requester} {hi : Bool} : Kept s (readDevtime s who hi).2 := by
  unfold readDevtime
  split
  · split
    · exact .of_core
    · exact .refl _
  · exact .of_core

theorem readFlt_kept {who : Requester} {k : Nat} : Kept s (readFlt s who k).2 := by
  unfold readFlt
  dsimp only
  split
  · exact .of_core
  · split
    · exact .refl _
    · split
      · exact .refl _
      · exact .of_core

theorem blocked_kept {key : Nat} {u : State} (h : blocked s key = some u) : Kept s u := by
  unfold blocked at h
  split at h
  · cases h; exact raise_kept
  · split at h
    · cases h; exact raise_kept
    · cases h

theorem readReg_kept {key : Nat} : Kept s (readReg s key).2 := by
  unfold readReg
  exact clearRc_kept

theorem readWord_kept {who : Requester} {o : Nat} : Kept s (readWord s who o).2 := by
  unfold readWord
  dsimp only
  split
  · split
    · next h => exact blocked_kept h
    · exact .refl _
  · split
    · exact .refl _
    · split
      · next h => exact blocked_kept h
      · split
        · exact readDevtime_kept
        · split
          · exact readFlt_kept
          · exact readReg_kept

theorem twoWords_kept {f : State → Nat → Nat × State} {o : Nat} (h : ∀ a b, Kept a (f a b).2) :
    Kept s (twoWords f s o).2 := by
  unfold twoWords
  exact .after (h _ _) (h _ _)

theorem partWord_kept {f : State → Nat → Nat × State} {o len : Nat} (h : ∀ a b, Kept a (f a b).2) :
    Kept s (partWord f s o len).2 := by
  unfold partWord
  dsimp only
  split
  · exact twoWords_kept (fun _ _ => h _ _)
  · exact h _ _

theorem readBar0_kept {who : Requester} {o len : Nat} : Kept s (readBar0 s who o len).2 := by
  unfold readBar0
  dsimp only
  split
  · split
    · split
      · next h => exact blocked_kept h
      · exact readReg_kept
    · exact partWord_kept (fun _ _ => readWord_kept)
  · exact partWord_kept (fun _ _ => readWord_kept)

theorem gated_kept {d v : Nat} : Kept s (gated s d v).2 := by
  unfold gated
  split
  · exact .refl _
  · exact raise_kept

theorem readBar2_kept {o : Nat} : Kept s (readBar2 s o).2 := by
  unfold readBar2
  split
  · exact gated_kept
  · split
    · exact gated_kept
    · split
      · exact gated_kept
      · exact .refl _

theorem readVf_kept {t o : Nat} : Kept s (readVf s t o).2 := by
  unfold readVf
  split
  · exact readWord_kept
  · split
    · exact gated_kept
    · split
      · exact gated_kept
      · split
        · exact gated_kept
        · split
          · split
            · exact readDevtime_kept
            · exact gated_kept
          · split
            · exact gated_kept
            · split
              · exact gated_kept
              · exact .refl _

theorem readVfBar_kept {t o len : Nat} : Kept s (readVfBar s t o len).2 := by
  unfold readVfBar
  split
  · split
    · exact .refl _
    · exact raise_kept
  · split
    · split
      · exact readBar0_kept
      · exact partWord_kept (fun _ _ => readVf_kept)
    · exact partWord_kept (fun _ _ => readVf_kept)

theorem readBar_kept {who : Requester} {bar : Bar} {o len : Nat} : Kept s (readBar s who bar o len).2 := by
  unfold readBar
  split
  · exact readBar0_kept
  · exact partWord_kept (fun _ _ => readBar2_kept)
  · exact readVfBar_kept

theorem returnRead_kept {who : Requester} {r : Nat × State} : Kept r.2 (returnRead who r) := emit_kept

theorem refuseRead_kept {who : Requester} : Kept s (refuseRead s who) := .after emit_kept refuseBar_kept

theorem abortRead_kept {who : Requester} : Kept s (abortRead s who) := by
  unfold abortRead
  dsimp only
  refine .after emit_kept ?_
  split
  · exact logPcie_kept
  · exact logPcie_kept
  · exact .refl _

theorem execRegisterRead_kept {who : Requester} {bar : Bar} {o len : Nat} :
    KeptNext s (execRegisterRead who bar o len s) :=
  .ite (.next refuseRead_kept) (.ite (.next abortRead_kept) (.next (.after returnRead_kept readBar_kept)))

theorem execMalformedRead_kept {who : Requester} {bar : Bar} {o len : Nat} :
    KeptNext s (execMalformedRead who bar o len s) :=
  .ite (.next refuseRead_kept) (.ite (.next (.refl _)) (.next abortRead_kept))

theorem execDevtimeRead_kept {who : Requester} {bar : Bar} {len : Nat} {hi : Bool} :
    KeptNext s (execDevtimeRead who bar len hi s) := by
  unfold execDevtimeRead
  exact .ite (.next (.refl _)) (.ite (.next refuseRead_kept) (.ite (.next abortRead_kept) (.next
    (.after returnRead_kept readBar_kept))))

theorem execFltLastRead_kept {who : Requester} {k len : Nat} : KeptNext s (execFltLastRead who k len s) :=
  .ite (.next (.refl _)) (.ite (.next refuseRead_kept)
    (.ite (.next abortRead_kept) (.next (.after returnRead_kept readBar0_kept))))

theorem execDebugWindowAccess_kept {o len : Nat} {data : Option (List Byte)} :
    KeptNext s (execDebugWindowAccess o len data s) := by
  unfold execDebugWindowAccess
  dsimp only
  split
  · refine .next ?_
    split
    · exact refuseBar_kept
    · exact refuseRead_kept
  · split
    · exact .ite (.next raise_kept) (.ite (.next raise_kept) (.ite (.next (.refl _)) (.next (.after touch_kept (.foldl
        (fun _ _ => storeByte_kept) _ _)))))
    · exact .ite (.next abortRead_kept) (.ite (.next (.after emit_kept raise_kept)) (.ite (.next
        (.after emit_kept draw_kept)) (.next (.after emit_kept (.after readWords_kept touch_kept)))))

/-! Of `Machine/Jtag.lean`. -/

theorem redrive_kept : Kept s (redrive s) := by
  unfold redrive
  exact .after emit_kept (.after emit_kept (.after emit_kept (.after emit_kept emit_kept)))

theorem setInstr_kept {i : TapInstr} : Kept s (setInstr s i) := by
  unfold setInstr
  exact .ite (.after redrive_kept .of_core) .of_core

theorem execBypass_kept : KeptNext s (execBypass s) := by
  unfold execBypass
  exact .next (.after emit_kept setInstr_kept)

theorem execIdcode_kept : KeptNext s (execIdcode s) := by
  unfold execIdcode
  exact .next (.after emit_kept setInstr_kept)

theorem execSamplePreload_kept {pins load : Nat} : KeptNext s (execSamplePreload pins load s) := by
  unfold execSamplePreload
  exact .next (.after emit_kept (.core (t := setInstr s TapInstr.sample) setInstr_kept))

theorem execExtest_kept {scan : Option (Nat × Nat)} : KeptNext s (execExtest scan s) := by
  unfold execExtest
  dsimp only
  split
  · exact .next (.after emit_kept setInstr_kept)
  · exact .next (.after emit_kept (.after emit_kept (.core (t := setInstr s TapInstr.extest) setInstr_kept)))

theorem execClamp_kept : KeptNext s (execClamp s) := by
  unfold execClamp
  exact .next (.after emit_kept setInstr_kept)

theorem execHighz_kept : KeptNext s (execHighz s) := by
  unfold execHighz
  exact .next (.after emit_kept setInstr_kept)

theorem execTestLogicReset_kept : KeptNext s (execTestLogicReset s) := by
  unfold execTestLogicReset
  exact .next setInstr_kept

theorem execJtagDebugAccess_kept {o len : Nat} {data : Option (W64 × Nat)} :
    KeptNext s (execJtagDebugAccess o len data s) := by
  unfold execJtagDebugAccess
  split
  · exact .next (.refl _)
  · extract_lets s1
    have hs1 : Kept s s1 := setInstr_kept
    split
    · exact .ite (.next (.after raise_kept hs1)) (.next (.after writeBar0_kept hs1))
    · exact .ite (.next (.after abortRead_kept hs1)) (.next (.after returnRead_kept (.after readBar0_kept hs1)))

/-! Of `Machine/Update.lean`. -/

theorem updRespond_kept {c : MbxCmd} {code detail : Nat} {resp : List Byte} : Kept s (updRespond s c code detail resp) :=
  .after respond_kept (.after setF_kept setF_kept)

theorem openUpdate_kept {c : MbxCmd} {target total : Nat} : Kept s (openUpdate s c target total) := by
  unfold openUpdate
  exact .after setF_kept (.after setF_kept (.after setF_kept (.core (t := spoilSlot s) spoilSlot_kept)))

theorem execUpdateBegin_kept : KeptNext s (execUpdateBegin s) := by
  unfold execUpdateBegin
  exact runCmd_kept (fun _ => .ite updRespond_kept (.ite updRespond_kept (.ite updRespond_kept
    (.after updRespond_kept openUpdate_kept))))

theorem touchUpdate_kept {u : Upd} : Kept s (touchUpdate s u) := .of_core rfl

theorem writeChunk_kept {u : Upd} {a : Nat} {b : List Byte} : Kept s (writeChunk s u a b).1 := by
  unfold writeChunk
  exact .after programFlash_kept (.foldl (fun _ _ => eraseFlash_kept) _ _)

theorem advance_kept {u : Upd} {n : Nat} : Kept s (advance s u n) := .after setF_kept .of_core

theorem execUpdateChunk_kept {ok : Bool} : KeptNext s (execUpdateChunk ok s) := by
  unfold execUpdateChunk
  dsimp only
  refine runCmd_kept (fun _ => ?_)
  split
  · exact updRespond_kept
  · exact .ite (.after updRespond_kept touchUpdate_kept) (.ite (.after updRespond_kept touchUpdate_kept) (.ite
      (.after updRespond_kept (.after advance_kept touchUpdate_kept)) (.ite (.after updRespond_kept
      (.after advance_kept (.after writeChunk_kept touchUpdate_kept))) (.after updRespond_kept (.after raise_kept
      (.core (.ite (.after writeChunk_kept touchUpdate_kept) (.after garbleFlash_kept
      (.after writeChunk_kept touchUpdate_kept)))))))))

theorem execUpdateAbort_kept : KeptNext s (execUpdateAbort s) := by
  unfold execUpdateAbort
  refine runCmd_kept (fun _ => ?_)
  split
  · exact updRespond_kept
  · split
    · exact updRespond_kept
    · exact .after updRespond_kept closeUpdate_kept

theorem execSessionIdleTimeout_kept : KeptNext s (execSessionIdleTimeout s) := by
  unfold execSessionIdleTimeout
  split
  · exact .ite (.next (.after raise_kept closeUpdate_kept)) (.next (.refl _))
  · exact .next (.refl _)

theorem commitSlot_kept {n : Nat} {r : Region} {live : Bool} : Kept s (commitSlot s n r live) := by
  unfold commitSlot
  exact .after raise_kept (.after putSlotSt_kept endUpdate_kept)

theorem imageBad_kept {c : MbxCmd} {code : Nat} : Kept s (imageBad s c code) := .ite updRespond_kept updRespond_kept

theorem commitFlash_kept {c : MbxCmd} {u : Upd} {x : RegionRead} {live : Bool} : Kept s (commitFlash s c u x live) := by
  unfold commitFlash
  extract_lets e r code s1 s2 _
  have hs1 : Kept s s1 := .after setF_kept (.after setF_kept regionReads_kept)
  have hs2 : Kept s s2 := .after updRespond_kept (.after commitSlot_kept hs1)
  exact .ite (.after imageBad_kept hs1) (.ite (.after updRespond_kept hs1) (.ite (.after fallReady_kept
    (.core hs2)) hs2))

theorem commitRoot_kept {c : MbxCmd} {u : Upd} {x : RegionRead} {ok : Bool} : Kept s (commitRoot s c u x ok) := by
  unfold commitRoot
  extract_lets r code s1 d _ _ _ s2
  have hs1 : Kept s s1 := regionReads_kept
  have hd : Kept s d.2 := .after draw_kept hs1
  have h_ : Kept s _ := hd
  have hs2 : Kept s s2 := .after endUpdate_kept (.core hs1)
  exact .ite (.after imageBad_kept hs1) (.ite (.after updRespond_kept (.core h_)) (.after updRespond_kept
    (.after raise_kept (.after wr_kept hs2))))

theorem commitUpdate_kept {c : MbxCmd} {x : RegionRead} {ok live : Bool} : Kept s (commitUpdate s c x ok live) := by
  unfold commitUpdate
  dsimp only
  split
  · exact updRespond_kept
  · exact .ite (.after updRespond_kept touchUpdate_kept) (.ite (.after updRespond_kept touchUpdate_kept) (.ite
      (.after commitRoot_kept touchUpdate_kept) (.after commitFlash_kept touchUpdate_kept)))

theorem execUpdateCommit_kept {x : RegionRead} {ok : Bool} : KeptNext s (execUpdateCommit x ok s) :=
  runCmd_kept (fun _ => commitUpdate_kept)

theorem execUpdateCommitLive_kept {x : RegionRead} {ok : Bool} : KeptNext s (execUpdateCommitLive x ok s) :=
  runCmd_kept (fun _ => commitUpdate_kept)

theorem execUpdateConfirm_kept : KeptNext s (execUpdateConfirm s) := by
  unfold execUpdateConfirm
  exact runCmd_kept (fun _ => .ite updRespond_kept (.after updRespond_kept (.after raise_kept (.after showSet_kept
    (.core (.after raiseArb_kept putSlotSt_kept))))))

theorem fallBack_kept {code : Nat} : Kept s (fallBack s code) := .after warmDue_kept failTrial_kept

theorem execUpdateRejectTrial_kept : KeptNext s (execUpdateRejectTrial s) :=
  runCmd_kept (fun _ => .ite updRespond_kept (.after fallBack_kept updRespond_kept))

theorem execConfirmWindowExpiry_kept : KeptNext s (execConfirmWindowExpiry s) := by
  unfold execConfirmWindowExpiry
  exact .ite (.next fallBack_kept) (.next (.refl _))

theorem execHeartwoodHandoff_kept {conv : List SetRec} : KeptNext s (execHeartwoodHandoff conv s) := by
  unfold execHeartwoodHandoff
  split
  · exact .ite (.next takeOver_kept) (.next (.refl _))
  · exact .next (.refl _)

theorem execLoadMicrocode_kept : KeptNext s (execLoadMicrocode s) := by
  unfold execLoadMicrocode
  exact runCmd_kept (fun _ => .ite updRespond_kept (.ite updRespond_kept (.ite updRespond_kept (.after updRespond_kept
    (.after loadLaneUcode_kept (.foldl (fun _ _ => loadGroveUcode_kept) _ _))))))

theorem changeMap_kept {f : State → State} (h : ∀ a, Kept a (f a)) : Kept s (changeMap f s) := .after storeMap_kept (h _)

theorem testSpare_kept {fails : List (Nat × Nat)} {g l k : Nat} : ∀ {s : State}, Kept s (testSpare fails g l k s) := by
  induction k with
  | zero => exact .refl _
  | succ k ih =>
    intro s
    unfold testSpare
    split
    · exact .after ih (changeMap_kept fun _ => retireCluster_kept)
    · exact .refl _

theorem execRepairClusters_kept {fails : List (Nat × Nat)} : KeptNext s (execRepairClusters fails s) := by
  unfold execRepairClusters
  exact runCmd_kept (fun _ => .ite updRespond_kept (.ite updRespond_kept (.ite updRespond_kept (.after updRespond_kept
    (.after (.foldl (fun _ _ => testSpare_kept) _ _) (changeMap_kept (fun _ => .foldl
    (fun _ _ => retireCluster_kept) _ _)))))))

/-! Of `Machine/Step.lean`. -/

theorem State.withFetchWord_kept {nbits w : Nat} : Kept s (State.withFetchWord s nbits w) := .refl _

end Sys2Proof.Machine
end

section
set_option Elab.async false
/-! ### The step -/
namespace Sys2Proof.Machine
variable {s u : State} {i : Instr}

/-- The commands that put the device in cold reset (R85). -/
def resetsCold : Instr → Bool
  | .porAssert | .undervoltage | .vaonLoss _ => true
  | _ => false

/-- Device time and its copies stand at 0, and memory is empty (R85). -/
def Restarted (u : State) : Prop :=
  (u.time, u.qTime, u.fTime, u.lTime, u.cTime, u.mTime, u.pTime, u.aTime, u.sTime, u.dram) =
    (0, 0, 0, 0, 0, 0, 0, 0, 0, [])

theorem coldReset_restarted : Restarted (coldReset s) := rfl

/-- A cold reset starts device time again, unless the pins are held. -/
theorem exec_resetsCold (hi : resetsCold i = true) (h : exec i s = .next u) : Kept s u ∨ Restarted u := by
  cases i with
  | porAssert =>
    have h : execPorAssert s = .next u := h
    unfold execPorAssert at h
    split at h
    · cases h; exact .inl (.refl _)
    · cases h; exact .inr coldReset_restarted
  | undervoltage => cases h; exact .inr coldReset_restarted
  | vaonLoss torn => cases h; exact .inr coldReset_restarted
  | _ => cases hi

/-- Every other command keeps what its operations keep. -/
theorem exec_kept (i : Instr) (hi : resetsCold i = false) : KeptNext s (exec i s) :=
  match i, hi with
  | .sqDoorbell .., _ => execSqDoorbell_kept
  | .cqDoorbell .., _ => execCqDoorbell_kept
  | .submit .., _ => execSubmit_kept
  | .cohort .., _ => execCohort_kept
  | .cancel .., _ => execCancel_kept
  | .fence .., _ => execFence_kept
  | .fencePass .., _ => execFencePass_kept
  | .itemReread .., _ => execItemReread_kept
  | .flush .., _ => execFlush_kept
  | .flushDone .., _ => execFlushDone_kept
  | .sqEnable .., _ => execSqEnable_kept
  | .sqDisable .., _ => execSqDisable_kept
  | .cqEnable .., _ => execCqEnable_kept
  | .cqDisable .., _ => execCqDisable_kept
  | .completionRecordWrite .., _ => execCompletionRecordWrite_kept
  | .coalesceTimeout .., _ => execCoalesceTimeout_kept
  | .msixUnmask .., _ => execMsixUnmask_kept
  | .reservedItemType .., _ => execReservedItemType_kept
  | .admissionEvaluate .., _ => execAdmissionEvaluate_kept
  | .budgetRefill, _ => execBudgetRefill_kept
  | .queueDeadlineScan, _ => execQueueDeadlineScan_kept
  | .maskCopyDone .., _ => execMaskCopyDone_kept
  | .deadlineCheck, _ => execDeadlineCheck_kept
  | .holderSelect .., _ => execHolderSelect_kept
  | .stepCompose .., _ => execStepCompose_kept
  | .powerWaitRetry .., _ => execPowerWaitRetry_kept
  | .stepExecute .., _ => execStepExecute_kept
  | .taskComplete .., _ => execTaskComplete_kept
  | .taskWatchdog .., _ => execTaskWatchdog_kept
  | .candidateArrive .., _ => execCandidateArrive_kept
  | .stepCommit .., _ => execStepCommit_kept
  | .stepDeadline .., _ => execStepDeadline_kept
  | .groveAbandonAck .., _ => execGroveAbandonAck_kept
  | .composeTimeout .., _ => execComposeTimeout_kept
  | .preemptRaise .., _ => execPreemptRaise_kept
  | .clusterTileStop .., _ => execClusterTileStop_kept
  | .preemptEscalate .., _ => execPreemptEscalate_kept
  | .preemptSaveDone .., _ => execPreemptSaveDone_kept
  | .restoreDone .., _ => execRestoreDone_kept
  | .imodeStopTimeout .., _ => execImodeStopTimeout_kept
  | .saveWriteTimeout .., _ => execSaveWriteTimeout_kept
  | .debugHalt .., _ => execDebugHalt_kept
  | .debugHaltRelease .., _ => execDebugHaltRelease_kept
  | .parkStart .., _ => execParkStart_kept
  | .parkComplete .., _ => execParkComplete_kept
  | .unparkStart .., _ => execUnparkStart_kept
  | .unparkComplete .., _ => execUnparkComplete_kept
  | .scrubRead .., _ => execScrubRead_kept
  | .mailboxGo, _ => execMailboxGo_kept
  | .smbusMctpRequest .., _ => execSmbusMctpRequest_kept
  | .smbusSclTimeout, _ => execSmbusSclTimeout_kept
  | .loadCostTable, _ => execLoadCostTable_kept
  | .clearCostTable, _ => execClearCostTable_kept
  | .loadModel .., _ => execLoadModel_kept
  | .addContext, _ => execAddContext_kept
  | .evictModel, _ => execEvictModel_kept
  | .evictModelForce, _ => execEvictModelForce_kept
  | .pinModel, _ => execPinModel_kept
  | .unpinModel, _ => execUnpinModel_kept
  | .pairDraft, _ => execPairDraft_kept
  | .unpairDraft, _ => execUnpairDraft_kept
  | .modelTransferDone .., _ => execModelTransferDone_kept
  | .modelTransferFailed .., _ => execModelTransferFailed_kept
  | .modelDrainEvict .., _ => execModelDrainEvict_kept
  | .drainPartition, _ => execDrainPartition_kept
  | .drainDone .., _ => execDrainDone_kept
  | .resumePartition, _ => execResumePartition_kept
  | .reconfigure, _ => execReconfigure_kept
  | .migrateTenant, _ => execMigrateTenant_kept
  | .migrateDone .., _ => execMigrateDone_kept
  | .faultReport .., _ => execFaultReport_kept
  | .partitionResetComplete .., _ => execPartitionResetComplete_kept
  | .faultnClear .., _ => execFaultnClear_kept
  | .pllLossOfLock .., _ => execPllLossOfLock_kept
  | .watchdogKick, _ => execWatchdogKick_kept
  | .watchdogExpiry, _ => execWatchdogExpiry_kept
  | .teardownContext, _ => execTeardownContext_kept
  | .resetPartition, _ => execResetPartition_kept
  | .resetTenant, _ => execResetTenant_kept
  | .readFaultLog, _ => execReadFaultLog_kept
  | .clearFaultLog, _ => execClearFaultLog_kept
  | .linkTrainStageDone .., _ => execLinkTrainStageDone_kept
  | .linkTrainTimeout .., _ => execLinkTrainTimeout_kept
  | .trainExch _ _ _ w st, _ => execTrainExch_kept (_width := w) (_stepping := st)
  | .dataFlitReceive .., _ => execDataFlitReceive_kept
  | .controlFlitReceive .., _ => execControlFlitReceive_kept
  | .linkDegradeDone .., _ => execLinkDegradeDone_kept
  | .msgReassemblyTimeout .., _ => execMsgReassemblyTimeout_kept
  | .retrainPort, _ => execRetrainPort_kept
  | .setRoutes, _ => execSetRoutes_kept
  | .defineGroup, _ => execDefineGroup_kept
  | .mgmtForm .., _ => execMgmtForm_kept
  | .mgmtFormAck .., _ => execMgmtFormAck_kept
  | .formResend .., _ => execFormResend_kept
  | .mgmtHeartbeat .., _ => execMgmtHeartbeat_kept
  | .heartbeatSend .., _ => execHeartbeatSend_kept
  | .peerLoss .., _ => execPeerLoss_kept
  | .mgmtLeave .., _ => execMgmtLeave_kept
  | .mgmtPeerModelRequest .., _ => execMgmtPeerModelRequest_kept
  | .plan .., _ => execPlan_kept
  | .planAck .., _ => execPlanAck_kept
  | .cand .., _ => execCand_kept
  | .commit .., _ => execCommit_kept
  | .abandon .., _ => execAbandon_kept
  | .abandonAck .., _ => execAbandonAck_kept
  | .release .., _ => execRelease_kept
  | .releaseSend .., _ => execReleaseSend_kept
  | .samppage .., _ => execSamppage_kept
  | .coll .., _ => execColl_kept
  | .kvxfer .., _ => execKvxfer_kept
  | .modelxfer .., _ => execModelxfer_kept
  | .planisherPeriod .., _ => execPlanisherPeriod_kept
  | .cclkSwitch, _ => execCclkSwitch_kept
  | .handoverHoldExpiry .., _ => execHandoverHoldExpiry_kept
  | .batteryModeBegin .., _ => execBatteryModeBegin_kept
  | .batteryModeEnd, _ => execBatteryModeEnd_kept
  | .pmbusPoll .., _ => execPmbusPoll_kept
  | .shelfRetry .., _ => execShelfRetry_kept
  | .thermalEmergencyBegin .., _ => execThermalEmergencyBegin_kept
  | .thermalEmergencyEnd, _ => execThermalEmergencyEnd_kept
  | .ramp .., _ => execRamp_kept
  | .rampSend, _ => execRampSend_kept
  | .stamp .., _ => execStamp_kept
  | .stampSend, _ => execStampSend_kept
  | .regulatorRefill, _ => execRegulatorRefill_kept
  | .doeDiscovery .., _ => execDoeDiscovery_kept
  | .getVersion .., _ => execGetVersion_kept
  | .getCapabilities .., _ => execGetCapabilities_kept
  | .negotiateAlgorithms .., _ => execNegotiateAlgorithms_kept
  | .getDigests .., _ => execGetDigests_kept
  | .getCertificate .., _ => execGetCertificate_kept
  | .challenge .., _ => execChallenge_kept
  | .getMeasurements .., _ => execGetMeasurements_kept
  | .spdmUnsupportedRequest .., _ => execSpdmUnsupportedRequest_kept
  | .doeAbort, _ => execDoeAbort_kept
  | .vfFlr .., _ => execVfFlr_kept
  | .pf0Flr, _ => execPf0Flr_kept
  | .vfEnableSet .., _ => execVfEnableSet_kept
  | .vfEnableClear, _ => execVfEnableClear_kept
  | .busMasterEnable .., _ => execBusMasterEnable_kept
  | .d3hotEntry .., _ => execD3hotEntry_kept
  | .linkSpeedChange .., _ => execLinkSpeedChange_kept
  | .pcieLinkDown, _ => execPcieLinkDown_kept
  | .pcieFatalError, _ => execPcieFatalError_kept
  | .dmaReadFailed .., _ => execDmaReadFailed_kept
  | .unexpectedCompletion .., _ => execUnexpectedCompletion_kept
  | .malformedRead .., _ => execMalformedRead_kept
  | .dbRouteWrite .., _ => execDbRouteWrite_kept
  | .registerWrite .., _ => execRegisterWrite_kept
  | .registerRead .., _ => execRegisterRead_kept
  | .devtimeRead .., _ => execDevtimeRead_kept
  | .fltLastRead .., _ => execFltLastRead_kept
  | .dbgwinCtlWrite .., _ => execDbgwinCtlWrite_kept
  | .debugWindowAccess .., _ => execDebugWindowAccess_kept
  | .selectProfile, _ => execSelectProfile_kept
  | .loadVolatileBegin, _ => execLoadVolatileBegin_kept
  | .loadVolatileChunk, _ => execLoadVolatileChunk_kept
  | .loadVolatileEnd, _ => execLoadVolatileEnd_kept
  | .loadVolatileCancel, _ => execLoadVolatileCancel_kept
  | .getConfigStatus, _ => execGetConfigStatus_kept
  | .flashInfo, _ => execFlashInfo_kept
  | .flashRead .., _ => execFlashRead_kept
  | .flashErase .., _ => execFlashErase_kept
  | .flashProgram .., _ => execFlashProgram_kept
  | .settingsLoad .., _ => execSettingsLoad_kept
  | .storeSettings .., _ => execStoreSettings_kept
  | .discardSettings, _ => execDiscardSettings_kept
  | .readSetting, _ => execReadSetting_kept
  | .writeSetting, _ => execWriteSetting_kept
  | .readLifetime, _ => execReadLifetime_kept
  | .getOwnerNonce, _ => execGetOwnerNonce_kept
  | .setOwnerState .., _ => execSetOwnerState_kept
  | .installOwnerKey .., _ => execInstallOwnerKey_kept
  | .automaticStore .., _ => execAutomaticStore_kept
  | .lifetimeSnapshot, _ => execLifetimeSnapshot_kept
  | .updateBegin, _ => execUpdateBegin_kept
  | .updateChunk .., _ => execUpdateChunk_kept
  | .updateCommit .., _ => execUpdateCommit_kept
  | .updateCommitLive .., _ => execUpdateCommitLive_kept
  | .updateConfirm, _ => execUpdateConfirm_kept
  | .updateAbort, _ => execUpdateAbort_kept
  | .updateRejectTrial, _ => execUpdateRejectTrial_kept
  | .sessionIdleTimeout, _ => execSessionIdleTimeout_kept
  | .confirmWindowExpiry, _ => execConfirmWindowExpiry_kept
  | .heartwoodHandoff .., _ => execHeartwoodHandoff_kept
  | .loadMicrocode, _ => execLoadMicrocode_kept
  | .repairClusters .., _ => execRepairClusters_kept
  | .traceEnable .., _ => execTraceEnable_kept
  | .traceDisable .., _ => execTraceDisable_kept
  | .traceRecordWrite .., _ => execTraceRecordWrite_kept
  | .markBegin .., _ => execMarkBegin_kept
  | .markEnd .., _ => execMarkEnd_kept
  | .porDeassert .., _ => execPorDeassert_kept
  | .tclkLock, _ => execTclkLock_kept
  | .rootLoaderCheck .., _ => execRootLoaderCheck_kept
  | .flashModeSelect .., _ => execFlashModeSelect_kept
  | .imageCheck .., _ => execImageCheck_kept
  | .bootHandoff .., _ => execBootHandoff_kept
  | .channelTrainingDone .., _ => execChannelTrainingDone_kept
  | .groveSelfTest .., _ => execGroveSelfTest_kept
  | .layoutComplete, _ => execLayoutComplete_kept
  | .cezlinkPortsSettled, _ => execCezlinkPortsSettled_kept
  | .serviceEntry, _ => execServiceEntry_kept
  | .warmChipReset, _ => execWarmChipReset_kept
  | .ballastRundownDone, _ => execBallastRundownDone_kept
  | .undervoltageEnd .., _ => execUndervoltageEnd_kept
  | .thermtrip, _ => execThermtrip_kept
  | .perstAssert, _ => execPerstAssert_kept
  | .perstDeassert, _ => execPerstDeassert_kept
  | .hotReset, _ => execHotReset_kept
  | .buttonLowStable, _ => execButtonLowStable_kept
  | .buttonPress, _ => execButtonPress_kept
  | .buttonStuck, _ => execButtonStuck_kept
  | .buttonHonoured, _ => execButtonHonoured_kept
  | .heartwoodResume, _ => execHeartwoodResume_kept
  | .f4HoldExpiry, _ => execF4HoldExpiry_kept
  | .resetChip, _ => execResetChip_kept
  | .bypass, _ => execBypass_kept
  | .idcode, _ => execIdcode_kept
  | .samplePreload .., _ => execSamplePreload_kept
  | .extest .., _ => execExtest_kept
  | .clamp, _ => execClamp_kept
  | .highz, _ => execHighz_kept
  | .testLogicReset, _ => execTestLogicReset_kept
  | .jtagDebugAccess .., _ => execJtagDebugAccess_kept

theorem exec_kept_or_restarted (h : exec i s = .next u) : Kept s u ∨ Restarted u := by
  cases hi : resetsCold i with
  | true => exact exec_resetsCold hi h
  | false => exact .inl (exec_kept i hi u h)

theorem Restarted.timesOk (h : Restarted u) : TimesOk u := by
  simp only [Restarted, Prod.mk.injEq] at h
  obtain ⟨h1, h2, h3, h4, h5, h6, h7, h8, h9, -⟩ := h
  simp [TimesOk, within, h1, h2, h3, h4, h5, h6, h7, h8, h9]

theorem Restarted.memOk (h : Restarted u) : MemOk u := by
  simp only [Restarted, Prod.mk.injEq] at h
  obtain ⟨-, -, -, -, -, -, -, -, -, hd⟩ := h
  unfold MemOk
  rw [hd]
  rfl

/-! An idle step. -/

/-- Whatever the lag, a copy that was within its bound is so again when time has moved on by `d`. -/
theorem lagged_within {old time d bound lag : Nat} (h : within time old bound) :
    within (time + d) (lagged old (time + d) bound lag) bound := by
  unfold within lagged at *
  omega

theorem passTime_timesOk (h : TimesOk s) : TimesOk (passTime s) := by
  obtain ⟨hq, hf, hl, hc, hm, hp, ha, hs⟩ := h
  exact ⟨lagged_within hq, lagged_within hf, lagged_within hl, lagged_within hc, lagged_within hm, lagged_within hp,
    lagged_within ha, lagged_within hs⟩

/-- What a tick does after time has passed. -/
theorem tick_kept (hc : heldCold s = false) : Kept (passTime s) (tick s) := by
  unfold tick
  rw [hc]
  exact .after drainFaults_kept (.after recheckDue_kept passCancels_kept)

theorem tick_timesOk (h : TimesOk s) : TimesOk (tick s) := by
  cases hc : heldCold s with
  | true => simpa [tick, hc] using h
  | false => exact timesOk_congr (tick_kept hc).fixed (passTime_timesOk h)

/-- Every step keeps memory in canonical form. -/
theorem step_memOk (h : step s = .next u) (ok : MemOk s) : MemOk u := by
  unfold step at h
  split at h
  · cases h
    cases hc : heldCold s with
    | true => simpa [tick, hc] using ok
    | false => exact (tick_kept hc).memOk ok
  · obtain hk | hr := exec_kept_or_restarted h
    · exact hk.memOk ok
    · exact hr.memOk

end Sys2Proof.Machine
end

section
set_option Elab.async false
/-! ## The statements of the family of architecture and clocking -/
namespace Sys2Proof
open Machine

/-- Settles O59: no command moves a copy of device time (a cold reset puts all of them at 0), and an idle step brings each
copy within its bound of the time it passes to. -/
theorem everyStepKeepsTheTimesBound : Obligations.EveryStepKeepsTheTimesBound := by
  unfold Obligations.EveryStepKeepsTheTimesBound
  intro s t ok h
  unfold step at h
  split at h
  · cases h
    exact tick_timesOk ok
  · obtain hk | hr := exec_kept_or_restarted h
    · exact timesOk_congr (s := { s with pending := _ }) hk.fixed ok
    · exact hr.timesOk

end Sys2Proof
end

section
set_option Elab.async false
/-! ### An idle step where nothing waits -/
namespace Sys2Proof.Machine
variable {s u : State}

theorem settleCancels_none (h : s.cancels = []) : settleCancels s = s := by
  unfold settleCancels
  rw [h, List.foldl_nil, ← h]

theorem recheckDue_none (h : s.scan.due = []) : recheckDue s = s := by
  simp [recheckDue, h]

/-- Nothing waits, so after time has passed a tick only takes the fault records. -/
theorem tick_quiet (hc : heldCold s = false) (cs : s.cancels = []) (due : s.scan.due = []) :
    tick s = drainFaults (passTime s) := by
  have hp : passCancels s (passTime s) = passTime s := by
    unfold passCancels
    rw [settleCancels_none (s := passTime s) cs, ite_self]
  unfold tick
  rw [hc, hp, recheckDue_none (s := passTime s) due]
  rfl

/-- What an idle step leaves alone where nothing waits: all but time and the fault records. -/
structure OnlyFaults (s u : State) : Prop where
  dram : u.dram = s.dram
  reqs : u.reqs = s.reqs
  lanes : u.lanes = s.lanes
  slots : u.slots = s.slots
  boot : u.boot = s.boot
  regs : SameRegs s u fun k => k / 0x100000 == 14

theorem OnlyFaults.refl (s : State) : OnlyFaults s s := ⟨rfl, rfl, rfl, rfl, rfl, fun _ _ => rfl⟩

theorem drainFaults_onlyFaults : OnlyFaults s (drainFaults s) := by
  unfold drainFaults
  split
  · exact .refl s
  · refine ⟨rfl, rfl, rfl, rfl, rfl, fun k hk => rd_setF_other _ _ ?_⟩
    rintro rfl
    exact absurd hk (by decide)

theorem tick_onlyFaults (cs : s.cancels = []) (due : s.scan.due = []) : OnlyFaults s (tick s) := by
  cases hc : heldCold s with
  | true => rw [tick, hc]; exact .refl s
  | false =>
    rw [tick_quiet hc cs due]
    obtain ⟨hd, hr, hl, hs, hb, hk⟩ := drainFaults_onlyFaults (s := passTime s)
    exact ⟨hd, hr, hl, hs, hb, hk⟩

theorem tick_time : (tick s).time = s.time + if heldCold s = true then 0 else if s.boot.tclkOnce = true then 1 else 10 := by
  cases hc : heldCold s with
  | true => simp [tick, hc]
  | false => exact congrArg (fun x => x.2.1) (tick_kept hc).fixed

theorem tick_pending : (tick s).pending = s.pending := by
  cases hc : heldCold s with
  | true => simp [tick, hc]
  | false => exact congrArg Prod.fst (tick_kept hc).fixed

theorem step_idle (h : s.pending = []) : step s = .next (tick s) := by
  unfold step
  rw [h]

end Sys2Proof.Machine
end

section
set_option Elab.async false
namespace Sys2Proof
open Machine

/-- Settles O55: the first clause is the step's definition; an idle step is a tick, of which the commands' frame gives the
queue and device time, and which only takes fault records where nothing waits. -/
theorem aStepRunsTheFrontCommand : Obligations.AStepRunsTheFrontCommand := by
  unfold Obligations.AStepRunsTheFrontCommand
  refine ⟨fun s c => rfl, fun s hs => ⟨tick s, step_idle hs, tick_pending.trans hs, tick_time, fun cs due => ?_⟩⟩
  obtain ⟨hd, hr, hl, hn, hb, hk⟩ := tick_onlyFaults cs due
  exact ⟨hd, hr, hl, hn, hb, hk⟩

end Sys2Proof
end

section
set_option Elab.async false
/-! ## Reads of HST_DEVTIME (R86, R87) -/
namespace Sys2Proof.Machine
variable {s : State} {who w : Requester} {bar : Bar} {hi : Bool}

/-! ### Latches -/

theorem find?_putLatch_same {α : Type} (l : List (Requester × α)) (x : Option α) :
    (putLatch l who x).find? (fun e => e.1 == who) = x.map fun v => (who, v) := by
  cases x with
  | none => simp [putLatch]
  | some v => simp [putLatch]

theorem find?_putLatch_other {α : Type} (l : List (Requester × α)) (x : Option α) (h : w ≠ who) :
    (putLatch l who x).find? (fun e => e.1 == w) = l.find? fun e => e.1 == w := by
  have hr : (l.filter fun e => e.1 != who).find? (fun e => e.1 == w) = l.find? fun e => e.1 == w := by
    rw [List.find?_filter]
    congr 1
    funext e
    by_cases he : e.1 = w
    · simp [he, h]
    · simp [he]
  cases x with
  | none => exact hr
  | some v => simpa [putLatch, h.symm] using hr

/-- The upper half of device time that `w` has latched (R86). -/
def devLatched (s : State) (w : Requester) : Option Nat := (s.devLatch.find? fun e => e.1 == w).map (·.2)

/-! ### The two halves -/

theorem readDevtime_lower : (readDevtime s who false).1 = s.fTime % 2 ^ 32 ∧ (readDevtime s who false).2.out = s.out ∧
    devLatched (readDevtime s who false).2 who = some (s.fTime % 2 ^ 64 / 2 ^ 32) ∧
    ∀ w, w ≠ who → devLatched (readDevtime s who false).2 w = devLatched s w := by
  refine ⟨rfl, rfl, ?_, fun w hw => ?_⟩
  · simp [devLatched, readDevtime, find?_putLatch_same]
  · simp [devLatched, readDevtime, find?_putLatch_other _ _ hw]

theorem readDevtime_upper_latched {x : Nat} (h : devLatched s who = some x) : (readDevtime s who true).1 = x ∧
    (readDevtime s who true).2.out = s.out ∧ devLatched (readDevtime s who true).2 who = none ∧
    ∀ w, w ≠ who → devLatched (readDevtime s who true).2 w = devLatched s w := by
  obtain ⟨e, he, rfl⟩ := Option.map_eq_some_iff.1 h
  have hr : readDevtime s who true = (e.2, { s with devLatch := putLatch s.devLatch who none }) := by
    simp [readDevtime, he]
  rw [hr]
  refine ⟨rfl, rfl, ?_, fun w hw => ?_⟩
  · simp [devLatched, find?_putLatch_same]
  · simp [devLatched, find?_putLatch_other _ _ hw]

theorem readDevtime_upper_current (h : devLatched s who = none) :
    readDevtime s who true = (s.fTime % 2 ^ 64 / 2 ^ 32, s) := by
  simp [readDevtime, Option.map_eq_none_iff.1 h]

/-! ### The reads that reach them -/

/-- An access to HST_DEVTIME, in the host domain, reaches it. -/
theorem blocked_devtime (hc : clockUp s 1 = true) : blocked s Reg.HST_DEVTIME = none := by
  have hd : domainUp s Reg.HST_DEVTIME = true := hc
  have hp : resettingPart s Reg.HST_DEVTIME = false := rfl
  simp [blocked, hd, hp]

/-- A 4-byte read of a register outside the trace window that reaches its block. -/
theorem readWord_reg {o key sh : Nat} (hw : ¬(0xD80000 ≤ o ∧ o < 0xE00000)) (hr : regAt o = some (key, sh))
    (hb : blocked s key = none) :
    readWord s who o =
      if key = Reg.HST_DEVTIME then readDevtime s who (sh == 32)
      else if 0xE00080 ≤ key ∧ key < 0xE00090 then readFlt s who ((key - 0xE00080) / 4)
      else (fieldOf (viewReg s key) sh 32, clearRc s key) := by
  unfold readWord
  rw [if_neg hw, hr]
  dsimp only
  rw [hb]
  rfl

theorem readWord_devtime (hc : clockUp s 1 = true) :
    readWord s who (if hi then Reg.HST_DEVTIME + 4 else Reg.HST_DEVTIME) = readDevtime s who hi := by
  cases hi with
  | false => exact readWord_reg (sh := 0) (by decide) rfl (blocked_devtime hc)
  | true => exact readWord_reg (sh := 32) (by decide) rfl (blocked_devtime hc)

/-- An aligned read of 4 bytes is the word that lies there. -/
theorem partWord_four {f : State → Nat → Nat × State} {o : Nat} (ho : o % 4 = 0) :
    partWord f s o 4 = ((f s o).1 % 2 ^ 32, (f s o).2) := by
  have hd : o / 4 * 4 = o := by omega
  simp [partWord, ho, hd]

theorem readBar0_four {o : Nat} (ho : o % 4 = 0) :
    readBar0 s who o 4 = ((readWord s who o).1 % 2 ^ 32, (readWord s who o).2) := by
  unfold readBar0
  split
  · rw [if_neg (by simp), partWord_four ho]
  · rw [partWord_four ho]

theorem readVf_devtime {t : Nat} (hc : clockUp s 1 = true) :
    readVf s t (if hi then 0x3FF4 else 0x3FF0) = readDevtime s (.vf t) hi := by
  cases hi with
  | false => simp [readVf, vfReg, hc]
  | true => simp [readVf, vfReg, hc]

theorem readVfBar_devtime {t : Nat} (hc : clockUp s 1 = true) :
    readVfBar s t (if hi then 0x3FF4 else 0x3FF0) 4 =
      ((readDevtime s (.vf t) hi).1 % 2 ^ 32, (readDevtime s (.vf t) hi).2) := by
  have ho : (if hi then 0x3FF4 else 0x3FF0) % 4 = 0 := by cases hi <;> rfl
  have hr : vfReg s t (if hi then 0x3FF4 else 0x3FF0) = none := by cases hi <;> rfl
  unfold readVfBar
  rw [if_neg (by simp), hr]
  dsimp only
  rw [partWord_four ho, readVf_devtime hc]

/-- A BAR that is open to `who` and holds HST_DEVTIME is PF0 BAR0 or `who`'s VF BAR0. -/
theorem barOpen_devtime (hb : bar ≠ .pfBar2) (ho : barOpen s who bar = true) :
    bar = .pfBar0 ∨ ∃ t, bar = .vfBar0 t ∧ who = .vf t := by
  cases bar with
  | pfBar0 => exact .inl rfl
  | pfBar2 => exact absurd rfl hb
  | vfBar0 t =>
    cases who with
    | vf u =>
      simp only [barOpen, Bool.and_eq_true, beq_iff_eq] at ho
      obtain ⟨⟨⟨rfl, -⟩, -⟩, -⟩ := ho
      exact .inr ⟨_, rfl, rfl⟩
    | _ => cases ho

/-- A 4-byte read of either half of HST_DEVTIME, or of its VF copy. -/
theorem execDevtimeRead_word (hb : bar ≠ .pfBar2) (ho : barOpen s who bar = true) (hc : clockUp s 1 = true) :
    execDevtimeRead who bar 4 hi s =
      .next (returnRead who ((readDevtime s who hi).1 % 2 ^ 32, (readDevtime s who hi).2)) := by
  obtain rfl | ⟨t, rfl, rfl⟩ := barOpen_devtime hb ho
  · have hx : (if hi then Reg.HST_DEVTIME + 4 else Reg.HST_DEVTIME) % 4 = 0 := by cases hi <;> rfl
    have hr := readBar0_four (s := s) (who := who) hx
    rw [readWord_devtime hc] at hr
    have h4 : Reg.HST_DEVTIME % 4 = 0 := rfl
    rw [← hr]
    cases hi <;> simp [execDevtimeRead, ho, readOk, readBar, h4]
  · rw [← readVfBar_devtime hc]
    cases hi <;> simp [execDevtimeRead, ho, readOk, readBar]

theorem clearRc_fields (key : Nat) : clearRc s key = { s with regs := (clearRc s key).regs } := by
  unfold clearRc
  split
  · rfl
  · rfl

theorem readBar0_devtime_wide (hc : clockUp s 1 = true) :
    readBar0 s who Reg.HST_DEVTIME 8 = (s.fTime % 2 ^ 64, clearRc s Reg.HST_DEVTIME) := by
  have hr : readBar0 s who Reg.HST_DEVTIME 8 = match blocked s Reg.HST_DEVTIME with
      | some s1 => (2 ^ 64 - 1, s1)
      | none => ((BitVec.ofNat 64 s.fTime).toNat, clearRc s Reg.HST_DEVTIME) := rfl
  rw [hr, blocked_devtime hc, BitVec.toNat_ofNat]

/-- An 8-byte read returns device time whole and touches no latch. -/
theorem execDevtimeRead_wide (hb : bar ≠ .pfBar2) (ho : barOpen s who bar = true) (hc : clockUp s 1 = true) :
    ∃ regs, execDevtimeRead who bar 8 false s = .next (returnRead who (s.fTime % 2 ^ 64, { s with regs := regs })) := by
  obtain rfl | ⟨t, rfl, rfl⟩ := barOpen_devtime hb ho
  · refine ⟨(clearRc s Reg.HST_DEVTIME).regs, ?_⟩
    have h8 : Reg.HST_DEVTIME % 8 = 0 := rfl
    rw [← clearRc_fields, ← readBar0_devtime_wide (who := who) hc]
    simp [execDevtimeRead, ho, readOk, readBar, h8]
  · exact ⟨s.regs, by simp [execDevtimeRead, ho, readOk, readBar, readVfBar, hc]⟩

end Sys2Proof.Machine
end

section
set_option Elab.async false
namespace Sys2Proof
open Machine

/-- Settles O42: an 8-byte read takes the register whole, a 4-byte read is `readDevtime`, which sets or uses the latch of its
requester only. -/
theorem deviceTimeReadsAreWhole : Obligations.DeviceTimeReadsAreWhole := by
  unfold Obligations.DeviceTimeReadsAreWhole
  intro s who bar _ ho hb hc
  have hword (x : Nat) (hi : Bool) (hx : (readDevtime s who hi).1 = x) (hlt : x < 2 ^ 32)
      (hs : (readDevtime s who hi).2.out = s.out) :
      exec (.devtimeRead who bar 4 hi) s = .next (returnRead who (x, (readDevtime s who hi).2)) ∧
        (returnRead who (x, (readDevtime s who hi).2)).out = s.out ++ [.readData who x] := by
    refine ⟨(execDevtimeRead_word hb ho hc).trans ?_, congrArg (· ++ _) hs⟩
    rw [hx, Nat.mod_eq_of_lt hlt]
  refine ⟨?_, ?_, fun x hx hlt => ?_, fun hx => ?_⟩
  · obtain ⟨regs, h⟩ := execDevtimeRead_wide hb ho hc
    exact ⟨_, h, rfl, fun _ => rfl⟩
  · obtain ⟨hv, hs, hl, hf⟩ := readDevtime_lower (s := s) (who := who)
    obtain ⟨he, hout⟩ := hword _ false hv (Nat.mod_lt _ (by decide)) hs
    exact ⟨_, he, hout, hl, hf⟩
  · obtain ⟨hv, hs, hl, hf⟩ := readDevtime_upper_latched hx
    obtain ⟨he, hout⟩ := hword _ true hv hlt hs
    exact ⟨_, he, hout, hl, hf⟩
  · have hr := readDevtime_upper_current hx
    obtain ⟨he, hout⟩ := hword _ true (congrArg Prod.fst hr) (by omega) (by rw [hr])
    refine ⟨_, he, hout, fun w => ?_⟩
    rw [hr]
    rfl

end Sys2Proof
end

section
set_option Elab.async false
/-! ## Register reads and the debug window (R76, R92 to R98, R115, R116, R743) -/
namespace Sys2Proof.Machine
variable {s : State} {who : Requester}

/-! ### The fields of a card -/

/-- The fields of a card lie within 64 bits and do not overlap. -/
def Card.tidy (c : Card) : Bool :=
  c.fields.all (fun f => decide (f.lo + f.w ≤ 64)) &&
    decide (c.fields.Pairwise fun f g => f.lo + f.w ≤ g.lo ∨ g.lo + g.w ≤ f.lo)

/-- The cards of every block. -/
def allCards : List (List Card) :=
  [cardsHST, cardsMGT, cardsCFG, cardsNVS, cardsRQI, cardsADM, cardsCMP, cardsSMP, cardsMDL, cardsPRT, cardsMEM, cardsCZL,
    cardsPWR, cardsTRC, cardsFLT, cardsGRV]

theorem allCards_tidy : (allCards.all fun b => b.all Card.tidy) = true := by rfl

theorem cardsOf_mem_allCards (key : Nat) : cardsOf key = [] ∨ cardsOf key ∈ allCards := by
  unfold cardsOf
  split <;> simp [allCards]

theorem cardAt_tidy {key : Nat} {c : Card} (h : cardAt key = some c) : c.tidy = true := by
  have hc : c ∈ cardsOf key := List.mem_of_find?_eq_some h
  obtain he | hb := cardsOf_mem_allCards key
  · simp [he] at hc
  · exact List.all_eq_true.1 (List.all_eq_true.1 allCards_tidy _ hb) c hc

/-! ### What a read clears -/

/-- A field's bits, cleared if a read clears it (R94). -/
def clearField (v : BitVec 64) (f : CardField) : BitVec 64 := match f.acc with | .rc => putField v f.lo f.w 0 | _ => v

theorem fieldOf_clearField_same {v : BitVec 64} {f : CardField} (h : f.lo + f.w ≤ 64) :
    fieldOf (clearField v f) f.lo f.w = if f.acc = .rc then 0 else fieldOf v f.lo f.w := by
  cases ha : f.acc with
  | rc => simp [clearField, ha, fieldOf_putField _ _ _ _ h]
  | _ => simp [clearField, ha]

theorem fieldOf_clearField_disjoint {v : BitVec 64} {f g : CardField} (h : g.lo + g.w ≤ f.lo ∨ f.lo + f.w ≤ g.lo) :
    fieldOf (clearField v f) g.lo g.w = fieldOf v g.lo g.w := by
  cases ha : f.acc with
  | rc => simp [clearField, ha, fieldOf_putField_disjoint _ _ h]
  | _ => simp [clearField, ha]

theorem fieldOf_clearFields_disjoint {g : CardField} {l : List CardField}
    (h : ∀ f ∈ l, g.lo + g.w ≤ f.lo ∨ f.lo + f.w ≤ g.lo) (v : BitVec 64) :
    fieldOf (l.foldl clearField v) g.lo g.w = fieldOf v g.lo g.w := by
  induction l generalizing v with
  | nil => rfl
  | cons f l ih =>
    rw [List.foldl_cons, ih (fun x hx => h x (List.mem_cons_of_mem _ hx)),
      fieldOf_clearField_disjoint (h f List.mem_cons_self)]

/-- Of fields that do not overlap, the read clears those it is to clear, and no other. -/
theorem fieldOf_clearFields {l : List CardField} (hin : ∀ f ∈ l, f.lo + f.w ≤ 64)
    (hd : l.Pairwise fun f g => f.lo + f.w ≤ g.lo ∨ g.lo + g.w ≤ f.lo) {f : CardField} (hf : f ∈ l) (v : BitVec 64) :
    fieldOf (l.foldl clearField v) f.lo f.w = if f.acc = .rc then 0 else fieldOf v f.lo f.w := by
  induction l generalizing v with
  | nil => cases hf
  | cons g l ih =>
    obtain ⟨hg, hl⟩ := List.pairwise_cons.1 hd
    rw [List.foldl_cons]
    obtain rfl | hf := List.mem_cons.1 hf
    · rw [fieldOf_clearFields_disjoint hg, fieldOf_clearField_same (hin _ List.mem_cons_self)]
    · rw [ih (fun x hx => hin x (List.mem_cons_of_mem _ hx)) hl hf, fieldOf_clearField_disjoint (hg f hf).symm]

theorem rd_clearRc {key : Nat} {c : Card} (h : cardAt key = some c) :
    rd (clearRc s key) key = c.fields.foldl clearField (rd s key) := by
  unfold clearRc
  rw [h]
  exact rd_wr_same _ _ _

theorem fieldOf_clearRc {key : Nat} {c : Card} (h : cardAt key = some c) {f : CardField} (hf : f ∈ c.fields) :
    fieldOf (rd (clearRc s key) key) f.lo f.w = if f.acc = .rc then 0 else fieldOf (rd s key) f.lo f.w := by
  obtain ⟨hin, hd⟩ := Bool.and_eq_true_iff.1 (cardAt_tidy h)
  rw [rd_clearRc h]
  exact fieldOf_clearFields (fun g hg => of_decide_eq_true (List.all_eq_true.1 hin g hg)) (of_decide_eq_true hd) hf _

theorem rd_clearRc_other {key k : Nat} (h : k ≠ key) : rd (clearRc s key) k = rd s k := by
  unfold clearRc
  split
  · rfl
  · exact rd_wr_other _ _ h

/-! ### Reads of PF0 BAR0 -/

theorem blocked_reaches {key : Nat} (h : Reaches s key) : blocked s key = none := by
  obtain ⟨hd, hp⟩ := h
  simp [blocked, hd, hp]

theorem blocked_down {key : Nat} (h : domainUp s key = false) :
    blocked s key = some (raise s Reg.HST_CLK_STATUS_REG_DOMAIN_DOWN) := by
  simp [blocked, h]

theorem regAt_card {key : Nat} {c : Card} (h : cardAt key = some c) : regAt key = some (key, 0) := by
  simp [regAt, h]

theorem readWord_down {o key sh : Nat} (hw : ¬(0xD80000 ≤ o ∧ o < 0xE00000)) (hr : regAt o = some (key, sh))
    (hd : domainUp s key = false) :
    readWord s who o = (0xFFFFFFFF, raise s Reg.HST_CLK_STATUS_REG_DOMAIN_DOWN) := by
  unfold readWord
  rw [if_neg hw, hr]
  dsimp only
  rw [blocked_down hd]

theorem readWord_none {o : Nat} (hw : ¬(0xD80000 ≤ o ∧ o < 0xE00000)) (hr : regAt o = none) : readWord s who o = (0, s) := by
  unfold readWord
  rw [if_neg hw, hr]

/-- A 4-byte read through open PF0 BAR0. -/
theorem execRegisterRead_word {o : Nat} (hop : barOpen s who .pfBar0 = true) (ho : o % 4 = 0) :
    execRegisterRead who .pfBar0 o 4 s =
      .next (returnRead who ((readWord s who o).1 % 2 ^ 32, (readWord s who o).2)) := by
  rw [← readBar0_four ho]
  simp [execRegisterRead, hop, readOk, ho, readBar]

theorem isSet_raise {f : Fld} (h : f.lo + f.w ≤ 64) (hw : f.w = 1) : isSet (raise s f) f = true := by
  simp [isSet, getF_raise, getF_setF_same s f 1 h, hw]

theorem fieldOf_lt (v : BitVec 64) (lo w : Nat) : fieldOf v lo w < 2 ^ w := BitVec.isLt _

/-! ### FLT_LAST (R743) -/

theorem readFlt_fields {k : Nat} : (readFlt s who k).2 = { s with fltLatch := (readFlt s who k).2.fltLatch } := by
  unfold readFlt
  split
  · rfl
  · split
    · rfl
    · split
      · rfl
      · rfl

theorem readFlt_current {k : Nat} (h : k = 0 ∨ s.fltLatch.find? (fun e => e.1 == who) = none) :
    (readFlt s who k).1 = getF s (Reg.FLT_LAST_RECORD k) := by
  by_cases hk : k = 0
  · simp [readFlt, hk]
  · simp [readFlt, hk, h.resolve_left hk]

theorem readFlt_latched {k x : Nat} {l : List (Nat × Nat)} (hk : k ≠ 0)
    (hl : s.fltLatch.find? (fun e => e.1 == who) = some (who, l)) (hx : l.find? (fun y => y.1 % 4 == k) = some (k, x)) :
    (readFlt s who k).1 = x := by
  simp [readFlt, hk, hl, hx]

/-- A 4-byte read of a word of FLT_LAST that reaches the block. -/
theorem execFltLastRead_word {k : Nat} (hk : k < 4) (hop : barOpen s who .pfBar0 = true)
    (hr : Reaches s (0xE00080 + 4 * k)) :
    execFltLastRead who k 4 s = .next (returnRead who ((readFlt s who k).1 % 2 ^ 32, (readFlt s who k).2)) := by
  have ho : (0xE00080 + 4 * k) % 4 = 0 := by omega
  have hc : regAt (0xE00080 + 4 * k) = some (0xE00080 + 4 * k, 0) := by
    interval_cases k <;> rfl
  have hw : readWord s who (0xE00080 + 4 * k) = readFlt s who k := by
    rw [readWord_reg (by omega) hc (blocked_reaches hr), if_neg (by unfold Reg.HST_DEVTIME; omega), if_pos (by omega)]
    congr 1
    omega
  rw [← hw, ← readBar0_four ho]
  simp [execFltLastRead, hk, hop, readOk, ho]

/-! ### Aborted reads -/

theorem abortRead_fields : abortRead s who = { s with fns := (abortRead s who).fns, out := s.out ++ [.completerAbort who] } := by
  cases who <;> rfl

/-! ### The debug window (R115, R116) -/

/-- A read of a word in which no error stands changes nothing (R203). -/
theorem dramRead_clean {x : Nat} (h : eccAt s (x / 32) = 0) : dramRead s x ⟨0, 0⟩ = s := by
  simp [dramRead, h]

/-- A read of bytes in whose words no error stands changes nothing. -/
theorem readWords_clean {x n : Nat} (h : ∀ i, i < n → eccAt s ((x + i) / 32) = 0) : readWords s x n = s := by
  unfold readWords
  split
  · rfl
  · have hw : ∀ i ∈ List.range ((x + n - 1) / 32 - x / 32 + 1), dramRead s (32 * (x / 32 + i)) ⟨0, 0⟩ = s := by
      intro i hi
      rw [List.mem_range] at hi
      refine dramRead_clean ?_
      have hb : 32 * (x / 32 + i) / 32 = (x + (32 * (x / 32 + i) - x)) / 32 := by omega
      rw [hb]
      exact h _ (by omega)
    exact List.foldlRecOn (motive := fun u => u = s) _ _ rfl fun u hu i hi => by rw [hu, hw i hi]

theorem touch_clean {who : Agent} {w : Bool} {x y n m : Nat} (h : ∀ i, i < n → eccAt s ((x + i) / 32) = 0) :
    readWords (touch s who w y m) x n = touch s who w y m := by
  obtain ⟨f, r, l, ht⟩ := touch_fields s who w y m
  exact readWords_clean (by rw [ht]; exact h)

/-- Bytes stored one after another from `base + k` on. -/
theorem loadByte_storeBytes {a base : Nat} {addr : Nat → Nat} (ha : ∀ j, addr j = base + j) (bs : List Byte)
    (s : State) (k : Nat) : loadByte ((numbered k bs).foldl (fun u e => storeByte u (addr e.1) e.2) s) a =
      if base + k ≤ a ∧ a < base + k + bs.length then bs.getD (a - (base + k)) 0#8 else loadByte s a := by
  induction bs generalizing s k with
  | nil =>
    rw [if_neg (by simp)]
    rfl
  | cons b bs ih =>
    rw [numbered, List.foldl_cons, ih, loadByte_storeByte, ha, List.length_cons]
    by_cases h0 : a = base + k
    · rw [if_neg (by omega), if_pos h0, if_pos (by omega), h0, Nat.sub_self]
      rfl
    · by_cases h1 : base + (k + 1) ≤ a ∧ a < base + (k + 1) + bs.length
      · have hs : a - (base + k) = a - (base + (k + 1)) + 1 := by omega
        rw [if_pos h1, if_pos (by omega), hs]
        rfl
      · rw [if_neg h1, if_neg h0, if_neg (by omega)]

/-- PF0's memory space is enabled and the function is in D0. -/
def pf0Open (s : State) : Prop := (fn s 0).mse = true ∧ (fn s 0).d3 = false

variable {o len : Nat} {bs : List Byte}

theorem execDebugWindowAccess_read (ho : pf0Open s) (hl : len ≤ 512) (hw : windowShut s = false) (hc : clockUp s 2 = true) :
    execDebugWindowAccess o len none s =
      .next (emit (readWords (touch s .sys false (windowAddr s o) len) (windowAddr s o) len)
        (.readData .pf0 (leNat ((List.range len).map fun i => loadByte s (windowAddr s (o + i)))))) := by
  obtain ⟨hm, hd⟩ := ho
  simp [execDebugWindowAccess, hm, hd, hl.not_gt, hw, hc]

theorem execDebugWindowAccess_write (ho : pf0Open s) (hl : bs.length = 4 ∨ bs.length = 8) (ha : o % bs.length = 0)
    (hw : windowShut s = false) (hc : clockUp s 2 = true) :
    execDebugWindowAccess o len (some bs) s =
      .next (touch ((numbered 0 bs).foldl (fun u e => storeByte u (windowAddr s (o + e.1)) e.2) s) .sys true
        (windowAddr s o) bs.length) := by
  obtain ⟨hm, hd⟩ := ho
  have hb : ¬((bs.length ≠ 4 ∧ bs.length ≠ 8) ∨ o % bs.length ≠ 0) := by omega
  simp [execDebugWindowAccess, hm, hd, hb, hw, hc]

theorem execDebugWindowAccess_readShut (ho : pf0Open s) (hl : len ≤ 512) (hw : windowShut s = true) :
    execDebugWindowAccess o len none s =
      .next (emit (raise s Reg.HST_ERR_STATUS_DBGWIN_REFUSED) (.readData .pf0 (256 ^ len - 1))) := by
  obtain ⟨hm, hd⟩ := ho
  simp [execDebugWindowAccess, hm, hd, hl.not_gt, hw]

theorem execDebugWindowAccess_writeShut (ho : pf0Open s) (hl : bs.length = 4 ∨ bs.length = 8) (ha : o % bs.length = 0)
    (hw : windowShut s = true) :
    execDebugWindowAccess o len (some bs) s = .next (raise s Reg.HST_ERR_STATUS_DBGWIN_REFUSED) := by
  obtain ⟨hm, hd⟩ := ho
  have hb : ¬((bs.length ≠ 4 ∧ bs.length ≠ 8) ∨ o % bs.length ≠ 0) := by omega
  simp [execDebugWindowAccess, hm, hd, hb, hw]

/-! ### The clauses -/

theorem malformedRead_aborts {bar : Bar} (hwf : (Instr.malformedRead who bar o len).wf = true)
    (hop : barOpen s who bar = true) :
    Answers (.malformedRead who bar o len) s fun u => u.out = s.out ++ [.completerAbort who] ∧ u.regs = s.regs ∧
      SameMem s u ∧ u.devLatch = s.devLatch ∧ u.fltLatch = s.fltLatch := by
  have hbad : readOk o len = false := by
    simpa only [Bool.not_eq_true', readOk] using (Bool.and_eq_true_iff.1 hwf).2
  have he : exec (.malformedRead who bar o len) s = .next (abortRead s who) := by
    show execMalformedRead who bar o len s = _
    simp [execMalformedRead, hop, hbad]
  refine ⟨_, he, ?_⟩
  rw [abortRead_fields]
  exact ⟨rfl, rfl, fun _ => rfl, rfl, rfl⟩

section
variable {key : Nat} {c : Card} (hop : barOpen s who .pfBar0 = true) (ha : key % 4 = 0) (hw : key < 0xD80000 ∨ 0xE00000 ≤ key)
include hop ha hw

theorem registerRead_reaches (hc : cardAt key = some c) (hn : c.wide = false) (hf : key < 0xE00080 ∨ 0xE00090 ≤ key)
    (hr : Reaches s key) :
    Answers (.registerRead who .pfBar0 key 4) s fun u =>
      u.out = s.out ++ [.readData who (fieldOf (viewReg s key) 0 32)] ∧ SameRegs s u (fun k => k == key) ∧
      ∀ f ∈ c.fields, fieldOf (rd u key) f.lo f.w = if f.acc = .rc then 0 else fieldOf (rd s key) f.lo f.w := by
  have hd : key ≠ Reg.HST_DEVTIME := by
    rintro rfl
    cases hc
    cases hn
  have hword : readWord s who key = (fieldOf (viewReg s key) 0 32, clearRc s key) := by
    rw [readWord_reg (by omega) (regAt_card hc) (blocked_reaches hr), if_neg hd, if_neg (by omega)]
  refine ⟨_, execRegisterRead_word hop ha, ?_, fun k hk => ?_, fun f hf => ?_⟩
  · rw [hword, Nat.mod_eq_of_lt (fieldOf_lt _ 0 32), clearRc_fields]
    rfl
  · rw [hword]
    exact rd_clearRc_other (by simpa using hk)
  · rw [hword]
    exact fieldOf_clearRc hc hf

theorem registerRead_down (hc : cardAt key = some c) (hd : domainUp s key = false) :
    Answers (.registerRead who .pfBar0 key 4) s fun u =>
      u.out.getLast? = some (.readData who 0xFFFFFFFF) ∧ isSet u Reg.HST_CLK_STATUS_REG_DOMAIN_DOWN = true := by
  refine ⟨_, execRegisterRead_word hop ha, ?_⟩
  rw [readWord_down (by omega) (regAt_card hc) hd]
  exact ⟨List.getLast?_concat, isSet_raise (by decide) rfl⟩

theorem registerRead_none (hr : regAt key = none) :
    Answers (.registerRead who .pfBar0 key 4) s fun u => u.out = s.out ++ [.readData who 0] ∧ u.regs = s.regs := by
  refine ⟨_, execRegisterRead_word hop ha, ?_⟩
  rw [readWord_none (by omega) hr]
  exact ⟨rfl, rfl⟩

end

theorem fltLastRead_returns {k x : Nat} (hk : k < 4) (hop : barOpen s who .pfBar0 = true) (hr : Reaches s (0xE00080 + 4 * k))
    (hx : (readFlt s who k).1 = x) (hlt : x < 2 ^ 32) :
    Answers (.fltLastRead who k 4) s fun u => u.out = s.out ++ [.readData who x] ∧ u.regs = s.regs := by
  refine ⟨_, execFltLastRead_word hk hop hr, ?_⟩
  rw [hx, Nat.mod_eq_of_lt hlt, readFlt_fields]
  exact ⟨rfl, rfl⟩

theorem debugWindow_reads (ho : pf0Open s) (hl : len ≤ 512) (hw : windowShut s = false) (hc : clockUp s 2 = true)
    (he : ∀ i, i < len → eccAt s ((windowAddr s o + i) / 32) = 0) :
    Answers (.debugWindowAccess o len none) s fun u =>
      u.out = s.out ++ [.readData .pf0 (leNat ((List.range len).map fun i => loadByte s (windowAddr s o + i)))] ∧
      u.dram = s.dram := by
  refine ⟨_, execDebugWindowAccess_read ho hl hw hc, ?_⟩
  rw [touch_clean he]
  obtain ⟨f, r, l, ht⟩ := touch_fields s .sys false (windowAddr s o) len
  rw [ht]
  simp only [windowAddr, ← Nat.add_assoc]
  exact ⟨rfl, rfl⟩

theorem debugWindow_writes (ho : pf0Open s) (hl : bs.length = 4 ∨ bs.length = 8) (ha : o % bs.length = 0)
    (hw : windowShut s = false) (hc : clockUp s 2 = true) :
    Answers (.debugWindowAccess o len (some bs)) s fun u => ∀ a, loadByte u a =
      if windowAddr s o ≤ a ∧ a < windowAddr s o + bs.length then bs.getD (a - windowAddr s o) 0#8 else loadByte s a := by
  refine ⟨_, execDebugWindowAccess_write (len := len) ho hl ha hw hc, fun a => ?_⟩
  obtain ⟨f, r, l, ht⟩ := touch_fields
    ((numbered 0 bs).foldl (fun u e => storeByte u (windowAddr s (o + e.1)) e.2) s) .sys true (windowAddr s o) bs.length
  rw [ht]
  exact loadByte_storeBytes (addr := fun j => windowAddr s (o + j)) (fun j => (Nat.add_assoc ..).symm) bs s 0

theorem debugWindow_shut (ho : pf0Open s) (hw : windowShut s = true) :
    (len ≤ 512 → Answers (.debugWindowAccess o len none) s fun u =>
      u.out.getLast? = some (.readData .pf0 (256 ^ len - 1)) ∧ isSet u Reg.HST_ERR_STATUS_DBGWIN_REFUSED = true) ∧
    (bs.length = 4 ∨ bs.length = 8 → o % bs.length = 0 → Answers (.debugWindowAccess o len (some bs)) s fun u =>
      u.dram = s.dram ∧ isSet u Reg.HST_ERR_STATUS_DBGWIN_REFUSED = true) := by
  refine ⟨fun hl => ⟨_, execDebugWindowAccess_readShut ho hl hw, List.getLast?_concat, isSet_raise (by decide) rfl⟩,
    fun hl ha => ⟨_, execDebugWindowAccess_writeShut (len := len) ho hl ha hw, ?_, isSet_raise (by decide) rfl⟩⟩
  rw [raise_fields]

end Sys2Proof.Machine
end

section
set_option Elab.async false
namespace Sys2Proof
open Machine

/-- Settles O43: an accepted read is `readWord` (registers and FLT_LAST), a refused one `abortRead`; the debug window reads
words without an error, and stores byte by byte. -/
theorem readsReturnAndClear : Obligations.ReadsReturnAndClear := by
  unfold Obligations.ReadsReturnAndClear
  refine ⟨fun s who bar o len hwf hop => malformedRead_aborts hwf hop, fun s who key hwf hop => ?_,
    fun s who k hwf hop hr => ?_, fun s o len bs hm hd => ?_⟩
  · have ha : key % 4 = 0 := by simpa using (Bool.and_eq_true_iff.1 hwf).2
    exact ⟨fun c hc hn hw hf => ⟨registerRead_reaches hop ha hw hc hn hf, registerRead_down hop ha hw hc⟩,
      fun hr hw => registerRead_none hop ha hw hr⟩
  · have hk : k < 4 := by
      simp only [Instr.wf, Bool.and_eq_true, decide_eq_true_eq] at hwf
      exact hwf.1.2
    exact ⟨fun h => fltLastRead_returns hk hop hr (readFlt_current h) (getF_lt ..),
      fun l x hk0 hl hx hlt => fltLastRead_returns hk hop hr (readFlt_latched hk0 hl hx) hlt⟩
  · have ho : pf0Open s := ⟨hm, hd⟩
    refine ⟨fun hw hc => ⟨fun _ hl he => debugWindow_reads ho hl hw hc he,
      fun _ hl ha => debugWindow_writes ho hl ha hw hc⟩, fun hw => ?_⟩
    obtain ⟨hread, hwrite⟩ := debugWindow_shut (o := o) (len := len) (bs := bs) ho hw
    exact ⟨fun _ => hread, fun _ => hwrite⟩

end Sys2Proof
end

section
set_option Elab.async false
/-! ## CANDIDATE_ARRIVE (R68, R350, R369, R504) -/
namespace Sys2Proof.Machine
variable {s : State} {p tag shard : Nat} {st x : Step} {ps : List PosLogits}

/-! ### A stale tag -/

theorem eventLate_quiet : Frame [] s (eventLate s) := .after (bumpSat_quiet plain0) (raise_quiet plain0)

theorem eventLate_flag : isSet (eventLate s) Reg.SMP_STATUS_LATE_CANDIDATE = true := by
  have h : getF (eventLate s) Reg.SMP_STATUS_LATE_CANDIDATE = getF (raise s Reg.SMP_STATUS_LATE_CANDIDATE) _ :=
    getF_setF_key _ _ (by decide)
  rw [isSet, h]
  exact isSet_raise (by decide) rfl

theorem eventLate_count : getF (eventLate s) Reg.SMP_EVT_CNT2_LATE_CANDIDATE =
    min (2 ^ Reg.SMP_EVT_CNT2_LATE_CANDIDATE.w - 1) (getF s Reg.SMP_EVT_CNT2_LATE_CANDIDATE + 1) := by
  have h : getF (raise s Reg.SMP_STATUS_LATE_CANDIDATE) Reg.SMP_EVT_CNT2_LATE_CANDIDATE =
      getF s Reg.SMP_EVT_CNT2_LATE_CANDIDATE := by
    rw [getF_raise]
    exact getF_setF_key _ _ (by decide)
  unfold eventLate bumpSat
  rw [getF_setF_same _ _ _ (by decide), h]
  exact Nat.mod_eq_of_lt (Nat.lt_of_le_of_lt (Nat.min_le_left ..) (by decide))

theorem execCandidateArrive_late
    (h : ∀ st, (lane s p).cur = some st → st.tag ≠ tag ∨ st.st ≠ .execute ∨ (lane s p).restoreAt.isSome = true) :
    execCandidateArrive p tag shard ps s = .next (eventLate s) := by
  unfold execCandidateArrive
  dsimp only
  split
  · rfl
  · next st hst => rw [if_pos (h st hst)]

/-! ### Lists of the step in EXECUTE -/

/-- The step once a shard's lists have been taken. -/
def takeLists (st : Step) (shard : Nat) (os : List ShardOut) : Step :=
  { st with cands := st.cands ++ os.map (·.list), shardsLeft := st.shardsLeft.filter (· != shard) }

/-- The step of partition `p` is in EXECUTE with the tag of these lists of the target, which are those of the shard. -/
structure Awaits (s : State) (p tag shard : Nat) (ps : List PosLogits) (st : Step) : Prop where
  cur : (lane s p).cur = some st
  tag_eq : st.tag = tag
  exec : st.st = .execute
  restore : (lane s p).restoreAt = none
  ok : ps.all (posOk s st shard) = true
  draft : ps.any (·.draft) = false

theorem execCandidateArrive_taken (h : Awaits s p tag shard ps st) (hs : shard ∉ st.shardsLeft) :
    execCandidateArrive p tag shard ps s = .next s := by
  obtain ⟨hc, ht, he, hr, hok, hd⟩ := h
  simp [execCandidateArrive, hc, ht, he, hr, hok, hd, hs]

theorem execCandidateArrive_own (h : Awaits s p tag shard ps st) (hs : shard ∈ st.shardsLeft) (hf : st.follower = false) :
    execCandidateArrive p tag shard ps s =
      .next (toSample (setCur (flagShard s p (ps.filterMap (ownList s st shard))) p
        (takeLists st shard (ps.filterMap (ownList s st shard)))) p) := by
  obtain ⟨hc, ht, he, hr, hok, hd⟩ := h
  simp [execCandidateArrive, hc, ht, he, hr, hok, hd, hs, hf, takeLists]

theorem flagShard_quiet {os : List ShardOut} : Frame [] s (flagShard s p os) := by
  unfold flagShard
  extract_lets d g s1
  have h1 : Frame [] s s1 := .ite (.after (raise_quiet plainGrove) draw_quiet) draw_quiet
  exact .ite (.after (raise_quiet plainGrove) h1) h1

theorem sendCand_quiet : Frame [] s (sendCand s p st) := by
  unfold sendCand
  split
  · exact .refl s
  · split
    · exact .foldl (fun _ _ => sendMsg_quiet) _ s
    · exact .refl s

/-- A follower takes the lists, and may send its CAND. -/
theorem execCandidateArrive_follower (h : Awaits s p tag shard ps st) (hs : shard ∈ st.shardsLeft) (hf : st.follower = true) :
    ∃ u os, execCandidateArrive p tag shard ps s = .next u ∧
      Frame [] (setCur (flagShard s p os) p (takeLists st shard os)) u := by
  obtain ⟨hc, ht, he, hr, hok, hd⟩ := h
  have hx : execCandidateArrive p tag shard ps s =
      let os := ps.filterMap (peerList s st shard)
      let s1 := setCur (flagShard s p os) p (takeLists st shard os)
      if (takeLists st shard os).shardsLeft.isEmpty then .next (sendCand s1 p (takeLists st shard os)) else .next s1 := by
    simp [execCandidateArrive, hc, ht, he, hr, hok, hs, hf, takeLists]
  rw [hx]
  dsimp only
  split
  · exact ⟨_, _, rfl, sendCand_quiet⟩
  · exact ⟨_, _, rfl, .refl _⟩

/-! ### The merge -/

theorem lane_setCur (s : State) (p : Nat) (st : Step) : lane (setCur s p st) p = { lane s p with cur := some st } :=
  lane_setLane_same ..

theorem mergeStep_quietAfter : ∃ drawn, Frame [] (setCur s p { x with st := .sample, sampleAt := s.qTime, drawn := drawn })
    (mergeStep s p x) := ⟨_, mergeEvents_quiet _ _ _⟩

theorem mergeStep_frame : Frame [.lanes, .holders] s (mergeStep s p x) := by
  obtain ⟨drawn, h⟩ := mergeStep_quietAfter (s := s) (p := p) (x := x)
  exact .after h.up setCur_frame

theorem toSample_frame : Frame [.lanes, .holders] s (toSample s p) := by
  unfold toSample
  dsimp only
  split
  · exact .ite mergeStep_frame (.refl s)
  · exact .refl s

/-- The merge may start: the conditions of Table 01.2 and Table 10.5. -/
def mayMerge (s : State) (p : Nat) (x : Step) : Bool :=
  x.st == .execute && !x.follower && (lane s p).preempt.isNone && (lane s p).restoreAt.isNone && reduced x &&
    decide (s.qTime < x.deadline)

theorem toSample_eq (h : (lane s p).cur = some x) : toSample s p = if mayMerge s p x then mergeStep s p x else s := by
  unfold toSample mayMerge
  dsimp only
  rw [h]

/-- Whether or not the merge starts, the step keeps its lists, and it is in SAMPLE if the merge may start. -/
theorem toSample_holds (h : (lane s p).cur = some x) :
    Holds (toSample s p) p fun y => y.ctx = x.ctx ∧ y.tag = x.tag ∧ y.plan = x.plan ∧ y.shardsLeft = x.shardsLeft ∧
      y.cands = x.cands ∧ (mayMerge s p x = true → y.st = .sample ∧ y.sampleAt = s.qTime) := by
  rw [toSample_eq h]
  split
  · obtain ⟨drawn, hq⟩ := mergeStep_quietAfter (s := s) (p := p) (x := x)
    refine ⟨{ x with st := .sample, sampleAt := s.qTime, drawn := drawn }, ?_, rfl, rfl, rfl, rfl, rfl, fun _ => ⟨rfl, rfl⟩⟩
    rw [hq.holder p, lane_setCur]
  · next hm => exact ⟨x, h, rfl, rfl, rfl, rfl, rfl, fun hc => absurd hc hm⟩

/-- The last of the target's lists, with nothing in the way, starts the merge. -/
theorem mayMerge_last {os : List ShardOut} {u : State} (h : Awaits s p tag shard ps st) (hf : st.follower = false)
    (hl : (takeLists st shard os).shardsLeft = []) (hw : st.candWait = []) (hp : st.plan.any itemSamples = true)
    (hpre : (lane s p).preempt = none) (hd : s.qTime < st.deadline) (hu : Frame [] s u) :
    mayMerge (setCur u p (takeLists st shard os)) p (takeLists st shard os) = true := by
  obtain ⟨hc, ht, he, hr, -, -⟩ := h
  have hq : (setCur u p (takeLists st shard os)).qTime = s.qTime := hu.qTime
  have hred : reduced (takeLists st shard os) = true := by
    unfold reduced
    rw [hl]
    simp [takeLists, hp, hw]
  simp only [mayMerge, lane_setCur, hu.lane p, hpre, hr, hred, hq]
  simp [takeLists, he, hf, hd]

end Sys2Proof.Machine
end

section
set_option Elab.async false
namespace Sys2Proof
open Machine

/-- Settles O12: a stale tag ends in `eventLate`; otherwise the lists are those of `takeLists`, and on the device that leads the
step `toSample` starts the merge with the last of them. -/
theorem candidatesOfTheTagReachTheMerge : Obligations.CandidatesOfTheTagReachTheMerge := by
  unfold Obligations.CandidatesOfTheTagReachTheMerge
  intro s p tag shard ps _
  refine ⟨fun h => ⟨_, execCandidateArrive_late h, eventLate_flag, eventLate_quiet.lanes, eventLate_count, eventLate_quiet.mem⟩,
    fun st hc ht he hr hok hd => ?_⟩
  have h : Awaits s p tag shard ps st := ⟨hc, ht, he, hr, hok, hd⟩
  refine ⟨fun hs => ?_, fun hs => ⟨_, execCandidateArrive_taken h hs, rfl⟩⟩
  cases hf : st.follower with
  | false =>
    refine ⟨_, execCandidateArrive_own h hs hf, ?_, ?_⟩
    · exact (toSample_frame.after (setCur_frame.after flagShard_quiet.up)).mem
    · obtain ⟨y, hy, hctx, htag, hplan, hleft, hcands, hm⟩ :=
        toSample_holds (s := setCur (flagShard s p (ps.filterMap (ownList s st shard))) p _) (p := p)
          (congrArg Lane.cur (lane_setCur _ _ (takeLists st shard (ps.filterMap (ownList s st shard)))))
      refine ⟨y, hy, hctx, htag.trans ht, hplan, hleft, fun _ => hcands, fun _ hl hw hp hpre hdl => ?_⟩
      obtain ⟨hst, hat⟩ := hm (mayMerge_last h hf (hleft.symm.trans hl) hw hp hpre hdl flagShard_quiet)
      exact ⟨hst, hat.trans flagShard_quiet.qTime⟩
  | true =>
    obtain ⟨u, os, hu, hq⟩ := execCandidateArrive_follower h hs hf
    refine ⟨u, hu, ?_, takeLists st shard os, ?_, rfl, ht, rfl, rfl, fun hn => ?_, fun hn => ?_⟩
    · exact (Frame.after (ps := [.lanes, .holders]) hq.up (setCur_frame.after flagShard_quiet.up)).mem
    · rw [hq.holder p, lane_setCur]
    · cases hn
    · cases hn

end Sys2Proof
end

section
set_option Elab.async false
/-! ## Reset (R90, R232, R460, R696) -/
namespace Sys2Proof
open Machine

/-- Settles O56: the register file, DRAM and every table of the reset state are empty, so that each register reads its card. -/
theorem resetLeavesTheCardsValues : Obligations.ResetLeavesTheCardsValues := by
  unfold Obligations.ResetLeavesTheCardsValues
  have hcard (key : Nat) (c : Card) (h : cardAt key = some c) : rd State.reset key = BitVec.ofNat 64 c.reset := by
    show resetVal key = _
    simp [resetVal, h]
  have htimes : TimesOk State.reset := by unfold TimesOk within; decide
  refine ⟨hcard, fun _ => rfl, reset_memOk, htimes, rfl, rfl, rfl, rfl, rfl, rfl, rfl, rfl, rfl, rfl, rfl, ?_⟩
  decide +kernel

end Sys2Proof
end

section
set_option Elab.async false
/-! ## The mailbox (R107 to R113) and the cost table (R297) -/
namespace Sys2Proof.Machine
variable {s u : State} {c : MbxCmd} {code : Nat}

/-! ### What comes to run -/

theorem runnable_mem (h : runnable s = some c) : c ∈ s.mbx := by
  unfold runnable at h
  split at h
  · cases h
  · split at h
    · exact List.mem_of_head? h
    · exact List.mem_of_find?_eq_some h

theorem runnable_none (h : s.mbx = []) : runnable s = none :=
  Option.eq_none_iff_forall_ne_some.2 fun c hc => by simpa [h] using runnable_mem hc

/-- In SERVICE and HOLD a command that is alone in the mailbox runs. -/
theorem runnable_alone (hr : mbxReady s = true) (hs : stage s = 6 ∨ stage s = 7) (hm : s.mbx = [c]) : runnable s = some c := by
  simp [runnable, hr, hs, hm]

/-- Whether a command is refused turns on the stage and on recovery. -/
theorem refusalOf_congr (hs : stage u = stage s) (hr : isSet u Reg.CFG_STATUS_RECOVERY = isSet s Reg.CFG_STATUS_RECOVERY) :
    refusalOf u c = refusalOf s c := by
  unfold refusalOf
  rw [hs, hr]

theorem settleFor_accepted (n : Nat) (h : ∀ x ∈ s.mbx, refusalOf s x = none) : settleFor n s = s := by
  cases n with
  | zero => rfl
  | succ n =>
    cases hr : runnable s with
    | none => simp [settleFor, hr]
    | some c => simp [settleFor, hr, h c (runnable_mem hr)]

theorem settleFor_empty (n : Nat) (h : s.mbx = []) : settleFor n s = s := settleFor_accepted n (by simp [h])

theorem settle_accepted (h : ∀ x ∈ s.mbx, refusalOf s x = none) : settle s = s := settleFor_accepted 2 h

/-- A refused command that comes to run is answered, and with nothing behind it that is all. -/
theorem settle_refused (hr : runnable s = some c) (hc : refusalOf s c = some code) (ha : (answer s c code []).mbx = []) :
    settle s = answer s c code [] := by
  have h : settle s = settleFor 1 (answer s c code []) := by simp [settle, settleFor, hr, hc]
  rw [h, settleFor_empty 1 ha]

/-! ### Its answer -/

/-- The answer to PF0's only command, without a payload. -/
theorem answer_alone (hm : s.mbx = [c]) (hp : c.smbus = false) :
    answer s c code [] = raise (setF (setF (setF { s with mbx := [] } (Reg.MGT_MBX_AREA_WORD 2) code) (Reg.MGT_MBX_AREA_WORD 3) 0)
      Reg.MGT_MBX_STATUS_BUSY 0) Reg.MGT_MBX_STATUS_DONE := by
  simp [answer, hm, hp, numbered]

theorem answer_mbx (hm : s.mbx = [c]) (hp : c.smbus = false) : (answer s c code []).mbx = [] := by
  rw [answer_alone hm hp, raise_fields]
  rfl

theorem answer_costs (hm : s.mbx = [c]) (hp : c.smbus = false) : (answer s c code []).costs = s.costs := by
  rw [answer_alone hm hp, raise_fields]
  rfl

theorem answer_ended (hm : s.mbx = [c]) (hp : c.smbus = false) (hc : code < 2 ^ 32) : Ended (answer s c code []) code := by
  refine ⟨answer_mbx hm hp, ?_, ?_, ?_⟩
  · rw [answer_alone hm hp, getF_raise, getF_setF_key _ _ (by decide), getF_setF_key _ _ (by decide),
      getF_setF_key _ _ (by decide), getF_setF_same _ _ _ (by decide)]
    exact Nat.mod_eq_of_lt hc
  · rw [answer_alone hm hp, getF_raise, getF_setF_bits _ _ (by decide), getF_setF_same _ _ _ (by decide)]
    rfl
  · rw [answer_alone hm hp, getF_raise, getF_setF_same _ _ _ (by decide)]
    rfl

/-- READY may fall behind a command that has ended. -/
theorem fallReady_ended (h : Ended s code) : Ended (fallReady s) code := by
  unfold fallReady
  split
  · obtain ⟨hm, hr, hb, hd⟩ := h
    refine ⟨hm, ?_, ?_, ?_⟩
    · rwa [getF_setF_key _ _ (by decide)]
    · rwa [getF_setF_bits _ _ (by decide)]
    · rwa [getF_setF_bits _ _ (by decide)]
  · exact h

theorem fallReady_costs : (fallReady s).costs = s.costs := by
  unfold fallReady
  split
  · rfl
  · rfl

/-- PF0's only command completes. -/
theorem respond_alone (hm : s.mbx = [c]) (hp : c.smbus = false) : respond s c code [] = fallReady (answer s c code []) :=
  congrArg fallReady (settleFor_empty 2 (answer_mbx hm hp))

theorem respond_ended (hm : s.mbx = [c]) (hp : c.smbus = false) (hc : code < 2 ^ 32) : Ended (respond s c code []) code := by
  rw [respond_alone hm hp]
  exact fallReady_ended (answer_ended hm hp hc)

theorem respond_costs (hm : s.mbx = [c]) (hp : c.smbus = false) : (respond s c code []).costs = s.costs := by
  rw [respond_alone hm hp, fallReady_costs, answer_costs hm hp]

/-! ### Commands that enter -/

/-- What a GO does once it has reached the mailbox. -/
theorem execMailboxGo_reaches (h : Reaches s Reg.MGT_MBX_CTL) : execMailboxGo s =
    if s.mbx.any fun x => !x.smbus then .next (raise s Reg.MGT_MBX_STATUS_GO_WHILE_BUSY)
    else if !canStart s then .next (raise s Reg.MGT_MBX_STATUS_REFUSED_NOT_READY)
    else if (areaRequest s).opcode / 256 < 1 ∨ 12 < (areaRequest s).opcode / 256 then
      .next (raise s Reg.MGT_MBX_STATUS_BAD_OPCODE)
    else .next (settle (setF { s with mbx := s.mbx ++ [areaRequest s] } Reg.MGT_MBX_STATUS_BUSY 1)) := by
  obtain ⟨hd, hp⟩ := h
  simp [execMailboxGo, reach, hd, hp]

/-- A code of refusal fits RESULT. -/
theorem refusalOf_lt (h : refusalOf s c = some code) (ho : c.opcode / 256 ≤ 12) : code < 2 ^ 32 := by
  unfold refusalOf at h
  grind

/-- A command that joins others, where none is refused, waits with them or runs. -/
theorem settle_entered (hm : u.mbx = s.mbx ++ [c]) (hs : stage u = stage s)
    (hr : isSet u Reg.CFG_STATUS_RECOVERY = isSet s Reg.CFG_STATUS_RECOVERY) (hok : ∀ x ∈ s.mbx, refusalOf s x = none)
    (hc : refusalOf s c = none) : settle u = u := by
  refine settle_accepted fun x hx => ?_
  rw [refusalOf_congr hs hr]
  rw [hm] at hx
  obtain hx | hx := List.mem_append.1 hx
  · exact hok x hx
  · rw [List.mem_singleton.1 hx, hc]

/-- The mailbox once the request of the area has joined it, BUSY 1. -/
def entered (s : State) : State := setF { s with mbx := s.mbx ++ [areaRequest s] } Reg.MGT_MBX_STATUS_BUSY 1

theorem entered_stage : stage (entered s) = stage s := getF_setF_key _ _ (by decide)
theorem entered_recovery : isSet (entered s) Reg.CFG_STATUS_RECOVERY = isSet s Reg.CFG_STATUS_RECOVERY :=
  congrArg (· == 1) (getF_setF_key _ _ (by decide))
theorem entered_ready : mbxReady (entered s) = mbxReady s :=
  congrArg (· == 1) (getF_setF_bits _ _ (by decide))
theorem entered_busy : getF (entered s) Reg.MGT_MBX_STATUS_BUSY = 1 := getF_setF_same _ _ _ (by decide)

/-- A GO that is refused leaves the mailbox and sets its flag. -/
theorem mailboxGo_flags {f : Fld} (hf : f.lo + f.w ≤ 64) (hw : f.w = 1) (h : execMailboxGo s = .next (raise s f)) :
    Answers .mailboxGo s fun u => u.mbx = s.mbx ∧ isSet u f = true :=
  ⟨_, h, by rw [raise_fields], isSet_raise hf hw⟩

section
variable (hr : Reaches s Reg.MGT_MBX_CTL)
include hr

theorem mailboxGo_whileBusy (hb : (s.mbx.any fun x => !x.smbus) = true) :
    Answers .mailboxGo s fun u => u.mbx = s.mbx ∧ isSet u Reg.MGT_MBX_STATUS_GO_WHILE_BUSY = true :=
  mailboxGo_flags (by decide) rfl (by rw [execMailboxGo_reaches hr, if_pos hb])

variable (hb : (s.mbx.any fun x => !x.smbus) = false)
include hb

theorem mailboxGo_notReady (hc : canStart s = false) :
    Answers .mailboxGo s fun u => u.mbx = s.mbx ∧ isSet u Reg.MGT_MBX_STATUS_REFUSED_NOT_READY = true :=
  mailboxGo_flags (by decide) rfl (by rw [execMailboxGo_reaches hr, if_neg (by simp [hb]), if_pos (by simp [hc])])

variable (hc : canStart s = true)
include hc

theorem mailboxGo_badOpcode (ho : (areaRequest s).opcode / 256 < 1 ∨ 12 < (areaRequest s).opcode / 256) :
    Answers .mailboxGo s fun u => u.mbx = s.mbx ∧ isSet u Reg.MGT_MBX_STATUS_BAD_OPCODE = true :=
  mailboxGo_flags (by decide) rfl
    (by rw [execMailboxGo_reaches hr, if_neg (by simp [hb]), if_neg (by simp [hc]), if_pos ho])

variable (h1 : 1 ≤ (areaRequest s).opcode / 256) (h12 : (areaRequest s).opcode / 256 ≤ 12)
include h1 h12

theorem execMailboxGo_takes : execMailboxGo s = .next (settle (entered s)) := by
  rw [execMailboxGo_reaches hr, if_neg (by simp [hb]), if_neg (by simp [hc]), if_neg (by omega)]
  rfl

theorem mailboxGo_takes (hok : ∀ x ∈ s.mbx, refusalOf s x = none) (hq : refusalOf s (areaRequest s) = none) :
    Answers .mailboxGo s fun u => u.mbx = s.mbx ++ [areaRequest s] ∧ getF u Reg.MGT_MBX_STATUS_BUSY = 1 := by
  refine ⟨_, execMailboxGo_takes hr hb hc h1 h12, ?_⟩
  rw [settle_entered rfl entered_stage entered_recovery hok hq]
  exact ⟨rfl, entered_busy⟩

theorem mailboxGo_refuses (hq : refusalOf s (areaRequest s) = some code) (hm : s.mbx = [])
    (hs : stage s = 6 ∨ stage s = 7) : Answers .mailboxGo s fun u => Ended u code := by
  refine ⟨_, execMailboxGo_takes hr hb hc h1 h12, ?_⟩
  have hone : (entered s).mbx = [areaRequest s] := congrArg (· ++ [areaRequest s]) hm
  have hready : mbxReady s = true := (Bool.and_eq_true_iff.1 hc).1
  have hrun : runnable (entered s) = some (areaRequest s) :=
    runnable_alone (entered_ready.trans hready) (entered_stage (s := s) ▸ hs) hone
  have href : refusalOf (entered s) (areaRequest s) = some code := (refusalOf_congr entered_stage entered_recovery).trans hq
  rw [settle_refused hrun href (answer_mbx hone rfl)]
  exact answer_ended hone rfl (refusalOf_lt hq h12)

end

/-! ### The SMBus endpoint (R726, R745) -/

section
variable {op tag len : Nat} {pl : List Byte} (hs : smbusSilent s = false)
include hs

theorem smbusRequest_enters (hn : (s.mbx.any fun x => x.smbus) = false) (hc : canStart s = true) (h1 : 1 ≤ op / 256)
    (h12 : op / 256 ≤ 12) (hok : ∀ x ∈ s.mbx, refusalOf s x = none)
    (hq : refusalOf s ⟨true, op, tag, len, pl.take 4032, false⟩ = none) :
    Answers (.smbusMctpRequest op tag len pl) s fun u =>
      u.mbx = s.mbx ++ [⟨true, op, tag, len, pl.take 4032, false⟩] ∧ u.regs = s.regs := by
  have hjoin : settle { s with mbx := s.mbx ++ [⟨true, op, tag, len, pl.take 4032, false⟩] } = _ :=
    settle_entered rfl rfl rfl hok hq
  refine ⟨{ s with mbx := s.mbx ++ [⟨true, op, tag, len, pl.take 4032, false⟩] }, ?_, rfl, rfl⟩
  show execSmbusMctpRequest op tag len pl s = _
  unfold execSmbusMctpRequest
  rw [if_neg (by simp [hs]), if_neg (by simp [hn, hc]), if_neg (by omega), hjoin]

theorem smbusRequest_notReady (hn : (s.mbx.any fun x => x.smbus) = true ∨ canStart s = false) :
    Answers (.smbusMctpRequest op tag len pl) s fun u => u = emit s (.smbusPldm pldmNotReady) := by
  refine ⟨_, ?_, rfl⟩
  show execSmbusMctpRequest op tag len pl s = _
  unfold execSmbusMctpRequest
  rw [if_neg (by simp [hs]), if_pos (by simpa using hn)]

end

/-! ### The cost table -/

section
variable (ha : Alone s c)
include ha

/-- The command that is alone in the mailbox is the one that its opcode's command takes. -/
theorem runCmd_alone {op : Nat} {f : MbxCmd → State} (ho : c.opcode = op) : runCmd s op (fun _ => true) f = .next (f c) := by
  obtain ⟨-, hr, -⟩ := ha
  simp [runCmd, takeCmd, hr, ho]

/-- The command completes with a cost table `l`, or with the old one. -/
theorem respond_table (l : List CostRec) (hc : code < 2 ^ 32) :
    (respond { s with costs := l } c code []).costs = l ∧ Ended (respond { s with costs := l } c code []) code := by
  obtain ⟨hm, -, hp⟩ := ha
  exact ⟨respond_costs hm hp, respond_ended hm hp hc⟩

theorem loadCostTable_loads {l : List CostRec} (ho : c.opcode = 0x0210)
    (hl : loadCosts s.costs (leAt c.payload 0 4) (c.payload.drop 4) = .ok l) :
    Answers .loadCostTable s fun u => u.costs = l ∧ Ended u 0 := by
  have he : execLoadCostTable s = .next (respond { s with costs := l } c 0 []) := by
    rw [execLoadCostTable, runCmd_alone ha ho, hl]
  exact ⟨_, he, respond_table ha l (by decide)⟩

theorem loadCostTable_fails (ho : c.opcode = 0x0210) (hc : code < 2 ^ 32)
    (hl : loadCosts s.costs (leAt c.payload 0 4) (c.payload.drop 4) = .error code) :
    Answers .loadCostTable s fun u => u.costs = s.costs ∧ Ended u code := by
  have he : execLoadCostTable s = .next (respond s c code []) := by
    rw [execLoadCostTable, runCmd_alone ha ho, hl]
  exact ⟨_, he, respond_table ha s.costs hc⟩

theorem clearCostTable_empties (ho : c.opcode = 0x0211) :
    Answers .clearCostTable s fun u => u.costs = [] ∧ Ended u 0 :=
  ⟨_, runCmd_alone ha ho, respond_table ha [] (by decide)⟩

end

end Sys2Proof.Machine
end

section
set_option Elab.async false
namespace Sys2Proof
open Machine

/-- Settles O18: a request joins the mailbox and `settle` leaves it there or answers it; the cost table's commands are alone
and end with `respond`. -/
theorem commandsEnterTheMailboxAndTheCostTable : Obligations.CommandsEnterTheMailboxAndTheCostTable := by
  unfold Obligations.CommandsEnterTheMailboxAndTheCostTable
  refine ⟨⟨fun s hr => ⟨mailboxGo_whileBusy hr, fun hb => ⟨mailboxGo_notReady hr hb, mailboxGo_badOpcode hr hb,
    fun hc h1 h12 hok => ⟨mailboxGo_takes hr hb hc h1 h12 hok, fun code => mailboxGo_refuses hr hb hc h1 h12⟩⟩⟩,
    fun s op tag len pl _ hs => ⟨smbusRequest_enters hs, smbusRequest_notReady hs⟩, fun s => rfl⟩, fun s c ha => ?_⟩
  refine ⟨fun ho => ⟨fun hok hlen => ?_, fun hbad => ?_, fun hok hlen => ?_⟩, clearCostTable_empties ha⟩
  · exact loadCostTable_loads ha ho (by simp [loadCosts, hok, hlen.not_gt])
  · exact loadCostTable_fails ha ho (by decide) (by simp [loadCosts, hbad])
  · exact loadCostTable_fails ha ho (by decide) (by simp [loadCosts, hok, hlen])

end Sys2Proof
end

section
set_option Elab.async false
/-! ## Register writes: where they arrive (R76, R91, R93, R95, R102) -/
namespace Sys2Proof.Machine
variable {s : State} {who : Requester} {bar : Bar} {o key hw i : Nat} {v : W64} {c : Card} {f : CardField}

/-! ### Where the cards lie -/

theorem cardAt_all {p : Card → Bool} (hp : (allCards.all fun b => b.all p) = true) (h : cardAt key = some c) : p c = true := by
  have hc : c ∈ cardsOf key := List.mem_of_find?_eq_some h
  obtain he | hb := cardsOf_mem_allCards key
  · simp [he] at hc
  · exact List.all_eq_true.1 (List.all_eq_true.1 hp _ hb) c hc

/-- The card's base and its copies' distances are multiples of 4. -/
def Card.aligned (c : Card) : Bool := c.base % 4 == 0 && c.dims.all fun d => d.2 % 4 == 0

theorem allCards_aligned : (allCards.all fun b => b.all Card.aligned) = true := by rfl

theorem dimsHit_aligned {ds : List (Nat × Nat)} {r : Nat} (hd : ∀ d ∈ ds, d.2 % 4 = 0) (h : dimsHit ds r = true) :
    r % 4 = 0 := by
  induction ds generalizing r with
  | nil => rw [beq_iff_eq.1 h]
  | cons d ds ih =>
    have hrest : dimsHit ds (r % d.2) = true := (Bool.and_eq_true_iff.1 h).2
    rw [← Nat.mod_mod_of_dvd r (Nat.dvd_of_mod_eq_zero (hd d List.mem_cons_self))]
    exact ih (fun e he => hd e (List.mem_cons_of_mem _ he)) hrest

theorem cardAt_place (h : cardAt key = some c) : c.base ≤ key ∧ dimsHit c.dims (key - c.base) = true := by
  simpa using List.find?_some h

/-- Registers lie at multiples of 4. -/
theorem cardAt_mod (h : cardAt key = some c) : key % 4 = 0 := by
  obtain ⟨hb, hd⟩ := Bool.and_eq_true_iff.1 (cardAt_all allCards_aligned h)
  obtain ⟨hle, hhit⟩ := cardAt_place h
  have hoff := dimsHit_aligned (fun d hm => beq_iff_eq.1 (List.all_eq_true.1 hd d hm)) hhit
  have hbase : c.base % 4 = 0 := beq_iff_eq.1 hb
  omega

/-- The card's W1C flags lie in bits [23:0]. -/
def Card.flagsLow (c : Card) : Bool := c.fields.all fun f => f.acc != .w1c || decide (f.lo + f.w ≤ 24)

theorem allCards_flagsLow : (allCards.all fun b => b.all Card.flagsLow) = true := by rfl

theorem w1c_below (h : cardAt key = some c) (hf : f ∈ c.fields) (ha : f.acc = .w1c) : f.lo + f.w ≤ 24 := by
  simpa [ha] using List.all_eq_true.1 (cardAt_all allCards_flagsLow h) f hf

/-- No W1C flag lies in the trace window: in its block, only a register with one copy, below the window, has one. -/
theorem w1c_outside_window (h : cardAt key = some c) (hf : f ∈ c.fields) (ha : f.acc = .w1c) :
    ¬(0xD80000 ≤ key ∧ key < 0xE00000) := by
  rintro ⟨hlo, hhi⟩
  have hcards : cardsTRC.all (fun c => c.fields.all (·.acc != .w1c) || c.dims == [] && decide (c.base < 0xD80000)) = true := by
    rfl
  have hblock : cardsOf key = cardsTRC := by
    have hb : key / 0x100000 = 13 := by omega
    simp [cardsOf, hb]
  have hc : c ∈ cardsTRC := hblock ▸ List.mem_of_find?_eq_some h
  obtain hnone | hone := Bool.or_eq_true_iff.1 (List.all_eq_true.1 hcards c hc)
  · simpa [ha] using List.all_eq_true.1 hnone f hf
  · obtain ⟨hdims, hbase⟩ := Bool.and_eq_true_iff.1 hone
    obtain ⟨hle, hhit⟩ := cardAt_place h
    rw [beq_iff_eq.1 hdims] at hhit
    have hzero : key - c.base = 0 := beq_iff_eq.1 hhit
    have hlow : c.base < 0xD80000 := of_decide_eq_true hbase
    omega

/-! ### A write that reaches its register -/

/-- The register at `key` lies at offset `o` of the BAR: of PF0 BAR0, or of a VF's ring page (Table 03.1). -/
def LiesAt (bar : Bar) (o key : Nat) : Prop :=
  bar = .pfBar0 ∧ o = key ∨ ∃ t, bar = .vfBar0 t ∧ o < 0x1000 ∧ key = 0x400000 + 0x1000 * t + o

/-- Through an open BAR a 4-byte write to a register is a write of its word. -/
theorem registerWrite_word (hwf : (Instr.registerWrite who bar o 4 v hw).wf = true) (hop : barOpen s who bar = true)
    (hk : LiesAt bar o key) (hc : cardAt key = some c) :
    exec (.registerWrite who bar o 4 v hw) s = .next (writeWord s key v hw) := by
  have hmod := cardAt_mod hc
  have hlt : hw < 2 ^ 24 := of_decide_eq_true (Bool.and_eq_true_iff.1 hwf).2
  show execRegisterWrite who bar o 4 v hw s = _
  unfold execRegisterWrite
  obtain ⟨rfl, rfl⟩ | ⟨t, rfl, ho, rfl⟩ := hk
  · rw [if_neg (by simp [hop]), if_neg (by omega)]
    rfl
  · have hword : writeVf s t o v (hw % 2 ^ 32) = writeWord s (0x400000 + 0x1000 * t + o) v hw := by
      rw [Nat.mod_eq_of_lt (by omega)]
      exact if_pos ho
    rw [if_neg (by simp [hop]), if_neg (by omega)]
    dsimp only
    rw [if_neg (by omega), if_neg (by decide), hword]

/-- The flags among `hw` that the register at `key` has. -/
def metFlags (key hw : Nat) : Nat := (BitVec.ofNat 64 hw &&& BitVec.ofNat 64 (w1cBits key)).toNat

theorem metFlags_zero (key : Nat) : metFlags key 0 = 0 := by simp [metFlags]

theorem hwSets_zero (s : State) (key written : Nat) : hwSets s key written 0 = s := if_pos rfl

theorem hostWrite_reaches (hr : Reaches s key) (data mask : BitVec 64) : hostWrite s key data mask hw =
    afterWrite (hwSets (writeReg s key data mask) key (data &&& mask).toNat (metFlags key hw)) key := by
  obtain ⟨hd, hp⟩ := hr
  simp [hostWrite, reach, hd, hp, after, metFlags]

/-- A write that meets no flag of hardware's. -/
theorem hostWrite_quiet (hr : Reaches s key) (data mask : BitVec 64) :
    hostWrite s key data mask 0 = afterWrite (writeReg s key data mask) key := by
  rw [hostWrite_reaches hr, metFlags_zero, hwSets_zero]

/-- The register's block has taken a 4-byte write, and hardware has set its flags; no message has gone. -/
def wordTaken (s : State) (key : Nat) (v : W64) (hw : Nat) : State :=
  hwSets (writeReg s key (v &&& 0xFFFFFFFF#64) 0xFFFFFFFF#64) key (v &&& 0xFFFFFFFF#64 &&& 0xFFFFFFFF#64).toNat (metFlags key hw)

theorem writeWord_reaches (hc : cardAt key = some c) (hn : ¬(0xD80000 ≤ key ∧ key < 0xE00000)) (hr : Reaches s key) :
    writeWord s key v hw = afterWrite (wordTaken s key v hw) key := by
  unfold writeWord
  rw [if_neg hn, regAt_card hc]
  simp only [BitVec.shiftLeft_zero]
  exact hostWrite_reaches hr _ _

/-! ### What comes after the write of its fields -/

theorem afterWrite_fields (s : State) (k : Nat) :
    afterWrite s k = { s with vecs := (afterWrite s k).vecs, out := (afterWrite s k).out } := by
  unfold afterWrite
  split
  · exact reassert_fields _ _
  · split
    · exact reassert_fields _ _
    · rfl

theorem rd_afterWrite (s : State) (k j : Nat) : rd (afterWrite s k) j = rd s j := by
  rw [afterWrite_fields]
  rfl

/-- The bits of a field among them, if it is W1C. -/
def addW1c (a : BitVec 64) (f : CardField) : BitVec 64 :=
  match f.acc with
  | .w1c => a ||| (BitVec.ofNat 64 (2 ^ f.w - 1) <<< f.lo)
  | _ => a

theorem w1cBits_card (h : cardAt key = some c) : w1cBits key = (c.fields.foldl addW1c 0#64).toNat := by
  unfold w1cBits
  rw [h]
  rfl

theorem addW1c_keeps {a : BitVec 64} (h : a.getLsbD i = true) : (addW1c a f).getLsbD i = true := by
  unfold addW1c
  split
  · rw [BitVec.getLsbD_or, h, Bool.true_or]
  · exact h

theorem addW1c_sets {a : BitVec 64} (ha : f.acc = .w1c) (hlo : f.lo ≤ i) (hhi : i < f.lo + f.w) (h : i < 64) :
    (addW1c a f).getLsbD i = true := by
  have hlow : ¬i < f.lo := by omega
  have hw : i - f.lo < f.w := by omega
  have h64 : i - f.lo < 64 := by omega
  simp [addW1c, ha, h, hlow, hw, h64, BitVec.getLsbD_ofNat, Nat.testBit_two_pow_sub_one]

theorem foldl_addW1c {l : List CardField} (hf : f ∈ l) (ha : f.acc = .w1c) (hlo : f.lo ≤ i) (hhi : i < f.lo + f.w)
    (h : i < 64) (a : BitVec 64) : (l.foldl addW1c a).getLsbD i = true := by
  have hkeep (l : List CardField) : ∀ a : BitVec 64, a.getLsbD i = true → (l.foldl addW1c a).getLsbD i = true := by
    induction l with
    | nil => exact fun a ha => ha
    | cons g l ih => exact fun a ha => ih _ (addW1c_keeps ha)
  induction l generalizing a with
  | nil => cases hf
  | cons g l ih =>
    obtain rfl | hf := List.mem_cons.1 hf
    · exact hkeep l _ (addW1c_sets ha hlo hhi h)
    · exact ih hf _

/-- A flag of the card that hardware sets is among those that the write meets. -/
theorem testBit_metFlags (hc : cardAt key = some c) (hf : f ∈ c.fields) (ha : f.acc = .w1c) (hlo : f.lo ≤ i)
    (hhi : i < f.lo + f.w) (h : hw.testBit i = true) : (metFlags key hw).testBit i = true := by
  have hlt := w1c_below hc hf ha
  have h64 : i < 64 := by omega
  rw [metFlags, w1cBits_card hc, BitVec.testBit_toNat, BitVec.getLsbD_and, BitVec.ofNat_toNat, BitVec.setWidth_eq,
    foldl_addW1c hf ha hlo hhi h64, BitVec.getLsbD_ofNat, h]
  simp [h64]

/-- A field's bits are those of the value written to it; the others keep. -/
theorem getLsbD_putField (v : BitVec 64) (lo w x i : Nat) :
    (putField v lo w x).getLsbD i = if lo ≤ i ∧ i < lo + w ∧ i < 64 then x.testBit (i - lo) else v.getLsbD i := by
  simp only [putField, BitVec.getLsbD_or, BitVec.getLsbD_and, BitVec.getLsbD_not, BitVec.getLsbD_shiftLeft,
    BitVec.getLsbD_ofNat, Nat.testBit_mod_two_pow, Nat.testBit_two_pow_sub_one]
  by_cases h64 : i < 64
  · by_cases hlo : i < lo
    · simp [h64, hlo, hlo.not_ge]
    · by_cases hw : i - lo < w
      · have hin : lo ≤ i ∧ i < lo + w := by omega
        have hd : i - lo < 64 := by omega
        simp [h64, hlo, hw, hin, hd]
      · have hout : ¬(lo ≤ i ∧ i < lo + w) := by omega
        simp only [h64, hlo, hw]
        rw [if_neg (by omega)]
        simp
  · simp [h64, BitVec.getLsbD_of_ge v i (by omega)]

/-- A cause of FLT_FAULTN that is set reads 1, and the others read as before. -/
theorem getLsbD_setCause {k : Nat} (hi : i < 64) : (rd (setCause s k) Reg.FLT_FAULTN).getLsbD i =
    (decide (i = k) || (rd s Reg.FLT_FAULTN).getLsbD i) := by
  have hrd : rd (setCause s k) Reg.FLT_FAULTN = putField (rd s Reg.FLT_FAULTN) k 1 1 := by
    unfold setCause withFaultn
    dsimp only
    split
    · exact rd_wr_same _ _ _
    · rw [drive_fields]
      exact rd_wr_same _ _ _
  rw [hrd, getLsbD_putField]
  by_cases hk : i = k
  · subst hk
    simp [hi]
  · rw [if_neg (by omega)]
    simp [hk]

/-- Causes of FLT_FAULTN that are set one after another. -/
theorem getLsbD_setCauses {flags : Nat} (hi : i < 64) (l : List Nat) (s : State) :
    (rd (l.foldl (fun a k => if flags.testBit k then setCause a k else a) s) Reg.FLT_FAULTN).getLsbD i =
      (decide (i ∈ l) && flags.testBit i || (rd s Reg.FLT_FAULTN).getLsbD i) := by
  induction l generalizing s with
  | nil => simp
  | cons k l ih =>
    rw [List.foldl_cons, ih]
    by_cases hk : flags.testBit k = true
    · rw [if_pos hk, getLsbD_setCause hi]
      by_cases he : i = k
      · subst he
        simp [hk]
      · simp [he]
    · rw [if_neg hk]
      by_cases he : i = k
      · subst he
        simp [hk]
      · simp [he]

/-- The set wins: a flag that hardware sets in the cycle of the write reads 1 after it (R102). -/
theorem getLsbD_hwSetDuring {written flags : Nat} (hi : i < 24) (hf : flags.testBit i = true) :
    (rd (hwSetDuring s key written flags) key).getLsbD i = true := by
  have hset : (rd s key ||| BitVec.ofNat 64 (flags % 2 ^ 24)).getLsbD i = true := by
    have h64 : i < 64 := by omega
    rw [BitVec.getLsbD_or, BitVec.getLsbD_ofNat, Nat.testBit_mod_two_pow, hf]
    simp [hi, h64]
  unfold hwSetDuring
  dsimp only
  split
  · rw [setF, rd_wr_same, getLsbD_putField, if_neg (by dsimp only; omega), rd_wr_same]
    exact hset
  · rw [rd_wr_same]
    exact hset

theorem getLsbD_hwSets {written flags : Nat} (hi : i < 24) (h7 : key = Reg.FLT_FAULTN → i < 7) (hf : flags.testBit i = true) :
    (rd (hwSets s key written flags) key).getLsbD i = true := by
  have h0 : flags ≠ 0 := by
    rintro rfl
    simp at hf
  unfold hwSets
  rw [if_neg h0]
  split
  · next hk =>
    subst hk
    rw [getLsbD_setCauses (by omega)]
    simp [hf, h7 rfl]
  · exact getLsbD_hwSetDuring hi hf

end Sys2Proof.Machine
end

section
set_option Elab.async false
namespace Sys2Proof
open Machine

/-- Settles O40: after whatever the write does, `hwSets` sets the flags that hardware set, and no message clears them. -/
theorem aFlagSetDuringItsClearStaysSet : Obligations.AFlagSetDuringItsClearStaysSet := by
  unfold Obligations.AFlagSetDuringItsClearStaysSet
  intro s who bar o key c f i v hw hwf hop hr hc hk hf ha hlo hhi _ hset
  have hlow := w1c_below hc hf ha
  have hcause : key = Reg.FLT_FAULTN → i < 7 := by
    rintro rfl
    cases hc
    cases List.mem_singleton.1 hf
    exact hhi
  refine ⟨_, registerWrite_word hwf hop hk hc, ?_⟩
  rw [writeWord_reaches hc (w1c_outside_window hc hf ha) hr]
  refine (congrArg (·.getLsbD i) (rd_afterWrite _ _ _)).trans ?_
  exact getLsbD_hwSets (by omega) hcause (testBit_metFlags hc hf ha hlo hhi hset)

end Sys2Proof
end

section
set_option Elab.async false
/-! ## Register writes: their fields, and the message again (R96, R97, R106) -/
namespace Sys2Proof.Machine
variable {s u : State} {key st j n k hw : Nat} {data mask : BitVec 64} {v : W64} {c : Card}

/-! ### What a write of fields can change -/

/-- The register's value after its fields have met the write, and whether a reserved encoding was refused. -/
def fieldsAfter (s : State) (key : Nat) (c : Card) (data mask : BitVec 64) : BitVec 64 × Bool :=
  c.fields.foldl (writeField data mask) (rd s key, false)

theorem writeFields_card (hc : cardAt key = some c) (data mask : BitVec 64) : writeFields s key data mask =
    let s1 := wr s key (fieldsAfter s key c data mask).1
    let s2 := if (fieldsAfter s key c data mask).2 then raise s1 Reg.HST_ERR_STATUS_BAD_VALUE else s1
    if data &&& mask &&& ~~~(namedBits c) ≠ 0#64 then raise s2 Reg.HST_ERR_STATUS_RSV_NONZERO else s2 := by
  unfold writeFields
  rw [hc]
  rfl

theorem rd_raise_other {f : Fld} (h : j ≠ f.key) : rd (raise s f) j = rd s j := by
  rw [raise_fields]
  exact rd_setF_other s 1 h

/-- A write of fields writes its register and HST_ERR_STATUS. -/
theorem rd_writeFields_other (hj : j ≠ key) (he : j ≠ Reg.HST_ERR_STATUS) : rd (writeFields s key data mask) j = rd s j := by
  cases hc : cardAt key with
  | none => simp [writeFields, hc]
  | some c =>
    rw [writeFields_card hc]
    extract_lets s1 s2
    have h1 : rd s1 j = rd s j := rd_wr_other _ _ hj
    have h2 : rd s2 j = rd s j := by
      unfold s2
      split
      · rw [rd_raise_other he, h1]
      · exact h1
    split
    · rw [rd_raise_other he, h2]
    · exact h2

/-- Hardware's flags are those of the register. -/
theorem rd_hwSets_other {written flags : Nat} (hk : key ≠ Reg.FLT_FAULTN) (hj : j ≠ key) :
    rd (hwSets s key written flags) j = rd s j := by
  unfold hwSets
  rw [if_neg hk]
  split
  · rfl
  · unfold hwSetDuring
    dsimp only
    split
    · rw [rd_setF_other _ _ hj, rd_wr_other _ _ hj]
    · rw [rd_wr_other _ _ hj]

/-! ### Status registers -/

/-- A status register of a ring page: RQI_SQ_STATUS or RQI_CQ_STATUS. -/
def ringStatus (key : Nat) : Prop :=
  key / 0x100000 = 4 ∧ key % 0x1000 < 0x300 ∧
    (key % 0x40 = 0x10 ∧ key % 0x1000 < 0x100 ∨ key % 0x40 = 0x18 ∧ 0x200 ≤ key % 0x1000)

/-- A status register outside the ring pages. -/
def blockStatus (key : Nat) : Prop :=
  key = 0x220 ∨ key = 0x210 ∨ key = 0x510 ∨ key = 0x100014 ∨ key = 0xE00000 ∨ key = 0xC00000 ∨ key = 0x800000 ∨
    key = 0x900010 ∨ key = 0x500000 ∨ key = 0x700000 ∨ key = 0xA00010 ∨ key = 0xB00010 ∨ key = 0xD00000 ∨
    key / 0x100000 = 6 ∧ (key % 0x10000 = 0x10 ∨ key % 0x10000 = 0x50) ∨
    0x1000000 ≤ key ∧ key < 0x1400000 ∧ key % 0x40000 = 0x200

theorem isSome_ite_some {α : Type} {P : Prop} [Decidable P] {a : α} {x : Option α} :
    (if P then some a else x).isSome = true ↔ P ∨ x.isSome = true := by
  by_cases h : P
  · simp [h]
  · simp [h]

theorem statusVec_isSome : (statusVec s key).isSome = true ↔ blockStatus key ∨ ringStatus key := by
  have hring {P Q : Prop} [Decidable P] [Decidable Q] {a b : Nat × Nat} :
      (if P then if Q then some a else some b else none).isSome = true ↔ P := by
    split_ifs <;> simp [*]
  unfold statusVec blockStatus ringStatus
  simp only [isSome_ite_some, hring, or_assoc]

/-- Which vector a status register outside the ring pages raises is fixed. -/
theorem statusVec_fixed (h : ¬ringStatus key) : statusVec u key = statusVec s key := by
  have h : ¬(key / 0x100000 = 4 ∧ key % 0x1000 < 0x300 ∧
    (key % 0x40 = 0x10 ∧ key % 0x1000 < 0x100 ∨ key % 0x40 = 0x18 ∧ 0x200 ≤ key % 0x1000)) := h
  unfold statusVec
  rw [if_neg h, if_neg h]

/-- Which vector a ring's status register raises turns on the routes and on the number of VFs. -/
theorem statusVec_congr (hroute : ∀ h, rd u (Reg.HST_DB_ROUTE h) = rd s (Reg.HST_DB_ROUTE h))
    (hvfs : rd u Reg.HST_PCIE_LINK = rd s Reg.HST_PCIE_LINK) : statusVec u key = statusVec s key := by
  have hr (t : Nat) : routePf u t = routePf s t := congrArg (fun x => (fieldOf x 0 32).testBit (t % 32)) (hroute (t / 32))
  have hv : getF u Reg.HST_PCIE_LINK_NUM_VFS = getF s Reg.HST_PCIE_LINK_NUM_VFS := congrArg (fieldOf · 16 7) hvfs
  have hp (t : Nat) : pfServed u t = pfServed s t := by rw [pfServed, pfServed, hr, hv]
  unfold statusVec
  simp only [hp]

/-- The registers of a ring's page that hold its flags and their enables follow their cards. -/
theorem writeReg_ringStatus (hst : ringStatus st) (hk : key = st ∨ key = st + 4) :
    writeReg s key data mask = writeFields s key data mask := by
  obtain ⟨hb, ho, hx⟩ := hst
  have hring : writeReg s key data mask = writeRing s ((key - 0x400000) / 0x1000) (key % 0x1000) key data mask := by
    unfold writeReg
    dsimp only
    rw [if_neg (by omega), if_neg (by omega), if_pos (by omega)]
  rw [hring]
  unfold writeRing
  dsimp only
  split
  · rw [if_neg (by omega), if_neg (by omega), if_neg (by omega)]
  · rw [if_neg (by omega), if_neg (by omega)]

/-- A write to a status register or its enable leaves it its vector. -/
theorem statusVec_wordTaken (hk : key = st ∨ key = st + 4) : statusVec (wordTaken s key v hw) st = statusVec s st := by
  by_cases hst : ringStatus st
  · obtain ⟨hb, -, -⟩ := id hst
    have hkeep {i : Nat} (hi : i < 0x100000) (he : i ≠ 0x220) : rd (wordTaken s key v hw) i = rd s i := by
      have hfault : key ≠ 0xE00020 := by omega
      unfold wordTaken
      rw [rd_hwSets_other hfault (by omega), writeReg_ringStatus hst hk, rd_writeFields_other (by omega) he]
    have hroute (h : Nat) : 0x300 + h % 2 * 4 < 0x100000 ∧ 0x300 + h % 2 * 4 ≠ 0x220 := by omega
    exact statusVec_congr (fun h => hkeep (hroute h).1 (hroute h).2) (hkeep (by decide) (by decide))
  · exact statusVec_fixed hst

/-! ### The message -/

/-- A status register's enable is no status register. -/
theorem statusVec_enable (h : (statusVec s st).isSome = true) : (statusVec u (st + 4)).isSome = false := by
  rw [← Bool.not_eq_true, statusVec_isSome]
  rw [statusVec_isSome] at h
  unfold blockStatus ringStatus at *
  omega

theorem afterWrite_status (h : (statusVec u st).isSome = true) (hk : key = st ∨ key = st + 4) :
    afterWrite u key = reassert u st := by
  unfold afterWrite
  obtain rfl | rfl := hk
  · rw [if_pos h]
  · rw [statusVec_enable h, if_neg (by simp), Nat.add_sub_cancel, if_pos ⟨Nat.le_add_left 4 st, h⟩]

theorem irqLevel_reassert : irqLevel (reassert u st) st = irqLevel u st := by
  rw [reassert_fields]
  rfl

/-- The message of vector `k` of function `n` may not go. -/
def msgHeld (s : State) (n k : Nat) : Bool := (vec s n k).masked || (fn s n).fnMask || !(fn s n).msixEn || !canDma s n

/-- A message that may not go is pending; one that may is the last thing that left. -/
theorem sendMsi_sends (s : State) (n k : Nat) :
    (msgHeld (sendMsi s n k) n k = true → (vec (sendMsi s n k) n k).pend = true) ∧
    (msgHeld (sendMsi s n k) n k = false → (sendMsi s n k).out.getLast? = some (.msix n k)) := by
  by_cases h : msgHeld s n k = true
  · have hs : sendMsi s n k = setVec s n k { vec s n k with pend := true } := if_pos h
    have hheld : msgHeld (setVec s n k { vec s n k with pend := true }) n k = msgHeld s n k := by
      rw [msgHeld, vec_setVec_same]
      rfl
    rw [hs, hheld, h, vec_setVec_same]
    exact ⟨fun _ => rfl, fun hn => Bool.noConfusion hn⟩
  · have hs : sendMsi s n k = emit s (.msix n k) := if_neg h
    rw [hs]
    exact ⟨fun hh => absurd hh h, fun _ => List.getLast?_concat⟩

theorem reassert_sends (hv : statusVec u st = some (n, k)) (hl : irqLevel u st ≠ 0) : reassert u st = sendMsi u n k := by
  simp [reassert, statusMsg, hl, hv]

end Sys2Proof.Machine
end

section
set_option Elab.async false
namespace Sys2Proof
open Machine

/-- Settles O41: the write leaves the register's vector as it was, and `afterWrite` reasserts it. -/
theorem writesToStatusSendTheMessageAgain : Obligations.WritesToStatusSendTheMessageAgain := by
  unfold Obligations.WritesToStatusSendTheMessageAgain
  intro s who bar o key st n k v hw hwf hop hr hat hst hk hcard
  obtain ⟨c, hc⟩ := Option.isSome_iff_exists.1 hcard
  have hsome : (statusVec s st).isSome = true := by rw [hst]; rfl
  have hn : ¬(0xD80000 ≤ key ∧ key < 0xE00000) := by
    have := statusVec_isSome.1 hsome
    unfold blockStatus ringStatus at this
    omega
  have hvec : statusVec (wordTaken s key v hw) st = some (n, k) := (statusVec_wordTaken hk).trans hst
  have hafter : afterWrite (wordTaken s key v hw) key = reassert (wordTaken s key v hw) st :=
    afterWrite_status (by rw [hvec]; rfl) hk
  refine ⟨_, registerWrite_word hwf hop hat hc, ?_⟩
  rw [writeWord_reaches hc hn hr, hafter]
  intro hl
  rw [irqLevel_reassert] at hl
  rw [reassert_sends hvec hl]
  exact sendMsi_sends _ n k

end Sys2Proof
end

section
set_option Elab.async false
/-! ## Register writes: each field by its access type (R93, R95 to R97, R117, R422, R556) -/
namespace Sys2Proof.Machine
variable {s u : State} {key j p k : Nat} {data mask v old a b : BitVec 64} {c : Card} {f g : CardField}

/-! ### Bits of a field -/

theorem fieldOf_congr {lo w : Nat} (h : ∀ i, lo ≤ i → i < lo + w → a.getLsbD i = b.getLsbD i) :
    fieldOf a lo w = fieldOf b lo w := by
  refine congrArg BitVec.toNat (BitVec.eq_of_getLsbD_eq fun i hi => ?_)
  simp only [BitVec.getLsbD_extractLsb', hi, decide_true, Bool.true_and]
  exact h _ (Nat.le_add_right _ _) (by omega)

theorem testBit_fieldOf (v : BitVec 64) (lo w i : Nat) : (fieldOf v lo w).testBit i = (decide (i < w) && v.getLsbD (lo + i)) := by
  rw [fieldOf, BitVec.testBit_toNat, BitVec.getLsbD_extractLsb']

theorem putField_fieldOf (v : BitVec 64) (lo w : Nat) : putField v lo w (fieldOf v lo w) = v := by
  refine BitVec.eq_of_getLsbD_eq fun i hi => ?_
  rw [getLsbD_putField, testBit_fieldOf]
  split
  · next h => simp [show i - lo < w by omega, Nat.add_sub_cancel' h.1]
  · rfl

theorem rd_setF_self (s : State) (f : Fld) (j : Nat) : rd (setF s f (getF s f)) j = rd s j := by
  unfold setF getF
  rw [putField_fieldOf, rd_wr]
  split
  · next h => rw [h]
  · rfl

/-! ### One field of a write -/

/-- The write reaches every bit of the field. -/
def covers (mask : BitVec 64) (f : CardField) : Prop := ∀ i, f.lo ≤ i → i < f.lo + f.w → mask.getLsbD i = true

/-- The write gives the field an encoding that the spec reserves (R97). -/
def refuses (v : BitVec 64) (f : CardField) : Bool :=
  f.acc == .rw && !(decide (f.vmin ≤ fieldOf v f.lo f.w) && decide (fieldOf v f.lo f.w ≤ f.vmax))

/-- What the field reads after a write of `v` to a register that read `old` (R6, R97). -/
def fieldAfter (v old : BitVec 64) (f : CardField) : Nat :=
  if f.acc = .rw ∧ refuses v f = false then fieldOf v f.lo f.w
  else if f.acc = .w1c then fieldOf (old &&& ~~~v) f.lo f.w
  else fieldOf old f.lo f.w

theorem fieldOf_merged (h : covers mask f) : fieldOf ((old &&& ~~~mask) ||| (data &&& mask)) f.lo f.w = fieldOf data f.lo f.w :=
  fieldOf_congr fun i hlo hhi => by simp [h i hlo hhi]

theorem fieldOf_cleared (h : covers mask f) : fieldOf (old &&& ~~~(data &&& mask)) f.lo f.w = fieldOf (old &&& ~~~data) f.lo f.w :=
  fieldOf_congr fun i hlo hhi => by simp [h i hlo hhi]

theorem fieldOf_mask_ne_zero (h : covers mask f) (hw : 0 < f.w) : fieldOf mask f.lo f.w ≠ 0 := by
  intro h0
  have hbit := testBit_fieldOf mask f.lo f.w 0
  rw [h0, Nat.add_zero, h f.lo le_rfl (by omega)] at hbit
  simp [hw] at hbit

/-- What a field that the write reaches comes to, and whether the write is refused. -/
theorem writeField_covered (hm : covers mask f) (hw : 0 < f.w) (h64 : f.lo + f.w ≤ 64) (acc : BitVec 64 × Bool) :
    fieldOf (writeField data mask acc f).1 f.lo f.w = fieldAfter data acc.1 f ∧
      (writeField data mask acc f).2 = (acc.2 || refuses data f) := by
  have hlt (x : BitVec 64) : fieldOf x f.lo f.w % 2 ^ f.w = fieldOf x f.lo f.w := Nat.mod_eq_of_lt (fieldOf_lt ..)
  cases ha : f.acc with
  | rw =>
    by_cases hv : f.vmin ≤ fieldOf data f.lo f.w ∧ fieldOf data f.lo f.w ≤ f.vmax
    · simp [writeField, fieldAfter, refuses, ha, fieldOf_mask_ne_zero hm hw, fieldOf_merged hm, hv,
        fieldOf_putField _ _ _ _ h64, hlt]
    · have hr : refuses data f = true := by
        rw [refuses, ha, ← Bool.decide_and, decide_eq_false hv]
        rfl
      simp [writeField, fieldAfter, hr, ha, fieldOf_mask_ne_zero hm hw, fieldOf_merged hm, hv]
  | w1c =>
    simp [writeField, fieldAfter, refuses, ha, fieldOf_putField _ _ _ _ h64, hlt, fieldOf_cleared hm]
  | _ => simp [writeField, fieldAfter, refuses, ha]

theorem fieldOf_writeField_disjoint (h : g.lo + g.w ≤ f.lo ∨ f.lo + f.w ≤ g.lo) (acc : BitVec 64 × Bool) :
    fieldOf (writeField data mask acc f).1 g.lo g.w = fieldOf acc.1 g.lo g.w := by
  cases ha : f.acc with
  | rw =>
    simp only [writeField, ha]
    split
    · rfl
    · split
      · exact fieldOf_putField_disjoint _ _ h
      · rfl
  | w1c =>
    simp only [writeField, ha]
    exact fieldOf_putField_disjoint _ _ h
  | _ => simp [writeField, ha]

/-! ### All fields of a write -/

/-- Fields that do not overlap, of which each is reached. -/
structure FieldsReached (mask : BitVec 64) (l : List CardField) : Prop where
  cover : ∀ f ∈ l, covers mask f
  wide : ∀ f ∈ l, 0 < f.w
  inside : ∀ f ∈ l, f.lo + f.w ≤ 64
  apart : l.Pairwise fun f g => f.lo + f.w ≤ g.lo ∨ g.lo + g.w ≤ f.lo

theorem FieldsReached.tail {l : List CardField} (h : FieldsReached mask (f :: l)) : FieldsReached mask l :=
  ⟨fun g hg => h.cover g (List.mem_cons_of_mem _ hg), fun g hg => h.wide g (List.mem_cons_of_mem _ hg),
    fun g hg => h.inside g (List.mem_cons_of_mem _ hg), (List.pairwise_cons.1 h.apart).2⟩

theorem fieldAfter_congr (h : fieldOf a f.lo f.w = fieldOf b f.lo f.w) : fieldAfter v a f = fieldAfter v b f := by
  have hclear : fieldOf (a &&& ~~~v) f.lo f.w = fieldOf (b &&& ~~~v) f.lo f.w := by
    simp only [fieldOf, BitVec.extractLsb'_and, BitVec.toNat_and] at h ⊢
    rw [h]
  rw [fieldAfter, fieldAfter, h, hclear]

theorem fieldOf_writeFields_disjoint {l : List CardField} (h : ∀ f ∈ l, g.lo + g.w ≤ f.lo ∨ f.lo + f.w ≤ g.lo)
    (acc : BitVec 64 × Bool) : fieldOf (l.foldl (writeField data mask) acc).1 g.lo g.w = fieldOf acc.1 g.lo g.w := by
  induction l generalizing acc with
  | nil => rfl
  | cons f l ih =>
    rw [List.foldl_cons, ih (fun x hx => h x (List.mem_cons_of_mem _ hx)),
      fieldOf_writeField_disjoint (h f List.mem_cons_self)]

theorem fieldOf_writeFields {l : List CardField} (h : FieldsReached mask l) (hf : f ∈ l) (acc : BitVec 64 × Bool) :
    fieldOf (l.foldl (writeField data mask) acc).1 f.lo f.w = fieldAfter data acc.1 f := by
  induction l generalizing acc with
  | nil => cases hf
  | cons g l ih =>
    have hapart := (List.pairwise_cons.1 h.apart).1
    rw [List.foldl_cons]
    obtain rfl | hf := List.mem_cons.1 hf
    · rw [fieldOf_writeFields_disjoint hapart]
      exact (writeField_covered (h.cover _ List.mem_cons_self) (h.wide _ List.mem_cons_self)
        (h.inside _ List.mem_cons_self) acc).1
    · rw [ih h.tail hf]
      exact fieldAfter_congr (fieldOf_writeField_disjoint (hapart f hf).symm acc)

theorem writeFields_refused {l : List CardField} (h : FieldsReached mask l) (acc : BitVec 64 × Bool) :
    (l.foldl (writeField data mask) acc).2 = (acc.2 || l.any (refuses data)) := by
  induction l generalizing acc with
  | nil => simp
  | cons g l ih =>
    rw [List.foldl_cons, ih h.tail, (writeField_covered (h.cover _ List.mem_cons_self) (h.wide _ List.mem_cons_self)
      (h.inside _ List.mem_cons_self) acc).2, List.any_cons, Bool.or_assoc]

/-- The fields of a 32-bit register lie in its 32 bits. -/
def Card.fits (c : Card) : Bool := c.wide || c.fields.all fun f => decide (0 < f.w ∧ f.lo + f.w ≤ 32)

theorem allCards_fit : (allCards.all fun b => b.all Card.fits) = true := by rfl

theorem covers_word (h : f.lo + f.w ≤ 32) : covers 0xFFFFFFFF#64 f := fun i _ hi => by
  rw [BitVec.getLsbD_ofNat, show 0xFFFFFFFF = 2 ^ 32 - 1 from rfl, Nat.testBit_two_pow_sub_one]
  simp
  omega

/-- A 4-byte write reaches every field of a 32-bit register. -/
theorem fieldsReached_word (hc : cardAt key = some c) (hn : c.wide = false) : FieldsReached 0xFFFFFFFF#64 c.fields := by
  obtain ⟨hin, hd⟩ := Bool.and_eq_true_iff.1 (cardAt_tidy hc)
  have hfit (f : CardField) (hf : f ∈ c.fields) : 0 < f.w ∧ f.lo + f.w ≤ 32 := by
    have hall := cardAt_all allCards_fit hc
    rw [Card.fits, hn, Bool.false_or] at hall
    exact of_decide_eq_true (List.all_eq_true.1 hall f hf)
  exact ⟨fun f hf => covers_word (hfit f hf).2, fun f hf => (hfit f hf).1, fun f hf => by have := (hfit f hf).2; omega,
    of_decide_eq_true hd⟩

/-! ### The register and its flags after the write -/

theorem rd_writeFields_same (hc : cardAt key = some c) (he : key ≠ Reg.HST_ERR_STATUS) :
    rd (writeFields s key data mask) key = (fieldsAfter s key c data mask).1 := by
  rw [writeFields_card hc]
  extract_lets s1 s2
  have h1 : rd s1 key = (fieldsAfter s key c data mask).1 := rd_wr_same _ _ _
  have h2 : rd s2 key = (fieldsAfter s key c data mask).1 := by
    unfold s2
    split
    · rw [rd_raise_other he, h1]
    · exact h1
  split
  · rw [rd_raise_other he, h2]
  · exact h2

theorem isSet_raise_bits {f g : Fld} (h : g.lo + g.w ≤ f.lo ∨ f.lo + f.w ≤ g.lo) (hg : isSet s g = true) :
    isSet (raise s f) g = true := by
  rw [isSet, getF_raise, getF_setF_bits _ _ h]
  exact hg

theorem writeFields_badValue (hc : cardAt key = some c) (h : (fieldsAfter s key c data mask).2 = true) :
    isSet (writeFields s key data mask) Reg.HST_ERR_STATUS_BAD_VALUE = true := by
  rw [writeFields_card hc]
  extract_lets s1 s2
  have h2 : isSet s2 Reg.HST_ERR_STATUS_BAD_VALUE = true := by
    unfold s2
    rw [if_pos h]
    exact isSet_raise (by decide) rfl
  split
  · exact isSet_raise_bits (by decide) h2
  · exact h2

theorem writeFields_rsvNonzero (hc : cardAt key = some c) (h : data &&& mask &&& ~~~(namedBits c) ≠ 0#64) :
    isSet (writeFields s key data mask) Reg.HST_ERR_STATUS_RSV_NONZERO = true := by
  rw [writeFields_card hc]
  extract_lets s1 s2
  rw [if_pos h]
  exact isSet_raise (by decide) rfl

theorem writeFields_fields (s : State) (key : Nat) (data mask : BitVec 64) :
    ∃ r v o, writeFields s key data mask = { s with regs := r, vecs := v, out := o } := by
  have hraise (t : State) (f : Fld) (h : ∃ r v o, t = { s with regs := r, vecs := v, out := o }) :
      ∃ r v o, raise t f = { s with regs := r, vecs := v, out := o } := by
    obtain ⟨r, v, o, rfl⟩ := h
    exact ⟨_, _, _, raise_fields _ f⟩
  cases hc : cardAt key with
  | none => exact ⟨s.regs, s.vecs, s.out, by simp [writeFields, hc]⟩
  | some c =>
    rw [writeFields_card hc]
    extract_lets s1 s2
    have h1 : ∃ r v o, s1 = { s with regs := r, vecs := v, out := o } := ⟨_, _, _, rfl⟩
    have h2 : ∃ r v o, s2 = { s with regs := r, vecs := v, out := o } := by
      unfold s2
      split
      · exact hraise _ _ h1
      · exact h1
    split
    · exact hraise _ _ h2
    · exact h2

/-- What lies outside the mask is not written. -/
theorem writeFields_masked : writeFields s key (data &&& mask) mask = writeFields s key data mask := by
  have hand : data &&& mask &&& mask = data &&& mask := by rw [BitVec.and_assoc, BitVec.and_self]
  have hfield : writeField (data &&& mask) mask = writeField data mask := by
    funext acc f
    unfold writeField
    rw [hand]
  unfold writeFields
  rw [hfield, hand]

/-! ### Regulators where nothing waits -/

theorem rd_setRegLevel_self (s : State) (p k j : Nat) : rd (setRegLevel s p k (regLevel s p k)) j = rd s j := by
  have hlt : getF s (Reg.PRT_REG_LEVEL_LEVEL p k) < 2 ^ 32 := getF_lt s _
  have hlevel : (BitVec.ofInt 32 (max (regLevel s p k) (-(2 ^ 31)))).toNat = getF s (Reg.PRT_REG_LEVEL_LEVEL p k) := by
    have hmin : -(2 ^ 31) ≤ regLevel s p k := BitVec.le_toInt _
    rw [max_eq_left hmin, regLevel, BitVec.ofInt_toInt, BitVec.toNat_ofNat, Nat.mod_eq_of_lt hlt]
  rw [setRegLevel, hlevel]
  exact rd_setF_self s _ j

theorem issueHeld_idle (h : (heldOf s p k).waits = []) :
    ∃ x : Held, x.waits = [] ∧ issueHeld s p k = setHeld (setRegLevel s p k (regLevel s p k)) p k x := by
  refine ⟨{ waits := [], late := (heldOf s p k).late || false }, rfl, ?_⟩
  simp [issueHeld, h, issueWaits]

theorem sendIssued_idle (h : (heldOf s p 2).waits = []) : ∃ x, sendIssued s p = setHeld s p 2 x := by
  refine ⟨{ heldOf s p 2 with waits := [] }, ?_⟩
  simp [sendIssued, h]

/-- With nothing waiting, nothing issues. -/
theorem issueNow_idle (hk : (heldOf s p k).waits = []) (h2 : (heldOf s p 2).waits = []) :
    (∃ r h, issueNow s p k = { s with regs := r, held := h }) ∧ ∀ j, rd (issueNow s p k) j = rd s j := by
  obtain ⟨x, hx, hi⟩ := issueHeld_idle hk
  have h2' : (heldOf (issueHeld s p k) p 2).waits = [] := by
    rw [hi, heldOf_setHeld]
    split
    · exact hx
    · exact h2
  obtain ⟨y, hy⟩ := sendIssued_idle h2'
  rw [issueNow, hy, hi]
  exact ⟨⟨_, _, rfl⟩, rd_setRegLevel_self s p k⟩

/-! ### Blocks whose registers follow their cards -/

/-- A write to a register of CFG, NVS, SMP, MDL or PRT is a write of its fields; at a regulator nothing waits. -/
theorem writeReg_card (hb : key / 0x100000 ∈ [2, 3, 7, 8, 9])
    (hw : 0x902000 ≤ key → key < 0x902400 → ∀ k, k < 4 → (heldOf s ((key - 0x902000) / 0x40) k).waits = []) :
    (∀ j, rd (writeReg s key data mask) j = rd (writeFields s key data mask) j) ∧ (writeReg s key data mask).dram = s.dram := by
  obtain ⟨r, x, o, hf⟩ := writeFields_fields s key data mask
  have hdram : (writeFields s key data mask).dram = s.dram := by rw [hf]
  simp only [List.mem_cons, List.not_mem_nil, or_false] at hb
  by_cases hreg : 0x902000 ≤ key ∧ key < 0x902400
  · have heq : writeReg s key data mask = writeRegulator s key data mask := by
      unfold writeReg
      dsimp only
      rw [if_neg (by omega), if_neg (by omega), if_neg (by omega), if_neg (by omega), if_neg (by omega), if_pos (by omega)]
    rw [heq]
    unfold writeRegulator
    extract_lets p k s1
    have hidle (i : Nat) (hi : i < 4) : (heldOf s1 p i).waits = [] := by
      have hheld : s1.held = s.held := by
        show (writeFields s key data mask).held = s.held
        rw [hf]
      rw [heldOf, hheld]
      exact hw hreg.1 hreg.2 i hi
    split
    · next h =>
      obtain ⟨⟨r, x, hi⟩, hrd⟩ := issueNow_idle (hidle k (by omega)) (hidle 2 (by decide))
      exact ⟨hrd, by rw [hi]; exact hdram⟩
    · exact ⟨fun _ => rfl, hdram⟩
  · have heq : writeReg s key data mask = writeFields s key data mask := by
      unfold writeReg
      dsimp only
      rw [if_neg (by omega), if_neg (by omega), if_neg (by omega), if_neg (by omega), if_neg (by omega), if_neg (by omega),
        if_neg (by omega), if_neg (by omega), if_neg (by omega), if_neg (by omega), if_neg (by omega)]
    rw [heq]
    exact ⟨fun _ => rfl, hdram⟩

/-- With no flag of hardware's, the write is all that the block does. -/
theorem wordTaken_zero (v : W64) : wordTaken s key v 0 = writeReg s key (v &&& 0xFFFFFFFF#64) 0xFFFFFFFF#64 := by
  rw [wordTaken, metFlags_zero, hwSets_zero]

/-! ### A register of those blocks -/

section
variable {who : Requester} (hwf : (Instr.registerWrite who .pfBar0 key 4 v 0).wf = true) (hop : barOpen s who .pfBar0 = true)
  (hr : Reaches s key) (hc : cardAt key = some c) (hb : key / 0x100000 ∈ [2, 3, 7, 8, 9])
include hwf hop hr hc hb

theorem registerWrite_card : exec (.registerWrite who .pfBar0 key 4 v 0) s =
    .next (afterWrite (writeReg s key (v &&& 0xFFFFFFFF#64) 0xFFFFFFFF#64) key) := by
  have hn : ¬(0xD80000 ≤ key ∧ key < 0xE00000) := by
    simp only [List.mem_cons, List.not_mem_nil, or_false] at hb
    omega
  rw [registerWrite_word hwf hop (.inl ⟨rfl, rfl⟩) hc, writeWord_reaches hc hn hr, wordTaken_zero]

/-- The register takes each field by its access type, and nothing but it and HST_ERR_STATUS changes. -/
theorem registerWrite_follows (hn : c.wide = false)
    (hw : 0x902000 ≤ key → key < 0x902400 → ∀ k, k < 4 → (heldOf s ((key - 0x902000) / 0x40) k).waits = []) :
    Answers (.registerWrite who .pfBar0 key 4 v 0) s fun u =>
      (∀ f ∈ c.fields, fieldOf (rd u key) f.lo f.w = fieldAfter v (rd s key) f) ∧
      (c.fields.any (refuses v) = true → isSet u Reg.HST_ERR_STATUS_BAD_VALUE = true) ∧
      (v &&& 0xFFFFFFFF#64 &&& ~~~(namedBits c) ≠ 0#64 → isSet u Reg.HST_ERR_STATUS_RSV_NONZERO = true) ∧
      SameRegs s u (fun k => k == key || k == Reg.HST_ERR_STATUS) ∧ SameMem s u ∧ SameClocks s u := by
  have he := registerWrite_card hwf hop hr hc hb
  have hkept := (execRegisterWrite_kept _ he).fixed
  obtain ⟨hregs, hdram⟩ := writeReg_card (data := v &&& 0xFFFFFFFF#64) (mask := 0xFFFFFFFF#64) hb hw
  have hrd (j : Nat) : rd (afterWrite (writeReg s key (v &&& 0xFFFFFFFF#64) 0xFFFFFFFF#64) key) j =
      rd (writeFields s key v 0xFFFFFFFF#64) j := by
    rw [rd_afterWrite, hregs, writeFields_masked]
  have herr : key ≠ 0x220 := by
    simp only [List.mem_cons, List.not_mem_nil, or_false] at hb
    omega
  have hall := fieldsReached_word hc hn
  have hset (f : Fld) (h : isSet (writeFields s key v 0xFFFFFFFF#64) f = true) :
      isSet (afterWrite (writeReg s key (v &&& 0xFFFFFFFF#64) 0xFFFFFFFF#64) key) f = true := by
    rw [isSet, getF, hrd]
    exact h
  refine ⟨_, he, fun f hf => ?_, fun h => hset _ (writeFields_badValue hc ?_), fun h => hset _ (writeFields_rsvNonzero hc h),
    fun j hj => ?_, fun x => ?_, ?_⟩
  · rw [hrd, rd_writeFields_same hc herr]
    exact fieldOf_writeFields hall hf _
  · rw [fieldsAfter, writeFields_refused hall, h, Bool.or_true]
  · simp only [Bool.or_eq_false_iff, beq_eq_false_iff_ne] at hj
    rw [hrd, rd_writeFields_other hj.1 hj.2]
  · rw [afterWrite_fields]
    show spGet _ (writeReg s key _ _).dram x = _
    rw [hdram]
    rfl
  · simp only [queueAndClocks, Prod.mk.injEq] at hkept
    exact hkept

end

/-! ### Writes that no register takes -/

theorem registerWrite_badSize {who : Requester} {bar : Bar} {o len hw : Nat} (hop : barOpen s who bar = true)
    (h : len ≠ 4 ∧ len ≠ 8 ∨ o % len ≠ 0) :
    exec (.registerWrite who bar o len v hw) s = .next (raise s Reg.HST_ERR_STATUS_BAD_SIZE) := by
  show execRegisterWrite who bar o len v hw s = _
  unfold execRegisterWrite
  rw [if_neg (by simp [hop]), if_pos h]

theorem registerWrite_unmapped {who : Requester} {o hw : Nat} (hop : barOpen s who .pfBar0 = true) (ho : o % 4 = 0)
    (hn : o < 0xD80000 ∨ 0xE00000 ≤ o) (hr : regAt o = none) :
    exec (.registerWrite who .pfBar0 o 4 v hw) s = .next (raise s Reg.HST_ERR_STATUS_UNMAPPED) := by
  have hword : writeWord s o v hw = raise s Reg.HST_ERR_STATUS_UNMAPPED := by
    unfold writeWord
    rw [if_neg (by omega), hr]
  show execRegisterWrite who .pfBar0 o 4 v hw s = _
  unfold execRegisterWrite
  rw [if_neg (by simp [hop]), if_neg (by omega), ← hword]
  rfl

/-! ### HST_DB_ROUTE (R556) -/

theorem testBit_add_two_pow {x i : Nat} (h : x.testBit i = false) (j : Nat) :
    (x + 2 ^ i).testBit j = (decide (j = i) || x.testBit j) := by
  have heven : x / 2 ^ i % 2 = 0 := by simpa [Nat.testBit_eq_decide_div_mod_eq] using h
  have hlow : x % 2 ^ i < 2 ^ i := Nat.mod_lt _ (Nat.two_pow_pos i)
  have hx : x = 2 ^ i * (x / 2 ^ i) + x % 2 ^ i := (Nat.div_add_mod _ _).symm
  have hsum : x + 2 ^ i = 2 ^ i * (x / 2 ^ i + 1) + x % 2 ^ i := by
    rw [Nat.mul_add, Nat.mul_one]
    omega
  rw [hsum, Nat.testBit_two_pow_mul_add _ hlow]
  conv_rhs => rw [hx, Nat.testBit_two_pow_mul_add _ hlow]
  by_cases hj : j < i
  · simp [hj, hj.ne]
  · obtain ⟨d, rfl⟩ := Nat.exists_eq_add_of_le (Nat.le_of_not_lt hj)
    cases d with
    | zero => simp [Nat.testBit_zero, Nat.add_mod, heven]
    | succ d =>
      have hhalf : (x / 2 ^ i + 1) / 2 = x / 2 ^ i / 2 := by omega
      simp [Nat.testBit_succ, hhalf]

/-- A bitmap with one bit replaced. -/
theorem testBit_replaced (x i j : Nat) (v : Bool) :
    (if x.testBit i = v then x else if v then x + 2 ^ i else x - 2 ^ i).testBit j = if j = i then v else x.testBit j := by
  by_cases hv : x.testBit i = v
  · rw [if_pos hv]
    split
    · next h => rw [h, hv]
    · rfl
  · rw [if_neg hv]
    cases v with
    | true =>
      rw [if_pos rfl, testBit_add_two_pow (Bool.not_eq_true _ ▸ hv)]
      by_cases hj : j = i
      · simp [hj]
      · simp [hj]
    | false =>
      have hset : x.testBit i = true := by simpa using hv
      have hle : 2 ^ i ≤ x := Nat.ge_two_pow_of_testBit hset
      obtain ⟨y, rfl⟩ := Nat.exists_eq_add_of_le' hle
      have hy : y.testBit i = false := by
        rw [Nat.add_comm, Nat.testBit_two_pow_add_eq] at hset
        simpa using hset
      rw [if_neg (by decide), Nat.add_sub_cancel, testBit_add_two_pow hy]
      by_cases hj : j = i
      · simp [hj, hy]
      · simp [hj]

theorem getF_setBit {F : Fld} (hin : F.lo + F.w ≤ 64) {i : Nat} (hi : i < F.w) (s : State) (v : Bool) (j : Nat) :
    (getF (setBit s F i v) F).testBit j = if j = i then v else (getF s F).testBit j := by
  unfold setBit
  dsimp only
  rw [getF_setF_same _ _ _ hin, Nat.testBit_mod_two_pow, testBit_replaced]
  by_cases hj : j < F.w
  · simp [hj]
  · have hge : (getF s F).testBit j = false :=
      Nat.testBit_lt_two_pow (Nat.lt_of_lt_of_le (getF_lt s F) (Nat.pow_le_pow_right (by decide) (by omega)))
    simp [hj, hge, show j ≠ i by omega]

/-- Bits of a bitmap written one after another, but for those in `skip`. -/
theorem getF_setBits {F : Fld} (hin : F.lo + F.w ≤ 64) (skip : List Nat) (new : Nat) {l : List Nat} (hl : ∀ i ∈ l, i < F.w)
    (s : State) (j : Nat) :
    (getF (l.foldl (fun a i => if skip.contains i then a else setBit a F i (new.testBit i)) s) F).testBit j =
      if j ∈ l ∧ j ∉ skip then new.testBit j else (getF s F).testBit j := by
  induction l generalizing s with
  | nil => simp
  | cons i l ih =>
    rw [List.foldl_cons, ih fun x hx => hl x (List.mem_cons_of_mem _ hx)]
    by_cases hi : i ∈ skip
    · have hc : skip.contains i = true := by simpa using hi
      have hcond : (j ∈ i :: l ∧ j ∉ skip) ↔ (j ∈ l ∧ j ∉ skip) := by
        by_cases hj : j = i
        · simp [hj, hi]
        · simp [hj]
      simp only [hc, if_true, hcond]
    · have hc : skip.contains i = false := by simpa using hi
      have hbit := getF_setBit hin (hl i List.mem_cons_self) s (new.testBit i) j
      simp only [hc, Bool.false_eq_true, if_false, hbit]
      by_cases hj : j = i
      · subst hj
        simp [hi]
      · simp [hj]

/-- A ring of the tenant is enabled. -/
def ringsOn (s : State) (t : Nat) : Bool :=
  (List.range 4).any fun r => isSet s (Reg.RQI_SQ_CFG_ENABLE t r) || isSet s (Reg.RQI_CQ_CFG_ENABLE t r)

/-- The route bits that a write of `new` would change and that enabled rings keep. -/
def keptRoutes (s : State) (h new : Nat) : List Nat :=
  (List.range 32).filter fun i =>
    (getF s (Reg.HST_DB_ROUTE_PF_ROUTE h)).testBit i != new.testBit i && ringsOn s (32 * h + i)

/-- The route bits after a write of `new`. -/
def routesSet (s : State) (h new : Nat) : State :=
  (List.range 32).foldl (fun a i => if (keptRoutes s h new).contains i then a
    else setBit a (Reg.HST_DB_ROUTE_PF_ROUTE h) i (new.testBit i)) s

theorem writeRoute_eq {h new : Nat}
    (hn : fieldOf ((rd s (Reg.HST_DB_ROUTE h) &&& ~~~mask) ||| (data &&& mask)) 0 32 = new) : writeRoute s h data mask =
      if (keptRoutes s h new).isEmpty then routesSet s h new
      else raise (routesSet s h new) Reg.HST_PCIE_STATUS_ROUTE_LOCKED := by
  rw [← hn]
  rfl

/-- A write to one half of HST_DB_ROUTE sets its 32 bits, but for those of tenants with an enabled ring. -/
theorem testBit_routesSet {h new i : Nat} (hi : i < 32) :
    (getF (routesSet s h new) (Reg.HST_DB_ROUTE_PF_ROUTE h)).testBit i =
      if ringsOn s (32 * h + i) then (getF s (Reg.HST_DB_ROUTE_PF_ROUTE h)).testBit i else new.testBit i := by
  have hw : ∀ x ∈ List.range 32, x < (Reg.HST_DB_ROUTE_PF_ROUTE h).w := fun x hx => List.mem_range.1 hx
  unfold routesSet
  rw [getF_setBits (show 0 + 32 ≤ 64 by decide) _ _ hw]
  by_cases hon : ringsOn s (32 * h + i) = true
  · rw [if_pos hon]
    by_cases hsame : (getF s (Reg.HST_DB_ROUTE_PF_ROUTE h)).testBit i = new.testBit i
    · rw [hsame, ite_self]
    · rw [if_neg]
      simp [keptRoutes, hi, hon, hsame]
  · rw [if_neg hon, if_pos]
    simp [keptRoutes, hi, hon]

theorem rd_writeRoute {h new : Nat} (hn : fieldOf ((rd s (Reg.HST_DB_ROUTE h) &&& ~~~mask) ||| (data &&& mask)) 0 32 = new) :
    getF (writeRoute s h data mask) (Reg.HST_DB_ROUTE_PF_ROUTE h) = getF (routesSet s h new) (Reg.HST_DB_ROUTE_PF_ROUTE h) := by
  have hne : 0x300 + h % 2 * 4 ≠ 0x510 := by omega
  rw [writeRoute_eq hn]
  split
  · rfl
  · rw [getF_raise]
    exact getF_setF_key _ _ hne

theorem writeRoute_locked {h new i : Nat}
    (hn : fieldOf ((rd s (Reg.HST_DB_ROUTE h) &&& ~~~mask) ||| (data &&& mask)) 0 32 = new) (hi : i < 32)
    (hon : ringsOn s (32 * h + i) = true) (hd : (getF s (Reg.HST_DB_ROUTE_PF_ROUTE h)).testBit i ≠ new.testBit i) :
    isSet (writeRoute s h data mask) Reg.HST_PCIE_STATUS_ROUTE_LOCKED = true := by
  have hmem : i ∈ keptRoutes s h new := by simp [keptRoutes, hi, hon, hd]
  rw [writeRoute_eq hn, if_neg (by simpa using List.ne_nil_of_mem hmem)]
  exact isSet_raise (by decide) rfl

theorem getF_afterWrite (s : State) (k : Nat) (f : Fld) : getF (afterWrite s k) f = getF s f :=
  congrArg (fieldOf · f.lo f.w) (rd_afterWrite s k f.key)

theorem writeReg_route {h : Nat} (hh : h < 2) : writeReg s (Reg.HST_DB_ROUTE h) data mask = writeRoute s h data mask := by
  have hlow : (0x300 + h % 2 * 4) / 0x100000 = 0 := by omega
  have hkey : 0x300 + h % 2 * 4 = 0x300 ∨ 0x300 + h % 2 * 4 = 0x304 := by omega
  have hhalf : (0x300 + h % 2 * 4 - 0x300) / 4 = h := by omega
  unfold writeReg
  dsimp only
  rw [if_pos hlow, if_pos hkey, hhalf]

/-- A 4-byte write of `w` is all that 32 bits keep. -/
theorem testBit_word {x : BitVec 64} {w : W32} {i : Nat} (hi : i < 32) :
    (fieldOf ((x &&& ~~~0xFFFFFFFF#64) ||| (w.setWidth 64 &&& 0xFFFFFFFF#64)) 0 32).testBit i = w.getLsbD i := by
  have h64 : i < 64 := by omega
  have hword : covers 0xFFFFFFFF#64 ⟨0, 32, .rw, 0, 0⟩ := covers_word le_rfl
  rw [fieldOf_merged hword, testBit_fieldOf, Nat.zero_add, BitVec.getLsbD_setWidth]
  simp [hi, h64]

theorem routePf_half (s : State) {h i : Nat} (hi : i < 32) :
    routePf s (32 * h + i) = (getF s (Reg.HST_DB_ROUTE_PF_ROUTE h)).testBit i := by
  have hd : (32 * h + i) / 32 = h := by omega
  have hm : (32 * h + i) % 32 = i := by omega
  rw [routePf, hd, hm]

theorem dbRouteWrite_routes {h : Nat} {w : W32} (hh : h < 2) (hr : Reaches s (Reg.HST_DB_ROUTE h)) :
    Answers (.dbRouteWrite h w) s fun u =>
      (∀ i, i < 32 → routePf u (32 * h + i) = if ringsOn s (32 * h + i) then routePf s (32 * h + i) else w.getLsbD i) ∧
      ∀ i, i < 32 → ringsOn s (32 * h + i) = true → routePf s (32 * h + i) ≠ w.getLsbD i →
        isSet u Reg.HST_PCIE_STATUS_ROUTE_LOCKED = true := by
  have he : execDbRouteWrite h w s =
      .next (afterWrite (writeRoute s h (w.setWidth 64) 0xFFFFFFFF#64) (Reg.HST_DB_ROUTE h)) := by
    rw [execDbRouteWrite, if_neg (by omega), hostWrite_quiet hr, writeReg_route hh]
  refine ⟨_, he, fun i hi => ?_, fun i hi hon hd => ?_⟩
  · rw [routePf_half _ hi, routePf_half _ hi, getF_afterWrite, rd_writeRoute rfl, testBit_routesSet hi, testBit_word hi]
  · rw [isSet, getF_afterWrite]
    refine writeRoute_locked rfl hi hon ?_
    rwa [testBit_word hi, ← routePf_half _ hi]

/-! ### HST_DBGWIN_CTL (R117) -/

/-- An RW field without reserved encodings takes what is written. -/
theorem fieldAfter_free (ha : f.acc = .rw) (hmin : f.vmin = 0) (hmax : 2 ^ f.w - 1 ≤ f.vmax) :
    fieldAfter v old f = fieldOf v f.lo f.w := by
  have hlt := fieldOf_lt v f.lo f.w
  have hr : refuses v f = false := by
    have hle : fieldOf v f.lo f.w ≤ f.vmax := by omega
    simp [refuses, ha, hmin, hle]
  rw [fieldAfter, if_pos ⟨ha, hr⟩]

/-- The fields of HST_DBGWIN_CTL. -/
def dbgwinEnable : CardField := ⟨0, 1, .rw, 0, 1⟩
def dbgwinBase : CardField := ⟨4, 4, .rw, 0, 0xF⟩

theorem cardAt_dbgwin : cardAt Reg.HST_DBGWIN_CTL = some ⟨0x400, [], false, 0, [dbgwinEnable, dbgwinBase]⟩ := by rfl

theorem dbgwin_taken : getF (writeFields s Reg.HST_DBGWIN_CTL data 0xFFFFFFFF#64) Reg.HST_DBGWIN_CTL_BASE = fieldOf data 4 4 ∧
    getF (writeFields s Reg.HST_DBGWIN_CTL data 0xFFFFFFFF#64) Reg.HST_DBGWIN_CTL_ENABLE = fieldOf data 0 1 := by
  have hall := fieldsReached_word cardAt_dbgwin rfl
  have hfield (f : CardField) (hf : f ∈ [dbgwinEnable, dbgwinBase]) :
      fieldOf (rd (writeFields s Reg.HST_DBGWIN_CTL data 0xFFFFFFFF#64) Reg.HST_DBGWIN_CTL) f.lo f.w =
        fieldAfter data (rd s Reg.HST_DBGWIN_CTL) f := by
    rw [rd_writeFields_same cardAt_dbgwin (by decide)]
    exact fieldOf_writeFields hall hf _
  exact ⟨(hfield dbgwinBase (by simp)).trans (fieldAfter_free rfl rfl (by decide)),
    (hfield dbgwinEnable (by simp)).trans (fieldAfter_free rfl rfl (by decide))⟩

/-- The mask of a write that leaves ENABLE out. -/
def dbgwinMask : BitVec 64 := without 0xFFFFFFFF#64 Reg.HST_DBGWIN_CTL_ENABLE

theorem dbgwin_baseOnly : getF (writeFields s Reg.HST_DBGWIN_CTL data dbgwinMask) Reg.HST_DBGWIN_CTL_BASE = fieldOf data 4 4 ∧
    getF (writeFields s Reg.HST_DBGWIN_CTL data dbgwinMask) Reg.HST_DBGWIN_CTL_ENABLE = getF s Reg.HST_DBGWIN_CTL_ENABLE := by
  have hskip (acc : BitVec 64 × Bool) : writeField data dbgwinMask acc dbgwinEnable = acc := by
    have h0 : fieldOf dbgwinMask 0 1 = 0 := by decide
    simp [writeField, dbgwinEnable, h0]
  have hrd : rd (writeFields s Reg.HST_DBGWIN_CTL data dbgwinMask) Reg.HST_DBGWIN_CTL =
      (writeField data dbgwinMask (rd s Reg.HST_DBGWIN_CTL, false) dbgwinBase).1 := by
    rw [rd_writeFields_same cardAt_dbgwin (by decide), fieldsAfter, List.foldl_cons, List.foldl_cons, List.foldl_nil, hskip]
  have hcover : covers dbgwinMask dbgwinBase := by
    intro i hlo hhi
    have hlo : 4 ≤ i := hlo
    have hhi : i < 8 := hhi
    interval_cases i <;> decide
  refine ⟨?_, ?_⟩
  · refine (congrArg (fieldOf · 4 4) hrd).trans ?_
    exact (writeField_covered hcover (by decide) (by decide) _).1.trans (fieldAfter_free rfl rfl (by decide))
  · refine (congrArg (fieldOf · 0 1) hrd).trans ?_
    exact fieldOf_writeField_disjoint (g := dbgwinEnable) (f := dbgwinBase) (by decide) _

theorem fieldOf_word (w : W32) (lo n : Nat) : fieldOf (w.setWidth 64) lo n = w.toNat / 2 ^ lo % 2 ^ n := by
  have hlt : w.toNat < 2 ^ 64 := Nat.lt_of_lt_of_le w.isLt (by decide)
  rw [fieldOf, BitVec.extractLsb'_toNat, BitVec.toNat_setWidth, Nat.mod_eq_of_lt hlt, Nat.shiftRight_eq_div_pow]

theorem writeReg_dbgwin : writeReg s Reg.HST_DBGWIN_CTL data mask = writeDbgwin s data mask := by rfl

/-- While the owner is LOCKED, a write that sets ENABLE is taken without it and flagged. -/
theorem writeDbgwin_refused (ho : ownerLocked s = true) (hd : data.getLsbD 0 = true) :
    writeDbgwin s data 0xFFFFFFFF#64 =
      raise (writeFields s Reg.HST_DBGWIN_CTL data dbgwinMask) Reg.HST_ERR_STATUS_DBGWIN_REFUSED := by
  have hm : (0xFFFFFFFF#64).getLsbD 0 = true := by decide
  unfold writeDbgwin
  dsimp only
  rw [ho, hd, hm]
  rfl

theorem writeDbgwin_taken (h : ownerLocked s = false ∨ data.getLsbD 0 = false) :
    writeDbgwin s data 0xFFFFFFFF#64 = writeFields s Reg.HST_DBGWIN_CTL data 0xFFFFFFFF#64 := by
  have hoff : (ownerLocked s && data.getLsbD 0) = false := by simpa only [Bool.and_eq_false_iff] using h
  unfold writeDbgwin
  dsimp only
  rw [hoff]
  rfl

section
variable {w : W32} (hr : Reaches s Reg.HST_DBGWIN_CTL)
include hr

theorem execDbgwinCtlWrite_reaches : execDbgwinCtlWrite w s =
    .next (afterWrite (writeDbgwin s (w.setWidth 64) 0xFFFFFFFF#64) Reg.HST_DBGWIN_CTL) := by
  rw [execDbgwinCtlWrite, hostWrite_quiet hr, writeReg_dbgwin]

theorem dbgwinCtlWrite_refused (ho : ownerLocked s = true) (hw : w.getLsbD 0 = true) :
    Answers (.dbgwinCtlWrite w) s fun u => getF u Reg.HST_DBGWIN_CTL_BASE = w.toNat / 16 % 16 ∧
      getF u Reg.HST_DBGWIN_CTL_ENABLE = getF s Reg.HST_DBGWIN_CTL_ENABLE ∧
      isSet u Reg.HST_ERR_STATUS_DBGWIN_REFUSED = true := by
  have hd : (w.setWidth 64).getLsbD 0 = true := by simpa using hw
  obtain ⟨hbase, hen⟩ := dbgwin_baseOnly (s := s) (data := w.setWidth 64)
  refine ⟨_, execDbgwinCtlWrite_reaches hr, ?_⟩
  simp only [isSet, getF_afterWrite, writeDbgwin_refused ho hd]
  refine ⟨?_, ?_, isSet_raise (by decide) rfl⟩
  · rw [getF_raise, getF_setF_key _ _ (by decide), hbase]
    exact fieldOf_word w 4 4
  · rw [getF_raise, getF_setF_key _ _ (by decide), hen]

theorem dbgwinCtlWrite_taken (h : ownerLocked s = false ∨ w.getLsbD 0 = false) :
    Answers (.dbgwinCtlWrite w) s fun u => getF u Reg.HST_DBGWIN_CTL_BASE = w.toNat / 16 % 16 ∧
      getF u Reg.HST_DBGWIN_CTL_ENABLE = w.toNat % 2 := by
  have hd : ownerLocked s = false ∨ (w.setWidth 64).getLsbD 0 = false := by simpa using h
  obtain ⟨hbase, hen⟩ := dbgwin_taken (s := s) (data := w.setWidth 64)
  refine ⟨_, execDbgwinCtlWrite_reaches hr, ?_⟩
  simp only [getF_afterWrite, writeDbgwin_taken hd, hbase, hen]
  exact ⟨fieldOf_word w 4 4, (fieldOf_word w 0 1).trans (by rw [Nat.pow_zero, Nat.div_one, Nat.pow_one])⟩

end

end Sys2Proof.Machine
end

section
set_option Elab.async false
namespace Sys2Proof
open Machine

/-- Settles O39: a write that reaches a register of these blocks is a write of its card's fields, each on its own; the routes
and the debug window have rules of their own. -/
theorem registerWritesFollowTheirCards : Obligations.RegisterWritesFollowTheirCards := by
  unfold Obligations.RegisterWritesFollowTheirCards
  refine ⟨fun s who bar o len v hw _ hop h => registerWrite_badSize hop h,
    fun s who o v hw _ hop ho hn hr => registerWrite_unmapped hop ho hn hr,
    fun s who key c v hwf hop hr hc hn hb hw => registerWrite_follows hwf hop hr hc hb hn hw, fun s h v hwf hr => ?_,
    fun s v _ hr => ?_⟩
  · exact dbRouteWrite_routes (of_decide_eq_true hwf) hr
  · by_cases hlock : ownerLocked s = true ∧ v.getLsbD 0 = true
    · obtain ⟨u, he, hbase, hrest⟩ := dbgwinCtlWrite_refused hr hlock.1 hlock.2
      refine ⟨u, he, hbase, fun _ => hrest, fun h => ?_⟩
      simp only [hlock.1, hlock.2, Bool.true_eq_false, or_self] at h
    · have hopen : ownerLocked s = false ∨ v.getLsbD 0 = false := by
        simpa only [not_and_or, Bool.not_eq_true] using hlock
      obtain ⟨u, he, hbase, hen⟩ := dbgwinCtlWrite_taken hr hopen
      exact ⟨u, he, hbase, fun h => absurd h hlock, fun _ => hen⟩

end Sys2Proof
end

section
set_option Elab.async false
/-! ## The boot stages (R152, R153, R231, R232, R523, R593, R665, R705 to R707)

Each stage hands on what it found: its stage and cause, the state of training, the retired clusters, the directory, the
boot record, the images that are loaded, memory. The lemmas of this part say once for each operation of a stage which of
these it may change. -/
namespace Sys2Proof.Machine
variable {s t u : State}

/-- What a boot stage hands on: MGT_STATUS, CFG_STATUS, MEM_CH_STATUS with MGT_BOOT_INFO, READY of the mailbox,
CHIP_FAULTED, the retired clusters, what the check of a region reads, and named fields of `State`. -/
inductive BootPart where
  | stage | status | training | ready | faulted | retired | regions | dir | boot | handoff | loaded | dram
  deriving DecidableEq

/-- The part is in `u` as it is in `s`. -/
def BootPart.Same (s u : State) : BootPart → Prop
  | .stage => rd u Reg.MGT_STATUS = rd s Reg.MGT_STATUS
  | .status => rd u Reg.CFG_STATUS = rd s Reg.CFG_STATUS
  | .training => (rd u Reg.MEM_CH_STATUS, rd u Reg.MGT_BOOT_INFO) = (rd s Reg.MEM_CH_STATUS, rd s Reg.MGT_BOOT_INFO)
  | .ready => mbxReady u = mbxReady s
  | .faulted => chipFaulted u = chipFaulted s
  | .retired => (fun g k => rd u (Reg.GRV_RETIRED g k)) = fun g k => rd s (Reg.GRV_RETIRED g k)
  | .regions => (u.flash, u.nvm, rd u Reg.CFG_FLASH) = (s.flash, s.nvm, rd s Reg.CFG_FLASH)
  | .dir => u.img.dir = s.img.dir
  | .boot => u.boot = s.boot
  | .handoff => u.hwd.handoff = s.hwd.handoff
  | .loaded => u.loaded = s.loaded
  | .dram => u.dram = s.dram

/-- Nothing that a boot stage hands on but the parts `ps` may differ. -/
def BootFrame (ps : List BootPart) (s u : State) : Prop := ∀ q, q ∉ ps → q.Same s u

namespace BootFrame
variable {ps qs : List BootPart}

theorem refl (s : State) : BootFrame ps s s := by rintro ⟨⟩ - <;> rfl

/-- The last operation first. -/
theorem after (g : BootFrame ps t u) (h : BootFrame ps s t) : BootFrame ps s u := by
  intro q hq
  have h1 := h q hq
  have h2 := g q hq
  cases q <;> exact Eq.trans h2 h1

/-- What no part holds may change at will. -/
theorem of_core (h : (u.regs, u.flash, u.nvm, u.img.dir, u.boot, u.hwd.handoff, u.loaded, u.dram) =
    (s.regs, s.flash, s.nvm, s.img.dir, s.boot, s.hwd.handoff, s.loaded, s.dram) := by with_reducible rfl) :
    BootFrame ps s u := by
  simp only [Prod.mk.injEq] at h
  obtain ⟨h1, h2, h3, h4, h5, h6, h7, h8⟩ := h
  have hr : rd u = rd s := by funext k; unfold rd; rw [h1]
  have hf : getF u = getF s := by funext f; unfold getF; rw [hr]
  rintro ⟨⟩ - <;> simp only [BootPart.Same, mbxReady, chipFaulted, isSet, *]

/-- As `of_core`, of a state with the frame. -/
theorem core (h : BootFrame ps s t) (e : (u.regs, u.flash, u.nvm, u.img.dir, u.boot, u.hwd.handoff, u.loaded, u.dram) =
    (t.regs, t.flash, t.nvm, t.img.dir, t.boot, t.hwd.handoff, t.loaded, t.dram) := by with_reducible rfl) :
    BootFrame ps s u :=
  (of_core e).after h

/-- A frame is a frame of more parts. -/
theorem up (h : BootFrame qs s u) (le : (qs.all fun q => ps.contains q) = true := by decide) : BootFrame ps s u :=
  fun q hq => h q fun hm => hq (by simpa using List.all_eq_true.mp le q hm)

theorem ite {P : Prop} [Decidable P] (h : BootFrame ps s t) (g : BootFrame ps s u) :
    BootFrame ps s (if P then t else u) := by
  split
  · exact h
  · exact g

theorem foldl {α : Type} {f : State → α → State} (h : ∀ a x, BootFrame ps a (f a x)) (l : List α) (s : State) :
    BootFrame ps s (l.foldl f s) := by
  induction l generalizing s with
  | nil => exact refl s
  | cons x xs ih => exact (ih _).after (h s x)

theorem getF_stage (h : BootFrame ps s u) {f : Fld} (hf : f.key = Reg.MGT_STATUS := by rfl)
    (n : BootPart.stage ∉ ps := by decide) : getF u f = getF s f := by
  unfold getF
  rw [hf, show rd u _ = rd s _ from h _ n]

theorem stage (h : BootFrame ps s u) (n : BootPart.stage ∉ ps := by decide) : stage u = stage s :=
  h.getF_stage (f := Reg.MGT_STATUS_STAGE) rfl n

theorem getF_status (h : BootFrame ps s u) {f : Fld} (hf : f.key = Reg.CFG_STATUS := by rfl)
    (n : BootPart.status ∉ ps := by decide) : getF u f = getF s f := by
  unfold getF
  rw [hf, show rd u _ = rd s _ from h _ n]

theorem getF_training (h : BootFrame ps s u) {f : Fld} (hf : f.key = Reg.MEM_CH_STATUS ∨ f.key = Reg.MGT_BOOT_INFO)
    (n : BootPart.training ∉ ps := by decide) : getF u f = getF s f := by
  obtain ⟨hm, hb⟩ := Prod.mk.inj (h _ n)
  unfold getF
  obtain hf | hf := hf
  · rw [hf, hm]
  · rw [hf, hb]

theorem dir (h : BootFrame ps s u) (n : BootPart.dir ∉ ps := by decide) : u.img.dir = s.img.dir := h _ n
theorem boot (h : BootFrame ps s u) (n : BootPart.boot ∉ ps := by decide) : u.boot = s.boot := h _ n
theorem handoff (h : BootFrame ps s u) (n : BootPart.handoff ∉ ps := by decide) : u.hwd.handoff = s.hwd.handoff := h _ n
theorem loaded (h : BootFrame ps s u) (n : BootPart.loaded ∉ ps := by decide) : u.loaded = s.loaded := h _ n
theorem dram (h : BootFrame ps s u) (n : BootPart.dram ∉ ps := by decide) : u.dram = s.dram := h _ n
theorem ready (h : BootFrame ps s u) (n : BootPart.ready ∉ ps := by decide) : mbxReady u = mbxReady s := h _ n
theorem faulted (h : BootFrame ps s u) (n : BootPart.faulted ∉ ps := by decide) : chipFaulted u = chipFaulted s := h _ n

theorem mem (h : BootFrame ps s u) (n : BootPart.dram ∉ ps := by decide) : SameMem s u := fun a => by
  unfold loadByte
  rw [h.dram n]

theorem retired (h : BootFrame ps s u) (g x : Nat) (n : BootPart.retired ∉ ps := by decide) :
    physRetired u g x = physRetired s g x := by
  have hk := congrFun (congrFun (h _ n) g) (x / 32)
  unfold physRetired isSet getF
  rw [hk]

end BootFrame

/-! ### Where their registers lie -/

/-- GRV_RETIRED of a grove. -/
def retiredReg (k : Nat) : Bool := decide (0x1000000 ≤ k) && decide (0x180 ≤ k % 0x40000) && decide (k % 0x40000 < 0x18C)

/-- The registers of the parts, but for GRV_RETIRED. -/
def chipRegs : List Nat := [Reg.MGT_STATUS, Reg.CFG_STATUS, Reg.MEM_CH_STATUS, Reg.MGT_BOOT_INFO, Reg.MGT_MBX_STATUS,
  Reg.FLT_STATE, Reg.CFG_FLASH]

/-- A register of some part. -/
def bootReg (k : Nat) : Bool := chipRegs.contains k || retiredReg k

theorem retiredReg_retired (g k : Nat) : retiredReg (Reg.GRV_RETIRED g k) = true := by
  simp only [retiredReg, Bool.and_eq_true, decide_eq_true_eq, Reg.GRV_RETIRED]
  omega

/-- None of `chipRegs` lies from `a` to `b`, and no register of a grove. -/
def offBoot (a b : Nat) : Bool := decide (b < 0x1000000) && chipRegs.all fun k => decide (k < a) || decide (b < k)

theorem bootReg_range {a b k : Nat} (h : offBoot a b = true) (ha : a ≤ k) (hb : k ≤ b) : bootReg k = false := by
  simp only [offBoot, Bool.and_eq_true, decide_eq_true_eq, List.all_eq_true, Bool.or_eq_true] at h
  obtain ⟨hlow, hoff⟩ := h
  have hc : k ∉ chipRegs := fun hm => by have := hoff k hm; omega
  have hr : retiredReg k = false := by simp [retiredReg]; omega
  simp [bootReg, hc, hr]

theorem bootReg_row {a i m c : Nat} (h : offBoot a (a + (m - 1) * c) = true := by decide) (hm : 0 < m := by decide) :
    bootReg (a + i % m * c) = false :=
  bootReg_range h (by omega) (by have := Nat.mul_le_mul_right c (Nat.le_sub_one_of_lt (Nat.mod_lt i hm)); omega)

theorem bootReg_rows {a i m c j n d : Nat} (h : offBoot a (a + (m - 1) * c + (n - 1) * d) = true := by decide)
    (hm : 0 < m := by decide) (hn : 0 < n := by decide) : bootReg (a + i % m * c + j % n * d) = false :=
  bootReg_range h (by omega) (by
    have := Nat.mul_le_mul_right c (Nat.le_sub_one_of_lt (Nat.mod_lt i hm))
    have := Nat.mul_le_mul_right d (Nat.le_sub_one_of_lt (Nat.mod_lt j hn))
    omega)

theorem bootReg_grove {k : Nat} (hk : 0x1000000 ≤ k) (h : k % 0x40000 < 0x180 ∨ 0x18C ≤ k % 0x40000) :
    bootReg k = false := by
  have hc : k ∉ chipRegs := fun hm => by
    have : chipRegs.all (· < 0x1000000) = true := by decide
    have := of_decide_eq_true (List.all_eq_true.mp this k hm)
    omega
  have hr : retiredReg k = false := by simp [retiredReg]; omega
  simp [bootReg, hc, hr]

theorem bootReg_grvStatus {g : Nat} : bootReg (Reg.GRV_STATUS g) = false :=
  bootReg_grove (by unfold Reg.GRV_STATUS; omega) (by unfold Reg.GRV_STATUS; omega)
theorem bootReg_grvMap {g n : Nat} : bootReg (Reg.GRV_MAP g n) = false :=
  bootReg_grove (by unfold Reg.GRV_MAP; omega) (by unfold Reg.GRV_MAP; omega)
theorem bootReg_grvUcode {g : Nat} : bootReg (Reg.GRV_UCODE_VER g) = false :=
  bootReg_grove (by unfold Reg.GRV_UCODE_VER; omega) (by unfold Reg.GRV_UCODE_VER; omega)

/-- The part that a field of a register belongs to, if any. -/
def bootPartOf (f : Fld) : List BootPart :=
  if f.key = Reg.MGT_STATUS then [.stage]
  else if f.key = Reg.CFG_STATUS then [.status]
  else if f.key = Reg.MEM_CH_STATUS ∨ f.key = Reg.MGT_BOOT_INFO then [.training]
  else if f.key = Reg.MGT_MBX_STATUS then if 18 ≤ f.lo ∨ f.lo + f.w ≤ 17 then [] else [.ready]
  else if f.key = Reg.FLT_STATE then if 1 ≤ f.lo then [] else [.faulted]
  else if f.key = Reg.CFG_FLASH then [.regions]
  else if retiredReg f.key = true then [.retired]
  else []

theorem bootPartOf_retired {f : Fld} (h : retiredReg f.key = true) : bootPartOf f = [.retired] := by
  have hc : f.key ∉ chipRegs := fun hm => by
    have : (chipRegs.all fun k => !retiredReg k) = true := by decide
    simpa [h] using List.all_eq_true.mp this _ hm
  simp only [chipRegs, List.mem_cons, List.not_mem_nil, or_false, not_or] at hc
  simp [bootPartOf, hc, h]

section
variable {ps : List BootPart}

/-- A write of a register of no part leaves every part alone. -/
theorem wr_off {k : Nat} (v : BitVec 64) (h : bootReg k = false) : BootFrame ps s (wr s k v) := by
  simp only [bootReg, Bool.or_eq_false_iff, List.contains_eq_mem, decide_eq_false_iff_not] at h
  obtain ⟨hc, hr⟩ := h
  have same (j : Nat) (hj : j ∈ chipRegs) : rd (wr s k v) j = rd s j := rd_wr_other _ _ fun e => hc (e ▸ hj)
  intro q _
  cases q with
  | stage => exact same _ (by decide)
  | status => exact same _ (by decide)
  | training => exact Prod.ext (same _ (by decide)) (same _ (by decide))
  | ready => exact congrArg (fun v => fieldOf v 17 1 == 1) (same Reg.MGT_MBX_STATUS (by decide))
  | faulted => exact congrArg (fun v => fieldOf v 0 1 == 1) (same Reg.FLT_STATE (by decide))
  | retired =>
    funext g n
    exact rd_wr_other _ _ fun e => by rw [← e, retiredReg_retired] at hr; cases hr
  | regions => exact congrArg (fun v => (s.flash, s.nvm, v)) (same Reg.CFG_FLASH (by decide))
  | _ => rfl

theorem setF_off {f : Fld} {x : Nat} (h : bootReg f.key = false) : BootFrame ps s (setF s f x) := wr_off _ h
theorem bump_off {f : Fld} {x : Nat} (h : bootReg f.key = false) : BootFrame ps s (bump s f x) := wr_off _ h
theorem bumpSat_off {f : Fld} {x : Nat} (h : bootReg f.key = false) : BootFrame ps s (bumpSat s f x) := wr_off _ h
theorem resetReg_off {k : Nat} (h : bootReg k = false) : BootFrame ps s (resetReg s k) := wr_off _ h

/-- A write of a field changes no part but the field's own. -/
theorem setF_part (s : State) (f : Fld) (x : Nat) : BootFrame (bootPartOf f) s (setF s f x) := by
  have same {k : Nat} (hk : k ≠ f.key) : rd (setF s f x) k = rd s k := rd_setF_other s x hk
  intro q hq
  cases q with
  | stage => exact same fun e => hq (by simp [bootPartOf, ← e])
  | status => exact same fun e => hq (by simp [bootPartOf, ← e])
  | training =>
    exact Prod.ext (same fun e => hq (by simp [bootPartOf, ← e])) (same fun e => hq (by simp [bootPartOf, ← e]))
  | ready =>
    refine congrArg (· == 1) ?_
    by_cases hk : Reg.MGT_MBX_STATUS = f.key
    · have h : 18 ≤ f.lo ∨ f.lo + f.w ≤ 17 := by
        by_contra hn
        exact hq (by simp [bootPartOf, ← hk, hn])
      exact getF_setF_bits s x h
    · exact getF_setF_key s x hk
  | faulted =>
    refine congrArg (· == 1) ?_
    by_cases hk : Reg.FLT_STATE = f.key
    · have h : 1 ≤ f.lo := by
        by_contra hn
        exact hq (by simp [bootPartOf, ← hk, hn])
      exact getF_setF_bits s x (.inl h)
    · exact getF_setF_key s x hk
  | retired =>
    funext g n
    refine same fun e => hq ?_
    rw [bootPartOf_retired (e ▸ retiredReg_retired g n)]
    exact List.mem_singleton_self _
  | regions => exact congrArg (fun v => (s.flash, s.nvm, v)) (same fun e => hq (by simp [bootPartOf, ← e]))
  | _ => rfl

theorem setF_bootFrame {f : Fld} {x : Nat} (h : ((bootPartOf f).all fun q => ps.contains q) = true := by rfl) :
    BootFrame ps s (setF s f x) := (setF_part s f x).up h

theorem raise_bootFrame {f : Fld} (h : ((bootPartOf f).all fun q => ps.contains q) = true := by rfl) :
    BootFrame ps s (raise s f) := by
  rw [raise_fields]
  intro q hq
  have := (setF_bootFrame (s := s) (x := 1) h : BootFrame ps s _) q hq
  cases q <;> exact this

end

end Sys2Proof.Machine
end

section
set_option Elab.async false
namespace Sys2Proof.Machine
variable {s t u : State}

section
variable {ps : List BootPart}

/-! ### Tables, messages, pages and trace -/

theorem emit_bootFrame {x : Tx} : BootFrame ps s (emit s x) := .of_core rfl
theorem drive_bootFrame {x : Tx} : BootFrame ps s (drive s x) := .ite (.refl _) emit_bootFrame
theorem setLane_bootFrame {p : Nat} {x : Lane} : BootFrame ps s (setLane s p x) := .of_core rfl
theorem setPage_bootFrame {p i : Nat} {x : Page} : BootFrame ps s (setPage s p i x) := .of_core rfl
theorem setPart_bootFrame {p : Nat} {x : Part} : BootFrame ps s (setPart s p x) := .of_core rfl
theorem setPort_bootFrame {n : Nat} {x : Port} : BootFrame ps s (setPort s n x) := .of_core rfl
theorem setTrace_bootFrame {p : Nat} {x : Trace} : BootFrame ps s (setTrace s p x) := .of_core rfl
theorem setGroup_bootFrame {n : Nat} {x : Option Group} : BootFrame ps s (setGroup s n x) := .of_core rfl
theorem draw_bootFrame : BootFrame ps s (draw s).2 := .of_core rfl
theorem dropWaits_bootFrame {f : HeldFor → Bool} : BootFrame ps s (dropWaits s f) := .of_core rfl
theorem clearL2_bootFrame {f : Nat → Bool} : BootFrame ps s (clearL2 s f) := .of_core rfl

theorem setBit_off {f : Fld} {i : Nat} {v : Bool} (h : bootReg f.key = false) : BootFrame ps s (setBit s f i v) := wr_off _ h

theorem mapPages_bootFrame {p : Nat} {f : PageUse → Bool} {g : PageUse → PageUse} : BootFrame ps s (mapPages s p f g) :=
  .foldl (fun _ _ => setPage_bootFrame) _ _

theorem lossRecord_bootFrame {p : Nat} : BootFrame ps s (lossRecord s p) := by
  unfold lossRecord
  exact .ite setTrace_bootFrame (.refl _)

theorem loseTrace_bootFrame {p t : Nat} : BootFrame ps s (loseTrace s p t) :=
  .after raise_bootFrame (.after (bump_off bootReg_rows) setTrace_bootFrame)

theorem traceRec_bootFrame {p k t : Nat} {bs : List Byte} : BootFrame ps s (traceRec s p k t bs) := by
  unfold traceRec
  exact .ite (.refl _) (.ite (.after setTrace_bootFrame lossRecord_bootFrame)
    (.after loseTrace_bootFrame lossRecord_bootFrame))

/-! ### Faults -/

theorem setCause_bootFrame {k : Nat} : BootFrame ps s (setCause s k) := by
  have h : BootFrame ps s (setF s ⟨Reg.FLT_FAULTN, k, 1⟩ 1) :=
    setF_off (show bootReg Reg.FLT_FAULTN = false by decide)
  unfold setCause withFaultn
  exact .ite h (.after drive_bootFrame h)

theorem flagClass_bootFrame {cls : Nat} {lasting : Bool} : BootFrame ps s (flagClass s cls lasting) := by
  unfold flagClass
  extract_lets s1
  have h : BootFrame ps s s1 := .ite raise_bootFrame (.ite raise_bootFrame (.ite raise_bootFrame
    (.ite raise_bootFrame (.refl _))))
  exact .ite (.after raise_bootFrame h) h

theorem queueFault_bootFrame {r : FaultRec} : BootFrame ps s (queueFault s r) := by
  unfold queueFault
  exact .ite raise_bootFrame (.after setF_bootFrame (.after (.foldl (fun _ _ => wr_off _ bootReg_row) _ _) .of_core))

theorem recordFault_bootFrame {id cls part ctx detail : Nat} {lasting promoted : Bool} :
    BootFrame ps s (recordFault s id cls lasting promoted part ctx detail) := by
  unfold recordFault
  extract_lets s1
  have h : BootFrame ps s s1 := .ite (bump_off bootReg_row) (.refl _)
  exact .ite h (.after queueFault_bootFrame (.after flagClass_bootFrame h))

/-! ### Links -/

theorem leaveBuffer_bootFrame {n k : Nat} : BootFrame ps s (leaveBuffer s n k) :=
  .ite (.after emit_bootFrame setPort_bootFrame) (.refl _)

theorem sendFlit_bootFrame {n : Nat} (h : sendFlit s n = some u) : BootFrame ps s u := by
  unfold sendFlit at h
  dsimp only at h
  split at h
  · cases h
  · split at h
    · cases h
    · split at h
      · cases h
      · cases h
        exact .after leaveBuffer_bootFrame (.after (bump_off bootReg_row) (.after emit_bootFrame setPort_bootFrame))

theorem pump_bootFrame {n : Nat} (fuel : Nat) : ∀ s : State, BootFrame ps s (pump n fuel s) := by
  induction fuel with
  | zero => exact fun s => .refl s
  | succ k ih =>
    intro s
    unfold pump
    split
    · next h => exact .after (ih _) (sendFlit_bootFrame h)
    · exact .refl _

theorem queueFlits_bootFrame {n i : Nat} {fs : List Flit} : BootFrame ps s (queueFlits s n i fs) :=
  .after (pump_bootFrame _ _) (.after setPort_bootFrame setPort_bootFrame)

theorem sendFlits_bootFrame {n : Nat} {fs : List Flit} : BootFrame ps s (sendFlits s n fs).1 := by
  unfold sendFlits
  dsimp only
  split
  · exact .refl _
  · split
    · exact queueFlits_bootFrame
    · exact .after raise_bootFrame (bumpSat_off (by decide))

theorem sendBare_bootFrame {n : Nat} {m : LinkMsg} : BootFrame ps s (sendBare s n m) := by
  unfold sendBare
  dsimp only
  split
  · exact .after emit_bootFrame (.after sendFlits_bootFrame .of_core)
  · exact .after sendFlits_bootFrame .of_core

theorem launch_bootFrame {p g tag n no : Nat} {m : LinkMsg} : BootFrame ps s (launch s p g tag n no m).1 := by
  unfold launch
  dsimp only
  split
  · exact sendFlits_bootFrame
  · exact .after emit_bootFrame (.ite (.after traceRec_bootFrame sendFlits_bootFrame) sendFlits_bootFrame)

theorem chargeOnly_bootFrame {p k n : Nat} : BootFrame ps s (chargeOnly s p k n) :=
  .ite (setF_off bootReg_rows) (.refl _)

theorem sendMsg_bootFrame {p g tag n : Nat} {m : LinkMsg} : BootFrame ps s (sendMsg s p g tag n m) := by
  unfold sendMsg
  exact .ite (.after chargeOnly_bootFrame (.after launch_bootFrame .of_core)) (.after launch_bootFrame .of_core)

theorem leaveGroups_bootFrame : BootFrame ps s (leaveGroups s) := by
  refine .foldl (fun a n => ?_) _ _
  split
  · exact .foldl (fun _ _ => sendBare_bootFrame) _ _
  · exact .refl _

theorem startTrain_bootFrame {n : Nat} : BootFrame ps s (startTrain s n) :=
  .ite (.refl _) (.after (setF_off bootReg_row) (.after setPort_bootFrame (.after (setF_off bootReg_row) setPort_bootFrame)))

/-! ### Steps that are dropped -/

theorem mapPeers_bootFrame {n : Nat} {f : Peer → Peer} : BootFrame ps s (mapPeers s n f) := by
  unfold mapPeers
  split
  · exact setGroup_bootFrame
  · exact .refl _

theorem returnPeerPages_bootFrame {st : Step} : BootFrame ps s (returnPeerPages s st) := by
  unfold returnPeerPages
  split
  · exact mapPeers_bootFrame
  · exact .refl _

theorem discardStep_bootFrame {p : Nat} {st : Step} : BootFrame ps s (discardStep s p st) :=
  .after returnPeerPages_bootFrame mapPages_bootFrame

theorem raiseAbandon_bootFrame {p g : Nat} : BootFrame ps s (raiseAbandon s p g) :=
  .after setLane_bootFrame (.after (.foldl (fun _ _ => setF_off bootReg_grvStatus) _ _) (.of_core rfl))

theorem abandonGroup_bootFrame {p : Nat} {st : Step} : BootFrame ps s (abandonGroup s p st) := by
  unfold abandonGroup
  dsimp only
  split
  · exact .refl _
  · exact .ite (.refl _) (.after setLane_bootFrame (.foldl (fun _ _ => sendMsg_bootFrame) _ _))

theorem clearCur_bootFrame {p : Nat} : BootFrame ps s (clearCur s p) := .after setLane_bootFrame dropWaits_bootFrame

theorem dropSteps_bootFrame {p : Nat} {f : Nat → Bool} : BootFrame ps s (dropSteps s p f) := by
  unfold dropSteps
  extract_lets l gone s1 held _ l1 s2 s3
  have h2 : BootFrame ps s s2 := .after setLane_bootFrame (.foldl (fun _ _ => discardStep_bootFrame) _ _)
  have h3 : BootFrame ps s s3 := by
    unfold s3
    split
    · exact .after abandonGroup_bootFrame h2
    · exact h2
  exact .ite (.after clearCur_bootFrame (.after raiseAbandon_bootFrame h3)) h2

/-! ### The mailbox -/

theorem answer_bootFrame {c : MbxCmd} {result : Nat} {resp : List Byte} : BootFrame ps s (answer s c result resp) := by
  unfold answer
  exact .ite (.after emit_bootFrame .of_core) (.after raise_bootFrame (.after setF_bootFrame (.after
    (.foldl (fun _ _ => setF_off bootReg_row) _ _) (.after (setF_off bootReg_row)
    (.after (setF_off bootReg_row) .of_core)))))

theorem settleFor_bootFrame (n : Nat) : ∀ s : State, BootFrame ps s (settleFor n s) := by
  induction n with
  | zero => exact fun s => .refl s
  | succ n ih =>
    intro s
    unfold settleFor
    split
    · exact .refl _
    · split
      · exact .refl _
      · exact .after (ih _) answer_bootFrame

theorem settle_bootFrame : BootFrame ps s (settle s) := settleFor_bootFrame 2 s

theorem respond_bootFrame {c : MbxCmd} {result : Nat} {resp : List Byte} : BootFrame [.ready] s (respond s c result resp) :=
  .after (.ite setF_bootFrame (.refl _)) (.after settle_bootFrame answer_bootFrame)

theorem abortCmd_bootFrame : BootFrame [.ready] s (abortCmd s) := by
  unfold abortCmd
  split
  · exact respond_bootFrame
  · exact .refl _

theorem withSpdm_bootFrame {f : Spdm → Spdm} : BootFrame ps s (withSpdm s f) := .of_core rfl

theorem answerOf_bootFrame {kind : Nat} {req : List Byte} : BootFrame ps s (answerOf kind s req).2 := by
  have drawn : BootFrame ps s (draw (draw s).2).2 := .after draw_bootFrame draw_bootFrame
  unfold answerOf
  split_ifs
  · exact withSpdm_bootFrame
  · unfold answerCapabilities
    dsimp only
    split
    · exact .refl _
    · exact .after withSpdm_bootFrame (.after draw_bootFrame drawn)
  · unfold answerAlgorithms
    dsimp only
    split_ifs
    exacts [.refl _, .refl _, withSpdm_bootFrame]
  · unfold answerDigests
    dsimp only
    split_ifs
    exacts [.refl _, withSpdm_bootFrame]
  · unfold answerCertificate
    dsimp only
    split_ifs
    exacts [.refl _, .refl _, withSpdm_bootFrame]
  · unfold answerChallenge
    extract_lets n g sum r sig
    split_ifs
    exacts [.refl _, .refl _, .after withSpdm_bootFrame drawn]
  · unfold answerMeasurements
    extract_lets op signed rec_ n g r l
    have hg : BootFrame ps s g.2 := drawn
    split_ifs
    exacts [.refl _, .refl _, .after withSpdm_bootFrame hg, .after withSpdm_bootFrame hg]
  · exact .refl _

theorem answerDoe_bootFrame {kind : Nat} {req : List Byte} : BootFrame ps s (answerDoe s kind req) :=
  .ite emit_bootFrame (.after emit_bootFrame answerOf_bootFrame)

theorem answersDoe_bootFrame (l : List (Nat × List Byte)) : BootFrame ps s (l.foldl (fun a e => answerDoe a e.1 e.2) s) :=
  .foldl (fun _ _ => answerDoe_bootFrame) _ _

theorem setReady_bootFrame : BootFrame [.ready] s (setReady s) :=
  .after (answersDoe_bootFrame _) (.after setF_bootFrame .of_core)

theorem setReady_ready : mbxReady (setReady s) = true := by
  refine (answersDoe_bootFrame (ps := []) _).ready.trans ?_
  unfold mbxReady isSet
  rw [getF_setF_same _ _ _ (by decide)]
  rfl

/-! ### Flash and NOR -/

theorem flashCmd_bootFrame : BootFrame ps s (flashCmd s) := .after drive_bootFrame drive_bootFrame

theorem regionReads_bootFrame {code : Nat} {x : RegionRead} : BootFrame ps s (regionReads s code x) := by
  have twice : BootFrame ps s (flashCmd (flashCmd s)) := .after flashCmd_bootFrame flashCmd_bootFrame
  unfold regionReads
  exact .ite (.after recordFault_bootFrame (.after raise_bootFrame twice))
    (.ite (.after recordFault_bootFrame (.after raise_bootFrame twice)) flashCmd_bootFrame)

theorem storeDue_bootFrame : BootFrame ps s (storeDue s) := .of_core rfl

theorem putSlotSt_bootFrame {x : SlotSt} : BootFrame ps s (putSlotSt s x) :=
  .after setF_bootFrame (.after setF_bootFrame (.after setF_bootFrame (.after storeDue_bootFrame .of_core)))

theorem failTrial_bootFrame {code : Nat} : BootFrame ps s (failTrial s code) := .after raise_bootFrame putSlotSt_bootFrame

theorem showSet_bootFrame : BootFrame [.status] s (showSet s) := by
  unfold showSet
  dsimp only
  split
  · exact .after setF_bootFrame (.after setF_bootFrame (.after setF_bootFrame setF_bootFrame))
  · exact .after setF_bootFrame (.after setF_bootFrame (.after setF_bootFrame setF_bootFrame))

theorem migrate_bootFrame {conv : List SetRec} {old new : Nat} : BootFrame [.status] s (migrate s conv old new) := by
  unfold migrate
  exact .ite (.refl _) (.after showSet_bootFrame (.after storeDue_bootFrame .of_core))

/-- Flash and NOR themselves may change. -/
theorem regions_bootFrame (h : (u.regs, u.img.dir, u.boot, u.hwd.handoff, u.loaded, u.dram) =
    (s.regs, s.img.dir, s.boot, s.hwd.handoff, s.loaded, s.dram) := by with_reducible rfl)
    (hm : BootPart.regions ∈ ps := by decide) :
    BootFrame ps s u := by
  have h' : BootFrame ps s { u with flash := s.flash, nvm := s.nvm } := .of_core (by simpa using h)
  intro q hq
  have := h' q hq
  cases q with
  | regions => exact absurd hm hq
  | _ => exact this

theorem eraseSector_bootFrame {k : Nat} : BootFrame [.status, .regions] s (eraseSector s k) := regions_bootFrame rfl

theorem eraseBank_bootFrame {b used : Nat} : BootFrame [.status, .regions] s (eraseBank s b used) :=
  .after (bump_off bootReg_row) (.after regions_bootFrame (.foldl (fun _ _ => eraseSector_bootFrame) _ _))

theorem storeCore_bootFrame {auto ok : Bool} : BootFrame [.status, .regions] s (storeCore s auto ok).1 := by
  unfold storeCore
  extract_lets host dev recs used b gen s1 _ x shadow _ s2 s3
  have h1 : BootFrame [.status, .regions] s s1 := eraseBank_bootFrame
  have h3 : BootFrame [.status, .regions] s s3 := .after setF_bootFrame (.after setF_bootFrame (.after regions_bootFrame h1))
  split_ifs
  exacts [.refl _, .after raise_bootFrame (.after regions_bootFrame h1),
    .after raise_bootFrame (.after showSet_bootFrame.up h3)]

theorem eraseOther_bootFrame {ks : List Nat} : BootFrame [.status, .regions] s (eraseOther s ks) :=
  .foldl (fun _ _ => .after eraseSector_bootFrame (.ite storeCore_bootFrame (.refl _))) _ _

theorem storeMap_bootFrame : BootFrame [.status, .regions] s (storeMap s) := by
  unfold storeMap
  exact .ite regions_bootFrame (.ite (.after (t := eraseOther s (halfSectors 60 2)) regions_bootFrame eraseOther_bootFrame)
    (.ite regions_bootFrame (.after (t := eraseOther s (halfSectors 58 2)) regions_bootFrame eraseOther_bootFrame)))

theorem garbleFlash_bootFrame {a n : Nat} : BootFrame [.regions] s (garbleFlash s a n) := regions_bootFrame rfl

theorem spoilSlot_bootFrame : BootFrame [.regions] s (spoilSlot s) := by
  have garbled (l : List Nat) : BootFrame [.regions] s (l.foldl (fun a k => garbleFlash a (4096 * k) 4096) s) :=
    .foldl (fun _ _ => garbleFlash_bootFrame) _ _
  unfold spoilSlot
  split
  · exact .refl _
  · exact .ite (.refl _) (.core (.after draw_bootFrame (garbled _)))

theorem closeUpdate_bootFrame : BootFrame [.regions] s (closeUpdate s) :=
  .after setF_bootFrame (.core spoilSlot_bootFrame)

/-! ### Power -/

theorem updatePred_bootFrame : BootFrame ps s (updatePred s) :=
  .after (.foldl (fun _ _ => setF_off bootReg_row) _ _) (.after setF_bootFrame (.after setF_bootFrame .of_core))

theorem setVid_bootFrame {code : Nat} : BootFrame ps s (setVid s code) := .after drive_bootFrame setF_bootFrame

theorem thermCap_bootFrame : BootFrame ps s (thermCap s).2 := by
  unfold thermCap thermModel
  dsimp only
  split
  · exact draw_bootFrame
  · exact .refl _

theorem setBounds_bootFrame {prev up down : Nat} : BootFrame ps s (setBounds s prev up down) := by
  unfold setBounds
  exact .after updatePred_bootFrame (.after .of_core (.after setF_bootFrame (.after setF_bootFrame
    (.after setF_bootFrame thermCap_bootFrame))))

theorem beginBattery_bootFrame : BootFrame ps s (beginBattery s) :=
  .after (.ite (bumpSat_off bootReg_row) (bumpSat_off bootReg_row)) (.after raise_bootFrame setF_bootFrame)

theorem showPower_bootFrame : BootFrame ps s (showPower s) :=
  .ite (.after setF_bootFrame setF_bootFrame) setF_bootFrame

theorem startPlanisher_bootFrame : BootFrame ps s (startPlanisher s) := by
  unfold startPlanisher
  extract_lets p tin _ q s1 tgt s2 s3
  have h2 : BootFrame ps s s2 := .after setBounds_bootFrame (.after setF_bootFrame (.after setF_bootFrame
    (.after setF_bootFrame .of_core)))
  exact .after showPower_bootFrame (.ite (.after beginBattery_bootFrame h2) h2)

/-! ### Updates of one part -/

theorem setBoot_bootFrame {b : Boot} (hm : BootPart.boot ∈ ps := by decide) : BootFrame ps s { s with boot := b } := by
  intro q hq
  cases q with
  | boot => exact absurd hm hq
  | _ => rfl

theorem setHwd_bootFrame {x : Hwd} (hm : BootPart.handoff ∈ ps := by decide) : BootFrame ps s { s with hwd := x } := by
  intro q hq
  cases q with
  | handoff => exact absurd hm hq
  | _ => rfl

theorem setLoaded_bootFrame {k rel : Nat} {b : List Byte} (hm : BootPart.loaded ∈ ps := by decide) :
    BootFrame ps s (setLoaded s k rel b) := by
  intro q hq
  cases q with
  | loaded => exact absurd hm hq
  | _ => rfl

end

/-! ### Stages and HOLD -/

theorem bootStage_bootFrame {k : Nat} : BootFrame [.stage] s (bootStage s k) := .after (setF_off bootReg_row) setF_bootFrame

theorem ne_bootT (k : Nat) : Reg.MGT_STATUS ≠ Reg.MGT_BOOT_T (min k 6) := by
  unfold Reg.MGT_STATUS Reg.MGT_BOOT_T
  omega

theorem stage_bootStage {k : Nat} (hk : k < 16) : stage (bootStage s k) = k := by
  unfold stage bootStage
  rw [getF_setF_key _ _ (ne_bootT k), getF_setF_same _ _ _ (by decide)]
  exact Nat.mod_eq_of_lt hk

theorem bootDone_bootFrame {k : Nat} : BootFrame [.stage, .boot] s (bootDone s k) :=
  .after settle_bootFrame (.after setBoot_bootFrame bootStage_bootFrame.up)

theorem stage_bootDone {k : Nat} (hk : k < 16) : stage (bootDone s k) = k := by
  have h : BootFrame [.boot] (bootStage s k) (bootDone s k) := .after settle_bootFrame setBoot_bootFrame
  rw [h.stage, stage_bootStage hk]

/-- The rest of MGT_STATUS stays. -/
theorem bootDone_status {k : Nat} {f : Fld} (hf : f.key = Reg.MGT_STATUS) (hlo : 4 ≤ f.lo) :
    getF (bootDone s k) f = getF s f := by
  have h : BootFrame [.boot] (bootStage s k) (bootDone s k) := .after settle_bootFrame setBoot_bootFrame
  have hne : f.key ≠ Reg.MGT_BOOT_T (min k 6) := by
    rw [hf]
    exact ne_bootT k
  unfold bootStage at h
  rw [h.getF_stage hf, getF_setF_key _ _ hne]
  exact getF_setF_bits _ _ (.inr hlo)

theorem bootDone_boot {k : Nat} :
    (bootDone s k).boot = { s.boot with up := true, warm := none, begun := false, restored := false } :=
  (settle_bootFrame (ps := [])).boot

theorem enterHold_bootFrame {code : Nat} {recovery : Bool} :
    BootFrame [.stage, .status, .ready, .boot] s (enterHold s code recovery) :=
  .after bootDone_bootFrame.up (.after setReady_bootFrame.up (.after setF_bootFrame (.after setF_bootFrame setF_bootFrame)))

theorem stage_enterHold {code : Nat} {recovery : Bool} : stage (enterHold s code recovery) = 7 := stage_bootDone (by decide)

theorem enterHold_up {code : Nat} {recovery : Bool} : (enterHold s code recovery).boot.up = true := by
  unfold enterHold
  rw [bootDone_boot]

theorem enterHold_status (f : Fld) (hf : f.key = Reg.CFG_STATUS) (code : Nat) (recovery : Bool) :
    getF (enterHold s code recovery) f = getF (setF (setF (setF s Reg.CFG_STATUS_CAUSE code) Reg.CFG_STATUS_RECOVERY
      (if recovery then 1 else 0)) Reg.CFG_STATUS_SOURCE 2) f :=
  (BootFrame.after (ps := [.stage, .ready, .boot]) bootDone_bootFrame.up setReady_bootFrame.up).getF_status hf

theorem enterHold_cause {code : Nat} {recovery : Bool} (h : code < 2 ^ 16) :
    getF (enterHold s code recovery) Reg.CFG_STATUS_CAUSE = code := by
  rw [enterHold_status _ rfl, getF_setF_bits _ _ (by decide), getF_setF_bits _ _ (by decide),
    getF_setF_same _ _ _ (by decide)]
  exact Nat.mod_eq_of_lt h

theorem enterHold_recovery {code : Nat} {recovery : Bool} :
    isSet (enterHold s code recovery) Reg.CFG_STATUS_RECOVERY = recovery := by
  unfold isSet
  rw [enterHold_status _ rfl, getF_setF_bits _ _ (by decide), getF_setF_same _ _ _ (by decide)]
  cases recovery <;> rfl

end Sys2Proof.Machine
end

section
set_option Elab.async false
namespace Sys2Proof.Machine
variable {s u : State} {ps : List BootPart}

/-! ## S3: the directory, the slot and the profile (R593, R596, R665) -/

theorem BootFrame.flashRegion (h : BootFrame ps s u) (off ext : Nat) (n : BootPart.regions ∉ ps := by decide) :
    flashRegion u off ext = flashRegion s off ext := by
  have hf : u.flash = s.flash := congrArg Prod.fst (h _ n)
  unfold Machine.flashRegion flashBytes flashByte
  rw [hf]

/-- The check of a directory reads the region, the key in NOR and the size of the flash. -/
theorem BootFrame.regionCode (h : BootFrame ps s u) (k : RegKind) (r : Region) (ext : Nat) (x : RegionRead)
    (n : BootPart.regions ∉ ps := by decide) : regionCode u k r ext x = regionCode s k r ext x := by
  have hc : (u.flash, u.nvm, rd u Reg.CFG_FLASH) = (s.flash, s.nvm, rd s Reg.CFG_FLASH) := h _ n
  simp only [Prod.mk.injEq] at hc
  obtain ⟨-, hn, hk⟩ := hc
  have hsize : flashSize u = flashSize s := by
    unfold flashSize Machine.getF
    rw [show rd u Reg.CFG_FLASH_DENSITY_MBIT.key = _ from hk]
    rfl
  unfold Machine.regionCode signatureOk ownerBase arbNow dirOk
  rw [hn, hsize]

/-- Copy `k` of the directory passes. -/
def dirPasses (s : State) (reads : List (Nat × RegionRead)) (k : Nat) : Bool :=
  regionCode s .directory (flashRegion s (0x10000 * k) 65536) 65536 (readOf reads k) == 0

/-- The entries of copy `k` of the directory. -/
def dirAt (s : State) (k : Nat) : List (Nat × Nat × Bool) := dirOf (flashRegion s (0x10000 * k) 65536).payload

theorem checkDir_bootFrame {off : Nat} {x : RegionRead} : BootFrame ps s (checkDir s off x).1 := by
  unfold checkDir
  exact regionReads_bootFrame

/-- A copy is checked as it stood when the stage began. -/
theorem checkDir_entries (h : BootFrame ps s u) (reads : List (Nat × RegionRead)) (k : Nat)
    (n : BootPart.regions ∉ ps := by decide) :
    (checkDir u (0x10000 * k) (readOf reads k)).2 = if dirPasses s reads k = true then some (dirAt s k) else none := by
  unfold checkDir dirPasses dirAt
  dsimp only
  rw [h.flashRegion _ _ n, h.regionCode _ _ _ _ n]
  simp only [beq_iff_eq]

theorem checkEntry_bootFrame {n : Nat} {x : RegionRead} : BootFrame ps s (checkEntry s n x).1 := by
  unfold checkEntry
  extract_lets e k r base bad code s1 s2
  have h : BootFrame ps s s2 :=
    .after (setF_off bootReg_row) (.after (setF_off bootReg_row) (.ite regionReads_bootFrame (.refl _)))
  clear_value bad
  dsimp only
  split
  · exact .after setF_bootFrame h
  · exact h

theorem bootSlot_bootFrame : BootFrame ps s (bootSlot s).2 := by
  unfold bootSlot
  dsimp only
  split_ifs
  exacts [.refl _, failTrial_bootFrame, .refl _, .refl _]

theorem checkSlots_bootFrame {reads : List (Nat × RegionRead)} : BootFrame [.regions] s (checkSlots s reads).1 := by
  unfold checkSlots
  extract_lets b c x s1 m d
  have hc : BootFrame [.regions] s c.1 := .after checkEntry_bootFrame bootSlot_bootFrame
  have h1 : BootFrame [.regions] s s1 := .ite (.after failTrial_bootFrame hc) hc
  have hd : BootFrame [.regions] s d.1 := .after checkEntry_bootFrame h1
  clear_value c d
  split
  · exact .after setF_bootFrame hc
  · split
    · exact .after setF_bootFrame hd
    · exact hd

theorem storeSlot_bootFrame {m : Nat} {r : Region} : BootFrame [.stage, .ready, .handoff] s (storeSlot s m r) := by
  unfold storeSlot
  extract_lets other _ s1 _
  have h1 : BootFrame [.stage, .ready, .handoff] s s1 := .after setF_bootFrame .of_core
  exact .ite (.after setF_bootFrame (.after setHwd_bootFrame h1)) h1

theorem checkProfile_bootFrame {reads : List (Nat × RegionRead)} : BootFrame [.stage, .status] s (checkProfile s reads) := by
  unfold checkProfile
  extract_lets pick
  have hpick (a : State) (v : Bool) (n : Nat) (r : Option Region) : BootFrame [.stage, .status] a (pick a v n r) :=
    .after setF_bootFrame (.after setF_bootFrame .of_core)
  split
  · exact hpick _ _ _ _
  · split
    · exact .ite (.after (hpick _ _ _ _) checkEntry_bootFrame) (.after setF_bootFrame (.after setF_bootFrame
        (.after setF_bootFrame (.after (hpick _ _ _ _) checkEntry_bootFrame))))
    · exact hpick _ _ _ _

/-- What the start of S4 may change: the repair map and the microcode are loaded. -/
abbrev s4Parts : List BootPart := [.stage, .boot, .loaded, .retired]

theorem showGrove_bootFrame {g : Nat} : BootFrame ps s (showGrove s g) :=
  .after (setF_off bootReg_grvStatus) (setF_off bootReg_grvStatus)

theorem setRetired_bootFrame {g k lo w x : Nat} : BootFrame s4Parts s (setF s ⟨Reg.GRV_RETIRED g k, lo, w⟩ x) := by
  have h := setF_part s ⟨Reg.GRV_RETIRED g k, lo, w⟩ x
  refine h.up ?_
  rw [bootPartOf_retired (retiredReg_retired g k)]
  rfl

theorem loadRepairMap_bootFrame : BootFrame s4Parts s (loadRepairMap s) :=
  .foldl (fun _ _ => .after showGrove_bootFrame (.after (.foldl (fun _ _ => setRetired_bootFrame) _ _)
    (.foldl (fun _ _ => setF_off bootReg_grvMap) _ _))) _ _

theorem startS4_bootFrame {trained : Bool} : BootFrame s4Parts s (startS4 s trained) := by
  unfold startS4
  extract_lets s1 s2 s3 ok _
  have h1 : BootFrame s4Parts s s1 := .after setVid_bootFrame (.after setF_bootFrame (.after setF_bootFrame
    (.foldl (fun _ _ => setBit_off (by decide)) _ _)))
  have h2 : BootFrame s4Parts s s2 := .after (.foldl (fun _ _ => .after setLoaded_bootFrame (wr_off _ bootReg_grvUcode)) _ _)
    (.after loadRepairMap_bootFrame h1)
  have h3 : BootFrame s4Parts s s3 := .after (.after setLoaded_bootFrame (wr_off _ (by decide)))
    (.after (.foldl (fun _ _ => setLoaded_bootFrame) _ _) h2)
  exact .after bootStage_bootFrame.up (.after setBoot_bootFrame h3)

theorem stage_startS4 {trained : Bool} : stage (startS4 s trained) = 4 := stage_bootStage (by decide)

/-- S3 has taken the directory `es` and goes on to S4, or to recovery HOLD without a good slot. -/
def DirTaken (es : List (Nat × Nat × Bool)) (u : State) : Prop :=
  u.img.dir = es ∧
    (stage u = 4 ∨ stage u = 7 ∧ getF u Reg.CFG_STATUS_CAUSE = 0x080A ∧ isSet u Reg.CFG_STATUS_RECOVERY = true)

theorem startS4_dirTaken {es : List (Nat × Nat × Bool)} {trained : Bool} (h : s.img.dir = es) :
    DirTaken es (startS4 s trained) :=
  ⟨startS4_bootFrame.dir.trans h, .inl stage_startS4⟩

theorem enterHold_dirTaken {es : List (Nat × Nat × Bool)} (h : s.img.dir = es) : DirTaken es (enterHold s 0x080A true) :=
  ⟨enterHold_bootFrame.dir.trans h, .inr ⟨stage_enterHold, enterHold_cause (by decide), enterHold_recovery⟩⟩

/-- The directory that S3 finds: the first copy that passes. -/
def dirFound (s : State) (reads : List (Nat × RegionRead)) : Option (List (Nat × Nat × Bool)) :=
  if dirPasses s reads 0 = true then some (dirAt s 0) else if dirPasses s reads 1 = true then some (dirAt s 1) else none

theorem dirFound_some {reads : List (Nat × RegionRead)} (h : dirPasses s reads 0 = true ∨ dirPasses s reads 1 = true) :
    dirFound s reads = some (dirAt s (if dirPasses s reads 0 = true then 0 else 1)) := by
  unfold dirFound
  by_cases h0 : dirPasses s reads 0 = true
  · rw [if_pos h0, if_pos h0]
  · rw [if_neg h0, if_neg h0, if_pos (h.resolve_left h0)]

theorem dirFound_none {reads : List (Nat × RegionRead)} (h : ¬(dirPasses s reads 0 = true ∨ dirPasses s reads 1 = true)) :
    dirFound s reads = none := by
  rw [not_or] at h
  unfold dirFound
  rw [if_neg h.1, if_neg h.2]

/-- S3 whole: the directory is taken, or without one the device is in recovery HOLD. -/
theorem imageCheck_spec {reads : List (Nat × RegionRead)} (hs : stage s = 3) (hr : bootRuns s = true) :
    Answers (.imageCheck reads) s fun u => (∀ es, dirFound s reads = some es → DirTaken es u) ∧
      (dirFound s reads = none →
        stage u = 7 ∧ getF u Reg.CFG_STATUS_CAUSE = 0x0809 ∧ isSet u Reg.CFG_STATUS_RECOVERY = true) := by
  have hgo : ¬(stage s ≠ 3 ∨ bootRuns s = false) := by simp [hs, hr]
  show ∃ u, execImageCheck reads s = .next u ∧ _
  unfold execImageCheck
  rw [if_neg hgo]
  extract_lets trained s0 a b d
  have h0 : BootFrame [.status] s s0 := .after setF_bootFrame (.after setF_bootFrame setF_bootFrame)
  have ha : BootFrame [.status] s a.1 := .after checkDir_bootFrame h0
  have ha2 : a.2 = _ := checkDir_entries h0 reads 0
  have hb2 : b.2 = _ := checkDir_entries ha reads 1
  have hd : d.2 = dirFound s reads := by
    unfold d dirFound
    clear_value b
    by_cases h : dirPasses s reads 0 = true
    · rw [ha2, if_pos h, if_pos h]
    · rw [ha2, if_neg h, if_neg h, ← hb2]
  rw [← hd]
  clear_value d
  split
  · next hnone =>
    rw [hnone]
    exact ⟨_, rfl, nofun, fun _ => ⟨stage_enterHold, enterHold_cause (by decide), enterHold_recovery⟩⟩
  · next es hsome =>
    rw [hsome]
    have taken {u : State} (h : DirTaken es u) : (∀ x, some es = some x → DirTaken x u) ∧ (some es = none →
        stage u = 7 ∧ getF u Reg.CFG_STATUS_CAUSE = 0x0809 ∧ isSet u Reg.CFG_STATUS_RECOVERY = true) :=
      ⟨fun x e => Option.some.inj e ▸ h, nofun⟩
    extract_lets s1 c
    have hc : c.1.img.dir = es := checkSlots_bootFrame.dir
    clear_value c
    split
    · split
      · exact ⟨_, rfl, taken (enterHold_dirTaken hc)⟩
      · exact ⟨_, rfl, taken (startS4_dirTaken (checkProfile_bootFrame.dir.trans (storeSlot_bootFrame.dir.trans hc)))⟩
    · exact ⟨_, rfl, taken (startS4_dirTaken checkProfile_bootFrame.dir)⟩

/-! ## The hand-off (R705) -/

theorem loadedAt_setLoaded {k rel : Nat} {b : List Byte} : loadedAt (setLoaded s k rel b) k = (rel, b) :=
  spGet_spPut_same _ _ _ _

/-- The slot's firmware runs, READY is set, and no hand-off is left. -/
theorem takeOver_spec {m : Nat} (r : Region) (conv : List SetRec) (hm : m < 2) :
    (takeOver s m r conv).hwd.handoff = none ∧ mbxReady (takeOver s m r conv) = true ∧
      getF (takeOver s m r conv) Reg.MGT_STATUS_SLOT = m ∧
      loadedAt (takeOver s m r conv) 33 = ((component r.payload 0).2.2.2, componentBytes r.payload 0) := by
  unfold takeOver
  extract_lets rel from_ _ s1 s2 s3 _ s4 x s5
  have h5 : BootFrame [.ready] s4 (settle (setReady s5)) :=
    .after settle_bootFrame (.after setReady_bootFrame (.ite (.after raise_bootFrame putSlotSt_bootFrame) (.refl _)))
  have h2 : BootFrame [.status, .handoff, .ready] s2 (settle (setReady s5)) :=
    .after h5.up (.after setHwd_bootFrame migrate_bootFrame.up)
  have hslot : getF s2 Reg.MGT_STATUS_SLOT = m := by
    have : BootFrame [.loaded] s1 s2 := .after setLoaded_bootFrame (wr_off _ (by decide))
    rw [this.getF_stage, getF_setF_same _ _ _ (by decide)]
    exact Nat.mod_eq_of_lt hm
  refine ⟨h5.handoff, (settle_bootFrame (ps := [])).ready.trans setReady_ready, h2.getF_stage.trans hslot, ?_⟩
  unfold loadedAt
  rw [h2.loaded]
  exact loadedAt_setLoaded

theorem bootHandoff_spec {m : Nat} {r : Region} {conv : List SetRec} (hh : s.hwd.handoff = some (m, r)) (hm : m < 2)
    (hr : hwdRuns s = true) (hl : (loadedAt s 33).2 = []) :
    Answers (.bootHandoff conv) s fun u => u.hwd.handoff = none ∧ mbxReady u = true ∧ getF u Reg.MGT_STATUS_SLOT = m ∧
      loadedAt u 33 = ((component r.payload 0).2.2.2, componentBytes r.payload 0) := by
  show ∃ u, execBootHandoff conv s = .next u ∧ _
  unfold execBootHandoff
  rw [hh]
  dsimp only
  rw [if_pos (by simp [hl, hr])]
  exact ⟨_, rfl, takeOver_spec r conv hm⟩

end Sys2Proof.Machine
end

section
set_option Elab.async false
namespace Sys2Proof.Machine
variable {s t u : State}

/-! ## S4: training (R231) -/

/-- Bits of a bitmap set one after another. -/
theorem getF_setBits_true {F : Fld} (hin : F.lo + F.w ≤ 64) {l : List Nat} (hl : ∀ i ∈ l, i < F.w) (s : State) (j : Nat) :
    (getF (l.foldl (fun a i => setBit a F i true) s) F).testBit j = (decide (j ∈ l) || (getF s F).testBit j) := by
  induction l generalizing s with
  | nil => simp
  | cons i l ih =>
    rw [List.foldl_cons, ih fun x hx => hl x (List.mem_cons_of_mem _ hx), getF_setBit hin (hl i List.mem_cons_self)]
    by_cases hj : j = i
    · simp [hj]
    · simp [hj]

/-- Another field stays. -/
theorem getF_setBits_other {F G : Fld} (h : G.key ≠ F.key ∨ G.lo + G.w ≤ F.lo ∨ F.lo + F.w ≤ G.lo) (l : List Nat)
    (s : State) : getF (l.foldl (fun a i => setBit a F i true) s) G = getF s G := by
  induction l generalizing s with
  | nil => rfl
  | cons i l ih => exact (ih _).trans (h.elim (getF_setF_key _ _) (getF_setF_bits _ _))

/-- The bits of a bitmap of `n` bits: none is set just when it is 0. -/
theorem filter_testBit_isEmpty {x n : Nat} (hx : x < 2 ^ n) :
    ((List.range n).filter x.testBit).isEmpty = decide (x = 0) := by
  rw [Bool.eq_iff_iff, List.isEmpty_iff, List.filter_eq_nil_iff, decide_eq_true_iff]
  constructor
  · intro h
    refine Nat.eq_of_testBit_eq fun i => ?_
    rw [Nat.zero_testBit]
    by_cases hi : i < n
    · simpa using h i (List.mem_range.mpr hi)
    · exact Nat.testBit_lt_two_pow (Nat.lt_of_lt_of_le hx (Nat.pow_le_pow_right (by decide) (by omega)))
  · rintro rfl i -
    simp

theorem stopChip_bootFrame {id : Nat} :
    BootFrame [.ready, .faulted, .regions, .boot] s (stopChip s id) := by
  unfold stopChip
  split
  · exact .refl s
  · extract_lets second s1 s2 _ s3
    have h2 : BootFrame [.ready, .faulted, .regions, .boot] s s2 := .after setCause_bootFrame (.after setF_bootFrame
      (.after (.foldl (fun _ _ => dropSteps_bootFrame) _ _) leaveGroups_bootFrame))
    exact .after abortCmd_bootFrame.up (.after closeUpdate_bootFrame.up (.after updatePred_bootFrame
      (.after setBoot_bootFrame h2)))

/-- The chip is stopped, and what had trained stays known. -/
theorem stopChip_stopped {id : Nat} :
    chipFaulted (stopChip s id) = true ∧ (stopChip s id).boot.trained = s.boot.trained := by
  unfold stopChip
  split
  · next h => exact ⟨h, rfl⟩
  · extract_lets second s1 s2 b s3
    have h1 : BootFrame [.faulted] s s2 := .after setCause_bootFrame (.after setF_bootFrame
      (.after (.foldl (fun _ _ => dropSteps_bootFrame) _ _) leaveGroups_bootFrame))
    have h2 : chipFaulted s2 = true := by
      refine (setCause_bootFrame (ps := [])).faulted.trans ?_
      unfold chipFaulted isSet
      rw [getF_setF_same _ _ _ (by decide)]
      rfl
    have h3 : BootFrame [.ready, .regions] _ (abortCmd (closeUpdate s3)) :=
      .after abortCmd_bootFrame.up (.after closeUpdate_bootFrame.up updatePred_bootFrame)
    exact ⟨h3.faulted.trans h2, by rw [h3.boot, ← h1.boot]⟩

/-- The registers show what training found: the channels that failed twice, all others, and that some trained again. -/
def TrainingShown (a b : Nat) (u : State) : Prop :=
  getF u Reg.MEM_CH_STATUS_TRAIN_FAIL = a &&& b ∧ (a ≠ 0 → isSet u Reg.MGT_BOOT_INFO_TRAIN_RETRY = true) ∧
    ∀ c, c < 32 → ¬(a.testBit c = true ∧ b.testBit c = true) → (getF u Reg.MEM_CH_STATUS_TRAINED).testBit c = true

theorem TrainingShown.frame {ps : List BootPart} {a b : Nat} (h : TrainingShown a b s) (f : BootFrame ps s u)
    (n : BootPart.training ∉ ps := by decide) : TrainingShown a b u := by
  unfold TrainingShown isSet at *
  rwa [f.getF_training (.inl rfl) n, f.getF_training (.inr rfl) n, f.getF_training (.inl rfl) n]

/-- Training has ended and its result is marked: `first` failed once, `second` failed again as well. -/
def trainingMarked (s : State) (first second : Nat) : State :=
  let fs := (List.range 32).filter first.testBit
  let bad := fs.filter second.testBit
  let good := (List.range 32).filter fun c => !bad.contains c
  let s1 := good.foldl (fun a c => setBit a Reg.MEM_CH_STATUS_TRAINED c true) s
  let s2 := if fs.isEmpty then s1 else setF s1 Reg.MGT_BOOT_INFO_TRAIN_RETRY 1
  let s3 := (fs.filter fun c => !bad.contains c).foldl (fun a _ => recordFault a 0x19 1 false false nobody nobody 0) s2
  bad.foldl (fun a c => setBit a Reg.MEM_CH_STATUS_TRAIN_FAIL c true) s3

/-- The channels that failed twice, as bits of both operands. -/
theorem filter_testBit_both (a b : Nat) :
    ((List.range 32).filter a.testBit).filter b.testBit = (List.range 32).filter (a &&& b).testBit := by
  rw [List.filter_filter]
  exact List.filter_congr fun i _ => by rw [Nat.testBit_and, Bool.and_comm]

theorem setBits_bootFrame {F : Fld} {l : List Nat} (h : F.key = Reg.MEM_CH_STATUS) :
    BootFrame [.training] s (l.foldl (fun a c => setBit a F c true) s) :=
  .foldl (fun _ _ => setF_bootFrame (by simp [bootPartOf, h])) _ _

theorem trainingMarked_bootFrame {a b : Nat} : BootFrame [.training] s (trainingMarked s a b) := by
  have h1 (l : List Nat) : BootFrame [.training] s (l.foldl (fun a c => setBit a Reg.MEM_CH_STATUS_TRAINED c true) s) :=
    setBits_bootFrame rfl
  exact .after (setBits_bootFrame rfl) (.after (.foldl (fun _ _ => recordFault_bootFrame) _ _)
    (.ite (h1 _) (.after setF_bootFrame (h1 _))))

theorem trainingMarked_shown {a b : Nat} (ha : a < 2 ^ 32) (hf : getF s Reg.MEM_CH_STATUS_TRAIN_FAIL = 0) :
    TrainingShown a b (trainingMarked s a b) := by
  have hab : a &&& b < 2 ^ 32 := Nat.lt_of_le_of_lt Nat.and_le_left ha
  unfold trainingMarked
  extract_lets fs bad good s1 s2 s3
  have hbad (i : Nat) : i ∈ bad ↔ i < 32 ∧ (a &&& b).testBit i = true := by
    simp only [bad, fs, filter_testBit_both, List.mem_filter, List.mem_range]
  have hgood (i : Nat) : i ∈ good ↔ i < 32 ∧ i ∉ bad := by
    simp only [good, List.mem_filter, List.mem_range, List.contains_eq_mem, Bool.not_eq_true', decide_eq_false_iff_not]
  have h3 : BootFrame [] s2 s3 := .foldl (fun _ _ => recordFault_bootFrame) _ _
  have h2 {f : Fld} (hk : f.key ≠ Reg.MGT_BOOT_INFO) : getF s2 f = getF s1 f := by
    unfold s2
    split
    · rfl
    · exact getF_setF_key _ _ hk
  refine ⟨?_, fun ha0 => ?_, fun c hc hn => ?_⟩
  · have hzero : getF s3 Reg.MEM_CH_STATUS_TRAIN_FAIL = 0 := by
      rw [h3.getF_training (.inl rfl), h2 (by decide), getF_setBits_other (by decide), hf]
    refine Nat.eq_of_testBit_eq fun j => ?_
    rw [getF_setBits_true (by decide) (fun i hi => ((hbad i).mp hi).1), hzero, Nat.zero_testBit, Bool.or_false]
    by_cases hj : j < 32
    · simp [hbad, hj]
    · have : (a &&& b).testBit j = false :=
        Nat.testBit_lt_two_pow (Nat.lt_of_lt_of_le hab (Nat.pow_le_pow_right (by decide) (by omega)))
      simp [hbad, this]
  · have hfs : fs.isEmpty = false := by rw [filter_testBit_isEmpty ha, decide_eq_false ha0]
    have h2 : s2 = setF s1 Reg.MGT_BOOT_INFO_TRAIN_RETRY 1 := by
      unfold s2
      rw [hfs]
      rfl
    unfold isSet
    rw [getF_setBits_other (by decide), h3.getF_training (.inr rfl), h2, getF_setF_same _ _ _ (by decide)]
    rfl
  · have hon : c ∈ good := (hgood c).mpr ⟨hc, fun hm => hn (by simpa using ((hbad c).mp hm).2)⟩
    rw [getF_setBits_other (by decide), h3.getF_training (.inl rfl), h2 (by decide),
      getF_setBits_true (by decide) (fun i hi => ((hgood i).mp hi).1)]
    simp [hon]

/-- What training leaves: the channels are shown, and those that failed twice have stopped the chip. -/
theorem channelTrainingDone_spec {a b : Nat} (ha : a < 2 ^ 32) (hs : stage s = 4) (ht : s.boot.trained = false)
    (hr : bootRuns s = true) (hf : getF s Reg.MEM_CH_STATUS_TRAIN_FAIL = 0) :
    Answers (.channelTrainingDone a b) s fun u =>
      u.boot.trained = decide (a &&& b = 0) ∧ TrainingShown a b u ∧ (a &&& b ≠ 0 → chipFaulted u = true) := by
  have hab : a &&& b < 2 ^ 32 := Nat.lt_of_le_of_lt Nat.and_le_left ha
  have hshown := trainingMarked_shown (b := b) ha hf
  have hboot : (trainingMarked s a b).boot = s.boot := trainingMarked_bootFrame.boot
  show ∃ u, execChannelTrainingDone a b s = .next u ∧ _
  unfold execChannelTrainingDone
  rw [if_neg (by simp [hs, ht, hr, hf])]
  extract_lets fs bad good s1 s2 s3 _ s4 s5 _
  have hempty : bad.isEmpty = decide (a &&& b = 0) := by
    unfold bad fs
    rw [filter_testBit_both, filter_testBit_isEmpty hab]
  have h4 : s4 = trainingMarked s a b := rfl
  split
  · next he =>
    have h0 : a &&& b = 0 := by simpa [hempty] using he
    have h3 : TrainingShown a b s3 := by
      rw [← h4] at hshown
      unfold s4 at hshown
      rwa [List.isEmpty_iff.mp he] at hshown
    exact ⟨_, rfl, by simp [h0], h3.frame (setBoot_bootFrame (ps := [.boot])), fun h => absurd h0 h⟩
  · next he =>
    have h0 : a &&& b ≠ 0 := by simpa [hempty] using he
    obtain ⟨hstop, hkept⟩ : chipFaulted s5 = true ∧ s5.boot.trained = _ := stopChip_stopped
    have h5 : BootFrame [] s4 (setCause (recordFault s4 0x19 4 true false nobody nobody 0) 3) :=
      .after setCause_bootFrame recordFault_bootFrame
    have hframe : BootFrame [.ready, .faulted, .regions, .boot] s4 s5 := .after stopChip_bootFrame h5.up
    rw [h5.boot, h4, hboot, ht] at hkept
    clear_value s5
    refine ⟨_, rfl, hkept.trans (decide_eq_false h0).symm, ?_, fun _ => ?_⟩
    · exact (h4 ▸ hshown).frame (.after setBoot_bootFrame hframe)
    · exact (setBoot_bootFrame (ps := [.boot])).faulted.trans hstop

/-! ## S4: the self-test (R152, R153) -/

/-- A cluster marked retired stays so. -/
def RetiredStay (s u : State) : Prop := ∀ g x, physRetired s g x = true → physRetired u g x = true

theorem RetiredStay.after (g : RetiredStay t u) (h : RetiredStay s t) : RetiredStay s u := fun i x e => g i x (h i x e)

theorem BootFrame.retiredStay {ps : List BootPart} (h : BootFrame ps s u) (n : BootPart.retired ∉ ps := by decide) :
    RetiredStay s u := fun g x e => (h.retired g x n).trans e

/-- A flag is set, and flags that were set stay. -/
theorem isSet_setF_one {f g : Fld} (hf : f.w = 1) (hg : g.w = 1) (hin : f.lo + f.w ≤ 64) (h : isSet s g = true ∨ g = f) :
    isSet (setF s f 1) g = true := by
  unfold isSet at *
  by_cases hk : g.key = f.key
  · by_cases hl : g.lo = f.lo
    · obtain rfl : g = f := by
        cases f
        cases g
        simp_all
      rw [getF_setF_same _ _ _ hin, hf]
      rfl
    · rw [getF_setF_bits _ _ (by omega)]
      obtain h | rfl := h
      · exact h
      · exact absurd rfl hl
  · rw [getF_setF_key _ _ hk]
    obtain h | rfl := h
    · exact h
    · exact absurd rfl hk

/-- Cluster `x` of grove `g` is marked. -/
theorem retire_spec (s : State) (g x : Nat) :
    RetiredStay s (setF s ⟨Reg.GRV_RETIRED g (x / 32), x % 32, 1⟩ 1) ∧
      physRetired (setF s ⟨Reg.GRV_RETIRED g (x / 32), x % 32, 1⟩ 1) g x = true :=
  have hin : x % 32 + 1 ≤ 64 := by omega
  ⟨fun _ _ e => isSet_setF_one rfl rfl hin (.inl e), isSet_setF_one rfl rfl hin (.inr rfl)⟩

/-- A cluster that fails the self-test is marked retired, mapped or spare. -/
theorem failCluster_spec (s : State) (e : Nat × Nat) :
    RetiredStay s (failCluster s e) ∧ physRetired (failCluster s e) e.1 e.2 = true := by
  unfold failCluster
  dsimp only
  split
  · next l hl =>
    have hx : mapEntry s e.1 l % 128 = e.2 := by
      have := List.find?_some hl
      simp only [Bool.and_eq_true, beq_iff_eq] at this
      exact this.2
    unfold retireCluster
    rw [hx]
    extract_lets _ s1 s2
    obtain ⟨hstay, hset⟩ := retire_spec s e.1 e.2
    have h : RetiredStay s1 (showGrove s2 e.1) :=
      BootFrame.retiredStay (ps := []) (.after showGrove_bootFrame (setF_off bootReg_grvMap))
    exact ⟨h.after hstay, h _ _ hset⟩
  · obtain ⟨hstay, hset⟩ := retire_spec s e.1 e.2
    have h : RetiredStay _ (showGrove (setF s ⟨Reg.GRV_RETIRED e.1 (e.2 / 32), e.2 % 32, 1⟩ 1) e.1) :=
      BootFrame.retiredStay (ps := []) showGrove_bootFrame
    exact ⟨h.after hstay, h _ _ hset⟩

/-- One failing cluster and its fault record. -/
def failRecorded (s : State) (e : Nat × Nat) : State := recordFault (failCluster s e) 0x1C 0 false false nobody nobody 0

theorem failRecorded_spec (s : State) (e : Nat × Nat) :
    RetiredStay s (failRecorded s e) ∧ physRetired (failRecorded s e) e.1 e.2 = true := by
  obtain ⟨hstay, hset⟩ := failCluster_spec s e
  have h : RetiredStay (failCluster s e) (failRecorded s e) := BootFrame.retiredStay (ps := []) recordFault_bootFrame
  exact ⟨h.after hstay, h _ _ hset⟩

theorem foldl_failRecorded_spec (l : List (Nat × Nat)) (s : State) :
    RetiredStay s (l.foldl failRecorded s) ∧ ∀ e ∈ l, physRetired (l.foldl failRecorded s) e.1 e.2 = true := by
  induction l generalizing s with
  | nil => exact ⟨fun _ _ e => e, nofun⟩
  | cons x xs ih =>
    obtain ⟨hstay, hset⟩ := failRecorded_spec s x
    obtain ⟨hrest, hall⟩ := ih (failRecorded s x)
    refine ⟨hrest.after hstay, fun e he => ?_⟩
    obtain rfl | he := List.mem_cons.mp he
    · exact hrest _ _ hset
    · exact hall e he

theorem failClusters_retires {fails : List (Nat × Nat)} (hwf : fails.all physClusterOk = true) :
    ∀ e ∈ fails, physRetired (failClusters s fails) e.1 e.2 = true := by
  intro e he
  obtain ⟨hg, hx⟩ : e.1 < 16 ∧ e.2 < 84 := by simpa [physClusterOk] using List.all_eq_true.mp hwf e he
  unfold failClusters
  extract_lets fs mapped s1 _ _ s2
  obtain ⟨hstay, hset⟩ := foldl_failRecorded_spec ((fs.filter fun e => !mapped e) ++ fs.filter mapped) s
  have h1 : physRetired s1 e.1 e.2 = true := by
    by_cases hr : physRetired s e.1 e.2 = true
    · exact hstay _ _ hr
    · have hf : e ∈ fs := by simp [fs, he, hg, hx, hr]
      refine hset e ?_
      by_cases hm : mapped e = true
      · simp [hf, hm]
      · simp [hf, hm]
  have h2 : RetiredStay s1 (if fs.isEmpty = true then s2 else storeMap s2) :=
    BootFrame.retiredStay (ps := [.status, .regions]) (.ite .of_core (.after storeMap_bootFrame .of_core))
  exact h2 _ _ h1

theorem groveSelfTest_spec {fails : List (Nat × Nat)} (hwf : (Instr.groveSelfTest fails).wf = true) (hs : stage s = 4)
    (ht : s.boot.tested = false) (hr : bootRuns s = true) :
    Answers (.groveSelfTest fails) s fun u => u.boot.tested = true ∧ ∀ e ∈ fails, physRetired u e.1 e.2 = true := by
  show ∃ u, execGroveSelfTest fails s = .next u ∧ _
  unfold execGroveSelfTest
  rw [if_neg (by simp [hs, ht, hr])]
  exact ⟨_, rfl, rfl, failClusters_retires (fails := fails) hwf⟩

/-! ## The layout and S5 (R232, R523) -/

theorem ownGrove_bootFrame {ps : List BootPart} {g : Nat} {p : Option Nat} : BootFrame ps s (ownGrove s g p) :=
  .after (setBit_off (by decide)) (.after (setF_off bootReg_grvStatus) (setF_off bootReg_grvStatus))

theorem layoutPart_bootFrame {ps : List BootPart} {p trace save : Nat} : BootFrame ps s (layoutPart s p trace save) := by
  unfold layoutPart
  extract_lets _ s1 s2 s3
  have h2 : BootFrame ps s s2 := .after (setF_off bootReg_row) (.after (setF_off bootReg_row)
    (.after (setF_off bootReg_row) setPart_bootFrame))
  have h3 : BootFrame ps s s3 := .core h2
  refine .after (.foldl (fun a x => ?_) _ _) h3
  split
  · exact .ite setPage_bootFrame (.ite setTrace_bootFrame (.refl _))
  · exact .refl _

theorem stopTrace_bootFrame {ps : List BootPart} {p : Nat} : BootFrame ps s (stopTrace s p) :=
  .after (setF_off bootReg_row) setTrace_bootFrame

theorem makePart_empty {p first n trace save : Nat} {full : Bool} (h : s.dram = []) :
    (makePart s p first n trace save full).dram = [] := by
  unfold makePart
  extract_lets s1 s2 s3
  have h3 : BootFrame [] s s3 := .after setF_bootFrame (.after (setF_off bootReg_row) (.after (.foldl
    (fun _ _ => ownGrove_bootFrame) _ _) (.after (setF_off bootReg_row) (.after (setF_off bootReg_row)
    (setF_off bootReg_row)))))
  have h4 : BootFrame [] (zeroPart s3 p) (layoutPart (stopTrace (clearL2 (zeroPart s3 p) fun g =>
      (groveList s3 p).contains g) p) p trace save) :=
    .after layoutPart_bootFrame (.after stopTrace_bootFrame clearL2_bootFrame)
  rw [h4.dram]
  show spDrop _ s3.dram = []
  rw [h3.dram, h]
  rfl

theorem applyLayout_empty {d : List Byte} (h : s.dram = []) : (applyLayout s d).dram = [] := by
  unfold applyLayout
  extract_lets s1 s2
  have h2 : BootFrame [] s s2 := .after setF_bootFrame (.after setF_bootFrame (.foldl (fun _ _ => ownGrove_bootFrame) _ _))
  replace h : s2.dram = [] := h2.dram.trans h
  clear h2
  clear_value s2
  generalize layoutEntries d = l
  induction l generalizing s2 with
  | nil => exact h
  | cons e l ih => exact ih _ (makePart_empty h)

theorem applyCezlink_bootFrame {ps : List BootPart} {d : Option (List Byte)} : BootFrame ps s (applyCezlink s d) := by
  have node : BootFrame ps s (resetReg s Reg.CZL_NODE) := resetReg_off (by decide)
  unfold applyCezlink
  dsimp only
  split
  · exact .after (.foldl (fun _ _ => .after (setF_off bootReg_row) (setF_off bootReg_row)) _ _)
      (.after (.foldl (fun _ _ => resetReg_off bootReg_row) _ _) node)
  · exact .after (.foldl (fun _ _ => .after (setF_off bootReg_row) (setF_off bootReg_row)) _ _)
      (.after (.foldl (fun _ _ => .after (setF_off bootReg_row) (setF_off bootReg_row)) _ _)
      (.after setF_bootFrame (.after setF_bootFrame (.after setF_bootFrame node))))

/-- S4 ends with memory zeroed and laid out (R232). -/
theorem layoutComplete_spec (hs : stage s = 4) (ht : s.boot.trained = true) (hd : s.boot.tested = true)
    (hh : s.hwd.handoff = none) (hr : bootRuns s = true) :
    Answers .layoutComplete s fun u => stage u = 5 ∧ ∀ a, loadByte u a = 0#8 := by
  show ∃ u, execLayoutComplete s = .next u ∧ _
  unfold execLayoutComplete
  rw [if_neg (by simp [hs, ht, hd, hh, hr])]
  extract_lets l s0 s1 s2 s3
  have h1 : s1.dram = [] := applyLayout_empty rfl
  have h2 : s2.dram = [] := by
    rw [← h1]
    exact bootStage_bootFrame.dram
  have h5 : stage s2 = 5 := stage_bootStage (by decide)
  clear_value s2
  have hu : BootFrame [] s2 ((List.range 12).foldl startTrain s3) :=
    .after (.foldl (fun _ _ => startTrain_bootFrame) _ _) (.ite applyCezlink_bootFrame (.refl _))
  refine ⟨_, rfl, hu.stage.trans h5, fun a => ?_⟩
  unfold loadByte
  rw [hu.dram, h2]
  rfl

/-- S5 ends when no port trains: in HOLD without a profile (R707). -/
theorem cezlinkPortsSettled_spec (hs : stage s = 5) (hn : s.boot.settled = false) (hr : bootRuns s = true)
    (hp : (List.range 12).any (portTraining s) = false) :
    Answers .cezlinkPortsSettled s fun u =>
      u = if s.img.chosen.isNone = true then enterHold s (getF s Reg.CFG_STATUS_CAUSE) false
        else { s with boot := { s.boot with settled := true } } := by
  show ∃ u, execCezlinkPortsSettled s = .next u ∧ _
  unfold execCezlinkPortsSettled
  rw [if_neg (by simp [hs, hn, hr, hp])]
  split
  · exact ⟨_, rfl, rfl⟩
  · exact ⟨_, rfl, rfl⟩

theorem portsSettled_service (hs : stage s = 5) (hn : s.boot.settled = false) (hr : bootRuns s = true)
    (hp : (List.range 12).any (portTraining s) = false) (hc : s.img.chosen.isSome = true) :
    Answers .cezlinkPortsSettled s fun u => u.boot.settled = true ∧ stage u = 5 := by
  obtain ⟨u, he, rfl⟩ := cezlinkPortsSettled_spec hs hn hr hp
  rw [if_neg (by simp [Option.isSome_iff_ne_none.mp hc])] at he
  exact ⟨_, he, rfl, hs⟩

theorem portsSettled_hold (hs : stage s = 5) (hn : s.boot.settled = false) (hr : bootRuns s = true)
    (hp : (List.range 12).any (portTraining s) = false) (hc : s.img.chosen = none) :
    Answers .cezlinkPortsSettled s fun u => stage u = 7 ∧ isSet u Reg.CFG_STATUS_RECOVERY = false ∧
      getF u Reg.CFG_STATUS_CAUSE = getF s Reg.CFG_STATUS_CAUSE ∧ u.boot.up = true := by
  obtain ⟨u, he, rfl⟩ := cezlinkPortsSettled_spec hs hn hr hp
  rw [if_pos (by simp [hc])] at he
  exact ⟨_, he, stage_enterHold, enterHold_recovery, enterHold_cause (getF_lt s _), enterHold_up⟩

/-- Whatever the profile writes, SERVICE begins with memory as it was and the profile shown as the active one (R706). -/
theorem serviceEntry_spec {v : Bool} {n : Nat} {r : Region} (hc : s.img.chosen = some (v, n, r)) (hn : n < 4)
    (hs : stage s = 5) (hd : s.boot.settled = true) (hr : bootRuns s = true) :
    Answers .serviceEntry s fun u => stage u = 6 ∧ u.boot.up = true ∧ u.boot.warm = none ∧ SameMem s u ∧
      getF u Reg.CFG_STATUS_SOURCE = (if v then 1 else 0) ∧ getF u Reg.MGT_STATUS_PROFILE = (if v then 0 else n) := by
  show ∃ u, execServiceEntry s = .next u ∧ _
  unfold execServiceEntry
  split
  · next h => cases hc.symm.trans h
  · next v' n' r' h =>
    cases hc.symm.trans h
    rw [if_neg (by simp [hs, hd, hr])]
    extract_lets s0 s1 s2 lanes _ s3 _
    have hmem : s2.dram = s.dram := rfl
    have hsource : getF s2 Reg.CFG_STATUS_SOURCE = if v = true then 1 else 0 := by
      rw [getF_setF_key _ _ (by decide), getF_setF_same _ _ _ (by decide)]
      cases v <;> rfl
    have hprofile : getF s2 Reg.MGT_STATUS_PROFILE = if v = true then 0 else n := by
      rw [getF_setF_same _ _ _ (by decide)]
      cases v
      · exact Nat.mod_eq_of_lt hn
      · rfl
    clear_value s2 s0
    have h3 : BootFrame [] s2 { s3 with set := { s3.set with snapAt := s3.sTime } } := .of_core
    have hstart {a : State} : BootFrame [] a (startPlanisher a) := startPlanisher_bootFrame
    refine ⟨_, rfl, hstart.stage.trans (stage_bootDone (by decide)), ?_, ?_, fun a => ?_, ?_, ?_⟩
    · rw [hstart.boot, bootDone_boot]
    · rw [hstart.boot, bootDone_boot]
    · rw [hstart.mem, bootDone_bootFrame.mem, h3.mem]
      unfold loadByte
      rw [hmem]
    · rw [hstart.getF_status, bootDone_bootFrame.getF_status, h3.getF_status, hsource]
    · rw [hstart.getF_stage, bootDone_status rfl (by decide), h3.getF_stage, hprofile]

end Sys2Proof.Machine
end

section
set_option Elab.async false
namespace Sys2Proof
open Machine

/-- Settles O52: each stage's command by its own lemma, and what a stage hands on by the frames of its operations. -/
theorem theBootReachesService : Obligations.TheBootReachesService := by
  unfold Obligations.TheBootReachesService
  refine ⟨fun s reads _ hs hr => ?_, fun s m r conv hh hm hr hl => ?_, fun s a b hwf hs ht hr hf => ?_,
    fun s fails hwf hs ht hr => ?_, fun s hs ht hd hh hr => ?_, fun s hs hn hr hp => ?_, fun s v n r hc hn hs hd hr => ?_⟩
  · obtain ⟨u, he, htaken, hnone⟩ := imageCheck_spec (reads := reads) hs hr
    refine ⟨u, he, ?_⟩
    change if dirPasses s reads 0 = true ∨ dirPasses s reads 1 = true then DirTaken (dirAt s _) u else _
    split
    · next h => exact htaken _ (dirFound_some h)
    · next h => exact hnone (dirFound_none h)
  · exact bootHandoff_spec hh hm hr hl
  · obtain ⟨u, he, htrained, ⟨hfail, hretry, hshown⟩, hstop⟩ :=
      channelTrainingDone_spec (b := b) (of_decide_eq_true hwf).1 hs ht hr hf
    exact ⟨u, he, htrained, hfail, hretry, hstop, hshown⟩
  · exact groveSelfTest_spec hwf hs ht hr
  · exact layoutComplete_spec hs ht hd hh hr
  · exact ⟨portsSettled_service hs hn hr hp, portsSettled_hold hs hn hr hp⟩
  · exact serviceEntry_spec hc hn hs hd hr

end Sys2Proof
end

section
set_option Elab.async false
namespace Sys2Proof.Machine

/-! ## The choice of holder -/

/-- The contexts among which HOLDER_SELECT chooses: those with work, without the ones passed over for want of pages or slots
while another has work or a preempted step waits. -/
def contenders (s : State) (p : Nat) : List Nat :=
  let all := (ctxsOf s p).filter (hasWork s)
  let fresh := all.filter fun g => !(lane s p).stalled.contains g
  if fresh.isEmpty ∧ (lane s p).pre = [] then all else fresh

/-- The state in which the contexts passed over at this boundary are noted, all but the one chosen. -/
def passedBut (s : State) (p : Nat) (chosen : Option Nat) : State :=
  notePassed s p ((ctxsOf s p).filter (hasWork s)) chosen

/-- Context `g` enters COMPOSE. -/
def enterCompose (s : State) (p g : Nat) : State :=
  setLane s p { lane s p with composing := some (openCompose s p g) }

theorem afterHolder_of_mem {last g : Nat} {gs : List Nat} (h : g ∈ gs) : ∃ c, afterHolder last gs = some c := by
  unfold afterHolder
  split
  · exact ⟨_, rfl⟩
  · exact ⟨_, List.head?_eq_some_head (List.ne_nil_of_mem h)⟩

/-- The least effective class of some contexts. -/
theorem min?_effClass {s : State} {work : List Nat} {m : Nat} (hm : ∃ g ∈ work, effClass s g = m)
    (hle : ∀ g ∈ work, m ≤ effClass s g) : (work.map (effClass s)).min? = some m :=
  List.min?_eq_some_iff.mpr ⟨List.mem_map.mpr hm, List.forall_mem_map.mpr hle⟩

section
variable {s : State} {p : Nat} (hs : serving s = true) (hv : partValid s p = true)
  (hst : partState s p = 1 ∨ partState s p = 2) (hb : atBoundary (lane s p) = true)
include hs hv hst hb

/-- A partition in service stands at a boundary where a holder may be chosen. -/
theorem holderSelect_guard : ¬(!serving s || !partValid s p || !(partState s p == 1 || partState s p == 2) ||
    !atBoundary (lane s p)) = true := by
  rcases hst with h | h <;> simp [hs, hv, hb, h]

/-- With no preempted step, or one of a higher class than the least effective class, the first context of that class after
the last holder enters COMPOSE. -/
theorem execHolderSelect_composes {m g : Nat} (hm : ((contenders s p).map (effClass s)).min? = some m)
    (hpre : ∀ z rest, (lane s p).pre = z :: rest → m < classOf s z.ctx)
    (hg : afterHolder (lane s p).lastHolder ((contenders s p).filter fun g => effClass s g == m) = some g) :
    execHolderSelect p s = .next (enterCompose (passedBut s p (some g)) p g) := by
  unfold execHolderSelect
  extract_lets l st all fresh work cls
  have hcls : cls = some m := hm
  have hfirst : afterHolder l.lastHolder (work.filter fun g => effClass s g == m) = some g := hg
  rw [if_neg (holderSelect_guard hs hv hst hb), hcls]
  cases hz : l.pre with
  | nil => simp only [hfirst]; rfl
  | cons z rest => simp only [decide_eq_false (Nat.not_le.mpr (hpre z rest hz)), hfirst]; rfl

/-- A preempted step of a class no higher than any effective class is restored. -/
theorem execHolderSelect_restores {z : Step} {rest : List Step} (hz : (lane s p).pre = z :: rest) (ha : (lane s p).acks = [])
    (hle : ∀ g ∈ contenders s p, classOf s z.ctx ≤ effClass s g) :
    execHolderSelect p s = .next (startRestore (passedBut s p none) p z rest) := by
  unfold execHolderSelect
  extract_lets l st all fresh work cls
  have hpre : l.pre = z :: rest := hz
  have hacks : l.acks.isEmpty = true := List.isEmpty_iff.mpr ha
  rw [if_neg (holderSelect_guard hs hv hst hb), hpre]
  cases hm : cls with
  | none => simp only [hacks]; rfl
  | some m =>
    obtain ⟨g, hg, rfl⟩ := List.mem_map.mp (List.min?_mem hm)
    simp only [decide_eq_true (hle g hg), hacks]; rfl

/-- With no work and no preempted step nothing is chosen. -/
theorem execHolderSelect_idles (hw : contenders s p = []) (hz : (lane s p).pre = []) :
    execHolderSelect p s = .next (passedBut s p none) := by
  unfold execHolderSelect
  extract_lets l st all fresh work cls
  have hpre : l.pre = [] := hz
  have hcls : cls = none := congrArg (fun w => (w.map (effClass s)).min?) hw
  rw [if_neg (holderSelect_guard hs hv hst hb), hpre, hcls]
  rfl

end

variable {s : State} {p : Nat}

/-- A boundary: nothing holds the groves, and nothing composes. -/
theorem atBoundary_idle {l : Lane} (h : atBoundary l = true) : l.cur = none ∧ l.composing = none := by
  simp only [atBoundary, Bool.and_eq_true, Option.isNone_iff_eq_none] at h
  obtain ⟨⟨⟨⟨⟨hcur, hcomposing⟩, -⟩, -⟩, -⟩, -⟩ := h
  exact ⟨hcur, hcomposing⟩

/-- Noting who was passed over changes nothing else of the lane. -/
theorem passedBut_lane (chosen : Option Nat) : ∃ now, lane (passedBut s p chosen) p = { lane s p with passed := now } :=
  ⟨_, lane_setLane_same _ _ _⟩

theorem startRestore_lane (z : Step) (rest : List Step) : lane (startRestore s p z rest) p =
    { lane s p with cur := some z, pre := rest, restoreAt := some s.qTime, lastHolder := ctxLocal z.ctx } := by
  rw [startRestore, setGroves_frame.lane p, lane_setLane_same]

/-- The groves' STATE is the one register family that `setGroves` writes. -/
theorem rd_setGroves_other {x k : Nat} (h : (decide (0x1000000 ≤ k) && decide (k % 0x40000 = 0)) = false) :
    rd (setGroves s p x) k = rd s k := by
  have other (g : Nat) : k ≠ Reg.GRV_STATUS g := by
    rintro rfl
    simp only [Bool.and_eq_false_iff, decide_eq_false_iff_not] at h
    unfold Reg.GRV_STATUS at h
    omega
  unfold setGroves
  generalize groveList s p = l
  induction l generalizing s with
  | nil => rfl
  | cons g l ih => rw [List.foldl_cons, ih, rd_setF_other _ _ (other g)]

end Sys2Proof.Machine

namespace Sys2Proof
open Machine

/-- Settles O8: each clause is one outcome of HOLDER_SELECT over the contenders, and only a restore writes registers, those of
the groves. -/
theorem holderIsChosenByClass : Obligations.HolderIsChosenByClass := by
  unfold Obligations.HolderIsChosenByClass
  intro s p _ hs hv hst hb all fresh work
  have hwork : contenders s p = work := by simp only [contenders, List.isEmpty_iff]; rfl
  clear_value work
  subst hwork
  obtain ⟨hcur, hcomposing⟩ := atBoundary_idle hb
  refine ⟨fun m hm hle hpre => ?_, fun z rest hz ha hle => ?_, fun hw hz => ?_⟩
  · obtain ⟨g, hg, hgm⟩ := hm
    have least : g ∈ (contenders s p).filter fun g => effClass s g == m := List.mem_filter.mpr ⟨hg, beq_iff_eq.mpr hgm⟩
    obtain ⟨c, hc⟩ := afterHolder_of_mem (last := (lane s p).lastHolder) least
    obtain ⟨now, hlane⟩ := passedBut_lane (s := s) (p := p) (some c)
    refine ⟨_, execHolderSelect_composes hs hv hst hb (min?_effClass ⟨g, hg, hgm⟩ hle) hpre hc,
      openCompose (passedBut s p (some c)) p c, ?_, rfl, hc, ?_, ?_, fun _ => rfl, fun _ _ => rfl⟩
    all_goals rw [enterCompose, lane_setLane_same, hlane]
    exact hcur
  · refine ⟨_, execHolderSelect_restores hs hv hst hb hz ha hle, ?_, ?_, ?_, fun a => setGroves_frame.mem (by decide) a,
      fun k hk => rd_setGroves_other hk⟩
    all_goals rw [startRestore_lane]
    rfl
  · obtain ⟨now, hlane⟩ := passedBut_lane (s := s) (p := p) none
    refine ⟨_, execHolderSelect_idles hs hv hst hb hw hz, ?_, ?_, fun _ => rfl, fun _ _ => rfl⟩
    · rw [hlane]; exact hcur
    · rw [hlane]; exact hcomposing

end Sys2Proof
end

section
set_option Elab.async false
namespace Sys2Proof.Machine

/-- The state of the step that holds the groves of partition 0 after a command. -/
def holderState : Host.Outcome State Fault Refusal → Option StepState
  | .next u => (lane u 0).cur.map (·.st)
  | _ => none

/-- A step of context 1 at the end of its T-mode save, 600 ticks after it began, and a step of context 0 that waits for
the groves and stands in EXECUTE: no composition makes such a step, and the statement does not exclude it. -/
def strayPreempting : State :=
  setLane (setCtx { State.reset with qTime := 600 } 0 (some
      { slot := 0, first := true, saveBase := 0, saveUnits := 1, tag := 0, lastAbandoned := false, barred := false,
        pair := none, unpair := false })) 0
    { Lane.idle with
      cur := some (bareStep .execute 1), nextStep := some (bareStep .execute 0), preempt := some ⟨false, 0, some 0, 0, false⟩ }

theorem strayPreempting_cur : (lane strayPreempting 0).cur = some (bareStep .execute 1) := by
  rw [strayPreempting, lane_setLane_same]

theorem strayPreempting_preempt : (lane strayPreempting 0).preempt = some ⟨false, 0, some 0, 0, false⟩ := by
  rw [strayPreempting, lane_setLane_same]

/-- The save is long enough, and no access of it is refused. -/
theorem strayPreempting_saved : 0 + saveTicks strayPreempting 0 (bareStep .execute 1) false ≤ strayPreempting.qTime ∧
    (stopAll strayPreempting 0 (bareStep .execute 1)).bad = false := by decide +kernel

/-- The step that waited takes the groves in EXECUTE, as it stood. -/
theorem strayPreempting_saveDone : holderState (exec (.preemptSaveDone 0) strayPreempting) = some .execute := by
  decide +kernel

end Sys2Proof.Machine

namespace Sys2Proof
open Machine

/-- Refutes O15: in `strayPreempting` the step that waits for the groves stands in EXECUTE already, and the end of the save
gives it the groves so, where the statement has it in ISSUE. -/
theorem not_preemptionSavesAndRestores : ¬ Obligations.PreemptionSavesAndRestores := by
  intro h
  obtain ⟨hlong, hgood⟩ := strayPreempting_saved
  obtain ⟨-, hpreempt, -⟩ := h strayPreempting 0 0 rfl (bareStep .execute 1) strayPreempting_cur
  obtain ⟨-, -, hsave⟩ := hpreempt _ strayPreempting_preempt
  obtain ⟨u, hu, -, hcur, -⟩ := hsave 0 rfl hlong hgood
  have he := strayPreempting_saveDone
  rw [hu, holderState] at he
  rcases hcur with hnone | ⟨x, hx, hissue, -⟩
  · rw [hnone] at he; cases he
  · rw [hx, Option.map_some, hissue] at he; cases he

end Sys2Proof
end

section
set_option Elab.async false
/-! ## Memory in canonical form (R193, R232) -/
namespace Sys2Proof
open Machine

/-- Settles O60: every operation that writes memory keeps it canonical, whether a command runs or time passes. -/
theorem everyStepKeepsMemoryCanonical : Obligations.EveryStepKeepsMemoryCanonical := by
  unfold Obligations.EveryStepKeepsMemoryCanonical
  exact fun s t ok h => step_memOk h ok

end Sys2Proof
end

section
set_option Elab.async false
/-! ## The translator (R192 to R195) -/
namespace Sys2Proof.Machine
variable {s : State} {p a x : Nat}

theorem translate_isSome : (translate s p a).isSome = true ↔ a < topOf s p := by
  by_cases h : a < topOf s p
  · simp [translate_some s h, h]
  · simp [translate_none s (Nat.not_lt.mp h), h]

/-- A physical address that the translator gives, taken apart: a channel of the partition, and an offset below the stripe
of the system reserve (R193). -/
theorem translate_parts (h : translate s p a = some x) : ∃ c o, x = 2 ^ 31 * (2 * firstGrove s p + c) + o ∧
    c < 2 * grovesOf s p ∧ o < 0x7F000000 := by
  have low : a < topOf s p := translate_isSome.mp (by rw [h]; rfl)
  have some_channel : 0 < channels s p := by
    by_contra k
    simp [topOf, Nat.eq_zero_of_not_pos k] at low
  have stripe : a / 4096 / channels s p < 520192 := by
    rw [Nat.div_div_eq_div_mul, Nat.div_lt_iff_lt_mul (by positivity)]
    unfold topOf at low
    omega
  rw [translate_some s low, Option.some.injEq] at h
  exact ⟨a / 4096 % channels s p, 4096 * (a / 4096 / channels s p) + a % 4096, by omega, Nat.mod_lt _ some_channel, by omega⟩

theorem translate_channel (h : translate s p a = some x) :
    2 * firstGrove s p ≤ x / 2 ^ 31 ∧ x / 2 ^ 31 < 2 * (firstGrove s p + grovesOf s p) := by
  obtain ⟨c, o, rfl, hc, ho⟩ := translate_parts h
  omega

theorem translate_outside_reserve (h : translate s p a = some x) : x % 2 ^ 31 < 0x7F000000 := by
  obtain ⟨c, o, rfl, -, ho⟩ := translate_parts h
  omega

/-- The byte lies in a grove of the partition (R192). -/
theorem translate_grove (h : translate s p a = some x) : x / 2 ^ 32 ∈ groveList s p := by
  obtain ⟨hlo, hhi⟩ := translate_channel h
  refine List.mem_map.mpr ⟨x / 2 ^ 32 - firstGrove s p, List.mem_range.mpr ?_, ?_⟩ <;> omega

end Sys2Proof.Machine

namespace Sys2Proof
open Machine

/-- Settles O58: the channel and the offset of the physical address bound it, the channel names a grove of the partition,
and within one partition the translator is injective. -/
theorem theTranslatorKeepsPartitionsApart : Obligations.TheTranslatorKeepsPartitionsApart := by
  unfold Obligations.TheTranslatorKeepsPartitionsApart
  intro s
  refine ⟨fun p a => translate_isSome, fun p a x h => ?_, fun p q a b x hpq ha hb => ?_⟩
  · obtain ⟨hlo, hhi⟩ := translate_channel h
    exact ⟨hlo, hhi, translate_outside_reserve h⟩
  · obtain rfl | apart := hpq
    · exact ⟨rfl, translate_inj ha hb⟩
    · exact absurd (translate_grove hb) (apart _ (translate_grove ha))

end Sys2Proof
end

section
set_option Elab.async false
/-! ## What the consequences of a memory fault leave alone

A read of the patrol may stop the chip, end a model or tear a context down. None of these moves the patrol, writes memory
or its error symbols, or takes a record from the collector's queue. The lemmas of this part say so once for each operation. -/
namespace Sys2Proof.Machine

/-- The patrol, memory with the error symbols of its words, and the collector's time. -/
abbrev patrolView (s : State) : Scrub × List Host.Cell × List (Nat × Nat) × Nat := (s.scrub, s.dram, s.ecc, s.aTime)

/-- From `s` to `u` what `patrolView` shows has not changed, and the records that waited still stand first in the queue. -/
structure PatrolFrame (s u : State) : Prop where
  view : patrolView u = patrolView s
  queue : s.fltQueue <+: u.fltQueue

namespace PatrolFrame
variable {s t u : State}

theorem refl (s : State) : PatrolFrame s s := ⟨rfl, List.prefix_refl _⟩

/-- The last operation first. -/
theorem after (g : PatrolFrame t u) (h : PatrolFrame s t) : PatrolFrame s u :=
  ⟨g.view.trans h.view, h.queue.trans g.queue⟩

theorem ite {P : Prop} [Decidable P] (h : PatrolFrame s t) (g : PatrolFrame s u) : PatrolFrame s (if P then t else u) := by
  split
  · exact h
  · exact g

theorem foldl {α : Type} {f : State → α → State} (h : ∀ a x, PatrolFrame a (f a x)) (l : List α) (s : State) :
    PatrolFrame s (l.foldl f s) := by
  induction l generalizing s with
  | nil => exact refl s
  | cons x xs ih => exact (ih _).after (h s x)

/-- An update of other fields than the view's and the queue. -/
theorem of_core (h : (patrolView u, u.fltQueue) = (patrolView s, s.fltQueue) := by rfl) : PatrolFrame s u := by
  obtain ⟨hv, hq⟩ := Prod.mk.inj h
  exact ⟨hv, hq ▸ List.prefix_refl _⟩

theorem scrub (h : PatrolFrame s u) : u.scrub = s.scrub := congrArg Prod.fst h.view
theorem aTime (h : PatrolFrame s u) : u.aTime = s.aTime := congrArg (fun v => v.2.2.2) h.view

theorem mem (h : PatrolFrame s u) : SameMem s u := fun a => by
  unfold loadByte
  rw [show u.dram = s.dram from congrArg (fun v => v.2.1) h.view]

theorem eccAt (h : PatrolFrame s u) (w : Nat) : eccAt u w = eccAt s w := by
  unfold Machine.eccAt
  rw [show u.ecc = s.ecc from congrArg (fun v => v.2.2.1) h.view]

/-- A record that waits goes on waiting. -/
theorem recorded {r : State} {id : Nat} (h : PatrolFrame s u) (k : Recorded r s id) : Recorded r u id := by
  obtain ⟨x, hx, hid, ht⟩ := k
  exact ⟨x, h.queue.subset hx, hid, ht⟩

end PatrolFrame

variable {s : State}

/-! ### Updates of a field -/

theorem wr_patrol {k : Nat} {v : BitVec 64} : PatrolFrame s (wr s k v) := .of_core
theorem setF_patrol {f : Fld} {x : Nat} : PatrolFrame s (setF s f x) := .of_core
theorem bump_patrol {f : Fld} {n : Nat} : PatrolFrame s (bump s f n) := .of_core
theorem bumpSat_patrol {f : Fld} {n : Nat} : PatrolFrame s (bumpSat s f n) := .of_core
theorem lower_patrol {f : Fld} {n : Nat} : PatrolFrame s (lower s f n) := .of_core
theorem resetReg_patrol {k : Nat} : PatrolFrame s (resetReg s k) := .of_core
theorem setLane_patrol {p : Nat} {x : Lane} : PatrolFrame s (setLane s p x) := .of_core
theorem setReq_patrol {i : Nat} {x : Option Req} : PatrolFrame s (setReq s i x) := .of_core
theorem setCohort_patrol {i : Nat} {x : Option Cohort} : PatrolFrame s (setCohort s i x) := .of_core
theorem setAdmQueue_patrol {t c : Nat} {x : List Nat} : PatrolFrame s (setAdmQueue s t c x) := .of_core
theorem setCtx_patrol {g : Nat} {x : Option Ctx} : PatrolFrame s (setCtx s g x) := .of_core
theorem setSlot_patrol {n : Nat} {x : Option Slot} : PatrolFrame s (setSlot s n x) := .of_core
theorem setPage_patrol {p i : Nat} {x : Page} : PatrolFrame s (setPage s p i x) := .of_core
theorem setTrace_patrol {p : Nat} {x : Trace} : PatrolFrame s (setTrace s p x) := .of_core
theorem setPort_patrol {n : Nat} {x : Port} : PatrolFrame s (setPort s n x) := .of_core
theorem setGroup_patrol {n : Nat} {x : Option Group} : PatrolFrame s (setGroup s n x) := .of_core
theorem emit_patrol {x : Tx} : PatrolFrame s (emit s x) := .of_core
theorem dropWaits_patrol {f : HeldFor → Bool} : PatrolFrame s (dropWaits s f) := .of_core
theorem credit_patrol {t n : Nat} : PatrolFrame s (credit s t n) := lower_patrol
theorem showHold_patrol {t c : Nat} : PatrolFrame s (showHold s t c) := setF_patrol
theorem noteDue_patrol {t n : Nat} : PatrolFrame s (noteDue s t n) := .of_core
theorem queueRec_patrol {t c : Nat} {r : Rec} : PatrolFrame s (queueRec s t c r) := .of_core
theorem freeEntryOf_patrol {i g : Nat} : PatrolFrame s (freeEntryOf s i g) := .of_core
theorem garbleFlash_patrol {a n : Nat} : PatrolFrame s (garbleFlash s a n) := .of_core
theorem clearCur_patrol {p : Nat} : PatrolFrame s (clearCur s p) := .of_core
theorem clearCtxRegs_patrol {g : Nat} : PatrolFrame s (clearCtxRegs s g) := .foldl (fun _ _ => resetReg_patrol) _ _

/-- A message and a pin's level are no part of the view. -/
theorem raise_patrol {f : Fld} : PatrolFrame s (raise s f) := by
  rw [raise_fields]
  exact .of_core

/-! ### Fault records -/

theorem queueFault_patrol {r : FaultRec} : PatrolFrame s (queueFault s r) := by
  have words (a : State) (f : Nat → BitVec 64) :
      PatrolFrame a ((List.range 4).foldl (fun a k => wr a (Reg.FLT_LAST k) (f k)) a) :=
    .foldl (fun _ _ => wr_patrol) _ _
  have queued : PatrolFrame s { s with fltQueue := s.fltQueue ++ [r] } := ⟨rfl, List.prefix_append _ _⟩
  exact .ite raise_patrol (.after setF_patrol (.after (words _ _) queued))

theorem flagClass_patrol {c : Nat} {lasting : Bool} : PatrolFrame s (flagClass s c lasting) := by
  unfold flagClass
  extract_lets s1
  have h1 : PatrolFrame s s1 := .ite raise_patrol (.ite raise_patrol (.ite raise_patrol (.ite raise_patrol (.refl _))))
  exact .ite (.after raise_patrol h1) h1

theorem recordFault_patrol {id c p x d : Nat} {lasting promoted : Bool} :
    PatrolFrame s (recordFault s id c lasting promoted p x d) := by
  unfold recordFault
  extract_lets s1
  have h1 : PatrolFrame s s1 := .ite bump_patrol (.refl _)
  exact .ite h1 (.after queueFault_patrol (.after flagClass_patrol h1))

theorem setCause_patrol {k : Nat} : PatrolFrame s (setCause s k) :=
  .ite setF_patrol (.after (.ite (.refl _) emit_patrol) setF_patrol)

/-! ### Pages and requests -/

theorem freeWhere_patrol {p : Nat} {f : PageUse → Bool} : PatrolFrame s (freeWhere s p f) :=
  .foldl (fun _ _ => setPage_patrol) _ _

theorem moveEntry_patrol {w : Bool} {i : Nat} : PatrolFrame s (moveEntry s w i) := by
  obtain ⟨f, r, l, h⟩ := touch_fields s .sys w (reserveAddr (reserveTable.1 + 256 * i)) 256
  rw [moveEntry, h]
  exact .of_core

theorem spillEntry_patrol : PatrolFrame s (spillEntry s) := by
  unfold spillEntry
  split
  · exact .refl _
  · split
    · exact .after bump_patrol (.after moveEntry_patrol .of_core)
    · exact .refl _

theorem useEntry_patrol {i : Nat} : PatrolFrame s (useEntry s i) := by
  unfold useEntry
  extract_lets s1 s2
  have h2 : PatrolFrame s s2 := .ite (.after bump_patrol (.after moveEntry_patrol spillEntry_patrol)) spillEntry_patrol
  exact .ite .of_core (.after (t := s2) .of_core h2)

theorem releaseShares_patrol {r : Req} : PatrolFrame s (releaseShares s r) := by
  unfold releaseShares
  split
  · exact .ite (.after lower_patrol (.after setCohort_patrol lower_patrol)) (.refl _)
  · exact .refl _

theorem releaseReq_patrol {i : Nat} {r : Req} : PatrolFrame s (releaseReq s i r) := by
  unfold releaseReq
  extract_lets p mine n s1 s2
  have h1 : PatrolFrame s s1 := .after credit_patrol freeWhere_patrol
  have h2 : PatrolFrame s s2 := .after credit_patrol h1
  refine .ite h1 ?_
  split
  · exact .after setReq_patrol h2
  · exact h2

theorem dropMember_patrol {i : Nat} {r : Req} : PatrolFrame s (dropMember s i r) := by
  unfold dropMember
  split
  · exact .refl _
  · exact .ite (.after showHold_patrol (.after setAdmQueue_patrol setCohort_patrol)) setCohort_patrol

theorem countEnd_patrol {r : Req} : PatrolFrame s (countEnd s r) := by
  unfold countEnd
  extract_lets s1 copying s2
  have h1 : PatrolFrame s s1 := .ite lower_patrol (.refl _)
  exact .after bump_patrol (.ite (.after lower_patrol (.after lower_patrol h1)) h1)

theorem noteEnded_patrol {i : Nat} {r : Req} : PatrolFrame s (noteEnded s i r) := by
  unfold noteEnded
  split
  · exact .of_core
  · exact .refl _

theorem leaveNext_patrol {p h : Nat} : PatrolFrame s (leaveNext s p h) := by
  unfold leaveNext
  dsimp only
  split
  · exact .refl _
  · exact .ite (.refl _) (.ite (.after setLane_patrol freeWhere_patrol) (.after setLane_patrol freeWhere_patrol))

theorem leaveLive_patrol {i code : Nat} {r : Req} {st : ReqState} {counted : Bool} :
    PatrolFrame s (leaveLive s i r st code counted) := by
  unfold leaveLive
  extract_lets s1 s2 s3 s4 s5 s6
  have h1 : PatrolFrame s s1 :=
    .after countEnd_patrol (.after releaseShares_patrol (.after leaveNext_patrol dropWaits_patrol))
  have h3 : PatrolFrame s s3 := .after noteEnded_patrol (.after dropMember_patrol (.after releaseReq_patrol h1))
  have h4 : PatrolFrame s s4 := by
    unfold s4
    split
    · exact .ite (.after bump_patrol h3) h3
    · exact h3
  have h6 : PatrolFrame s s6 := .after noteDue_patrol (.ite (.after bump_patrol h4) h4)
  split
  · exact .after setReq_patrol h6
  · exact h6

theorem endReq_patrol {i code : Nat} {st : ReqState} {silent : Bool} : PatrolFrame s (endReq s i st code silent) := by
  unfold endReq
  split
  · exact .refl _
  · extract_lets s6
    have h6 : PatrolFrame s s6 := .after leaveLive_patrol useEntry_patrol
    exact .ite (.refl _) (.ite (.ite h6 (.after freeEntryOf_patrol h6)) (.after queueRec_patrol h6))

theorem endCopies_patrol {i : Nat} : PatrolFrame s (endCopies s i) := by
  unfold endCopies
  split
  · exact .refl _
  · extract_lets s1 s2 due owed
    have h2 : PatrolFrame s s2 := .after credit_patrol (.after setReq_patrol freeWhere_patrol)
    exact .ite h2 (.after freeEntryOf_patrol h2)

theorem rejectCohort_patrol {co code : Nat} : PatrolFrame s (rejectCohort s co code) := by
  unfold rejectCohort
  split
  · exact .refl _
  · extract_lets s1 s2 s3 s4 s5
    have h1 : PatrolFrame s s1 := .foldl (fun _ _ => endReq_patrol) _ _
    have h3 : PatrolFrame s s3 :=
      .after showHold_patrol (.after bump_patrol (.after setAdmQueue_patrol (.after setCohort_patrol h1)))
    have h4 : PatrolFrame s s4 := .ite (.after raise_patrol h3) h3
    have h5 : PatrolFrame s s5 := .ite (.after raise_patrol h4) h4
    exact .ite (.after raise_patrol h5) h5

theorem rejectCopying_patrol {n : Nat} : PatrolFrame s (rejectCopying s n) := by
  refine .foldl (fun a e => ?_) _ _
  split
  · exact .ite rejectCohort_patrol (.refl _)
  · exact .refl _

/-! ### Trace and links -/

theorem lossRecord_patrol {p : Nat} : PatrolFrame s (lossRecord s p) := .ite setTrace_patrol (.refl _)

theorem traceRec_patrol {p k t : Nat} {bs : List Byte} : PatrolFrame s (traceRec s p k t bs) := by
  have lost (a : State) : PatrolFrame a (loseTrace a p t) := .after raise_patrol (.after bump_patrol setTrace_patrol)
  exact .ite (.refl _) (.ite (.after setTrace_patrol lossRecord_patrol) (.after (lost _) lossRecord_patrol))

theorem sendFlit_patrol {n : Nat} {u : State} (h : sendFlit s n = some u) : PatrolFrame s u := by
  have left (a : State) (k c : Nat) : PatrolFrame a (leaveBuffer a k c) := .ite .of_core (.refl _)
  unfold sendFlit at h
  dsimp only at h
  split at h
  · cases h
  · split at h
    · cases h
    · split at h
      · cases h
      · cases h
        exact .after (left _ _ _) (.after bump_patrol (.after emit_patrol setPort_patrol))

theorem pump_patrol {n fuel : Nat} : ∀ {s : State}, PatrolFrame s (pump n fuel s) := by
  induction fuel with
  | zero => exact .refl _
  | succ k ih =>
    intro s
    unfold pump
    split
    · next h => exact .after ih (sendFlit_patrol h)
    · exact .refl _

theorem sendFlits_patrol {n : Nat} {fs : List Flit} : PatrolFrame s (sendFlits s n fs).1 := by
  unfold sendFlits
  dsimp only
  split
  · exact .refl _
  · split
    · exact .after pump_patrol (.after setPort_patrol setPort_patrol)
    · exact .after raise_patrol bumpSat_patrol

theorem sendBare_patrol {n : Nat} {m : LinkMsg} : PatrolFrame s (sendBare s n m) := by
  unfold sendBare
  extract_lets no fs s1 e
  have h : PatrolFrame s e.1 := .after sendFlits_patrol .of_core
  split
  · exact .after emit_patrol h
  · exact h

theorem launch_patrol {p g tag n no : Nat} {m : LinkMsg} : PatrolFrame s (launch s p g tag n no m).1 := by
  unfold launch
  dsimp only
  split
  · exact sendFlits_patrol
  · exact .after emit_patrol (.ite (.after traceRec_patrol sendFlits_patrol) sendFlits_patrol)

theorem sendMsg_patrol {p g tag n : Nat} {m : LinkMsg} : PatrolFrame s (sendMsg s p g tag n m) := by
  have charged (a : State) (k b : Nat) : PatrolFrame a (chargeOnly a p k b) := .ite setF_patrol (.refl _)
  unfold sendMsg
  extract_lets ft e
  have h : PatrolFrame s e.1 := .after launch_patrol .of_core
  exact .ite (.after (charged _ _ _) h) h

/-- A group hears that this device has left it. -/
theorem leaving_patrol (x : Group) (n : Nat) :
    PatrolFrame s (x.peers.foldl (fun a q => sendBare a q.node (.leave (gidOf s n))) s) :=
  .foldl (fun _ _ => sendBare_patrol) _ _

/-! ### Steps -/

theorem discardStep_patrol {p : Nat} {st : Step} : PatrolFrame s (discardStep s p st) := by
  have returned (a : State) : PatrolFrame a (returnPeerPages a st) := by
    unfold returnPeerPages mapPeers
    split
    · split
      · exact setGroup_patrol
      · exact .refl _
    · exact .refl _
  exact .after (returned _) freeWhere_patrol

theorem raiseAbandon_patrol {p g : Nat} : PatrolFrame s (raiseAbandon s p g) := by
  have groves (a : State) (x : Nat) : PatrolFrame a (setGroves a p x) := .foldl (fun _ _ => setF_patrol) _ _
  exact .after setLane_patrol (.after (groves _ _) (t := killClusters s p fun _ => true) .of_core)

theorem abandonGroup_patrol {p : Nat} {st : Step} : PatrolFrame s (abandonGroup s p st) := by
  unfold abandonGroup
  split
  · exact .refl _
  · exact .ite (.refl _) (.after setLane_patrol (.foldl (fun _ _ => sendMsg_patrol) _ _))

theorem dropSteps_patrol {p : Nat} {f : Nat → Bool} : PatrolFrame s (dropSteps s p f) := by
  unfold dropSteps
  extract_lets l gone s1 held _ l1 s2 s3
  have h2 : PatrolFrame s s2 := .after setLane_patrol (.foldl (fun _ _ => discardStep_patrol) _ _)
  have h3 : PatrolFrame s s3 := by
    unfold s3
    split
    · exact .after abandonGroup_patrol h2
    · exact h2
  exact .ite (.after clearCur_patrol (.after raiseAbandon_patrol h3)) h2

/-! ### Models and contexts -/

theorem freeDraftPages_patrol {p i : Nat} {r : Req} : PatrolFrame s (freeDraftPages s p i r) := by
  have slots (a : State) : PatrolFrame a (freeDraftSlots a i) := by
    unfold freeDraftSlots
    split
    · exact .after credit_patrol setReq_patrol
    · exact .refl _
  unfold freeDraftPages
  extract_lets mine s1
  have h1 : PatrolFrame s s1 := .after credit_patrol freeWhere_patrol
  exact .ite h1 (.after (slots _) h1)

theorem endPair_patrol {g : Nat} : PatrolFrame s (endPair s g) := by
  unfold endPair
  split
  · extract_lets p n s1 s2
    have h1 : PatrolFrame s s1 := by
      refine .foldl (fun a e => .ite ?_ (.refl _)) _ _
      extract_lets a1
      split
      · exact .after setReq_patrol freeDraftPages_patrol
      · exact freeDraftPages_patrol
    have h2 : PatrolFrame s s2 := .after setF_patrol (.after setCtx_patrol h1)
    clear_value s2
    split
    · exact h2
    · exact .after setF_patrol (.after setF_patrol (.after setF_patrol (.after setF_patrol (.after setF_patrol
        (.after setCtx_patrol h2)))))
  · exact .refl _

theorem evictSlot_patrol {n : Nat} : PatrolFrame s (evictSlot s n) := by
  have forgotten (a : State) (g : Nat) : PatrolFrame a (forgetOwner a g) :=
    .foldl (fun _ _ => .ite setPage_patrol (.refl _)) _ _
  unfold evictSlot
  extract_lets p gs s1 s2 s3 s4 code s5
  have h1 : PatrolFrame s s1 := by
    refine .foldl (fun a g => ?_) _ _
    split
    · exact endPair_patrol
    · exact endPair_patrol
  have h2 : PatrolFrame s s2 := .after dropWaits_patrol (.after rejectCopying_patrol h1)
  have h3 : PatrolFrame s s3 :=
    .after (.foldl (fun _ _ => .after clearCtxRegs_patrol (.after setCtx_patrol dropSteps_patrol)) _ _) h2
  have h4 : PatrolFrame s s4 := .after (.foldl (fun _ _ => forgotten _ _) _ _) (.after freeWhere_patrol h3)
  exact .after setF_patrol (.after (.foldl (fun _ _ => resetReg_patrol) _ _) (.after setSlot_patrol h4))

theorem evictModel_patrol {n : Nat} : PatrolFrame s (evictModel s n) := by
  have cleared (a : State) : PatrolFrame a (clearGroup a n) := .after (.foldl (fun _ _ => resetReg_patrol) _ _) setGroup_patrol
  exact .after raise_patrol (.after (cleared _) evictSlot_patrol)

theorem stopCtx_patrol {g code : Nat} : PatrolFrame s (stopCtx s g code) :=
  .after (.foldl (fun _ _ => endReq_patrol) _ _) dropSteps_patrol

theorem loseGroup_patrol {n code : Nat} {detected : Bool} : PatrolFrame s (loseGroup s n code detected) := by
  unfold loseGroup
  split
  · exact .refl _
  · next x _ =>
    extract_lets p c s1 s2 _ s2b s3 s4
    have h2 : PatrolFrame s s2 := .after (.foldl (fun _ _ => stopCtx_patrol) _ _) (leaving_patrol x n)
    have h2b : PatrolFrame s s2b := .after freeWhere_patrol (.after setLane_patrol h2)
    have h3 : PatrolFrame s s3 := .after raise_patrol (.after evictSlot_patrol (.after setGroup_patrol h2b))
    have h4 : PatrolFrame s s4 := .after raise_patrol (.after setF_patrol h3)
    exact .ite (.after recordFault_patrol h4) h4

theorem evictWhole_patrol {n code : Nat} : PatrolFrame s (evictWhole s n code) := by
  unfold evictWhole
  split
  · exact loseGroup_patrol
  · split
    · exact .after evictModel_patrol (leaving_patrol _ n)
    · exact evictModel_patrol

theorem forceEvict_patrol {n : Nat} : PatrolFrame s (forceEvict s n) := by
  unfold forceEvict
  extract_lets s1
  have h1 : PatrolFrame s s1 := .foldl (fun _ _ => .ite (.refl _) stopCtx_patrol) _ _
  exact .ite (.after evictWhole_patrol h1) h1

theorem afterLeave_patrol {g : Nat} : PatrolFrame s (afterLeave s g) := by
  unfold afterLeave
  split
  · exact .refl _
  · extract_lets s1 dslot go
    have h1 : PatrolFrame s s1 := .ite endPair_patrol (.refl _)
    have hgo (a : State) (n : Nat) : PatrolFrame a (go a n) := by
      unfold go
      split
      · exact .ite forceEvict_patrol (.refl _)
      · exact .refl _
    clear_value dslot
    split
    · exact .after (hgo ..) (.after (hgo ..) h1)
    · exact .after (hgo ..) h1

theorem teardownCtx_patrol {g code : Nat} : PatrolFrame s (teardownCtx s g code) := by
  have again (a : State) (x : Nat) : PatrolFrame a (recreateCtx a x) := by
    unfold recreateCtx
    split
    · exact .after setF_patrol (.after setF_patrol setCtx_patrol)
    · exact .refl _
  unfold teardownCtx
  dsimp only
  split
  · exact .after (again _ _) (.after (again _ _) stopCtx_patrol)
  · exact .after (again _ _) stopCtx_patrol

theorem contextFault_patrol {id g d : Nat} {lasting : Bool} : PatrolFrame s (contextFault s id g d lasting) := by
  have torn (a : State) (t : Nat) : PatrolFrame a (tearFaulted a t) := by
    unfold tearFaulted
    dsimp only
    split
    · exact .refl _
    · split
      · exact .refl _
      · exact .ite loseGroup_patrol (.after afterLeave_patrol teardownCtx_patrol)
  exact .after (torn _ _) recordFault_patrol

/-! ### The chip stops -/

theorem answer_patrol {c : MbxCmd} {result : Nat} {resp : List Byte} : PatrolFrame s (answer s c result resp) := by
  have area (a : State) : PatrolFrame a ((numbered 0 resp).foldl (fun a e =>
      setF a ⟨Reg.MGT_MBX_AREA (16 + e.1 / 4), 8 * (e.1 % 4), 8⟩ e.2.toNat) a) := .foldl (fun _ _ => setF_patrol) _ _
  exact .ite .of_core (.after raise_patrol (.after setF_patrol (.after (area _) .of_core)))

theorem settleFor_patrol {n : Nat} : ∀ {s : State}, PatrolFrame s (settleFor n s) := by
  induction n with
  | zero => exact .refl _
  | succ k ih =>
    intro s
    unfold settleFor
    split
    · exact .refl _
    · split
      · exact .refl _
      · exact .after ih answer_patrol

theorem abortCmd_patrol : PatrolFrame s (abortCmd s) := by
  have ready (a : State) : PatrolFrame a (fallReady a) := .ite setF_patrol (.refl _)
  unfold abortCmd
  split
  · exact .after (ready _) (.after settleFor_patrol answer_patrol)
  · exact .refl _

theorem closeUpdate_patrol : PatrolFrame s (closeUpdate s) := by
  have spoilt : PatrolFrame s (spoilSlot s) := by
    unfold spoilSlot
    split
    · exact .refl _
    · extract_lets e d _
      have hd : PatrolFrame s d.2 := .after .of_core (.foldl (fun _ _ => garbleFlash_patrol) _ _)
      exact .ite (.refl _) (.after (t := d.2) .of_core hd)
  exact .after (t := spoilSlot s) .of_core spoilt

theorem updatePred_patrol : PatrolFrame s (updatePred s) := by
  unfold updatePred
  extract_lets q dyn s0 pr s1 s2
  exact .after (.foldl (fun _ _ => setF_patrol) _ _) (.after setF_patrol (.after setF_patrol .of_core))

theorem leaveGroups_patrol : PatrolFrame s (leaveGroups s) := by
  refine .foldl (fun a n => ?_) _ _
  split
  · exact .foldl (fun _ _ => sendBare_patrol) _ _
  · exact .refl _

theorem stopChip_patrol {id : Nat} : PatrolFrame s (stopChip s id) := by
  unfold stopChip
  extract_lets second s1 s2 _ s3
  have h1 : PatrolFrame s s1 := .after (.foldl (fun _ _ => dropSteps_patrol) _ _) leaveGroups_patrol
  have h2 : PatrolFrame s s2 := .after setCause_patrol (.after setF_patrol h1)
  have h3 : PatrolFrame s s3 := .after updatePred_patrol (.after (t := s2) .of_core h2)
  exact .ite (.refl _) (.after abortCmd_patrol (.after closeUpdate_patrol h3))

/-! ### A lasting error -/

theorem listRetired_patrol {x : Nat} : PatrolFrame s (listRetired s x) := by
  unfold listRetired
  extract_lets s1
  have h1 : PatrolFrame s s1 := raise_patrol
  exact .ite (.after raise_patrol (.after (t := s1) .of_core h1)) (.after (t := s1) .of_core h1)

theorem retirePage_patrol {p i : Nat} : PatrolFrame s (retirePage s p i) := by
  unfold retirePage
  dsimp only
  split
  · exact setPage_patrol
  · split
    · exact .after credit_patrol setPage_patrol
    · exact .after credit_patrol setPage_patrol
    · exact .ite (.after credit_patrol (.after setReq_patrol setPage_patrol)) setPage_patrol
    · exact setPage_patrol

theorem abandonCopies_patrol {u : PageUse} : PatrolFrame s (abandonCopies s u) := by
  unfold abandonCopies
  split
  · split
    · exact .ite (.after endCopies_patrol dropWaits_patrol) (.refl _)
    · exact .refl _
  · exact .refl _

theorem arenaFault_patrol {p i x : Nat} : PatrolFrame s (arenaFault s p i x) := by
  have retired : PatrolFrame s (retirePage (listRetired s x) p i) := .after retirePage_patrol listRetired_patrol
  unfold arenaFault
  dsimp only
  split
  · exact recordFault_patrol
  · exact .after recordFault_patrol retired
  · have recorded (l : List Nat) : PatrolFrame s (l.foldl
        (fun a g => recordFault a 0x06 2 true false p (ctxLocal g) (memDetail x)) (retirePage (listRetired s x) p i)) :=
      .after (.foldl (fun _ _ => recordFault_patrol) _ _) retired
    exact .ite (.after evictWhole_patrol (.after (.foldl (fun _ _ => stopCtx_patrol) _ _) (recorded _))) (recorded _)
  · split
    · exact .after abandonCopies_patrol (.after contextFault_patrol retired)
    · exact .after recordFault_patrol retired

theorem lastingRead_patrol {x : Nat} : PatrolFrame s (lastingRead s x) := by
  unfold lastingRead
  extract_lets s1
  have h1 : PatrolFrame s s1 := .after setF_patrol raise_patrol
  have listed : PatrolFrame s (listRetired s1 x) := .after listRetired_patrol h1
  clear_value s1
  split
  · exact .after stopChip_patrol (.after recordFault_patrol h1)
  · split
    · exact .after recordFault_patrol listed
    · split
      · exact h1
      · split
        · exact .after recordFault_patrol (.after raise_patrol (.after setTrace_patrol listed))
        · split
          · split
            · exact .after contextFault_patrol listed
            · exact .after recordFault_patrol listed
          · exact .after arenaFault_patrol h1

end Sys2Proof.Machine
end

section
set_option Elab.async false
/-! ## The patrol reads a word (R203 to R208, R228) -/
namespace Sys2Proof.Machine

/-! ### What a record and a flag of memory may write -/

/-- A register of the fault collector, MEM_EVT_STATUS or MEM_ERR_ADDR. -/
def faultReg (k : Nat) : Bool := k / 0x100000 == 14 || k == Reg.MEM_EVT_STATUS || k == Reg.MEM_ERR_ADDR

theorem faultReg_eq_false {k : Nat} : faultReg k = false ↔ k / 0x100000 ≠ 14 ∧ k ≠ 0xA00010 ∧ k ≠ 0xA00020 := by
  simp [faultReg, and_assoc]

/-- From `s` to `u` no page, no partition, no entry of the retired-page list and no other register has changed. -/
structure Noted (s u : State) : Prop where
  tables : (u.pages, u.parts, u.retired) = (s.pages, s.parts, s.retired)
  regs : ∀ k, faultReg k = false → rd u k = rd s k

namespace Noted
variable {s t u : State}

theorem refl (s : State) : Noted s s := ⟨rfl, fun _ _ => rfl⟩

/-- The last operation first. -/
theorem after (g : Noted t u) (h : Noted s t) : Noted s u :=
  ⟨g.tables.trans h.tables, fun k n => (g.regs k n).trans (h.regs k n)⟩

theorem ite {P : Prop} [Decidable P] (h : Noted s t) (g : Noted s u) : Noted s (if P then t else u) := by
  split
  · exact h
  · exact g

theorem wr {k : Nat} {v : BitVec 64} (h : faultReg k = true) : Noted s (wr s k v) :=
  ⟨rfl, fun j n => rd_wr_other s v fun e => by rw [e, h] at n; cases n⟩

theorem setF {f : Fld} {x : Nat} (h : faultReg f.key = true) : Noted s (setF s f x) := wr h

theorem raise {f : Fld} (h : faultReg f.key = true) : Noted s (raise s f) := by
  obtain ⟨-, hr⟩ := setF (s := s) (x := 1) h
  rw [raise_fields]
  exact ⟨rfl, hr⟩

theorem getF (h : Noted s u) {f : Fld} (n : faultReg f.key = false) : getF u f = getF s f := by
  unfold Machine.getF
  rw [h.regs _ n]

theorem page (h : Noted s u) (p i : Nat) : page u p i = page s p i := by
  unfold Machine.page
  rw [show u.pages = s.pages from congrArg Prod.fst h.tables]

theorem part (h : Noted s u) (p : Nat) : part u p = part s p := by
  unfold Machine.part
  rw [show u.parts = s.parts from congrArg (fun v => v.2.1) h.tables]

theorem retired (h : Noted s u) : u.retired = s.retired := congrArg (fun v => v.2.2) h.tables

theorem groveOwner (h : Noted s u) (g : Nat) : groveOwner u g = groveOwner s g := by
  have key : faultReg (Reg.GRV_STATUS g) = false := faultReg_eq_false.mpr (by unfold Reg.GRV_STATUS; omega)
  unfold Machine.groveOwner isSet
  rw [h.getF key, h.getF key]

theorem partAddr (h : Noted s u) (p x : Nat) : partAddr u p x = partAddr s p x := by
  have key : faultReg (Reg.PRT_PART_CFG p) = false := faultReg_eq_false.mpr (by unfold Reg.PRT_PART_CFG; omega)
  unfold Machine.partAddr channels grovesOf firstGrove
  rw [h.getF key, h.getF key]

theorem arenaBase (h : Noted s u) (p : Nat) : arenaBase u p = arenaBase s p := by
  have key : faultReg (Reg.MEM_PART_SAVE p) = false := faultReg_eq_false.mpr (by unfold Reg.MEM_PART_SAVE; omega)
  unfold Machine.arenaBase saveUnits
  rw [h.part, h.getF key]

end Noted

variable {s : State} {w x : Nat} {e : EccRead}

theorem recordFault_noted {id c p g d : Nat} {lasting promoted : Bool} :
    Noted s (recordFault s id c lasting promoted p g d) := by
  have flag (a : State) (n k : Nat) : Noted a (raise a ⟨Reg.FLT_STATUS, n, k⟩) :=
    .raise (show faultReg Reg.FLT_STATUS = true by decide)
  have flagged (a : State) : Noted a (flagClass a c lasting) :=
    have h := Noted.ite (flag _ _ _) (.ite (flag _ _ _) (.ite (flag _ _ _) (.ite (flag _ _ _) (.refl a))))
    .ite (.after (flag _ _ _) h) h
  have words (a : State) (f : Nat → BitVec 64) : Noted a ((List.range 4).foldl (fun a k => wr a (Reg.FLT_LAST k) (f k)) a) :=
    .after (.wr (by decide)) (.after (.wr (by decide)) (.after (.wr (by decide)) (.wr (by decide))))
  have queued (a : State) (r : FaultRec) : Noted a (queueFault a r) :=
    .ite (flag _ _ _) (.after (.setF (by decide)) (.after (words _ _) ⟨rfl, fun _ _ => rfl⟩))
  have key : faultReg (Reg.FLT_CNT c) = true := by
    simp only [faultReg, Bool.or_eq_true, beq_iff_eq, Reg.FLT_CNT]
    omega
  have counted : Noted s (if c ≤ 4 then bump s (Reg.FLT_CNT_COUNT c) 1 else s) := .ite (.setF key) (.refl s)
  exact .ite counted (.after (queued _ _) (.after (flagged _) counted))

/-- A record that finds room stands in the queue with the collector's time. -/
theorem recordFault_recorded {id c p g d : Nat} {lasting promoted : Bool} (hc : c ≠ 0) (room : s.fltQueue.length < 16) :
    Recorded s (recordFault s id c lasting promoted p g d) id := by
  unfold recordFault
  extract_lets s1
  have hq : s1.fltQueue = s.fltQueue := by unfold s1; split <;> rfl
  have ht : s1.aTime = s.aTime := by unfold s1; split <;> rfl
  rw [if_neg hc, Recorded, queueFault_queue (by rwa [flagClass_frame.faults, hq])]
  exact ⟨_, List.mem_append_right _ (List.mem_singleton_self _), rfl, ht⟩

/-- Of the earlier state the collector's time counts alone. -/
theorem Recorded.of_aTime {t u : State} {id : Nat} (k : Recorded t u id) (h : t.aTime = s.aTime) : Recorded s u id := by
  obtain ⟨r, hr, hid, ht⟩ := k
  exact ⟨r, hr, hid, ht.trans h⟩

theorem getF_bumpSat_same {f : Fld} {n : Nat} (h : f.lo + f.w ≤ 64) :
    getF (bumpSat s f n) f = min (2 ^ f.w - 1) (getF s f + n) := by
  rw [bumpSat, getF_setF_same _ _ _ h, Nat.mod_eq_of_lt]
  have := Nat.two_pow_pos f.w
  omega

theorem eccCnt_not_faultReg {c : Nat} : faultReg (Reg.MEM_ECC_CNT c) = false :=
  faultReg_eq_false.mpr (by unfold Reg.MEM_ECC_CNT; omega)

/-! ### A read, by the symbols it meets -/

theorem dramRead_corrected (h : max e.first (eccAt s (x / 32)) = 1) : dramRead s x e =
    recordFault (bumpSat (setEcc s (x / 32) 1) (Reg.MEM_ECC_CNT_CORRECTED (x / 2 ^ 31)) 1) 0x04 0 false false
      (memPart s x) nobody 0 := by
  simp [dramRead, h]

theorem dramRead_transient (h : 2 ≤ max e.first (eccAt s (x / 32))) (k : max e.retry (eccAt s (x / 32)) ≤ 1) :
    dramRead s x e = recordFault (raise (bumpSat (setEcc s (x / 32) (max e.retry (eccAt s (x / 32))))
      (Reg.MEM_ECC_CNT_TRANSIENT (x / 2 ^ 31)) 1) Reg.MEM_EVT_STATUS_UNCORR_TRANSIENT) 0x05 1 false false
      (memPart s x) nobody (memDetail x) := by
  rw [dramRead, if_neg (by omega), if_neg (by omega), if_pos k]

theorem dramRead_lasting (h : 2 ≤ max e.first (eccAt s (x / 32))) (k : 2 ≤ max e.retry (eccAt s (x / 32))) :
    dramRead s x e = lastingRead (setEcc s (x / 32) (max e.retry (eccAt s (x / 32)))) x := by
  rw [dramRead, if_neg (by omega), if_neg (by omega), if_neg (by omega)]

/-- Whatever a read meets, its consequences leave the patrol and memory alone, but for the symbols of the word. -/
theorem dramRead_patrol : ∃ l, PatrolFrame { s with ecc := l } (dramRead s x e) := by
  obtain h | h | h : max e.first (eccAt s (x / 32)) = 0 ∨ max e.first (eccAt s (x / 32)) = 1 ∨
      2 ≤ max e.first (eccAt s (x / 32)) := by omega
  · rw [dramRead, if_pos h]
    exact ⟨s.ecc, .refl s⟩
  · rw [dramRead_corrected h]
    exact ⟨_, .after recordFault_patrol bumpSat_patrol⟩
  · obtain k | k := Nat.lt_or_ge 1 (max e.retry (eccAt s (x / 32)))
    · rw [dramRead_lasting h k]
      exact ⟨_, lastingRead_patrol⟩
    · rw [dramRead_transient h k]
      exact ⟨_, .after recordFault_patrol (.after raise_patrol bumpSat_patrol)⟩

/-- One symbol stands until the word is written; the channel has counted it (R204). -/
theorem dramRead_corrected_leaves (h : max e.first (eccAt s (x / 32)) = 1) : eccAt (dramRead s x e) (x / 32) = 1 ∧
    getF (dramRead s x e) (Reg.MEM_ECC_CNT_CORRECTED (x / 2 ^ 31)) =
      min 65535 (getF s (Reg.MEM_ECC_CNT_CORRECTED (x / 2 ^ 31)) + 1) := by
  rw [dramRead_corrected h, recordFault_patrol.eccAt, recordFault_noted.getF eccCnt_not_faultReg, bumpSat_patrol.eccAt,
    eccAt_setEcc, if_pos rfl, getF_bumpSat_same (show 0 + 16 ≤ 64 by decide)]
  exact ⟨rfl, rfl⟩

/-- The channel has counted a retry that succeeds, and its record stands (R205). -/
theorem dramRead_transient_leaves (h : 2 ≤ max e.first (eccAt s (x / 32))) (k : max e.retry (eccAt s (x / 32)) ≤ 1)
    (room : s.fltQueue.length < 16) : eccAt (dramRead s x e) (x / 32) ≤ 1 ∧ Recorded s (dramRead s x e) 0x05 ∧
    getF (dramRead s x e) (Reg.MEM_ECC_CNT_TRANSIENT (x / 2 ^ 31)) =
      min 65535 (getF s (Reg.MEM_ECC_CNT_TRANSIENT (x / 2 ^ 31)) + 1) := by
  have flag (a : State) : Noted a (raise a Reg.MEM_EVT_STATUS_UNCORR_TRANSIENT) := .raise (by decide)
  rw [dramRead_transient h k]
  refine ⟨?_, ?_, ?_⟩
  · rw [recordFault_patrol.eccAt, raise_patrol.eccAt, bumpSat_patrol.eccAt, eccAt_setEcc, if_pos rfl]
    exact k
  · refine (recordFault_recorded (by decide) ?_).of_aTime (raise_patrol.after bumpSat_patrol).aTime
    rwa [raise_fields]
  · rw [recordFault_noted.getF eccCnt_not_faultReg, (flag _).getF eccCnt_not_faultReg,
      getF_bumpSat_same (show 16 + 16 ≤ 64 by decide)]
    rfl

/-! ### What a lasting error leaves -/

/-- UNCORR_LASTING and MEM_ERR_ADDR (R205). -/
abbrev lastingNoted (s : State) (x : Nat) : State := setF (raise s Reg.MEM_EVT_STATUS_UNCORR_LASTING) Reg.MEM_ERR_ADDR_PHYS x

theorem lastingNoted_noted : Noted s (lastingNoted s x) := .after (.setF (by decide)) (.raise (by decide))

theorem lastingNoted_patrol : PatrolFrame s (lastingNoted s x) := .after setF_patrol raise_patrol

theorem lastingNoted_fltQueue : (lastingNoted s x).fltQueue = s.fltQueue := by
  rw [lastingNoted, setF_fltQueue, raise_fields]

/-- In the system reserve the chip stops, with its record (R228). -/
theorem lastingRead_reserve (h : 0x7F000000 ≤ x % 2 ^ 31) (room : s.fltQueue.length < 16) :
    Recorded s (lastingRead s x) 0x08 := by
  rw [lastingRead, if_pos h, chipFault]
  exact (stopChip_patrol.recorded (recordFault_recorded (by decide) (by rwa [lastingNoted_fltQueue]))).of_aTime
    lastingNoted_patrol.aTime

/-- With room in the list, the page's address joins it (R208). -/
theorem listRetired_room (h : s.retired.length < 1024) : (listRetired s x).retired = s.retired ++ [x] ∧
    (listRetired s x).pages = s.pages ∧ (listRetired s x).fltQueue = s.fltQueue := by
  unfold listRetired
  rw [raise_fields]
  dsimp only
  rw [if_neg (Nat.not_le.mpr h)]
  exact ⟨rfl, rfl, rfl⟩

/-- A FREE page is retired, and charged to nobody (R207). -/
theorem retirePage_free {p i : Nat} (h : (page s p i).use = .free) : retirePage s p i = reusePage s p i .retired := by
  simp [retirePage, h, useReq]

/-- The partition address lies past the trace buffers and the save region (R196). -/
theorem lastingRead_arena {p y : Nat} (hres : x % 2 ^ 31 < 0x7F000000) (hown : groveOwner s (x / 2 ^ 32) = some p)
    (hy : partAddr s p x = some y) (hbase : arenaBase s p ≤ y) :
    lastingRead s x = arenaFault (lastingNoted s x) p ((y - arenaBase s p) / 65536) x := by
  have noted : Noted s (lastingNoted s x) := lastingNoted_noted
  have trace : ¬ y < 2 ^ 20 * (part s p).traceMib := by
    have : 2 ^ 20 * (part s p).traceMib ≤ arenaBase s p := Nat.le_add_right _ _
    omega
  simp only [lastingRead, if_neg (Nat.not_le.mpr hres), noted.groveOwner, hown, noted.partAddr, hy, noted.part, if_neg trace,
    noted.arenaBase, if_neg (Nat.not_lt.mpr hbase)]

/-- A FREE page with room in the list and in the queue is retired, with its record (R228, Table 06.6). -/
theorem arenaFault_free {p i : Nat} (hfree : (page s p i).use = .free) (hlist : s.retired.length < 1024)
    (room : s.fltQueue.length < 16) : (page (arenaFault s p i x) p i).use = .retired ∧ x ∈ (arenaFault s p i x).retired ∧
      Recorded s (arenaFault s p i x) 0x07 := by
  obtain ⟨retired, pages, queue⟩ := listRetired_room (x := x) hlist
  have free : (page (listRetired s x) p i).use = .free := by
    unfold page
    rwa [pages]
  have fault : arenaFault s p i x = recordFault (reusePage (listRetired s x) p i .retired) 0x07 1 true false p nobody
      (memDetail x) := by
    simp only [arenaFault, hfree, retirePage_free free]
  have record := recordFault_noted (s := reusePage (listRetired s x) p i .retired) (id := 0x07) (c := 1) (p := p) (g := nobody)
    (d := memDetail x) (lasting := true) (promoted := false)
  rw [fault, record.page, record.retired]
  refine ⟨by rw [reusePage, page_setPage_same], ?_, ?_⟩
  · rw [reusePage, setPage_retired, retired]
    exact List.mem_append_right _ (List.mem_singleton_self _)
  · refine (recordFault_recorded (by decide) ?_).of_aTime (setPage_patrol.after listRetired_patrol).aTime
    rwa [reusePage, setPage_fltQueue, queue]

/-- A lasting error in a FREE arena page. -/
theorem lastingRead_freePage {p y : Nat} (hres : x % 2 ^ 31 < 0x7F000000) (hown : groveOwner s (x / 2 ^ 32) = some p)
    (hy : partAddr s p x = some y) (hbase : arenaBase s p ≤ y)
    (hfree : (page s p ((y - arenaBase s p) / 65536)).use = .free) (hlist : s.retired.length < 1024)
    (room : s.fltQueue.length < 16) : (page (lastingRead s x) p ((y - arenaBase s p) / 65536)).use = .retired ∧
      x ∈ (lastingRead s x).retired ∧ Recorded s (lastingRead s x) 0x07 := by
  have noted : Noted s (lastingNoted s x) := lastingNoted_noted
  rw [lastingRead_arena hres hown hy hbase]
  obtain ⟨hp, hr, hrec⟩ := arenaFault_free (s := lastingNoted s x) (x := x) (by rwa [noted.page]) (by rwa [noted.retired])
    (by rwa [lastingNoted_fltQueue])
  exact ⟨hp, hr, hrec.of_aTime lastingNoted_patrol.aTime⟩

/-! ### The turn of a word -/

/-- The patrol reads word `w` next, and stands at the one after it. -/
def atWord (s : State) (w : Nat) : State := { s with scrub := { (nextPass s).scrub with next := w + 1 } }

/-- What the read leaves is written back with its ECC anew, if one symbol is erroneous (R206). -/
def writtenBack (s : State) (w : Nat) : State := if eccAt s w = 1 then setEcc s w 0 else s

/-- The pass that begins, if one is due, moves the patrol alone. -/
theorem atWord_eq (s : State) (w : Nat) :
    { nextPass s with scrub := { (nextPass s).scrub with next := w + 1 } } = atWord s w := by
  unfold atWord nextPass
  split <;> rfl

theorem scrubWord_next (h : (nextPass s).scrub.next = w) :
    scrubWord s w e = writtenBack (dramRead (atWord s w) (32 * w) e) w := by
  rw [scrubWord, if_neg (by simpa using h), atWord_eq]
  rfl

theorem eccAt_writtenBack (h : eccAt s w ≤ 1) : eccAt (writtenBack s w) w = 0 := by
  unfold writtenBack
  split
  · rw [eccAt_setEcc, if_pos rfl]
  · omega

theorem writtenBack_clean (h : eccAt s w = 0) : writtenBack s w = s := if_neg (by omega)

/-- A word that is written back leaves everything but its symbols alone. -/
theorem writtenBack_ecc (s : State) (w : Nat) : ∃ l, writtenBack s w = { s with ecc := l } := by
  unfold writtenBack
  split
  · exact ⟨_, rfl⟩
  · exact ⟨s.ecc, rfl⟩

@[simp] theorem writtenBack_scrub : (writtenBack s w).scrub = s.scrub := by
  obtain ⟨l, h⟩ := writtenBack_ecc s w
  rw [h]

@[simp] theorem writtenBack_fltQueue : (writtenBack s w).fltQueue = s.fltQueue := by
  obtain ⟨l, h⟩ := writtenBack_ecc s w
  rw [h]

@[simp] theorem writtenBack_retired : (writtenBack s w).retired = s.retired := by
  obtain ⟨l, h⟩ := writtenBack_ecc s w
  rw [h]

@[simp] theorem loadByte_writtenBack (a : Nat) : loadByte (writtenBack s w) a = loadByte s a := by
  obtain ⟨l, h⟩ := writtenBack_ecc s w
  rw [h]
  rfl

@[simp] theorem page_writtenBack (p i : Nat) : page (writtenBack s w) p i = page s p i := by
  obtain ⟨l, h⟩ := writtenBack_ecc s w
  rw [h]
  rfl

@[simp] theorem getF_writtenBack (f : Fld) : getF (writtenBack s w) f = getF s f := by
  obtain ⟨l, h⟩ := writtenBack_ecc s w
  rw [h]
  rfl

theorem recorded_writtenBack {t : State} {id : Nat} : Recorded t (writtenBack s w) id ↔ Recorded t s id := by
  simp [Recorded]

theorem scrubRead_answers {P : State → Prop} (hwf : (Instr.scrubRead x e).wf = true) (ht : s.boot.trained = true)
    (h : P (scrubWord s (x / 32) e)) : Answers (.scrubRead x e) s P := by
  have low : x < 2 ^ 36 := of_decide_eq_true hwf
  refine ⟨_, ?_, h⟩
  show execScrubRead x e s = _
  rw [execScrubRead, if_pos ⟨ht, low⟩]

end Sys2Proof.Machine

namespace Sys2Proof
open Machine

/-- Settles O17: the read's own word decides what it leaves (its ECC symbols first, then the region of a lasting error),
and none of the consequences moves the patrol. -/
theorem scrubReadsAreTreatedByTheirEcc : Obligations.ScrubReadsAreTreatedByTheirEcc := by
  unfold Obligations.ScrubReadsAreTreatedByTheirEcc
  intro s x e hwf ht a w n m ch
  have hw : 32 * w / 32 = w := Nat.mul_div_cancel_left w (by decide)
  refine ⟨fun other => scrubRead_answers hwf ht ?_, fun turn => scrubRead_answers hwf ht ?_⟩
  · rw [scrubWord, if_pos other]
  obtain ⟨l, frame⟩ := dramRead_patrol (s := atWord s w) (x := 32 * w) (e := e)
  have first : max e.first (eccAt (atWord s w) (32 * w / 32)) = n := by rw [hw]; rfl
  have retry : max e.retry (eccAt (atWord s w) (32 * w / 32)) = m := by rw [hw]; rfl
  have mem : SameMem s (writtenBack (dramRead (atWord s w) (32 * w) e) w) := fun b => by
    rw [loadByte_writtenBack, frame.mem]
    rfl
  have lasting (two : 2 ≤ n) (high : 2 ≤ m) :
      dramRead (atWord s w) (32 * w) e = lastingRead (setEcc (atWord s w) w m) (32 * w) := by
    rw [dramRead_lasting (by rwa [first]) (by rwa [retry]), retry, hw]
  rw [scrubWord_next turn]
  refine ⟨?_, fun clean => ?_, fun one => ?_, fun two low room => ?_, fun two high room reserve => ?_,
    fun p y two high outside owner addr base free list room => ?_⟩
  · rw [writtenBack_scrub, frame.scrub]
    rfl
  · have sound : eccAt (atWord s w) w = 0 := Nat.le_zero.mp (clean ▸ Nat.le_max_right _ _)
    rw [dramRead, if_pos (first.trans clean), writtenBack_clean sound, ← atWord_eq]
  · obtain ⟨ecc, count⟩ := dramRead_corrected_leaves (first.trans one)
    rw [hw] at ecc
    rw [getF_writtenBack]
    exact ⟨eccAt_writtenBack ecc.le, mem, count⟩
  · obtain ⟨ecc, record, count⟩ := dramRead_transient_leaves (s := atWord s w) (x := 32 * w) (by rwa [first])
      (by rwa [retry]) room
    rw [hw] at ecc
    rw [recorded_writtenBack, getF_writtenBack]
    exact ⟨eccAt_writtenBack ecc, mem, record, count⟩
  · rw [recorded_writtenBack, lasting two high]
    exact (lastingRead_reserve (s := setEcc (atWord s w) w m) reserve room).of_aTime rfl
  · have noted : Noted s (setEcc (atWord s w) w m) := ⟨rfl, fun _ _ => rfl⟩
    obtain ⟨retired, listed, record⟩ := lastingRead_freePage (s := setEcc (atWord s w) w m) (x := 32 * w) (p := p) (y := y)
      outside (by rwa [noted.groveOwner]) (by rwa [noted.partAddr]) (by rwa [noted.arenaBase])
      (by rwa [noted.page, noted.arenaBase]) list room
    rw [← lasting two high] at listed record
    rw [noted.arenaBase, ← lasting two high] at retired
    rw [page_writtenBack, writtenBack_retired, recorded_writtenBack]
    exact ⟨retired, listed, record.of_aTime rfl, mem⟩

end Sys2Proof
end

section
set_option Elab.async false
/-! ## What the commands of a ring share (R76, R105, R267, R421) -/
namespace Sys2Proof.Machine
variable {s u : State} {t r : Nat}

/-- An access that reaches its block has its effect. -/
theorem reach_of_reaches {key : Nat} {f : State → Host.Outcome State Fault Refusal} (h : Reaches s key) :
    reach s key f = f s := by
  obtain ⟨hup, hfree⟩ := h
  simp [reach, hup, hfree]

/-- Memory that two commands leave alone in turn. -/
theorem SameMem.after {v : State} (g : SameMem u v) (h : SameMem s u) : SameMem s v := fun a => (g a).trans (h a)

/-! ### Frames of messages and charges -/

theorem sendMsi_quiet {n v : Nat} : Frame [] s (sendMsi s n v) := by
  rw [sendMsi_fields]
  exact .of_core rfl

/-- A charge writes the level of a regulator and nothing else. -/
theorem chargeTenant_fields (s : State) (t k n : Nat) : ∃ x, chargeTenant s t k n = { s with regs := x } := by
  unfold chargeTenant chargeOnly setRegLevel
  split
  · split
    · exact ⟨_, rfl⟩
    · exact ⟨s.regs, rfl⟩
  · exact ⟨s.regs, rfl⟩

/-- The rings' records are no registers. -/
theorem getF_setSq {x : Sq} {f : Fld} : getF (setSq s t r x) f = getF s f := rfl
theorem getF_setCq {x : Cq} {f : Fld} : getF (setCq s t r x) f = getF s f := rfl

theorem sq_of_sqs (h : u.sqs = s.sqs) {o x : Nat} : sq u o x = sq s o x := by
  unfold sq
  rw [h]

theorem sq_setF {f : Fld} {k o x : Nat} : sq (setF s f k) o x = sq s o x :=
  sq_of_sqs (setF_sqs s f k)

theorem sq_takeTurn {o x : Nat} : sq (takeTurn s t r) o x = sq s o x := rfl

theorem sq_raise {f : Fld} {o x : Nat} : sq (raise s f) o x = sq s o x := sq_of_sqs (congrArg State.sqs (raise_fields s f))

theorem sq_chargeTenant {k n o x : Nat} : sq (chargeTenant s t k n) o x = sq s o x := by
  obtain ⟨_, h⟩ := chargeTenant_fields s t k n
  exact sq_of_sqs (congrArg State.sqs h)

/-! ### Where the rings' registers lie -/

theorem areaOf_sqTail : areaOf (Reg.RQI_SQ_TAIL t r) = some .rings := by
  unfold areaOf Reg.RQI_SQ_TAIL
  rw [if_pos (by omega)]
theorem areaOf_sqStatus : areaOf (Reg.RQI_SQ_STATUS t r) = some .rings := by
  unfold areaOf Reg.RQI_SQ_STATUS
  rw [if_pos (by omega)]
theorem areaOf_cqCfg : areaOf (Reg.RQI_CQ_CFG t r) = some .rings := by
  unfold areaOf Reg.RQI_CQ_CFG
  rw [if_pos (by omega)]
theorem areaOf_cqTail : areaOf (Reg.RQI_CQ_TAIL t r) = some .rings := by
  unfold areaOf Reg.RQI_CQ_TAIL
  rw [if_pos (by omega)]

/-- HEAD, TAIL, CFG and STATUS of a submission ring are different registers. -/
theorem sqRegs_differ (t r : Nat) : Reg.RQI_SQ_HEAD t r ≠ Reg.RQI_SQ_TAIL t r ∧ Reg.RQI_SQ_HEAD t r ≠ Reg.RQI_SQ_CFG t r ∧
    Reg.RQI_SQ_TAIL t r ≠ Reg.RQI_SQ_CFG t r ∧ Reg.RQI_SQ_HEAD t r ≠ Reg.RQI_SQ_STATUS t r ∧
    Reg.RQI_SQ_TAIL t r ≠ Reg.RQI_SQ_STATUS t r := by
  unfold Reg.RQI_SQ_HEAD Reg.RQI_SQ_TAIL Reg.RQI_SQ_CFG Reg.RQI_SQ_STATUS
  omega

theorem cqRegs_differ (t c : Nat) : Reg.RQI_CQ_TAIL t c ≠ Reg.RQI_CQ_CFG t c := by
  unfold Reg.RQI_CQ_TAIL Reg.RQI_CQ_CFG
  omega

/-! ### The rings of one tenant -/

/-- The rings of a tenant after a write of one of them. -/
theorem sq_setSq_ring (s : State) (t r o : Nat) (x : Sq) : sq (setSq s t r x) t o = if o = r then x else sq s t o := by
  unfold sq setSq
  rw [spGet_spPut]
  simp only [Nat.add_left_cancel_iff]

/-- The words a fence still waits for, changed. -/
def FenceWait.mapLeft (g : Nat × Nat → Nat × Nat) (f : FenceWait) : FenceWait := { f with left := f.left.map g }

/-- A ring whose fence, if it has one, waits for other words. -/
def Sq.mapLeft (g : Nat × Nat → Nat × Nat) (q : Sq) : Sq := { q with fence := q.fence.map (FenceWait.mapLeft g) }

/-- One ring of a tenant, whose fence waits for other words. -/
def mapFence (g : Nat × Nat → Nat × Nat) (t : Nat) (s : State) (o : Nat) : State :=
  match (sq s t o).fence with
  | some f => setSq s t o { sq s t o with fence := some (f.mapLeft g) }
  | none => s

theorem Sq.mapLeft_none {g : Nat × Nat → Nat × Nat} {q : Sq} (h : q.fence = none) : q.mapLeft g = q := by
  rw [Sq.mapLeft, h, Option.map_none, ← h]

theorem sq_mapFence (g : Nat × Nat → Nat × Nat) (t o : Nat) :
    sq (mapFence g t s o) t r = if r = o then (sq s t r).mapLeft g else sq s t r := by
  unfold mapFence
  split
  · next f hf =>
    rw [sq_setSq_ring]
    refine ite_congr rfl (fun h => ?_) fun _ => rfl
    rw [h, Sq.mapLeft, hf, Option.map_some]
  · next hf =>
    split
    · next h => rw [h, Sq.mapLeft_none hf]
    · rfl

/-- A list of distinct rings of which each fence waits for other words. -/
theorem sq_foldl_mapFence (g : Nat × Nat → Nat × Nat) {l : List Nat} (hl : l.Nodup) (s : State) :
    sq (l.foldl (mapFence g t) s) t r = if r ∈ l then (sq s t r).mapLeft g else sq s t r := by
  induction l generalizing s with
  | nil => rfl
  | cons o l ih =>
    obtain ⟨hout, hl⟩ := List.nodup_cons.mp hl
    rw [List.foldl_cons, ih hl, sq_mapFence]
    by_cases h : r = o
    · subst h; simp [hout]
    · simp [h]

theorem sq_mapFences (g : Nat × Nat → Nat × Nat) (hr : r < 4) :
    sq ((List.range 4).foldl (mapFence g t) s) t r = (sq s t r).mapLeft g := by
  rw [sq_foldl_mapFence g List.nodup_range, if_pos (List.mem_range.mpr hr)]

/-- The words of an item that fences on the tenant's rings no longer wait for. -/
def pastItem (r n : Nat) (e : Nat × Nat) : Nat × Nat := if e.1 = r then (e.1, e.2 - n) else e

/-- A head has passed an item, which is counted; no fence has seen it yet. -/
def headMoved (s : State) (t r n : Nat) : State :=
  let moved := setF (setF (chargeTenant s t 1 (16 * n)) (Reg.RQI_SQ_HEAD_PHASE t r) (phaseAt s t r n))
    (Reg.RQI_SQ_HEAD_HEAD t r) ((sqHead s t r + n) % sqSize s t r)
  bump (bump moved (Reg.TRC_RE_COUNT 0) 1) (Reg.TRC_TEN_COUNT t 0) 1

theorem advanceHead_eq (s : State) (t r n : Nat) :
    advanceHead s t r n = (List.range 4).foldl (mapFence (pastItem r n) t) (headMoved s t r n) := by
  unfold advanceHead headMoved
  rfl

/-- A head that passes an item changes no ring beyond the words its fence waits for. -/
theorem sq_advanceHead {o : Nat} (n : Nat) (ho : o < 4) : sq (advanceHead s t r n) t o = (sq s t o).mapLeft (pastItem r n) := by
  have moved : (headMoved s t r n).sqs = (chargeTenant s t 1 (16 * n)).sqs := by
    simp only [headMoved, bump_sqs, setF_sqs]
  rw [advanceHead_eq, sq_mapFences _ ho, sq_of_sqs moved, sq_chargeTenant]

/-- The words that no fence waits for once ring `r` is flushed. -/
def pastRing (r : Nat) (e : Nat × Nat) : Nat × Nat := if e.1 = r then (e.1, 0) else e

theorem sq_releaseFences {o : Nat} (ho : o < 4) : sq (releaseFences s t r) t o = (sq s t o).mapLeft (pastRing r) :=
  sq_mapFences (pastRing r) ho

theorem releaseFences_quiet : Frame [] s (releaseFences s t r) := .foldl (fun _ _ => by
  split
  · exact setSq_quiet
  · exact .refl _) _ _

end Sys2Proof.Machine
end

section
set_option Elab.async false
/-! ## Items other than SUBMIT (R243, R257, R260, R266, R267) -/
namespace Sys2Proof.Machine
variable {s v : State} {t r i n : Nat} {ws : List W128} {x : ReqState}

/-! ### The item is consumed -/

/-- What an item has left passes the head, and the ring is served. -/
def itemTaken (v : State) (t r n : Nat) : State := takeTurn (advanceHead v t r n) t r

theorem itemTaken_frame : Frame [.rings] v (itemTaken v t r n) := .after takeTurn_quiet.up advanceHead_frame

/-- An item that has left memory alone leaves it alone when its head passes. -/
theorem itemTaken_mem {ps : List Area} (f : Frame ps s v) (no : Area.dram ∉ ps := by decide) : SameMem s (itemTaken v t r n) :=
  .after itemTaken_frame.mem (f.mem no)

theorem sq_itemTaken {o : Nat} (ho : o < 4) : sq (itemTaken v t r n) t o = (sq v t o).mapLeft (pastItem r n) := by
  rw [itemTaken, sq_takeTurn, sq_advanceHead n ho]

/-- What has left the head and the size of the ring leaves the head to pass the item as `s` stood. -/
theorem sqHead_itemTaken (n : Nat) (head : sqHead v t r = sqHead s t r)
    (size : getF v (Reg.RQI_SQ_CFG_SIZE_LOG2 t r) = getF s (Reg.RQI_SQ_CFG_SIZE_LOG2 t r))
    (h : getF s (Reg.RQI_SQ_CFG_SIZE_LOG2 t r) ≤ 16) : sqHead (itemTaken v t r n) t r = (sqHead s t r + n) % sqSize s t r := by
  have e : sqHead (itemTaken v t r n) t r = sqHead (advanceHead v t r n) t r := takeTurn_quiet.getF .rings areaOf_sqHead
  rw [e, sqHead_advanceHead n (size ▸ h), head, sqSize, size]
  rfl

theorem sqHead_itemTaken_frame {ps : List Area} (f : Frame ps s v) (n : Nat) (h : getF s (Reg.RQI_SQ_CFG_SIZE_LOG2 t r) ≤ 16)
    (no : Area.rings ∉ ps := by decide) : sqHead (itemTaken v t r n) t r = (sqHead s t r + n) % sqSize s t r :=
  sqHead_itemTaken n (f.getF .rings areaOf_sqHead no) (f.getF .rings areaOf_sqCfg no) h

theorem ringServed_quiet : Frame [] s (ringServed s t r) := setSq_quiet

theorem breakNeed_none (h : (sq s t r).cohort = none) : breakNeed s t r = [] := by simp [breakNeed, h]

theorem breakCohort_served (h : (sq s t r).cohort = none) : breakCohort (ringServed s t r) t r = ringServed s t r := by
  unfold breakCohort
  rw [ringServed, sq_setSq_same]
  simp only [h]

/-- An item that needs no completion slot has room. -/
theorem cqRoom_nil : cqRoom s t [] = true := by simp [cqRoom]

/-- A completion ring with room is enabled. -/
theorem cqRoom_enabled {c : Nat} (hc : c < 4) (h : cqRoom s t [c] = true) : isSet s (Reg.RQI_CQ_CFG_ENABLE t c) = true := by
  have hroom := List.all_eq_true.mp h c (List.mem_range.mpr hc)
  simp only [List.filter_cons, List.filter_nil, beq_self_eq_true, if_true, List.length_singleton, Bool.or_eq_true,
    Bool.and_eq_true, beq_iff_eq, one_ne_zero, false_or] at hroom
  exact hroom.1

/-! ### What each item does at the head of a ring whose turn it is, without an open cohort -/

section
variable (hread : readItem s t r ws = .ready) (hcoh : (sq s t r).cohort = none) (hturn : itsTurn s t r = true)
include hread hcoh hturn

/-- A well-formed COHORT opens its cohort. -/
theorem execCohort_opens (htype : itemType ws = 2) (hlen : ws.length = 2) (h19 : wbits (wordAt ws 0) 19 1 = 0)
    (h40 : wbits (wordAt ws 0) 40 83 = 0) (h64 : wbits (wordAt ws 1) 64 59 = 0) (hmin : 1 ≤ wbits (wordAt ws 0) 12 7)
    (hmax : wbits (wordAt ws 0) 12 7 ≤ 64) (hblog : wbits (wordAt ws 0) 36 4 ≤ 9) :
    execCohort t r ws s = .next (itemTaken (setOpenCohort (ringServed s t r) t r (some ⟨wbits (wordAt ws 0) 12 7,
      wbits (wordAt ws 0) 20 16, 256 * 2 ^ wbits (wordAt ws 0) 36 4, echoHere s t r (wbits (wordAt ws 1) 0 64) 0, []⟩)) t r
      ws.length) := by
  have hcode : ¬(wbits (wordAt ws 0) 12 7 = 0 ∨ 64 < wbits (wordAt ws 0) 12 7 ∨ 9 < wbits (wordAt ws 0) 36 4) := by omega
  unfold execCohort
  simp only [hread, htype, hlen, h19, h40, h64, hcode, breakNeed_none hcoh, ne_eq, not_true_eq_false, or_self, if_false, if_true,
    List.append_nil]
  rw [consume_of_turn cqRoom_nil hturn]
  simp only [breakCohort_served hcoh]
  rfl

section
variable (htype : itemType ws = 3) (hlen : ws.length = 1) (h14 : wbits (wordAt ws 0) 14 18 = 0)
  (h64 : wbits (wordAt ws 0) 64 59 = 0)
include htype hlen h14 h64

/-- A well-formed CANCEL of a live request is applied. -/
theorem execCancel_live {q : Req} (hq : cancelTarget s t (wbits (wordAt ws 0) 32 32) = some q)
    (hroom : cqRoom s t [q.sub.cq] = true) : execCancel t r ws s =
      .next (itemTaken (applyCancel (ringServed s t r) (wbits (wordAt ws 0) 32 32 % 2 ^ 18)) t r ws.length) := by
  unfold execCancel
  simp only [hread, htype, hlen, h14, h64, hq, breakNeed_none hcoh, ne_eq, not_true_eq_false, or_self, if_false,
    List.nil_append]
  rw [consume_of_turn hroom hturn]
  simp only [breakCohort_served hcoh]
  rfl

/-- The record that answers a CANCEL which names no request. -/
def noSuchRec (s : State) (t r h : Nat) : Rec :=
  { handle := BitVec.ofNat 32 h, status := 0x0102, flags := 0, count := 0, body := echoHere s t r 0 0 }

/-- A well-formed CANCEL that names no request is answered so. -/
theorem execCancel_none (hq : cancelTarget s t (wbits (wordAt ws 0) 32 32) = none)
    (hon : isSet s (Reg.RQI_CQ_CFG_ENABLE t (wbits (wordAt ws 0) 12 2)) = true)
    (hroom : cqRoom s t [wbits (wordAt ws 0) 12 2] = true) : execCancel t r ws s =
      .next (itemTaken (queueRec (ringServed s t r) t (wbits (wordAt ws 0) 12 2)
        (noSuchRec s t r (wbits (wordAt ws 0) 32 32))) t r ws.length) := by
  unfold execCancel
  simp only [hread, htype, hlen, h14, h64, hq, hon, breakNeed_none hcoh, ne_eq, not_true_eq_false, or_self, if_false, if_true,
    List.nil_append]
  rw [consume_of_turn hroom hturn]
  simp only [breakCohort_served hcoh]
  rfl

end

/-- The words of each other ring that a FENCE names which its snapshot holds. -/
def fenceLeft (s : State) (t r : Nat) (w : W128) : List (Nat × Nat) :=
  ((List.range 4).filter fun o => o != r && (wbits w 12 4).testBit o).map fun o =>
    (o, if isSet s (Reg.RQI_SQ_CFG_ENABLE t o) then sqWords s t o else 0)

/-- The fence that a FENCE leaves. -/
def fenceOf (s : State) (t r : Nat) (w : W128) : FenceWait :=
  { left := fenceLeft s t r w, cq := wbits w 16 2, notify := wbits w 18 1 == 1, echo := echoHere s t r 0 0 }

/-- A well-formed FENCE leaves its fence. -/
theorem execFence_fences (htype : itemType ws = 4) (hlen : ws.length = 1) (h19 : wbits (wordAt ws 0) 19 104 = 0)
    (hroom : wbits (wordAt ws 0) 18 1 = 1 → cqRoom s t [wbits (wordAt ws 0) 16 2] = true) : execFence t r ws s =
      .next (itemTaken (setSq (ringServed s t r) t r { sq (ringServed s t r) t r with fence := some (fenceOf s t r (wordAt ws 0)) })
        t r ws.length) := by
  have hneed : cqRoom s t (if wbits (wordAt ws 0) 18 1 == 1 then [wbits (wordAt ws 0) 16 2] else []) = true := by
    split
    · next h => exact hroom (beq_iff_eq.mp h)
    · exact cqRoom_nil
  have hc : wbits (wordAt ws 0) 16 2 < 4 := Nat.mod_lt _ (by decide)
  have hcq : (wbits (wordAt ws 0) 18 1 == 1 && !isSet s (Reg.RQI_CQ_CFG_ENABLE t (wbits (wordAt ws 0) 16 2))) = false := by
    by_cases h : wbits (wordAt ws 0) 18 1 = 1
    · simp [cqRoom_enabled hc (hroom h)]
    · simp [h]
  unfold execFence
  simp only [hread, htype, hlen, h19, hcq, breakNeed_none hcoh, ne_eq, not_true_eq_false, or_self, if_false, if_true,
    List.nil_append, Bool.false_eq_true]
  rw [consume_of_turn hneed hturn]
  simp only [breakCohort_served hcoh]
  rfl

/-- An item of a reserved type is refused. -/
theorem execReservedItemType_refuses (htype : itemType ws = 0 ∨ 4 < itemType ws) (hroom : cqRoom s t [0] = true) :
    execReservedItemType t r ws s =
      .next (itemTaken (refuseItem (ringServed s t r) t r 0 0x0110 (echoHere (ringServed s t r) t r 0 0)) t r ws.length) := by
  have hout : ¬(1 ≤ itemType ws ∧ itemType ws ≤ 4) := by omega
  unfold execReservedItemType
  simp only [hread, hout, breakNeed_none hcoh, if_false, List.nil_append]
  rw [consume_of_turn hroom hturn]
  simp only [breakCohort_served hcoh]
  rfl

end

/-! ### Opening a cohort -/

theorem sq_setOpenCohort (c : Option OpenCohort) : sq (setOpenCohort s t r c) t r = { sq s t r with cohort := c } :=
  sq_setSq_same s t r _

theorem setOpenCohort_frame {c : Option OpenCohort} : Frame [.rings] s (setOpenCohort s t r c) :=
  .after (setF_frame .rings areaOf_sqHead) setSq_quiet.up

/-- The bit that shows an open cohort is no other field of the ring. -/
theorem getF_setOpenCohort {f : Fld} (c : Option OpenCohort) (h : f.lo + f.w ≤ 24) :
    getF (setOpenCohort s t r c) f = getF s f := getF_setF_bits _ _ (.inl h)

/-! ### The end of a request that is cancelled -/

theorem admitMember_keeps (hx : x ≠ .arrived) (j : Nat) (h : ReqIs i x s) : ReqIs i x (admitMember s j) := by
  by_cases hj : i = j
  · subst hj
    obtain ⟨q, hq, hst⟩ := id h
    rwa [admitMember_dead hq (hst ▸ hx)]
  · exact h.other (admitMember_onlyReq s j) hj

/-- A request that is not ARRIVED keeps its state when a cohort is admitted. -/
theorem admitCohort_keeps (hx : x ≠ .arrived) (co : Nat) (h : ReqIs i x s) : ReqIs i x (admitCohort s co) := by
  cases hc : cohort? s co with
  | none => unfold admitCohort; rwa [hc]
  | some c =>
    rw [admitCohort_eq hc]
    have members : ReqIs i x (c.members.foldl admitMember s) :=
      List.foldlRecOn (motive := ReqIs i x) _ _ h fun _ hu j _ => admitMember_keeps hx j hu
    exact members.frame (ps := [.cohorts]) (.after noteDue_quiet.up setCohort_frame)

theorem admitCopied_keeps (hx : x ≠ .arrived) (co : Nat) (h : ReqIs i x s) : ReqIs i x (admitCopied s co) := by
  unfold admitCopied
  split
  · split
    · exact admitCohort_keeps hx co h
    · exact h
  · exact h

/-- A live request that is cancelled ends CANCELLED. -/
theorem cancelReq_cancels {q : Req} (hq : req? s i = some q) (hl : isLive q.st = true) : ReqIs i .cancelled (cancelReq s i) := by
  have ended : ReqIs i .cancelled (endReq s i .cancelled 0x0105 false) := endReq_reqIs .cancelled 0x0105 ⟨q, hq, rfl⟩ hl
  unfold cancelReq
  simp only [hq, hl, if_true]
  exact admitCopied_keeps (by decide) _ (ended.frame (bump_quiet plain2))

/-- The request that a handle names. -/
theorem reqByHandle_some {h : Nat} {q : Req} (e : reqByHandle s h = some (i, q)) :
    h % 2 ^ 18 = i ∧ req? s i = some q ∧ hnat i q = h := by
  unfold reqByHandle at e
  split at e
  · next y hy =>
    split at e
    · next hgen =>
      obtain ⟨rfl, rfl⟩ := Prod.mk.inj (Option.some.inj e)
      exact ⟨rfl, hy, by rw [hnat, hgen, Nat.div_add_mod]⟩
    · cases e
  · cases e

theorem setCancels_frame {l : List Nat} : Frame [.cancels] s { s with cancels := l } := by
  intro q h
  cases q with
  | cancels => simp at h
  | _ => rfl

theorem mayCommitNow_served (q : Req) : mayCommitNow (ringServed s t r) i q = mayCommitNow s i q := by
  unfold mayCommitNow
  rw [ringServed_quiet.lane]

/-- A CANCEL of a request whose step cannot commit now is applied at once. -/
theorem applyCancel_now {q : Req} (hq : req? s i = some q) (h : mayCommitNow s i q = false) :
    applyCancel s i = cancelReq s i := by simp [applyCancel, hq, h]

/-- A CANCEL of a request whose step may commit now waits for that. -/
theorem applyCancel_waits {q : Req} (hq : req? s i = some q) (h : mayCommitNow s i q = true) :
    applyCancel s i = { s with cancels := s.cancels ++ [hnat i q] } := by simp [applyCancel, hq, h]

end Sys2Proof.Machine

namespace Sys2Proof
open Machine

/-- Settles O3: each item leaves the ring's head and size alone before the head passes it, and the head changes of a ring
only the words that fences wait for. -/
theorem ringItemsTakeEffect : Obligations.RingItemsTakeEffect := by
  intro s t r ws hwf hread hcoh hturn hsize
  dsimp only
  have hr : r < 4 := by
    simp only [Instr.wf, ringOk, Bool.and_eq_true, decide_eq_true_eq] at hwf
    exact hwf.1.2
  have served : Frame [] s (ringServed s t r) := ringServed_quiet
  refine ⟨fun htype hlen h19 h40 h64 hmin hmax hblog => ?_, fun htype hlen h14 h64 => ⟨fun i q hq hten hlive hdue hroom => ?_,
    fun hnone hon hroom => ?_⟩, fun htype hlen h19 hroom => ?_, fun htype hroom => ?_⟩
  · have kept {f : Fld} (hf : f.lo + f.w ≤ 24) (c : Option OpenCohort) :
        getF (setOpenCohort (ringServed s t r) t r c) f = getF s f := (getF_setOpenCohort c hf).trans getF_setSq
    exact ⟨_, execCohort_opens hread hcoh hturn htype hlen h19 h40 h64 hmin hmax hblog,
      sqHead_itemTaken _ (kept atMost _) (kept atMost _) hsize, itemTaken_mem (.after setOpenCohort_frame served.up), _,
      (congrArg Sq.cohort (sq_itemTaken hr)).trans (congrArg Sq.cohort (sq_setOpenCohort _)), rfl, rfl, rfl, rfl⟩
  · obtain ⟨rfl, hreq, hnat⟩ := reqByHandle_some hq
    have target : cancelTarget s t (wbits (wordAt ws 0) 32 32) = some q := by simp [cancelTarget, hq, hten, hlive, hdue]
    have hexec := execCancel_live hread hcoh hturn htype hlen h14 h64 target hroom
    have hreq' : req? (ringServed s t r) _ = some q := (served.req _).trans hreq
    refine ⟨fun hno => ?_, fun hmay => ?_⟩
    · rw [applyCancel_now hreq' ((mayCommitNow_served q).trans hno)] at hexec
      refine ⟨_, hexec, sqHead_itemTaken_frame (.after cancelReq_frame served.up) _ hsize, ?_⟩
      exact (cancelReq_cancels hreq' hlive).frame itemTaken_frame
    · rw [applyCancel_waits hreq' ((mayCommitNow_served q).trans hmay), hnat] at hexec
      have waits (l : List Nat) : Frame [.cancels] s { ringServed s t r with cancels := l } := .after setCancels_frame served.up
      refine ⟨_, hexec, sqHead_itemTaken_frame (waits _) _ hsize, itemTaken_frame.reqs.trans (waits _).reqs, ?_⟩
      rw [itemTaken_frame.cancels]
      exact List.mem_append_right _ (List.mem_singleton_self _)
  · have answered : Frame [.cqs] s (queueRec (ringServed s t r) t (wbits (wordAt ws 0) 12 2)
        (noSuchRec s t r (wbits (wordAt ws 0) 32 32))) := .after queueRec_frame served.up
    exact ⟨_, execCancel_none hread hcoh hturn htype hlen h14 h64 hnone hon hroom, sqHead_itemTaken_frame answered _ hsize,
      itemTaken_frame.reqs.trans answered.reqs, _,
      (congrArg Cq.waiting (itemTaken_frame.cq _ _)).trans (waiting_queueRec _ _ _), rfl⟩
  · have fenced (q : Sq) : Frame [] s (setSq (ringServed s t r) t r q) := .after setSq_quiet served
    have left (q : Sq) : (sq (itemTaken (setSq (ringServed s t r) t r q) t r ws.length) t r).fence =
        q.fence.map (FenceWait.mapLeft (pastItem r ws.length)) := by
      rw [sq_itemTaken hr, sq_setSq_same]
      rfl
    exact ⟨_, execFence_fences hread hcoh hturn htype hlen h19 hroom, sqHead_itemTaken_frame (fenced _) _ hsize,
      itemTaken_mem (fenced _), (fenceOf s t r (wordAt ws 0)).mapLeft (pastItem r ws.length), left _, rfl, rfl⟩
  · have refused : Frame [.cqs] s (refuseItem (ringServed s t r) t r 0 0x0110 (echoHere (ringServed s t r) t r 0 0)) :=
      .after (bumpSat_quiet areaOf_sqCnt).up (.after queueRec_frame served.up)
    exact ⟨_, execReservedItemType_refuses hread hcoh hturn htype hroom, sqHead_itemTaken_frame refused _ hsize,
      itemTaken_mem refused, _,
      (congrArg Cq.waiting (itemTaken_frame.cq _ _)).trans (waiting_refuseItem _ _ _ _ _), rfl⟩

end Sys2Proof
end

section
set_option Elab.async false
/-! ## Doorbells (R118, R250, R273, R277) -/
namespace Sys2Proof.Machine
variable {s : State} {t r n : Nat} {viaPf : Bool}

/-- A doorbell of a submission ring that is taken. -/
theorem execSqDoorbell_taken (hreach : Reaches s (Reg.RQI_SQ_TAIL t r)) (hvia : viaPf = routePf s t)
    (hflush : (sq s t r).flushing = false) (hn : n < sqSize s t r) : execSqDoorbell t r viaPf n s =
      .next (setSq (setF s (Reg.RQI_SQ_TAIL_TAIL t r) n) t r { sq s t r with lastRead := none }) := by
  rw [execSqDoorbell, reach_of_reaches hreach, if_neg (not_not_intro hvia), hflush, if_neg (by decide), if_neg (by omega)]

/-- A doorbell of a completion ring that is taken. -/
theorem execCqDoorbell_taken (hreach : Reaches s (Reg.RQI_CQ_TAIL t r)) (hvia : viaPf = routePf s t)
    (hon : isSet s (Reg.RQI_CQ_CFG_ENABLE t r) = true) (hn : n < cqSize s t r)
    (hmost : (n + cqSize s t r - (cq s t r).head) % cqSize s t r ≤
      (getF s (Reg.RQI_CQ_TAIL_TAIL t r) + cqSize s t r - (cq s t r).head) % cqSize s t r) :
    execCqDoorbell t r viaPf n s = .next (setCq s t r { cq s t r with head := n }) := by
  rw [execCqDoorbell, reach_of_reaches hreach]
  dsimp only
  rw [if_neg (not_not_intro hvia), hon, if_neg (by simp [hn, hmost])]

end Sys2Proof.Machine

namespace Sys2Proof
open Machine

/-- Settles O1: a doorbell that is taken writes the tail's register, or the reported head, which is no register. -/
theorem doorbellsMoveTailAndHead : Obligations.DoorbellsMoveTailAndHead := by
  intro s t r v viaPf hwf hvia
  have hv : v < 2 ^ 16 := by simp_all [Instr.wf]
  refine ⟨fun hreach hflush hn => ⟨_, execSqDoorbell_taken hreach hvia hflush hn, ?_, ?_, fun _ => rfl, fun k hk => ?_⟩,
    fun hreach hon hn hmost => ⟨_, execCqDoorbell_taken hreach hvia hon hn hmost, ?_, fun _ => rfl, fun _ _ => rfl⟩⟩
  · exact (getF_setF_same s (Reg.RQI_SQ_TAIL_TAIL t r) v atMost).trans (Nat.mod_eq_of_lt hv)
  · rw [sq_setSq_same]
  · exact rd_setF_other s v (beq_eq_false_iff_ne.mp hk)
  · rw [cq_setCq_same]

end Sys2Proof
end

section
set_option Elab.async false
/-! ## Rings are set up and flushed, and go on (R240 to R242, R252, R267, R275, R276) -/
namespace Sys2Proof.Machine
variable {s : State} {t r : Nat} {cfg : W32}

/-! ### A write of a ring's CFG -/

theorem writeCfg_fields (s : State) (key : Nat) (locked : Bool) (flag : Fld) (cfg : W32) :
    ∃ x v o, writeCfg s key locked flag cfg = { s with regs := x, vecs := v, out := o } := by
  unfold writeCfg
  extract_lets cur d lock d1 d2 s1
  obtain ⟨x, v, o, h⟩ := writeFields_fields s key d2 0xFFFFFFFF#64
  split
  · exact ⟨_, _, _, (raise_fields s1 flag).trans (by unfold s1; rw [h])⟩
  · exact ⟨x, v, o, h⟩

theorem writeCfg_mem {key : Nat} {locked : Bool} {flag : Fld} : SameMem s (writeCfg s key locked flag cfg) := by
  obtain ⟨_, _, _, h⟩ := writeCfg_fields s key locked flag cfg
  rw [h]
  exact fun _ => rfl

/-! ### Enabling -/

/-- A submission ring begins (R240, R241). -/
def sqOpened (s : State) (t r : Nat) : State :=
  let u := setF (setF (setF (setF s (Reg.RQI_SQ_HEAD_HEAD t r) 0) (Reg.RQI_SQ_HEAD_PHASE t r) 1) (Reg.RQI_SQ_TAIL_TAIL t r) 0)
    (Reg.RQI_SQ_CFG_ENABLE t r) 1
  setSq u t r { sq u t r with lastRead := none, stale := [], waitFor := none }

theorem sqOpened_frame : Frame [.rings] s (sqOpened s t r) :=
  .after setSq_quiet.up (.after (setF_frame .rings areaOf_sqCfg) (.after (setF_frame .rings areaOf_sqTail)
    (.after (setF_frame .rings areaOf_sqHead) (setF_frame .rings areaOf_sqHead))))

theorem execSqEnable_opens (hreach : Reaches s (Reg.RQI_SQ_CFG t r)) (hcfg : cfg.getLsbD 8 = true)
    (hoff : isSet s (Reg.RQI_SQ_CFG_ENABLE t r) = false) (hcq : isSet s (Reg.RQI_CQ_CFG_ENABLE t 0) = true) :
    execSqEnable t r cfg s =
      .next (sqOpened (writeCfg s (Reg.RQI_SQ_CFG t r) false (Reg.RQI_SQ_STATUS_CFG_LOCKED t r) cfg) t r) := by
  rw [execSqEnable, reach_of_reaches hreach]
  simp only [hcfg, hoff, hcq, Bool.not_true, Bool.false_eq_true, if_false]
  rfl

/-- A ring that begins stands at word 0 of both pointers, with phase 1. -/
theorem sqOpened_regs (s : State) (t r : Nat) : sqHead (sqOpened s t r) t r = 0 ∧
    getF (sqOpened s t r) (Reg.RQI_SQ_HEAD_PHASE t r) = 1 ∧ sqTail (sqOpened s t r) t r = 0 ∧
    isSet (sqOpened s t r) (Reg.RQI_SQ_CFG_ENABLE t r) = true := by
  obtain ⟨hTail, hCfg, tCfg, -, -⟩ := sqRegs_differ t r
  set a := setF s (Reg.RQI_SQ_HEAD_HEAD t r) 0
  set b := setF a (Reg.RQI_SQ_HEAD_PHASE t r) 1
  set c := setF b (Reg.RQI_SQ_TAIL_TAIL t r) 0
  have regs (f : Fld) : getF (sqOpened s t r) f = getF (setF c (Reg.RQI_SQ_CFG_ENABLE t r) 1) f := getF_setSq
  have pointer (f : Fld) (hf : f.key = Reg.RQI_SQ_HEAD t r) : getF (sqOpened s t r) f = getF b f :=
    (regs f).trans ((getF_setF_key c 1 (hf ▸ hCfg)).trans (getF_setF_key b 0 (hf ▸ hTail)))
  have head : getF b (Reg.RQI_SQ_HEAD_HEAD t r) = 0 :=
    (getF_setF_bits a 1 (.inl atMost)).trans (getF_setF_same s _ 0 atMost)
  have phase : getF b (Reg.RQI_SQ_HEAD_PHASE t r) = 1 := getF_setF_same a _ 1 atMost
  have tail : getF c (Reg.RQI_SQ_TAIL_TAIL t r) = 0 := getF_setF_same b _ 0 atMost
  have on : getF (setF c (Reg.RQI_SQ_CFG_ENABLE t r) 1) (Reg.RQI_SQ_CFG_ENABLE t r) = 1 := getF_setF_same c _ 1 atMost
  refine ⟨(pointer _ rfl).trans head, (pointer _ rfl).trans phase, (regs _).trans ((getF_setF_key c 1 tCfg).trans tail), ?_⟩
  rw [isSet, regs, on]
  rfl

/-- A completion ring begins (R240). -/
def cqOpened (s : State) (t c : Nat) : State :=
  let u := setF (setF s (Reg.RQI_CQ_TAIL_TAIL t c) 0) (Reg.RQI_CQ_TAIL_PHASE t c) 1
  setCq (setF u (Reg.RQI_CQ_CFG_ENABLE t c) 1) t c { cq u t c with head := 0, pend := 0 }

theorem cqOpened_frame : Frame [.rings, .cqs] s (cqOpened s t r) :=
  .after setCq_frame.up (.after (setF_frame .rings areaOf_cqCfg).up (.after (setF_frame .rings areaOf_cqTail).up
    (setF_frame .rings areaOf_cqTail).up))

theorem execCqEnable_opens (hreach : Reaches s (Reg.RQI_CQ_CFG t r)) (hcfg : cfg.getLsbD 8 = true)
    (hoff : isSet s (Reg.RQI_CQ_CFG_ENABLE t r) = false) : execCqEnable t r cfg s =
      .next (cqOpened (writeCfg s (Reg.RQI_CQ_CFG t r) false (Reg.RQI_CQ_STATUS_CFG_LOCKED t r) cfg) t r) := by
  rw [execCqEnable, reach_of_reaches hreach]
  simp only [hcfg, hoff, Bool.not_true, Bool.false_eq_true, if_false]
  rfl

theorem cqOpened_regs (s : State) (t c : Nat) : getF (cqOpened s t c) (Reg.RQI_CQ_TAIL_TAIL t c) = 0 ∧
    getF (cqOpened s t c) (Reg.RQI_CQ_TAIL_PHASE t c) = 1 ∧ isSet (cqOpened s t c) (Reg.RQI_CQ_CFG_ENABLE t c) = true := by
  set a := setF s (Reg.RQI_CQ_TAIL_TAIL t c) 0
  set b := setF a (Reg.RQI_CQ_TAIL_PHASE t c) 1
  have regs (f : Fld) : getF (cqOpened s t c) f = getF (setF b (Reg.RQI_CQ_CFG_ENABLE t c) 1) f := getF_setCq
  have pointer (f : Fld) (hf : f.key = Reg.RQI_CQ_TAIL t c) : getF (cqOpened s t c) f = getF b f :=
    (regs f).trans (getF_setF_key b 1 (hf ▸ cqRegs_differ t c))
  have tail : getF b (Reg.RQI_CQ_TAIL_TAIL t c) = 0 :=
    (getF_setF_bits a 1 (.inl atMost)).trans (getF_setF_same s _ 0 atMost)
  have phase : getF b (Reg.RQI_CQ_TAIL_PHASE t c) = 1 := getF_setF_same a _ 1 atMost
  have on : getF (setF b (Reg.RQI_CQ_CFG_ENABLE t c) 1) (Reg.RQI_CQ_CFG_ENABLE t c) = 1 := getF_setF_same b _ 1 atMost
  refine ⟨(pointer _ rfl).trans tail, (pointer _ rfl).trans phase, ?_⟩
  rw [isSet, regs, on]
  rfl

/-! ### Disabling and flushing -/

theorem execSqDisable_flushes (hreach : Reaches s (Reg.RQI_SQ_CFG t r)) (hcfg : cfg.getLsbD 8 = false)
    (hon : isSet s (Reg.RQI_SQ_CFG_ENABLE t r) = true) : execSqDisable t r cfg s =
      .next (startFlush (writeCfg s (Reg.RQI_SQ_CFG t r) true (Reg.RQI_SQ_STATUS_CFG_LOCKED t r) cfg) t r true) := by
  rw [execSqDisable, reach_of_reaches hreach]
  simp only [hcfg, hon, Bool.false_eq_true, if_false, if_true]

theorem startFlush_quiet {d : Bool} : Frame [] s (startFlush s t r d) := setSq_quiet

theorem startFlush_flushes (s : State) (t r : Nat) (d : Bool) :
    (sq (startFlush s t r d) t r).flushing = true ∧ (sq (startFlush s t r d) t r).disabling = ((sq s t r).disabling || d) := by
  unfold startFlush
  dsimp only
  rw [sq_setSq_same]
  exact ⟨rfl, rfl⟩

theorem execFlush_flushes (hreach : Reaches s (Reg.RQI_SQ_CTL t r)) : execFlush t r s = .next (startFlush s t r false) :=
  reach_of_reaches hreach

theorem execCqDisable_unused (hreach : Reaches s (Reg.RQI_CQ_CFG t r)) (hcfg : cfg.getLsbD 8 = false)
    (huse : cqInUse s t r = false) : execCqDisable t r cfg s =
      .next (setF (writeCfg s (Reg.RQI_CQ_CFG t r) (isSet s (Reg.RQI_CQ_CFG_ENABLE t r)) (Reg.RQI_CQ_STATUS_CFG_LOCKED t r) cfg)
        (Reg.RQI_CQ_CFG_ENABLE t r) 0) := by
  rw [execCqDisable, reach_of_reaches hreach]
  simp only [hcfg, huse, Bool.and_false, Bool.false_eq_true, if_false]

/-! ### The end of a flush -/

/-- The open cohort of a flushed ring goes, with its record. -/
def cohortFlushed (s : State) (t r : Nat) : State :=
  match (sq s t r).cohort with
  | some c => setOpenCohort (queueRec s t 0 (refusalRec 0x0107 c.echo)) t r none
  | none => s

/-- Fields below the bit that shows an open cohort read as before. -/
theorem getF_cohortFlushed {f : Fld} (h : f.lo + f.w ≤ 24) : getF (cohortFlushed s t r) f = getF s f := by
  unfold cohortFlushed
  split
  · exact getF_setOpenCohort none h
  · rfl

theorem cohortFlushed_frame : Frame [.rings, .cqs] s (cohortFlushed s t r) := by
  unfold cohortFlushed
  split
  · exact .after setOpenCohort_frame.up queueRec_frame.up
  · exact .refl _

/-- The ring's record after its flush. -/
def sqIdled (q : Sq) : Sq :=
  { q with flushing := false, disabling := false, inflight := false, stopped := false, lastRead := none, stale := [] }

/-- The unconsumed items of a ring go: its tail is its head, and its epoch steps. -/
def tailFlushed (s : State) (t r : Nat) : State :=
  let u := setF s (Reg.RQI_SQ_TAIL_TAIL t r) (sqHead s t r)
  let v := setF u (Reg.RQI_SQ_HEAD_EPOCH t r) ((sqEpoch u t r + 1) % 16)
  setSq v t r (sqIdled (sq v t r))

theorem tailFlushed_frame : Frame [.rings] s (tailFlushed s t r) :=
  .after setSq_quiet.up (.after (setF_frame .rings areaOf_sqHead) (setF_frame .rings areaOf_sqTail))

/-- A ring that was being disabled is disabled (R242). -/
def disabledIf (d : Bool) (s : State) (t r : Nat) : State := if d then setF s (Reg.RQI_SQ_CFG_ENABLE t r) 0 else s

theorem execFlushDone_ends (h : (sq s t r).flushing = true) : execFlushDone t r s =
    .next (raise (releaseFences (disabledIf (sq s t r).disabling (tailFlushed (cohortFlushed s t r) t r) t r) t r)
      (Reg.RQI_SQ_STATUS_FLUSH_DONE t r)) := by
  unfold execFlushDone
  simp only [h, Bool.not_true, Bool.false_eq_true, if_false]
  rfl

theorem tailFlushed_regs (s : State) (t r : Nat) : sqTail (tailFlushed s t r) t r = sqHead s t r ∧
    sqHead (tailFlushed s t r) t r = sqHead s t r ∧ sqEpoch (tailFlushed s t r) t r = (sqEpoch s t r + 1) % 16 := by
  obtain ⟨hTail, -⟩ := sqRegs_differ t r
  set u := setF s (Reg.RQI_SQ_TAIL_TAIL t r) (sqHead s t r)
  have regs (f : Fld) : getF (tailFlushed s t r) f =
    getF (setF u (Reg.RQI_SQ_HEAD_EPOCH t r) ((sqEpoch u t r + 1) % 16)) f := getF_setSq
  refine ⟨?_, ?_, ?_⟩
  · have tail : getF u (Reg.RQI_SQ_TAIL_TAIL t r) = sqHead s t r :=
      (getF_setF_same s _ _ atMost).trans (Nat.mod_eq_of_lt (getF_lt s (Reg.RQI_SQ_HEAD_HEAD t r)))
    exact (regs _).trans ((getF_setF_key u _ hTail.symm).trans tail)
  · exact (regs _).trans ((getF_setF_bits u _ (.inl atMost)).trans (getF_setF_key s _ hTail))
  · have epoch : sqEpoch u t r = sqEpoch s t r := getF_setF_key s _ hTail
    refine (regs _).trans ((getF_setF_same u _ _ atMost).trans ?_)
    rw [epoch]
    exact Nat.mod_mod _ 16

/-- The registers of the head and the tail are none of those that the end of a flush writes last. -/
theorem getF_flushEnd {d : Bool} {f : Fld} (hf : f.key = Reg.RQI_SQ_HEAD t r ∨ f.key = Reg.RQI_SQ_TAIL t r) :
    getF (raise (releaseFences (disabledIf d s t r) t r) (Reg.RQI_SQ_STATUS_FLUSH_DONE t r)) f = getF s f := by
  obtain ⟨-, hCfg, tCfg, hStatus, tStatus⟩ := sqRegs_differ t r
  have status : f.key ≠ (Reg.RQI_SQ_STATUS_FLUSH_DONE t r).key := by
    rcases hf with hf | hf
    · exact hf ▸ hStatus
    · exact hf ▸ tStatus
  have cfg : f.key ≠ (Reg.RQI_SQ_CFG_ENABLE t r).key := by
    rcases hf with hf | hf
    · exact hf ▸ hCfg
    · exact hf ▸ tCfg
  have area : areaOf f.key = some .rings := by
    rcases hf with hf | hf
    · exact hf ▸ areaOf_sqHead
    · exact hf ▸ areaOf_sqTail
  rw [getF_raise, getF_setF_key _ _ status, releaseFences_quiet.getF .rings area, disabledIf]
  split
  · exact getF_setF_key _ _ cfg
  · rfl

theorem flushEnd_frame {d : Bool} :
    Frame [.rings] s (raise (releaseFences (disabledIf d s t r) t r) (Reg.RQI_SQ_STATUS_FLUSH_DONE t r)) :=
  .after (raise_area .rings areaOf_sqStatus) (.after releaseFences_quiet.up (.ite (setF_frame .rings areaOf_sqCfg) (.refl _)))

theorem flushing_flushEnd {d : Bool} (hr : r < 4) :
    (sq (raise (releaseFences (disabledIf d s t r) t r) (Reg.RQI_SQ_STATUS_FLUSH_DONE t r)) t r).flushing =
      (sq s t r).flushing := by
  have disabled : sq (disabledIf d s t r) t r = sq s t r := by
    unfold disabledIf
    split
    · exact sq_setF
    · rfl
  rw [sq_raise, sq_releaseFences hr, disabled, Sq.mapLeft]

theorem flushing_tailFlushed : (sq (tailFlushed s t r) t r).flushing = false := by
  unfold tailFlushed
  dsimp only
  rw [sq_setSq_same]
  rfl

/-! ### Rings that wait go on -/

theorem execItemReread_ready {ws : List W128} {a : Nat} (hlast : (sq s t r).lastRead = some a) (hopen : ringOpen s t r = true)
    (htime : a + 25000 ≤ s.qTime) (hready : itemReady s t r ws = true) :
    execItemReread t r ws s = .next (setSq s t r { sq s t r with lastRead := none }) := by
  have late : ¬s.qTime < a + 25000 := by omega
  unfold execItemReread
  simp [hlast, hopen, late, hready]

/-- The record of a fence that has passed. -/
def passedRec (f : FenceWait) : Rec := { handle := noHandle, status := 0x0106, flags := 0, count := 0, body := f.echo }

/-- The fence of a ring is over. -/
def fenceLifted (s : State) (t r : Nat) : State := setSq s t r { sq s t r with fence := none }

theorem fence_fenceLifted : (sq (fenceLifted s t r) t r).fence = none := congrArg Sq.fence (sq_setSq_same s t r _)

theorem execFencePass_passes {f : FenceWait} (hf : (sq s t r).fence = some f) (hserving : serving s = true)
    (hleft : f.left.all (fun e => e.2 == 0) = true) : execFencePass t r s =
      .next (if f.notify then queueRec (fenceLifted s t r) t f.cq (passedRec f) else fenceLifted s t r) := by
  have none_left : f.left.any (fun e => e.2 != 0) = false := by
    rw [List.any_eq_false]
    intro e he
    simpa using List.all_eq_true.mp hleft e he
  unfold execFencePass
  simp only [hf, hserving, none_left, Bool.not_true, Bool.or_self, Bool.false_eq_true, if_false]
  split <;> rfl

end Sys2Proof.Machine

namespace Sys2Proof
open Machine

/-- Settles O4: a ring's set-up writes its own registers after those of CFG, and the end of a flush writes only CFG, STATUS
and fences after the tail and the epoch. -/
theorem ringsAreSetUpAndGoOn : Obligations.RingsAreSetUpAndGoOn := by
  refine ⟨fun s t r cfg hwf => ⟨fun hreach hcfg hoff hcq => ?_, fun hreach hcfg hoff => ?_, fun hreach hcfg hon => ?_,
    fun hreach hcfg huse => ?_, fun hreach => ?_, fun hflush => ?_⟩,
    fun s t r ws a f => ⟨fun hlast hopen htime hready => ?_, fun hno hf hserving hleft => ?_, fun hyes hf hserving hleft => ?_⟩⟩
  · obtain ⟨head, phase, tail, on⟩ :=
      sqOpened_regs (writeCfg s (Reg.RQI_SQ_CFG t r) false (Reg.RQI_SQ_STATUS_CFG_LOCKED t r) cfg) t r
    exact ⟨_, execSqEnable_opens hreach hcfg hoff hcq, head, phase, tail, on, .after sqOpened_frame.mem writeCfg_mem⟩
  · obtain ⟨tail, phase, on⟩ :=
      cqOpened_regs (writeCfg s (Reg.RQI_CQ_CFG t r) false (Reg.RQI_CQ_STATUS_CFG_LOCKED t r) cfg) t r
    refine ⟨_, execCqEnable_opens hreach hcfg hoff, tail, phase, ?_, on, .after cqOpened_frame.mem writeCfg_mem⟩
    rw [cqOpened, cq_setCq_same]
  · obtain ⟨flushing, disabling⟩ :=
      startFlush_flushes (writeCfg s (Reg.RQI_SQ_CFG t r) true (Reg.RQI_SQ_STATUS_CFG_LOCKED t r) cfg) t r true
    exact ⟨_, execSqDisable_flushes hreach hcfg hon, flushing, disabling.trans (Bool.or_true _),
      .after startFlush_quiet.mem writeCfg_mem⟩
  · refine ⟨_, execCqDisable_unused hreach hcfg huse, ?_, .after (setF_frame .rings areaOf_cqCfg).mem writeCfg_mem⟩
    rw [isSet, getF_setF_same _ _ _ atMost]
    rfl
  · exact ⟨_, execFlush_flushes hreach, (startFlush_flushes s t r false).1, fun _ => rfl, fun _ _ => rfl⟩
  · obtain ⟨tail, head, epoch⟩ := tailFlushed_regs (cohortFlushed s t r) t r
    have hr : r < 4 := by simp_all [Instr.wf, ringOk]
    have kept {f : Fld} (hf : f.lo + f.w ≤ 24) := getF_cohortFlushed (s := s) (t := t) (r := r) hf
    refine ⟨_, execFlushDone_ends hflush, (flushing_flushEnd hr).trans flushing_tailFlushed, ?_, ?_, ?_,
      isSet_raise atMost rfl, .after flushEnd_frame.mem (.after tailFlushed_frame.mem cohortFlushed_frame.mem)⟩
    · exact (getF_flushEnd (.inr rfl)).trans (tail.trans (kept atMost))
    · exact (getF_flushEnd (.inl rfl)).trans (head.trans (kept atMost))
    · refine (getF_flushEnd (.inl rfl)).trans (epoch.trans ?_)
      rw [sqEpoch, kept atMost]
      rfl
  · refine ⟨_, execItemReread_ready hlast hopen htime hready, ?_, fun _ => rfl, fun _ _ => rfl⟩
    rw [sq_setSq_same]
  · have hexec := execFencePass_passes hf hserving hleft
    rw [hno] at hexec
    exact ⟨_, hexec, fence_fenceLifted, fun _ => rfl, fun _ _ => rfl⟩
  · have hexec := execFencePass_passes hf hserving hleft
    rw [hyes] at hexec
    exact ⟨_, hexec, fence_fenceLifted (s := s), ⟨passedRec f, waiting_queueRec _ _ _, rfl⟩, fun _ => rfl, fun _ _ => rfl⟩

end Sys2Proof
end

section
set_option Elab.async false
/-! ## Completion records and their messages (R268, R271, R272, R274, R572) -/
namespace Sys2Proof.Machine
variable {s u : State} {t c n v : Nat}

/-! ### What leaves stays out -/

/-- What has left the device in `s` has left it in `u`. -/
def OutStays (s u : State) : Prop := ∀ x ∈ s.out, x ∈ u.out

theorem OutStays.of_eq (h : u.out = s.out) : OutStays s u := fun _ hx => h ▸ hx

theorem emit_outStays {x : Tx} : OutStays s (emit s x) := fun _ hy => List.mem_append_left _ hy

theorem sendMsi_outStays : OutStays s (sendMsi s n v) := by
  unfold sendMsi
  dsimp only
  split
  · exact .of_eq rfl
  · exact emit_outStays

/-! ### The message of a completion ring -/

/-- The function and the vector of a completion ring's message (Table 16.4). -/
def cqVec (s : State) (t c : Nat) : Nat × Nat :=
  (if pfServed s t then 0 else t + 1, if pfServed s t then 128 + 2 * t else c)

theorem cqMsg_eq : cqMsg s t c = sendMsi (chargeTenant s t 1 4) (cqVec s t c).1 (cqVec s t c).2 := by
  unfold cqMsg cqVec
  cases pfServed s t <;> rfl

theorem cqMsg_quiet : Frame [] s (cqMsg s t c) := cqMsg_eq ▸ .after sendMsi_quiet chargeTenant_quiet

theorem cqMsg_outStays : OutStays s (cqMsg s t c) := by
  obtain ⟨x, h⟩ := chargeTenant_fields s t 1 4
  rw [cqMsg_eq, h]
  exact sendMsi_outStays (s := { s with regs := x })

/-- A message leaves what holds its vector back. -/
theorem msgHeld_sendMsi : msgHeld (sendMsi s n v) n v = msgHeld s n v := by
  unfold sendMsi
  dsimp only
  split
  · rw [msgHeld, vec_setVec_same]
    rfl
  · rfl

/-- A ring's message is pending where something holds its vector back, and else the last thing that left. -/
theorem cqMsg_sends (s : State) (t c : Nat) :
    (msgHeld s (cqVec s t c).1 (cqVec s t c).2 = true → (vec (cqMsg s t c) (cqVec s t c).1 (cqVec s t c).2).pend = true) ∧
    (msgHeld s (cqVec s t c).1 (cqVec s t c).2 = false →
      (cqMsg s t c).out.getLast? = some (.msix (cqVec s t c).1 (cqVec s t c).2)) := by
  obtain ⟨x, h⟩ := chargeTenant_fields s t 1 4
  have sends := sendMsi_sends (chargeTenant s t 1 4) (cqVec s t c).1 (cqVec s t c).2
  have held : msgHeld (chargeTenant s t 1 4) (cqVec s t c).1 (cqVec s t c).2 = msgHeld s (cqVec s t c).1 (cqVec s t c).2 := by
    rw [h]
    rfl
  rwa [msgHeld_sendMsi, held, ← cqMsg_eq] at sends

/-! ### Coalescing -/

/-- A record that is written may change the pending count of its ring, and may send the message. -/
theorem coalesce_cases (s : State) (t c : Nat) (first : Bool) : ∃ q : Cq, q.waiting = (cq s t c).waiting ∧
    (coalesce s t c first = cqMsg (setCq s t c q) t c ∨ coalesce s t c first = setCq s t c q) := by
  unfold coalesce
  extract_lets q q1 now
  have waiting : q1.waiting = q.waiting := by
    unfold q1
    split <;> rfl
  split
  · exact ⟨{ q1 with pend := 0 }, waiting, .inl rfl⟩
  · exact ⟨q1, waiting, .inr rfl⟩

theorem coalesce_frame {first : Bool} : Frame [.cqs] s (coalesce s t c first) := by
  obtain ⟨q, -, h | h⟩ := coalesce_cases s t c first
  · exact h ▸ .after cqMsg_quiet.up setCq_frame
  · exact h ▸ setCq_frame

theorem waiting_coalesce (first : Bool) : (cq (coalesce s t c first) t c).waiting = (cq s t c).waiting := by
  obtain ⟨q, hq, h | h⟩ := coalesce_cases s t c first
  · rw [h, cqMsg_quiet.cq, cq_setCq_same, hq]
  · rw [h, cq_setCq_same, hq]

theorem coalesce_outStays {first : Bool} : OutStays s (coalesce s t c first) := by
  obtain ⟨q, -, h | h⟩ := coalesce_cases s t c first
  · rw [h]
    exact cqMsg_outStays (s := setCq s t c q)
  · rw [h]
    exact .of_eq rfl

/-! ### The write of a record -/

theorem releaseEntry_frame {x : Rec} : Frame [.reqs] s (releaseEntry s x) := by
  unfold releaseEntry
  split
  · split
    · exact .ite (.refl _) freeEntryOf_frame
    · exact .refl _
  · exact .refl _

theorem releaseEntry_outStays {x : Rec} : OutStays s (releaseEntry s x) := by
  unfold releaseEntry
  split
  · split
    · split
      · exact .of_eq rfl
      · exact .of_eq rfl
    · exact .of_eq rfl
  · exact .of_eq rfl

/-- The first waiting record has left for the ring's tail. -/
def recSent (s : State) (t c : Nat) (x : Rec) (rest : List Rec) : State :=
  emit (setCq (chargeTenant s t 1 32) t c { cq s t c with waiting := rest })
    (.dma (tenantFn s t) (4096 * getF s (Reg.RQI_CQ_BASE_ADDR t c) + 32 * getF s (Reg.RQI_CQ_TAIL_TAIL t c))
      (recBytes x (getF s (Reg.RQI_CQ_TAIL_PHASE t c))))

/-- The tail of a completion ring goes on from slot `tail` of `size`, and its phase turns over at the ring's end. -/
def tailStepped (s : State) (t c tail ph size : Nat) : State :=
  let u := setF s (Reg.RQI_CQ_TAIL_TAIL t c) ((tail + 1) % size)
  if tail + 1 = size then setF u (Reg.RQI_CQ_TAIL_PHASE t c) (1 - ph) else u

/-- The state after the record of a ring with a free slot, before its coalescing. -/
def recWritten (s : State) (t c : Nat) (x : Rec) (rest : List Rec) : State :=
  tailStepped (recSent s t c x rest) t c (getF s (Reg.RQI_CQ_TAIL_TAIL t c)) (getF s (Reg.RQI_CQ_TAIL_PHASE t c)) (cqSize s t c)

theorem execCompletionRecordWrite_writes {x : Rec} {rest : List Rec} (hx : (cq s t c).waiting = x :: rest)
    (hserving : serving s = true) (hon : isSet s (Reg.RQI_CQ_CFG_ENABLE t c) = true) (hdma : canDma s (tenantFn s t) = true)
    (hdup : dupHeld s t x = false) (hfree : cqFree s t c ≠ 0) : execCompletionRecordWrite t c s =
      .next (releaseEntry (coalesce (recWritten s t c x rest) t c (x.flags.testBit 0)) x) := by
  unfold execCompletionRecordWrite
  simp only [hx, hserving, hon, hdma, hdup, hfree, Bool.not_true, Bool.or_self, Bool.false_eq_true, if_false]
  rfl

theorem tailStepped_fields (s : State) (t c tail ph size : Nat) : ∃ x, tailStepped s t c tail ph size = { s with regs := x } := by
  unfold tailStepped
  dsimp only
  split
  · exact ⟨_, rfl⟩
  · exact ⟨_, rfl⟩

/-- The tail of a ring of at most 65,536 slots after a step. -/
theorem getF_tailStepped_tail {tail ph size : Nat} (hpos : 0 < size) (hsize : size ≤ 2 ^ 16) :
    getF (tailStepped s t c tail ph size) (Reg.RQI_CQ_TAIL_TAIL t c) = (tail + 1) % size := by
  have stepped : getF (setF s (Reg.RQI_CQ_TAIL_TAIL t c) ((tail + 1) % size)) (Reg.RQI_CQ_TAIL_TAIL t c) = (tail + 1) % size :=
    (getF_setF_same _ _ _ atMost).trans (Nat.mod_eq_of_lt (lt_of_lt_of_le (Nat.mod_lt _ hpos) hsize))
  unfold tailStepped
  dsimp only
  split
  · exact (getF_setF_bits _ _ (.inl atMost)).trans stepped
  · exact stepped

/-- The phase of a ring after a step of its tail. -/
theorem getF_tailStepped_phase {tail ph size : Nat} (hph : getF s (Reg.RQI_CQ_TAIL_PHASE t c) = ph) :
    getF (tailStepped s t c tail ph size) (Reg.RQI_CQ_TAIL_PHASE t c) = if tail + 1 = size then 1 - ph else ph := by
  unfold tailStepped
  dsimp only
  split
  · exact (getF_setF_same _ _ _ atMost).trans (Nat.mod_eq_of_lt (show 1 - ph < 2 by omega))
  · exact (getF_setF_bits _ _ (.inr atMost)).trans hph

/-- What the write of a record leaves, once its coalescing and the release of its entry are over. -/
theorem completionRecordWrite_writes {x : Rec} {rest : List Rec} (hx : (cq s t c).waiting = x :: rest)
    (hserving : serving s = true) (hon : isSet s (Reg.RQI_CQ_CFG_ENABLE t c) = true) (hdma : canDma s (tenantFn s t) = true)
    (hdup : dupHeld s t x = false) (hfree : cqFree s t c ≠ 0) (hsize : getF s (Reg.RQI_CQ_CFG_SIZE_LOG2 t c) ≤ 16) :
    let tail := getF s (Reg.RQI_CQ_TAIL_TAIL t c)
    let phase := getF s (Reg.RQI_CQ_TAIL_PHASE t c)
    Answers (.completionRecordWrite t c) s fun u => (cq u t c).waiting = rest ∧
      Tx.dma (tenantFn s t) (4096 * getF s (Reg.RQI_CQ_BASE_ADDR t c) + 32 * tail) (recBytes x phase) ∈ u.out ∧
      getF u (Reg.RQI_CQ_TAIL_TAIL t c) = (tail + 1) % cqSize s t c ∧
      getF u (Reg.RQI_CQ_TAIL_PHASE t c) = (if tail + 1 = cqSize s t c then 1 - phase else phase) ∧ SameMem s u := by
  intro tail phase
  obtain ⟨regs, stepped⟩ := tailStepped_fields (recSent s t c x rest) t c tail phase (cqSize s t c)
  have sent : Frame [.cqs] s (recSent s t c x rest) := .after emit_quiet.up (.after setCq_frame chargeTenant_quiet.up)
  have waiting : (cq (recWritten s t c x rest) t c).waiting = rest := by
    rw [recWritten, stepped]
    exact congrArg Cq.waiting (cq_setCq_same _ _ _ _)
  have last : Frame [.cqs, .reqs] (recWritten s t c x rest)
      (releaseEntry (coalesce (recWritten s t c x rest) t c (x.flags.testBit 0)) x) :=
    .after releaseEntry_frame.up coalesce_frame.up
  refine ⟨_, execCompletionRecordWrite_writes hx hserving hon hdma hdup hfree, ?_, ?_, ?_, ?_, fun a => ?_⟩
  · rw [releaseEntry_frame.cq, waiting_coalesce, waiting]
  · refine releaseEntry_outStays _ (coalesce_outStays _ ?_)
    rw [recWritten, stepped]
    exact List.mem_append_right _ (List.mem_singleton_self _)
  · rw [last.getF .rings areaOf_cqTail]
    exact getF_tailStepped_tail (Nat.two_pow_pos _) (Nat.pow_le_pow_right (by decide) hsize)
  · rw [last.getF .rings areaOf_cqTail]
    exact getF_tailStepped_phase (sent.getF .rings areaOf_cqTail)
  · rw [last.mem (by decide) a, recWritten, stepped]
    exact sent.mem (by decide) a

/-! ### The coalescing timer -/

theorem execCoalesceTimeout_sends (hpend : (cq s t c).pend ≠ 0)
    (htime : (cq s t c).timer + 500 * (cq s t c).coalUs ≤ s.qTime) :
    execCoalesceTimeout t c s = .next (cqMsg (setCq s t c { cq s t c with pend := 0 }) t c) := by
  unfold execCoalesceTimeout
  exact if_neg (by omega)

/-! ### Pending messages -/

/-- A key that reads otherwise than an unlisted one is listed, with what it reads. -/
theorem mem_of_spGet {α : Type} {d : Nat → α} {l : List (Nat × α)} {k : Nat} (h : spGet d l k ≠ d k) : (k, spGet d l k) ∈ l := by
  induction l with
  | nil => exact absurd rfl h
  | cons e l ih =>
    obtain ⟨j, x⟩ := e
    simp only [spGet] at h ⊢
    split
    · next hj => subst hj; exact List.mem_cons_self
    · next hj =>
      rw [if_neg hj] at h
      split
      · next hlt => rw [if_pos hlt] at h; exact absurd rfl h
      · next hlt =>
        rw [if_neg hlt] at h
        exact List.mem_cons_of_mem _ (ih h)

/-- The vectors of a function after a write of one of them. -/
theorem vec_setVec_fn (s : State) (n v w : Nat) (x : Vec) : vec (setVec s n v x) n w = if w = v then x else vec s n w := by
  unfold vec setVec
  rw [spGet_spPut]
  simp only [Nat.add_left_cancel_iff]

/-- A pending message is sent. -/
def sendOne (n : Nat) (a : State) (v : Nat) : State := emit (setVec a n v { vec a n v with pend := false }) (.msix n v)

/-- The vectors of a function whose message is pending and not masked. -/
def dueVecs (s : State) (n : Nat) : List Nat :=
  (s.vecs.filter fun e => e.1 / 256 == n && e.2.pend && !e.2.masked).map fun e => e.1 % 256

theorem sendPending_eq (s : State) (n : Nat) : sendPending s n =
    if (fn s n).fnMask || !(fn s n).msixEn || !canDma s n then s else (dueVecs s n).foldl (sendOne n) s := rfl

theorem mem_dueVecs (hv : v < 256) (hp : (vec s n v).pend = true) (hm : (vec s n v).masked = false) : v ∈ dueVecs s n := by
  have listed : (256 * n + v, vec s n v) ∈ s.vecs := mem_of_spGet fun h => by
    rw [vec, h] at hp
    cases hp
  have hn : (256 * n + v) / 256 = n := by omega
  exact List.mem_map.mpr ⟨_, List.mem_filter.mpr ⟨listed, by simp [hn, hp, hm]⟩, by dsimp only; omega⟩

/-- What every step of a send keeps, a function's pending messages keep. -/
theorem sendPending_keeps {P : State → Prop} (keep : ∀ a w, P a → P (sendOne n a w)) (h : P s) : P (sendPending s n) := by
  rw [sendPending_eq]
  split
  · exact h
  · exact List.foldlRecOn (motive := P) _ _ h fun a ha w _ => keep a w ha

theorem masked_sendOne (a : State) (w : Nat) : (vec (sendOne n a w) n v).masked = (vec a n v).masked := by
  refine (congrArg Vec.masked (vec_setVec_fn a n w v _)).trans ?_
  split
  · next h => rw [h]
  · rfl

theorem masked_sendPending (s : State) (n v : Nat) : (vec (sendPending s n) n v).masked = (vec s n v).masked :=
  sendPending_keeps (P := fun u => (vec u n v).masked = (vec s n v).masked) (fun a w h => (masked_sendOne a w).trans h) rfl

/-- Sending writes vectors and what leaves the device, and nothing else. -/
theorem sendPending_core (s : State) (n : Nat) : (sendPending s n).regs = s.regs ∧ (sendPending s n).dram = s.dram ∧
    (sendPending s n).fns = s.fns :=
  sendPending_keeps (P := fun u => u.regs = s.regs ∧ u.dram = s.dram ∧ u.fns = s.fns) (fun _ _ h => h) ⟨rfl, rfl, rfl⟩

/-- The message of vector `v` of function `n` has gone, and is pending no more. -/
def MsgSent (n v : Nat) (u : State) : Prop := Tx.msix n v ∈ u.out ∧ (vec u n v).pend = false

theorem sendOne_sends (a : State) : MsgSent n v (sendOne n a v) :=
  ⟨List.mem_append_right _ (List.mem_singleton_self _), congrArg Vec.pend (vec_setVec_same a n v _)⟩

theorem MsgSent.sendOne {a : State} (h : MsgSent n v a) (w : Nat) : MsgSent n v (sendOne n a w) := by
  obtain ⟨out, pend⟩ := h
  refine ⟨List.mem_append_left _ out, (congrArg Vec.pend (vec_setVec_fn a n w v _)).trans ?_⟩
  split
  · rfl
  · exact pend

/-- A pending message that nothing masks goes, whatever else goes with it. -/
theorem sendPending_sends (hmask : (fn s n).fnMask = false) (hen : (fn s n).msixEn = true) (hdma : canDma s n = true)
    (hv : v < 256) (hp : (vec s n v).pend = true) (hm : (vec s n v).masked = false) : MsgSent n v (sendPending s n) := by
  obtain ⟨before, after, hdue⟩ := List.append_of_mem (mem_dueVecs hv hp hm)
  rw [sendPending_eq, hmask, hen, hdma, hdue, List.foldl_append, List.foldl_cons]
  exact List.foldlRecOn (motive := MsgSent n v) _ _ (sendOne_sends _) fun _ h w _ => h.sendOne w

/-- An unmask, before what it lets go. -/
def unmasked (s : State) (n : Nat) : MsixPart → State
  | .vector v => setVec s n v { vec s n v with masked := false }
  | .function => setFn s n { fn s n with fnMask := false }
  | .enable => setFn s n { fn s n with msixEn := true }

theorem execMsixUnmask_sends (hclk : (getF s Reg.HST_CLK_STATUS_LOCK).testBit 3 = true) (what : MsixPart) :
    execMsixUnmask n what s = .next (sendPending (unmasked s n what) n) := by
  unfold execMsixUnmask
  rw [hclk]
  cases what <;> rfl

theorem unmasked_core (what : MsixPart) : (unmasked s n what).regs = s.regs ∧ (unmasked s n what).dram = s.dram := by
  cases what <;> exact ⟨rfl, rfl⟩

theorem fn_sendPending (s : State) (n : Nat) : fn (sendPending s n) n = fn s n := by
  obtain ⟨-, -, fns⟩ := sendPending_core s n
  unfold fn
  rw [fns]

/-- An unmask leaves alone whether the function can send. -/
theorem canDma_unmasked (what : MsixPart) : canDma (unmasked s n what) n = canDma s n := by
  cases what with
  | vector v => rfl
  | function => simp [canDma, unmasked]
  | enable => simp [canDma, unmasked]

end Sys2Proof.Machine

namespace Sys2Proof
open Machine

/-- Settles O5: the record goes before its coalescing, which leaves the tail alone; the ring's message is `cqMsg`; and an
unmask sends each vector of `dueVecs`, once what masked it is gone. -/
theorem completionRecordsAreWrittenInOrder : Obligations.CompletionRecordsAreWrittenInOrder := by
  refine ⟨fun s t c _ => ⟨fun x rest hx hserving hon hdma hdup hfree hsize =>
    completionRecordWrite_writes hx hserving hon hdma hdup hfree hsize, fun hpend htime => ?_⟩, fun s n what hwf hclk => ?_⟩
  · obtain ⟨held, free⟩ := cqMsg_sends (setCq s t c { cq s t c with pend := 0 }) t c
    refine ⟨_, execCoalesceTimeout_sends hpend htime, ?_, cqMsg_quiet.mem, held, free⟩
    rw [cqMsg_quiet.cq, cq_setCq_same]
  · obtain ⟨regs, dram, fns⟩ := sendPending_core (unmasked s n what) n
    obtain ⟨regs', dram'⟩ := unmasked_core (s := s) (n := n) what
    refine ⟨_, execMsixUnmask_sends hclk what, fun a => ?_, fun k _ => ?_, ?_, ?_, ?_⟩
    · rw [loadByte, dram, dram']; rfl
    · rw [rd, regs, regs']; rfl
    · rintro v rfl
      have hv : v < 256 := by
        simp only [Instr.wf, vectorOk, Bool.and_eq_true] at hwf
        split at hwf <;> simp only [decide_eq_true_eq] at hwf <;> omega
      have vector : vec (unmasked s n (.vector v)) n v = { vec s n v with masked := false } := vec_setVec_same _ _ _ _
      refine ⟨by rw [masked_sendPending, vector], fun hen hmask hp hdma => ?_⟩
      exact sendPending_sends hmask hen ((canDma_unmasked _).trans hdma) hv (by rw [vector]; exact hp) (by rw [vector])
    · rintro rfl
      have function : fn (unmasked s n .function) n = { fn s n with fnMask := false } := fn_setFn_same _ _ _
      refine ⟨by rw [fn_sendPending, function], fun v hv hen hp hm hdma => ?_⟩
      exact sendPending_sends (by rw [function]) (by rw [function]; exact hen) ((canDma_unmasked _).trans hdma) hv hp hm
    · rintro rfl
      have enable : fn (unmasked s n .enable) n = { fn s n with msixEn := true } := fn_setFn_same _ _ _
      refine ⟨by rw [fn_sendPending, enable], fun v hv hmask hp hm hdma => ?_⟩
      exact sendPending_sends (by rw [enable]; exact hmask) (by rw [enable]) ((canDma_unmasked _).trans hdma) hv hp hm

end Sys2Proof
end

section
set_option Elab.async false
/-! ## Budget levels (R289, R301) -/
namespace Sys2Proof.Machine
variable {s : State} {t u : Nat}

/-! ### The level of one tenant -/

theorem level_setLevel_same {x : Int} (h : x < 2 ^ 63) : level (setLevel s t x) t = max x (-(2 ^ 47)) := by
  unfold level setLevel
  rw [rd_wr_same, BitVec.toInt_ofInt_eq_self (by decide) (by omega) (by omega)]

theorem level_setLevel_other {x : Int} (ht : t < 64) (hu : u < 64) (h : u ≠ t) : level (setLevel s t x) u = level s u := by
  unfold level setLevel
  rw [rd_wr_other _ _ (by unfold Reg.ADM_TEN_LEVEL; omega)]

theorem getF_setLevel {x : Int} {f : Fld} (h : f.key ≠ Reg.ADM_TEN_LEVEL t) : getF (setLevel s t x) f = getF s f := by
  unfold getF setLevel
  rw [rd_wr_other _ _ h]

/-! ### The refill -/

/-- The level that a refill gives tenant `t`. -/
def refilled (s : State) (t : Nat) : Int :=
  min (level s t + getF s (Reg.ADM_TEN_RATE_RATE t)) (getF s (Reg.ADM_TEN_BURST_BURST t))

/-- The refill of one tenant. -/
def refillOne (s : State) (t : Nat) : State := setLevel s t (refilled s t)

theorem refillLevels_eq : refillLevels s = (List.range 64).foldl refillOne s := rfl

theorem level_refillOne_same : level (refillOne s t) t = max (refilled s t) (-(2 ^ 47)) := by
  have burst : getF s (Reg.ADM_TEN_BURST_BURST t) < 2 ^ 32 := getF_lt s (Reg.ADM_TEN_BURST_BURST t)
  exact level_setLevel_same (by unfold refilled; omega)

/-- The refill of one tenant leaves alone what another's depends on. -/
theorem refilled_refillOne (ht : t < 64) (hu : u < 64) (h : u ≠ t) : refilled (refillOne s t) u = refilled s u := by
  unfold refilled refillOne
  rw [level_setLevel_other ht hu h, getF_setLevel, getF_setLevel]
  · show Reg.ADM_TEN_BURST u ≠ _; unfold Reg.ADM_TEN_LEVEL Reg.ADM_TEN_BURST; omega
  · show Reg.ADM_TEN_RATE u ≠ _; unfold Reg.ADM_TEN_LEVEL Reg.ADM_TEN_RATE; omega

theorem level_foldl_refillOne {l : List Nat} (nodup : l.Nodup) (small : ∀ v ∈ l, v < 64) (ht : t < 64) :
    level (l.foldl refillOne s) t = if t ∈ l then max (refilled s t) (-(2 ^ 47)) else level s t := by
  induction l generalizing s with
  | nil => rfl
  | cons v l ih =>
    obtain ⟨hv, nodup⟩ := List.nodup_cons.mp nodup
    have v64 : v < 64 := small v (List.mem_cons_self ..)
    rw [List.foldl_cons, ih nodup fun w hw => small w (List.mem_cons_of_mem _ hw)]
    by_cases h : t = v
    · subst h
      rw [if_neg hv, if_pos (List.mem_cons_self ..), level_refillOne_same]
    · simp only [List.mem_cons, h, false_or, refilled_refillOne v64 ht h]
      rw [show level (refillOne s v) t = level s t from level_setLevel_other v64 ht h]

/-- A refill sets every level that has not fallen below its floor to min(level + RATE, BURST). -/
theorem level_refillLevels (ht : t < 64) (low : -(2 ^ 47) ≤ level s t) : level (refillLevels s) t = refilled s t := by
  rw [refillLevels_eq, level_foldl_refillOne List.nodup_range (fun _ => List.mem_range.mp) ht, if_pos (List.mem_range.mpr ht)]
  unfold refilled
  omega

theorem refillLevels_quiet : Frame [] s (refillLevels s) := .foldl (fun _ _ => wr_quiet _ plain1) _ _

/-- The count of refills is no register, and in no area. -/
theorem level_setRefills {n : Nat} : level { s with refills := n } t = level s t := rfl
theorem setRefills_quiet {n : Nat} : Frame [] s { s with refills := n } := .of_core rfl

/-! ### The waiting heads are evaluated again -/

theorem Frame.headHold {ps : List Area} {a : State} (h : Frame ps s a) (l : List Nat) (n : Area.cohorts ∉ ps := by decide) :
    headHold a l = headHold s l := by
  unfold Machine.headHold
  rw [show cohort? a = cohort? s from funext fun co => h.cohort co n]

/-- With no head waiting nothing is evaluated. -/
theorem recheckHeads_of_noneWaits {ks : List Nat} (h : ∀ t c, t < 64 → c < 4 → headHold s (admQueue s t c) = 0) :
    recheckHeads s ks = s := by
  unfold recheckHeads
  have none : ((((List.range 256).map fun i => (s.scan.next + i) % 256).filter fun k => ks.contains k).filter fun k =>
      headHold s (admQueue s (k / 4) (k % 4)) != 0) = [] := by
    refine List.filter_eq_nil_iff.mpr fun k hk => ?_
    obtain ⟨i, -, rfl⟩ := List.mem_map.mp (List.mem_of_mem_filter hk)
    simp only [h ((s.scan.next + i) % 256 / 4) ((s.scan.next + i) % 256 % 4) (by omega) (by omega), bne_self_eq_false,
      Bool.false_eq_true, not_false_iff]
  rw [none]
  rfl

theorem execBudgetRefill_due (hs : serving s = true) (hdue : s.refills < s.qTime / 500000) : execBudgetRefill s =
    .next (recheckHeads { refillLevels s with refills := s.refills + 1 }
      (((refillLevels s).admQ.filter fun e => e.2 != []).map (·.1))) := by
  unfold execBudgetRefill
  rw [hs]
  exact if_neg (by simpa using hdue)

end Sys2Proof.Machine
end

section
set_option Elab.async false
/-! ## Requests that only end (R15, R215, R303) -/
namespace Sys2Proof.Machine
variable {s t u : State} {i : Nat} {r : Req}

/-- Between `s` and `u` requests and cohorts only leave: a cohort that is still there keeps its state and gains no member,
a request keeps its times and what was submitted, and none becomes ARRIVED. -/
structure OnlyEnds (s u : State) : Prop where
  qTime : u.qTime = s.qTime
  cohort : ∀ co c', cohort? u co = some c' → ∃ c, cohort? s co = some c ∧ c'.st = c.st ∧
    ∀ i ∈ c'.members, i ∈ c.members
  req : ∀ i r', req? u i = some r' → ∃ r, req? s i = some r ∧ r'.sub = r.sub ∧ r'.arrival = r.arrival ∧
    (r'.st = .arrived → r.st = .arrived)

namespace OnlyEnds

theorem refl (s : State) : OnlyEnds s s :=
  ⟨rfl, fun _ c h => ⟨c, h, rfl, fun _ hi => hi⟩, fun _ r h => ⟨r, h, rfl, rfl, id⟩⟩

theorem trans (h : OnlyEnds s t) (g : OnlyEnds t u) : OnlyEnds s u where
  qTime := g.qTime.trans h.qTime
  cohort co c'' hc'' := by
    obtain ⟨c', hc', hst', sub'⟩ := g.cohort co c'' hc''
    obtain ⟨c, hc, hst, sub⟩ := h.cohort co c' hc'
    exact ⟨c, hc, hst'.trans hst, fun i hi => sub i (sub' i hi)⟩
  req i r'' hr'' := by
    obtain ⟨r', hr', hsub', harr', hst'⟩ := g.req i r'' hr''
    obtain ⟨r, hr, hsub, harr, hst⟩ := h.req i r' hr'
    exact ⟨r, hr, hsub'.trans hsub, harr'.trans harr, fun e => hst (hst' e)⟩

/-- As `trans`, the last operation first. -/
theorem after (g : OnlyEnds t u) (h : OnlyEnds s t) : OnlyEnds s u := h.trans g

theorem ite {P : Prop} [Decidable P] (h : OnlyEnds s t) (g : OnlyEnds s u) : OnlyEnds s (if P then t else u) := by
  split
  · exact h
  · exact g

theorem foldl {α : Type} {f : State → α → State} (h : ∀ a x, OnlyEnds a (f a x)) (l : List α) (s : State) :
    OnlyEnds s (l.foldl f s) :=
  List.foldlRecOn (motive := OnlyEnds s) _ _ (refl s) fun _ hu x _ => hu.trans (h _ x)

theorem setReq {r' : Req} (h : req? s i = some r) (hsub : r'.sub = r.sub) (harr : r'.arrival = r.arrival)
    (hst : r'.st = .arrived → r.st = .arrived) : OnlyEnds s (setReq s i (some r')) where
  qTime := rfl
  cohort co c hc := ⟨c, hc, rfl, fun _ hi => hi⟩
  req j x hx := by
    rw [req_setReq] at hx
    split at hx
    · next e => subst e; cases hx; exact ⟨r, h, hsub, harr, hst⟩
    · exact ⟨x, hx, rfl, rfl, id⟩

theorem setCohort {co : Nat} {x : Option Cohort}
    (hx : ∀ c', x = some c' → ∃ c, cohort? s co = some c ∧ c'.st = c.st ∧ ∀ i ∈ c'.members, i ∈ c.members) :
    OnlyEnds s (setCohort s co x) where
  qTime := rfl
  cohort co' c' hc' := by
    rw [cohort_setCohort] at hc'
    split at hc'
    · next e => subst e; exact hx c' hc'
    · exact ⟨c', hc', rfl, fun _ hi => hi⟩
  req _ r hr := ⟨r, hr, rfl, rfl, id⟩

end OnlyEnds

theorem Frame.onlyEnds {ps : List Area} (h : Frame ps s u) (hr : Area.reqs ∉ ps := by decide)
    (hc : Area.cohorts ∉ ps := by decide) (ht : Area.clocks ∉ ps := by decide) : OnlyEnds s u where
  qTime := h.qTime ht
  cohort co c' e := ⟨c', (h.cohort co hc).symm.trans e, rfl, fun _ hi => hi⟩
  req i r' e := ⟨r', (h.req i hr).symm.trans e, rfl, rfl, id⟩

/-! ### The end of one request -/

theorem releaseShares_onlyEnds : OnlyEnds s (releaseShares s r) := by
  unfold releaseShares
  split
  · next c k hc hk =>
    exact .ite (.after (lower_quiet plain1).onlyEnds (.after (.setCohort fun c' e => by
      cases e; exact ⟨c, ((lower_quiet plain1).cohort _).trans hc, rfl, fun _ hi => hi⟩) (lower_quiet plain1).onlyEnds))
      (.refl s)
  · exact .refl s

theorem giveShares_onlyEnds : OnlyEnds s (giveShares s i r) :=
  .after countEnd_quiet.onlyEnds (.after releaseShares_onlyEnds
    (Frame.after (ps := [.lanes, .held]) leaveNext_frame.up dropWaits_frame.up).onlyEnds)

theorem releaseReq_onlyEnds : OnlyEnds s (releaseReq s i r) := by
  have freed (f : PageUse → Bool) (n : Nat) : OnlyEnds s (credit (freeWhere s (r.ctx / 32) f) r.tenant n) :=
    (Frame.after (ps := []) credit_quiet freeWhere_quiet).onlyEnds
  unfold releaseReq
  dsimp only
  split
  · exact freed _ _
  · split
    · next h => exact .after (.setReq h rfl rfl id) (.after credit_quiet.onlyEnds (freed _ _))
    · exact .after credit_quiet.onlyEnds (freed _ _)

theorem dropMember_onlyEnds : OnlyEnds s (dropMember s i r) := by
  unfold dropMember
  split
  · exact .refl s
  · next c hc =>
    dsimp only
    refine .ite (.after (Frame.onlyEnds (ps := [.admQ]) (.after showHold_quiet.up setAdmQueue_frame)) ?_) ?_
    · exact .setCohort fun _ e => by cases e
    · exact .setCohort fun _ e => by cases e; exact ⟨c, hc, rfl, fun _ hi => List.mem_of_mem_filter hi⟩

/-- What is counted after a member has left its cohort. -/
theorem leaveCohort_afterDrop {a : State} {st : ReqState} {code : Nat} {n : Bool} :
    Frame [] (dropMember a i r) (leaveCohort s a i r st code n) := by
  have refused (P : Prop) [Decidable P] (k : Nat) (b : State) :
      Frame [] b (if P then bump b (Reg.PRT_ACCT_REJ_REJ r.tenant k) 1 else b) := .ite (bump_quiet plain2) (.refl _)
  unfold leaveCohort
  cases endCounter st code with
  | none => exact noteEnded_quiet.trans (.after noteDue_quiet (refused _ _ _))
  | some k => exact noteEnded_quiet.trans (.trans (.ite (bump_quiet plain2) (.refl _)) (.after noteDue_quiet (refused _ _ _)))

theorem leaveLive_onlyEnds {st : ReqState} {code : Nat} {n : Bool} (hst : st ≠ .arrived) :
    OnlyEnds s (leaveLive s i r st code n) := by
  have left : OnlyEnds s (leaveCohort s (releaseReq (giveShares s i r) i r) i r st code n) :=
    .after leaveCohort_afterDrop.onlyEnds (.after dropMember_onlyEnds (.after releaseReq_onlyEnds giveShares_onlyEnds))
  rw [leaveLive_eq]
  dsimp only
  split
  · next r' h => exact .after (.setReq h rfl rfl fun e => absurd e hst) left
  · exact left

theorem endReq_onlyEnds {st : ReqState} {code : Nat} (hst : st ≠ .arrived) : OnlyEnds s (endReq s i st code false) := by
  cases h : req? s i with
  | none => rw [endReq_none st code h]; exact .refl s
  | some r =>
    cases hl : isLive r.st with
    | false => rw [endReq_dead st code h hl]; exact .refl s
    | true =>
      rw [endReq_live st code h hl]
      exact .after queueRec_frame.onlyEnds (.after (leaveLive_onlyEnds hst) useEntry_quiet.onlyEnds)

theorem rejectCohort_none {co code : Nat} (h : cohort? s co = none) : rejectCohort s co code = s := by
  simp [rejectCohort, h]

theorem rejectCohort_onlyEnds {co code : Nat} : OnlyEnds s (rejectCohort s co code) := by
  cases hc : cohort? s co with
  | none => rw [rejectCohort_none hc]; exact .refl s
  | some c =>
    rw [rejectCohort_eq hc]
    exact .after noteRejected_quiet.onlyEnds (.after setAdmQueue_frame.onlyEnds (.after (.setCohort fun _ e => by cases e)
      (.foldl (fun _ _ => endReq_onlyEnds (by decide)) _ _)))

/-! ### The scan for late cohorts -/

/-- An ARRIVED member of the cohort is past its queue deadline. -/
def isLate (s : State) (c : Cohort) : Bool := (arrivedMembers s c).any fun x => pastQueueDeadline x.2 s.qTime

/-- A cohort does not become late as others leave. -/
theorem isLate_of_onlyEnds {c c' : Cohort} (h : OnlyEnds s u) (sub : ∀ i ∈ c'.members, i ∈ c.members)
    (late : isLate u c' = true) : isLate s c = true := by
  obtain ⟨⟨i, r'⟩, hi, past⟩ := List.any_eq_true.mp late
  obtain ⟨hmem, hr', hst'⟩ := mem_arrivedMembers.mp hi
  obtain ⟨r, hr, hsub, harr, hst⟩ := h.req i r' hr'
  refine List.any_eq_true.mpr ⟨(i, r), mem_arrivedMembers.mpr ⟨sub i hmem, hr, hst hst'⟩, ?_⟩
  have same : pastQueueDeadline r' u.qTime = pastQueueDeadline r s.qTime := by
    rw [pastQueueDeadline, ttftDeadline, totalDeadline, hsub, harr, h.qTime]
    rfl
  exact same ▸ past

/-- The scan's turn of one entry of the cohort table. -/
def scanLate (a : State) (e : Nat × Option Cohort) : State :=
  match e.2 with
  | some c =>
    if c.st = .queued ∧ (arrivedMembers a c).any (fun x => pastQueueDeadline x.2 a.qTime) then
      rejectCohort a e.1 (if c.hold = 0 then 0x0202 else holdCode c.hold)
    else a
  | none => a

theorem execQueueDeadlineScan_eq (hs : serving s = true) :
    execQueueDeadlineScan s = .next (s.cohorts.foldl scanLate s) := by
  unfold execQueueDeadlineScan
  rw [hs]
  rfl

theorem scanLate_late {co : Nat} {c : Cohort} (hq : c.st = .queued) (late : isLate s c = true) :
    scanLate s (co, some c) = rejectCohort s co (if c.hold = 0 then 0x0202 else holdCode c.hold) := if_pos ⟨hq, late⟩

theorem scanLate_inTime {e : Nat × Option Cohort} (h : ∀ c, e.2 = some c → c.st = .queued → isLate s c = false) :
    scanLate s e = s := by
  obtain ⟨co, x⟩ := e
  cases x with
  | none => rfl
  | some c => exact if_neg fun ⟨hq, late⟩ => Bool.noConfusion ((h c rfl hq).symm.trans late)

theorem scanLate_onlyEnds {e : Nat × Option Cohort} : OnlyEnds s (scanLate s e) := by
  unfold scanLate
  split
  · exact .ite rejectCohort_onlyEnds (.refl s)
  · exact .refl s

theorem foldl_scanLate_onlyEnds {l : List (Nat × Option Cohort)} : OnlyEnds s (l.foldl scanLate s) :=
  .foldl (fun _ _ => scanLate_onlyEnds) l s

/-- Where no queued cohort is late the scan changes nothing. -/
theorem foldl_scanLate_inTime {l : List (Nat × Option Cohort)}
    (h : ∀ e ∈ l, ∀ c, e.2 = some c → c.st = .queued → isLate s c = false) : l.foldl scanLate s = s := by
  induction l with
  | nil => rfl
  | cons e l ih =>
    rw [List.foldl_cons, scanLate_inTime (h e (List.mem_cons_self ..))]
    exact ih fun e he => h e (List.mem_cons_of_mem _ he)

/-- After the turn of its entry a queued cohort is not late. -/
theorem scanLate_leavesInTime {co : Nat} {c c' : Cohort} (was : OnlyEnds s t)
    (hc : cohort? s co = some c) (later : OnlyEnds (scanLate t (co, some c)) u) (hc' : cohort? u co = some c')
    (hq : c'.st = .queued) : isLate u c' = false := by
  by_contra hlate
  have late : isLate u c' = true := by simpa using hlate
  have all : OnlyEnds s u := (was.trans scanLate_onlyEnds).trans later
  obtain ⟨c0, hc0, hst, sub⟩ := all.cohort co c' hc'
  obtain rfl : c = c0 := Option.some.inj (hc.symm.trans hc0)
  have lateThen : isLate t c = true := isLate_of_onlyEnds (scanLate_onlyEnds.trans later) sub late
  have gone : cohort? (scanLate t (co, some c)) co = none := by
    rw [scanLate_late (hst.symm.trans hq) lateThen]
    cases ht : cohort? t co with
    | none => rw [rejectCohort_none ht, ht]
    | some ct => exact (rejectCohort_gone ht).1
  obtain ⟨x, hx, -⟩ := later.cohort co c' hc'
  cases gone.symm.trans hx

theorem foldl_scanLate_leavesInTime {l : List (Nat × Option Cohort)} {co : Nat} {c c' : Cohort} (was : OnlyEnds s t)
    (hc : cohort? s co = some c) (he : (co, some c) ∈ l) (hc' : cohort? (l.foldl scanLate t) co = some c')
    (hq : c'.st = .queued) : isLate (l.foldl scanLate t) c' = false := by
  induction l generalizing t with
  | nil => cases he
  | cons e l ih =>
    rcases List.mem_cons.mp he with rfl | he
    · exact scanLate_leavesInTime was hc foldl_scanLate_onlyEnds hc' hq
    · exact ih (was.trans scanLate_onlyEnds) he hc'

/-- A cohort of the table is listed. -/
theorem mem_cohorts {co : Nat} {c : Cohort} (h : cohort? s co = some c) : (co, some c) ∈ s.cohorts := by
  have e : spGet (fun _ => none) s.cohorts co = some c := h
  have listed := mem_of_spGet (d := fun _ => none) (l := s.cohorts) (k := co) (by rw [e]; exact Option.some_ne_none c)
  rwa [e] at listed

/-- The scan leaves no late cohort queued. -/
theorem scan_leavesInTime {co : Nat} {c : Cohort} (h : cohort? (s.cohorts.foldl scanLate s) co = some c) (hq : c.st = .queued) :
    isLate (s.cohorts.foldl scanLate s) c = false := by
  obtain ⟨c0, hc0, -⟩ := foldl_scanLate_onlyEnds.cohort co c h
  exact foldl_scanLate_leavesInTime (.refl s) hc0 (mem_cohorts hc0) h hq

end Sys2Proof.Machine
end

section
set_option Elab.async false
/-! ## Deadlines of admitted requests (R34) -/
namespace Sys2Proof.Machine
variable {s t u : State} {i : Nat} {r : Req}

/-! ### Plans and compositions as requests end -/

/-- A step of partition `p` has the sequence of handle `h` in its plan. -/
def planned (s : State) (p h : Nat) : Bool := (stepsOf s p).any fun st => st.plan.any fun it => it.seqs.contains h

theorem planned_iff {p h : Nat} : planned s p h = true ↔ ∃ st ∈ stepsOf s p, ∃ it ∈ st.plan, h ∈ it.seqs := by
  simp [planned]

theorem inPlan_eq : inPlan s i r = planned s (r.ctx / 32) (hnat i r) := rfl

/-- Between `s` and `u` no plan gains a sequence, and compositions stay. -/
structure KeepsPlans (s u : State) : Prop where
  qTime : u.qTime = s.qTime
  composing : ∀ p, (lane u p).composing = (lane s p).composing
  powerWait : ∀ p, (lane u p).powerWait = (lane s p).powerWait
  planned : ∀ p h, planned u p h = true → planned s p h = true

namespace KeepsPlans

theorem refl (s : State) : KeepsPlans s s := ⟨rfl, fun _ => rfl, fun _ => rfl, fun _ _ => id⟩

theorem after (g : KeepsPlans t u) (h : KeepsPlans s t) : KeepsPlans s u :=
  ⟨g.qTime.trans h.qTime, fun p => (g.composing p).trans (h.composing p), fun p => (g.powerWait p).trans (h.powerWait p),
    fun p x e => h.planned p x (g.planned p x e)⟩

theorem inPlan (h : KeepsPlans s u) (e : inPlan s i r = false) : Machine.inPlan u i r = false := by
  rw [inPlan_eq] at e ⊢
  exact Bool.eq_false_iff.mpr fun e' => Bool.eq_false_iff.mp e (h.planned _ _ e')

theorem inCompose (h : KeepsPlans s u) : inCompose u i r = inCompose s i r := by
  unfold Machine.inCompose
  dsimp only
  rw [h.composing, h.powerWait]

end KeepsPlans

theorem Frame.keepsPlans {ps : List Area} (h : Frame ps s u) (hl : Area.lanes ∉ ps := by decide)
    (ht : Area.clocks ∉ ps := by decide) : KeepsPlans s u where
  qTime := h.qTime ht
  composing p := by rw [h.lane p hl]
  powerWait p := by rw [h.lane p hl]
  planned p x e := by
    unfold Machine.planned stepsOf at e ⊢
    rwa [h.lane p hl] at e

/-- A lane whose waiting step loses sequences, or leaves. -/
theorem setLane_keepsPlans {p : Nat} {l : Lane} (hcomp : l.composing = (lane s p).composing)
    (hwait : l.powerWait = (lane s p).powerWait) (hcur : l.cur = (lane s p).cur) (hpre : l.pre = (lane s p).pre)
    (hnext : ∀ st ∈ l.nextStep, ∃ st0 ∈ (lane s p).nextStep, ∀ it ∈ st.plan, ∃ it0 ∈ st0.plan,
      ∀ h ∈ it.seqs, h ∈ it0.seqs) :
    KeepsPlans s (setLane s p l) where
  qTime := rfl
  composing q := by
    rw [lane_setLane]; split
    · next e => rw [e, hcomp]
    · rfl
  powerWait q := by
    rw [lane_setLane]; split
    · next e => rw [e, hwait]
    · rfl
  planned q x e := by
    rw [planned_iff] at e ⊢
    obtain ⟨st, hst, it, hit, hx⟩ := e
    unfold stepsOf at hst ⊢
    rw [lane_setLane] at hst
    split at hst
    · next hq =>
      subst hq
      rw [hcur, hpre] at hst
      simp only [List.mem_append, Option.mem_toList] at hst ⊢
      rcases hst with (hst | hst) | hst
      · exact ⟨st, .inl (.inl hst), it, hit, hx⟩
      · obtain ⟨st0, hst0, plan⟩ := hnext st hst
        obtain ⟨it0, hit0, seqs⟩ := plan it hit
        exact ⟨st0, .inl (.inr hst0), it0, hit0, seqs x hx⟩
      · exact ⟨st, .inr hst, it, hit, hx⟩
    · exact ⟨st, hst, it, hit, hx⟩

theorem leaveNext_keepsPlans {p h : Nat} : KeepsPlans s (leaveNext s p h) := by
  unfold leaveNext
  dsimp only
  split
  · exact .refl s
  · next st hnext =>
    split
    · exact .refl s
    · have freed (f : PageUse → Bool) : lane (freeWhere s p f) p = lane s p := freeWhere_quiet.lane p
      split
      · exact .after (setLane_keepsPlans (by rw [freed]) (by rw [freed]) (by rw [freed]) (by rw [freed]) fun _ e => by cases e)
          freeWhere_quiet.keepsPlans
      · refine .after (setLane_keepsPlans (by rw [freed]) (by rw [freed]) (by rw [freed]) (by rw [freed]) fun st' e => ?_)
          freeWhere_quiet.keepsPlans
        cases e
        refine ⟨st, by rw [freed]; exact hnext, fun it hit => ?_⟩
        obtain ⟨it0, hit0, rfl⟩ := List.mem_map.mp (List.mem_of_mem_filter hit)
        exact ⟨it0, hit0, fun _ hx => List.mem_of_mem_filter hx⟩

theorem giveShares_keepsPlans : KeepsPlans s (giveShares s i r) :=
  .after (Frame.after (ps := [.cohorts]) countEnd_quiet.up releaseShares_frame).keepsPlans
    (.after leaveNext_keepsPlans dropWaits_frame.keepsPlans)

theorem leaveLive_keepsPlans {st : ReqState} {code : Nat} {n : Bool} : KeepsPlans s (leaveLive s i r st code n) := by
  have left : KeepsPlans s (leaveCohort s (releaseReq (giveShares s i r) i r) i r st code n) :=
    .after leaveCohort_frame.keepsPlans (.after releaseReq_frame.keepsPlans giveShares_keepsPlans)
  rw [leaveLive_eq]
  dsimp only
  split
  · exact .after setReq_frame.keepsPlans left
  · exact left

theorem endReq_keepsPlans {st : ReqState} {code : Nat} : KeepsPlans s (endReq s i st code false) := by
  cases h : req? s i with
  | none => rw [endReq_none st code h]; exact .refl s
  | some r =>
    cases hl : isLive r.st with
    | false => rw [endReq_dead st code h hl]; exact .refl s
    | true =>
      rw [endReq_live st code h hl]
      exact .after queueRec_frame.keepsPlans (.after leaveLive_keepsPlans useEntry_quiet.keepsPlans)

/-! ### The check of one entry -/

/-- The request `r` in entry `i` is to expire: from ADMITTED on, in no plan and no composition, past its deadline. -/
def expires (s : State) (i : Nat) (r : Req) : Bool :=
  isAdmitted r.st && !inPlan s i r && !inCompose s i r && pastDeadline r s.qTime

/-- The check of one entry. -/
def expireDue (a : State) (i : Nat) : State :=
  match req? a i with
  | some r => if expires a i r then expireOut a i a.qTime else a
  | none => a

theorem execDeadlineCheck_eq (hs : serving s = true) :
    execDeadlineCheck s = .next (((allReqs s).map (·.1)).foldl expireDue s) := by
  unfold execDeadlineCheck
  rw [hs, List.foldl_map]
  rfl

/-- An entry whose request does not expire is left alone. -/
theorem expireDue_stays (h : ∀ r, req? s i = some r → expires s i r = false) : expireDue s i = s := by
  unfold expireDue
  cases hr : req? s i with
  | none => rfl
  | some r => exact if_neg (by simp [h r hr])

/-- A request that expires ends EXPIRED. -/
theorem expireDue_expires (hr : req? s i = some r) (h : expires s i r = true) :
    ∃ code, expireDue s i = endReq s i .expired code false := by
  unfold expireDue
  simp only [hr, h, if_true, expireOut]
  exact ⟨_, rfl⟩

theorem isLive_of_isAdmitted {x : ReqState} (h : isAdmitted x = true) : isLive x = true := by
  revert h; cases x <;> decide

theorem isAdmitted_of_expires (h : expires s i r = true) : isAdmitted r.st = true := by
  simp only [expires, Bool.and_eq_true] at h
  exact h.1.1.1

theorem expireDue_reqIs (hr : req? s i = some r) (h : expires s i r = true) : ReqIs i .expired (expireDue s i) := by
  obtain ⟨code, e⟩ := expireDue_expires hr h
  rw [e]
  exact endReq_reqIs .expired code ⟨r, hr, rfl⟩ (isLive_of_isAdmitted (isAdmitted_of_expires h))

/-- The check of an entry leaves it alone, or ends its request. -/
theorem expireDue_cases (s : State) (i : Nat) :
    expireDue s i = s ∨ ∃ code, expireDue s i = endReq s i .expired code false := by
  cases hr : req? s i with
  | none => exact .inl (expireDue_stays fun r h => by cases hr.symm.trans h)
  | some r =>
    cases h : expires s i r with
    | true => exact .inr (expireDue_expires hr h)
    | false => exact .inl (expireDue_stays fun r' h' => by cases hr.symm.trans h'; exact h)

theorem expireDue_onlyReq (s : State) (i : Nat) : Only req? i s (expireDue s i) := by
  rcases expireDue_cases s i with e | ⟨code, e⟩ <;> rw [e]
  · exact .refl s
  · exact endReq_onlyReq s i _ _

theorem expireDue_keepsPlans : KeepsPlans s (expireDue s i) := by
  rcases expireDue_cases s i with e | ⟨code, e⟩ <;> rw [e]
  · exact .refl s
  · exact endReq_keepsPlans

/-- What is to expire stays so while others end. -/
theorem KeepsPlans.expires (k : KeepsPlans s u) (h : expires s i r = true) : expires u i r = true := by
  simp only [Machine.expires, Bool.and_eq_true, Bool.not_eq_true'] at h ⊢
  obtain ⟨⟨⟨admitted, plan⟩, compose⟩, past⟩ := h
  exact ⟨⟨⟨admitted, k.inPlan plan⟩, k.inCompose.trans compose⟩, k.qTime ▸ past⟩

/-! ### The check of every entry -/

theorem foldl_expireDue_reqIs {l : List Nat} (hi : i ∈ l) (hr : req? s i = some r) (h : expires s i r = true) :
    ReqIs i .expired (l.foldl expireDue s) := by
  have stays (a : State) (j : Nat) (e : ReqIs i .expired a) : ReqIs i .expired (expireDue a j) := by
    by_cases hj : i = j
    · subst hj
      obtain ⟨x, hx, hst⟩ := id e
      rwa [expireDue_stays fun y hy => by
        obtain rfl : x = y := Option.some.inj (hx.symm.trans hy)
        simp [expires, hst, isAdmitted]]
    · exact e.other (expireDue_onlyReq a j) hj
  induction l generalizing s with
  | nil => cases hi
  | cons j l ih =>
    rw [List.foldl_cons]
    by_cases hj : i = j
    · subst hj
      exact List.foldlRecOn (motive := ReqIs i .expired) _ _ (expireDue_reqIs hr h) fun _ e j _ => stays _ j e
    · exact ih ((List.mem_cons.mp hi).resolve_left hj) ((expireDue_onlyReq s j i hj).trans hr) (expireDue_keepsPlans.expires h)

/-- A request that is not admitted, or not past its deadline, is left as it is. -/
theorem foldl_expireDue_same {l : List Nat} (hr : req? s i = some r)
    (h : pastDeadline r s.qTime = false ∨ isAdmitted r.st = false) : req? (l.foldl expireDue s) i = some r := by
  induction l generalizing s with
  | nil => exact hr
  | cons j l ih =>
    refine ih ?_ (by rwa [expireDue_keepsPlans.qTime])
    by_cases hj : i = j
    · subst hj
      rwa [expireDue_stays fun r' hr' => by
        obtain rfl : r = r' := Option.some.inj (hr.symm.trans hr')
        rcases h with h | h <;> simp [expires, h]]
    · exact (expireDue_onlyReq s j i hj).trans hr

/-- An entry in use stays in use. -/
theorem foldl_expireDue_isSome {l : List Nat} (h : ∃ x, ReqIs i x s) : ∃ x, ReqIs i x (l.foldl expireDue s) := by
  refine List.foldlRecOn (motive := fun a => ∃ x, ReqIs i x a) _ _ h fun a ⟨x, hx⟩ j _ => ?_
  by_cases hj : i = j
  · subst hj
    obtain ⟨r, hr, -⟩ := id hx
    cases he : expires a i r with
    | true => exact ⟨_, expireDue_reqIs hr he⟩
    | false =>
      rw [expireDue_stays fun r' hr' => by cases hr.symm.trans hr'; exact he]
      exact ⟨x, hx⟩
  · exact ⟨x, hx.other (expireDue_onlyReq a j) hj⟩

/-- A request of the table is listed. -/
theorem mem_allReqs (h : req? s i = some r) : i ∈ (allReqs s).map (·.1) := by
  have e : spGet (fun _ => none) s.reqs i = some r := h
  have listed := mem_of_spGet (d := fun _ => none) (l := s.reqs) (k := i) (by rw [e]; exact Option.some_ne_none r)
  rw [e] at listed
  exact List.mem_map.mpr ⟨(i, r), List.mem_filterMap.mpr ⟨_, listed, rfl⟩, rfl⟩

end Sys2Proof.Machine
end

section
set_option Elab.async false
/-! ## Masks that have been copied (R247, R298, R348) -/
namespace Sys2Proof.Machine
variable {s u : State} {i j : Nat} {r : Req}

/-! ### The group led here -/

theorem ledGroup_congr {g : Nat} (hctx : u.ctxs = s.ctxs) (hgroups : u.groups = s.groups)
    (hreg : ∀ n, rd u (Reg.CZL_GROUP n) = rd s (Reg.CZL_GROUP n)) : ledGroup u g = ledGroup s g := by
  have leads (n : Nat) : groupLeads u n = groupLeads s n := by
    unfold groupLeads groupFormed isSet getF
    rw [show rd u (Reg.CZL_GROUP_STATE n).key = _ from hreg n, show rd u (Reg.CZL_GROUP_ROLE n).key = _ from hreg n]
    rfl
  unfold ledGroup ctx? group?
  simp only [leads, hctx, hgroups]

/-- A register of another block does not say what is led here. -/
theorem ledGroup_setF {f : Fld} {x g : Nat} (h : f.key / 0x100000 ≠ 11) : ledGroup (setF s f x) g = ledGroup s g :=
  ledGroup_congr rfl rfl fun n => rd_setF_other s x (by unfold Reg.CZL_GROUP; omega)

theorem ledGroup_chargeTenant {t k n g : Nat} : ledGroup (chargeTenant s t k n) g = ledGroup s g := by
  have level (p : Nat) (x : Int) : ledGroup (setRegLevel s p k x) g = ledGroup s g :=
    ledGroup_setF (show Reg.PRT_REG_LEVEL p k / 0x100000 ≠ 11 by unfold Reg.PRT_REG_LEVEL; omega)
  unfold chargeTenant chargeOnly
  split
  · split
    · exact level _ _
    · rfl
  · rfl

/-! ### The sampler page -/

/-- Writing a sampler page writes memory and its ECC and nothing else. -/
theorem writeSampler_fields (s : State) (i : Nat) : ∃ m e, writeSampler s i = { s with dram := m, ecc := e } := by
  unfold writeSampler
  cases req? s i with
  | none => exact ⟨s.dram, s.ecc, rfl⟩
  | some r =>
    cases hp : r.maskPage with
    | none => simp only [hp]; exact ⟨s.dram, s.ecc, rfl⟩
    | some pg =>
      simp only [hp]
      refine List.foldlRecOn (motive := fun u : State => ∃ m e, u = { s with dram := m, ecc := e }) _ _
        ⟨(zeroPage s (r.ctx / 32) pg).dram, (zeroPage s (r.ctx / 32) pg).ecc, rfl⟩ fun u hu x _ => ?_
      obtain ⟨m, e, rfl⟩ := hu
      obtain ⟨m', e', h⟩ := storePart_fields (r.ctx / 32) [x.2] { s with dram := m, ecc := e } _
      exact ⟨m', e', h⟩

/-- In no group led here no copy of the sampler page leaves. -/
theorem copySampler_alone (hr : req? s i = some r) (h : ledGroup s r.ctx = none) : copySampler s i = (s, false) := by
  unfold copySampler
  simp only [hr, h]

/-! ### The end of a copy -/

/-- The request whose mask has come, with its bias and stop lists taken modulo the vocabulary (R247, R298, R348). -/
def masked (k : Pkg) (mb eb : List Byte) (r : Req) : Req :=
  let b0 := if r.sub.extAddr = 0 then [] else extBias r.sub eb
  let t0 := if r.sub.extAddr = 0 then [] else extStops r.sub eb
  { r with
    mask := mb.take (ceilDiv k.vocab 8), maskReady := true, bias := b0.map fun e => (e.1 % k.vocab, e.2),
    stops := t0.map fun x => x.map (· % k.vocab) }

/-- The entries of the bias and stop lists that changed (R348). -/
def mutations (k : Pkg) (eb : List Byte) (r : Req) : Nat :=
  let b0 := if r.sub.extAddr = 0 then [] else extBias r.sub eb
  let t0 := if r.sub.extAddr = 0 then [] else extStops r.sub eb
  mutated k.vocab (b0.map (·.1)) + mutated k.vocab t0.flatten

/-- The mask of the request `r` in entry `i` has come and is counted; its sampler page is not written. -/
def maskTaken (s : State) (i : Nat) (r : Req) (k : Pkg) (mb eb : List Byte) : State :=
  bump (setReq (chargeTenant s r.tenant 1 eb.length) i (some (masked k mb eb r))) (Reg.TRC_TEN_COUNT r.tenant 8)
    (mutations k eb r)

/-- The mask is stored, and the sampler page written. -/
def maskStored (s : State) (i : Nat) (r : Req) (k : Pkg) (mb eb : List Byte) : State :=
  writeSampler (maskTaken s i r k mb eb) i

theorem maskTaken_req {k : Pkg} {mb eb : List Byte} :
    req? (maskTaken s i r k mb eb) j = if j = i then some (masked k mb eb r) else req? s j := by
  rw [maskTaken, (bump_quiet plain2).req, req_setReq, chargeTenant_quiet.req]

theorem writeSampler_frame : Frame [.dram] s (writeSampler s i) := by
  obtain ⟨m, e, h⟩ := writeSampler_fields s i
  rw [h]
  intro q hq
  cases q with
  | dram => simp at hq
  | _ => rfl

theorem maskStored_req {k : Pkg} {mb eb : List Byte} :
    req? (maskStored s i r k mb eb) j = if j = i then some (masked k mb eb r) else req? s j :=
  (writeSampler_frame.req j).trans maskTaken_req

theorem maskStored_cohort {k : Pkg} {mb eb : List Byte} (co : Nat) :
    cohort? (maskStored s i r k mb eb) co = cohort? s co :=
  Frame.cohort (ps := [.dram, .reqs]) (.after writeSampler_frame.up (.after (bump_quiet plain2).up
    (.after setReq_frame.up chargeTenant_quiet.up))) co

theorem maskStored_ledGroup {k : Pkg} {mb eb : List Byte} {g : Nat} :
    ledGroup (maskStored s i r k mb eb) g = ledGroup s g := by
  have taken : ledGroup (maskTaken s i r k mb eb) g = ledGroup s g :=
    (ledGroup_setF (by show Reg.TRC_TEN r.tenant 8 / 0x100000 ≠ 11; unfold Reg.TRC_TEN; omega)).trans
      ((ledGroup_congr rfl rfl fun _ => rfl).trans ledGroup_chargeTenant)
  obtain ⟨m, e, h⟩ := writeSampler_fields (maskTaken s i r k mb eb) i
  rw [maskStored, h, ← taken]
  exact ledGroup_congr rfl rfl fun _ => rfl

section
variable {c : Cohort} {k : Pkg} (hr : req? s i = some r) (hc : cohort? s r.cohort = some c) (hk : pkgOf s r.slot = some k)
  (copying : c.st = .copying) (arrived : r.st = .arrived) (missing : r.maskReady = false)
  (dma : canDma s (tenantFn s r.tenant) = true)
include hr hc hk copying arrived missing dma

theorem execMaskCopyDone_failed (ext : Option (List Byte)) :
    execMaskCopyDone i none ext s = .next (rejectCohort s r.cohort 0x0208) := by
  simp [execMaskCopyDone, hr, hc, hk, copying, arrived, missing, dma]

/-- A copy that is over stores the mask; in no group led here nothing else keeps the cohort from being admitted. -/
theorem execMaskCopyDone_copied {mb : List Byte} {ext : Option (List Byte)} (finished : copyWaits s i r = false)
    (hext : r.sub.extAddr = 0 ∨ ext.isSome = true) (alone : ledGroup s r.ctx = none) :
    execMaskCopyDone i (some mb) ext s = .next (admitCopied (maskStored s i r k mb (ext.getD [])) r.cohort) := by
  have copied : copySampler (maskStored s i r k mb (ext.getD [])) i = (maskStored s i r k mb (ext.getD []), false) :=
    copySampler_alone (r := masked k mb (ext.getD []) r) (maskStored_req.trans (if_pos rfl)) (maskStored_ledGroup.trans alone)
  have lists : ¬(r.sub.extAddr ≠ 0 ∧ ext.isNone = true) := by
    rintro ⟨h, e⟩
    rcases hext with h' | h'
    · exact h h'
    · rw [Option.isNone_iff_eq_none.mp e] at h'; cases h'
  unfold execMaskCopyDone
  simp only [hr, hc, hk]
  rw [if_neg (by simp [copying, arrived, missing, dma, finished]), if_neg lists]
  exact congrArg (fun e : State × Bool => Host.Outcome.next
    (if e.2 then rejectCohort e.1 r.cohort 0x0208 else admitCopied e.1 r.cohort)) copied

end

/-! ### The mask of a member that is admitted -/

/-- The request in entry `i` holds the mask `m`. -/
def HasMask (i : Nat) (m : List Byte) (u : State) : Prop := ∃ r, req? u i = some r ∧ r.mask = m ∧ r.maskReady = true

theorem HasMask.frame {ps : List Area} {m : List Byte} (h : HasMask i m s) (f : Frame ps s u)
    (n : Area.reqs ∉ ps := by decide) : HasMask i m u := by
  unfold HasMask
  rw [f.req i n]
  exact h

theorem admitMember_hasMask {m : List Byte} (h : HasMask i m s) : HasMask i m (admitMember s j) := by
  by_cases hj : i = j
  · subst hj
    obtain ⟨r, hr, hm, hready⟩ := id h
    unfold admitMember
    rw [hr]
    dsimp only
    split
    · exact h
    · have admitted (g : Nat) (b : Bool) : HasMask i m (lower (setReq (useEntry s i) i
          (some { r with st := .admitted, ctx := g, paired := b })) (Reg.ADM_TEN_QUEUED_QUEUED r.tenant) 1) :=
        ⟨_, ((lower_quiet plain1).req i).trans (req_setReq_same _ _ _), hm, hready⟩
      split
      · exact (admitted _ _).frame (ps := []) (bump_quiet plain3)
      · exact admitted _ _
  · unfold HasMask
    rw [admitMember_onlyReq s j i hj]
    exact h

theorem admitCohort_hasMask {m : List Byte} {co : Nat} (h : HasMask i m s) : HasMask i m (admitCohort s co) := by
  cases hc : cohort? s co with
  | none => unfold admitCohort; rwa [hc]
  | some c =>
    rw [admitCohort_eq hc]
    have members : HasMask i m (c.members.foldl admitMember s) :=
      List.foldlRecOn (motive := HasMask i m) _ _ h fun _ hu j _ => admitMember_hasMask hu
    exact members.frame (ps := [.cohorts]) (.after noteDue_quiet.up setCohort_frame)

/-- A copying cohort with every mask there is admitted. -/
theorem admitCopied_ready {co : Nat} {c : Cohort} (hc : cohort? s co = some c) (copying : c.st = .copying)
    (ready : ∀ j ∈ c.members, ∀ x, req? s j = some x → x.maskReady = true) : admitCopied s co = admitCohort s co := by
  unfold admitCopied
  rw [hc]
  refine if_pos ⟨copying, List.all_eq_true.mpr fun j hj => ?_⟩
  split
  · next x hx => exact ready j hj x hx
  · rfl

/-- The last mask that was missing admits its cohort, with every ARRIVED member, and stays with its request. -/
theorem admitCopied_maskStored {c : Cohort} {k : Pkg} {mb eb : List Byte} (hc : cohort? s r.cohort = some c)
    (copying : c.st = .copying) (arrived : r.st = .arrived)
    (others : ∀ j ∈ c.members, j ≠ i → ∀ x, req? s j = some x → x.maskReady = true) :
    (∃ c', cohort? (admitCopied (maskStored s i r k mb eb) r.cohort) r.cohort = some c' ∧ c'.st = .admitted) ∧
      (∀ j ∈ c.members, ReqIs j .arrived s → ReqIs j .admitted (admitCopied (maskStored s i r k mb eb) r.cohort)) ∧
      HasMask i (mb.take (ceilDiv k.vocab 8)) (admitCopied (maskStored s i r k mb eb) r.cohort) := by
  have hcu : cohort? (maskStored s i r k mb eb) r.cohort = some c := (maskStored_cohort _).trans hc
  have stored : req? (maskStored s i r k mb eb) i = some (masked k mb eb r) := maskStored_req.trans (if_pos rfl)
  have ready : ∀ j ∈ c.members, ∀ x, req? (maskStored s i r k mb eb) j = some x → x.maskReady = true := by
    intro j hj x hx
    rw [maskStored_req] at hx
    split at hx
    · cases hx; rfl
    · next hne => exact others j hj hne x hx
  obtain ⟨admitted, members⟩ := admitCohort_admits hcu
  rw [admitCopied_ready hcu copying ready]
  refine ⟨admitted, fun j hj h => members j hj ?_, admitCohort_hasMask ⟨_, stored, rfl, rfl⟩⟩
  by_cases hji : j = i
  · subst hji; exact ⟨_, stored, arrived⟩
  · obtain ⟨x, hx, hst⟩ := h
    exact ⟨x, (maskStored_req.trans (if_neg hji)).trans hx, hst⟩

end Sys2Proof.Machine

namespace Sys2Proof
open Machine

/-- Settles O7: refills go tenant by tenant; the scan for late cohorts and the deadline check only end requests, which makes
no cohort late and puts no request into a plan; and the last mask stored leaves nothing to wait for in its cohort. -/
theorem admissionTimersAct : Obligations.AdmissionTimersAct := by
  refine ⟨fun s hs due => ?_, fun s hs => ?_, fun s hs => ?_,
    fun s i r c k hr hc hk copying arrived missing dma _ => ⟨?_, ?_⟩⟩
  · have quiet : Frame [] s { refillLevels s with refills := s.refills + 1 } := .after setRefills_quiet refillLevels_quiet
    refine ⟨⟨_, execBudgetRefill_due hs due, rfl⟩, quiet.mem, fun t ht low _ =>
      level_setRefills.trans (level_refillLevels ht low), fun idle =>
      ⟨_, execBudgetRefill_due hs due, recheckHeads_of_noneWaits fun t c ht hc => ?_⟩⟩
    rw [quiet.headHold, quiet.queue]
    exact idle t c ht hc
  · refine ⟨_, execQueueDeadlineScan_eq hs, fun co c hc hq => ?_, fun h => foldl_scanLate_inTime h,
      fun co c only hq late => ?_⟩
    · rw [← (foldl_scanLate_onlyEnds (l := s.cohorts)).qTime]
      exact scan_leavesInTime hc hq
    · have hc : cohort? s co = some c := by simp [cohort?, only, spGet]
      obtain ⟨gone, -, rejected⟩ := rejectCohort_gone (code := if c.hold = 0 then 0x0202 else holdCode c.hold) hc
      rw [only, List.foldl_cons, List.foldl_nil, scanLate_late hq late]
      exact ⟨gone, fun i hi r hr hst => rejected i hi ⟨r, hr, hst⟩⟩
  · refine ⟨_, execDeadlineCheck_eq hs, fun i r hr => ?_⟩
    obtain ⟨x, r', hr', -⟩ := foldl_expireDue_isSome (l := (allReqs s).map (·.1)) ⟨r.st, r, hr, rfl⟩
    refine ⟨r', hr', fun admitted plan compose past => ?_, fun h => ?_⟩
    · have due : expires s i r = true := by simp [expires, admitted, plan, compose, past]
      obtain ⟨y, hy, expired⟩ := foldl_expireDue_reqIs (mem_allReqs hr) hr due
      exact Option.some.inj (hr'.symm.trans hy) ▸ expired
    · exact Option.some.inj (hr'.symm.trans (foldl_expireDue_same hr h))
  · intro mb ext finished hext alone others
    obtain ⟨admitted, members, stored⟩ := admitCopied_maskStored hc copying arrived others
    exact ⟨_, execMaskCopyDone_copied hr hc hk copying arrived missing dma finished hext alone, admitted,
      fun j hj x hx hst => members j hj ⟨x, hx, hst⟩, stored⟩
  · intro ext
    obtain ⟨gone, -, rejected⟩ := rejectCohort_gone (code := 0x0208) hc
    exact ⟨_, execMaskCopyDone_failed hr hc hk copying arrived missing dma ext, gone,
      fun j hj x hx hst => rejected j hj ⟨x, hx, hst⟩⟩

end Sys2Proof
end

section
set_option Elab.async false
/-! ## Registers that a composition leaves alone (R69, R211, R222 to R225, R316) -/
namespace Sys2Proof.Machine
variable {s t u : State} {p : Nat}

namespace SameRegs
variable {f : Nat → Bool}

theorem refl (s : State) : SameRegs s s f := fun _ _ => rfl

/-- The last operation first. -/
theorem after (g : SameRegs t u f) (h : SameRegs s t f) : SameRegs s u f := fun k n => (g k n).trans (h k n)

theorem ite {P : Prop} [Decidable P] (h : SameRegs s t f) (g : SameRegs s u f) : SameRegs s (if P then t else u) f := by
  split
  · exact h
  · exact g

theorem foldl {α : Type} {op : State → α → State} (h : ∀ a x, SameRegs a (op a x) f) (l : List α) (s : State) :
    SameRegs s (l.foldl op s) f :=
  List.foldlRecOn (motive := fun u => SameRegs s u f) _ _ (refl s) fun _ ha x _ => (h _ x).after ha

theorem setF {r : Fld} {x : Nat} (h : f r.key = true) : SameRegs s (setF s r x) f := fun _ n =>
  rd_setF_other _ _ fun e => by rw [e, h] at n; cases n

theorem raise {r : Fld} (h : f r.key = true) : SameRegs s (raise s r) f := fun _ n =>
  rd_raise_other fun e => by rw [e, h] at n; cases n

theorem getF {r : Fld} (h : SameRegs s u f) (n : f r.key = false) : getF u r = getF s r := by
  unfold Machine.getF
  rw [h _ n]

/-- The same registers are left alone by an operation that writes fewer. -/
theorem up {g : Nat → Bool} (h : SameRegs s u f) (le : ∀ k, f k = true → g k = true) : SameRegs s u g := fun k n =>
  h k (Bool.eq_false_iff.mpr fun e => by rw [le k e] at n; cases n)

end SameRegs

/-! ### What counts in TRC only -/

/-- A register of block TRC, the performance counters among them. -/
def trcReg (k : Nat) : Bool := k / 0x100000 == 13

theorem trcReg_re {k : Nat} : trcReg (Reg.TRC_RE_COUNT k).key = true := by
  show (Reg.TRC_RE k / 0x100000 == 13) = true
  unfold Reg.TRC_RE
  simp only [beq_iff_eq]
  omega

theorem trcReg_grove {g k : Nat} : trcReg (Reg.TRC_GROVE_COUNT g k).key = true := by
  show (Reg.TRC_GROVE g k / 0x100000 == 13) = true
  unfold Reg.TRC_GROVE
  simp only [beq_iff_eq]
  omega

theorem countGrove_sameRegs {g k n : Nat} : SameRegs s (countGrove s g k n) trcReg := .ite (.refl s) (.setF trcReg_grove)

theorem setL2_sameRegs {k : Nat} {x : Option L2Line} : SameRegs s (setL2 s k x) trcReg := fun _ _ => rfl

theorem dropLine_sameRegs {x : Nat} : SameRegs s (dropLine s x) trcReg := by
  unfold dropLine
  split
  · exact .after countGrove_sameRegs setL2_sameRegs
  · exact .refl s

theorem allocate_sameRegs {who : Agent} {w : Bool} {x : Nat} : SameRegs s (allocate s who w x) trcReg := by
  unfold allocate
  split
  · exact .refl s
  · exact .after setL2_sameRegs (.after (.foldl (fun _ _ => dropLine_sameRegs) _ _) fun _ _ => rfl)

theorem touchLine_sameRegs {who : Agent} {w : Bool} {x n : Nat} : SameRegs s (touchLine s who w x n) trcReg := by
  unfold touchLine
  split <;> dsimp only <;> split
  · exact .after countGrove_sameRegs (.after dropLine_sameRegs countGrove_sameRegs)
  · exact countGrove_sameRegs
  · exact .after setL2_sameRegs countGrove_sameRegs
  · exact .after countGrove_sameRegs countGrove_sameRegs
  · exact .after countGrove_sameRegs countGrove_sameRegs
  · exact .after countGrove_sameRegs (.after allocate_sameRegs countGrove_sameRegs)

theorem moveEntry_sameRegs {w : Bool} {i : Nat} : SameRegs s (moveEntry s w i) trcReg :=
  .foldl (fun _ _ => touchLine_sameRegs) _ _

theorem spillEntry_sameRegs : SameRegs s (spillEntry s) trcReg := by
  unfold spillEntry
  split
  · exact .refl s
  · split
    · exact .after (.setF trcReg_re) (.after moveEntry_sameRegs fun _ _ => rfl)
    · exact .refl s

theorem useEntry_sameRegs {i : Nat} : SameRegs s (useEntry s i) trcReg := by
  unfold useEntry
  split
  · exact fun _ _ => rfl
  · extract_lets s1 s2
    have h2 : SameRegs s s2 trcReg :=
      .ite (.after (.setF trcReg_re) (.after moveEntry_sameRegs spillEntry_sameRegs)) spillEntry_sameRegs
    exact fun k n => h2 k n

theorem takePages_sameRegs {us : List PageUse} {o : PageOwner} : SameRegs s ((takePages s p us o).getD s) trcReg := by
  have assigned (a : State) (pg : Nat) (x : PageUse) : SameRegs a (assignPage a p pg x o) trcReg := by
    unfold assignPage
    dsimp only
    split <;> exact fun _ _ => rfl
  unfold takePages
  split
  · exact .foldl (fun _ _ => assigned _ _ _) _ _
  · exact .refl s

theorem reservePlan_sameRegs {c : Composing} {plan : List PlanItem} : SameRegs s (reservePlan s c plan) trcReg :=
  .after takePages_sameRegs (.after takePages_sameRegs (.foldl (fun _ _ => useEntry_sameRegs) _ _))

/-! ### The trimming of a plan -/

/-- What the energy of a plan depends on: requests, contexts, models, the power state and the registers of PWR. -/
theorem planEnergy_congr {ps : List Area} (h : Frame ps s u) (power : u.power = s.power)
    (pwr : ∀ f : Fld, f.key / 0x100000 = 12 → getF u f = getF s f)
    (hr : Area.reqs ∉ ps := by decide) (hc : Area.ctxs ∉ ps := by decide) (hs : Area.slots ∉ ps := by decide) :
    planEnergy u = planEnergy s := by
  have handle : reqByHandle u = reqByHandle s := by
    funext x
    unfold reqByHandle
    rw [h.req _ hr]
  have slot : slotOf u = slotOf s := by
    funext g
    unfold slotOf slot?
    rw [h.ctx g hc, h.slots hs]
  have step : kStep u = kStep s := by
    unfold kStep
    rw [power, pwr Reg.PWR_STATE_STEP (by decide)]
  have work : workSum u = workSum s := by
    funext l n a
    unfold workSum
    congr 1
    funext x e
    rw [pwr (Reg.PWR_COEF_E e.1) (by show Reg.PWR_COEF _ / _ = _; unfold Reg.PWR_COEF; omega)]
  unfold planEnergy planWork draftWork
  rw [handle, slot, step, work, pwr Reg.PWR_GAIN_GAIN (by decide)]

theorem trimPlan_congr {c : Composing} (h : planEnergy u = planEnergy s) (fuel : Nat) (plan : List PlanItem) :
    trimPlan u c fuel plan = trimPlan s c fuel plan := by
  induction fuel generalizing plan with
  | zero => rfl
  | succ fuel ih =>
    unfold trimPlan
    simp only [h, ih]

theorem trimPlan_nil {c : Composing} (fuel : Nat) : trimPlan s c fuel [] = [] := by
  cases fuel with
  | zero => rfl
  | succ fuel =>
    unfold trimPlan
    split <;> rfl

end Sys2Proof.Machine
end

section
set_option Elab.async false
/-! ## The issue of a step (R67, R72, R158, R170) -/
namespace Sys2Proof.Machine
variable {s : State} {p : Nat}

/-- The groves of a lane are not free, or it is halted. -/
def grovesBusy (l : Lane) : Bool :=
  l.cur.isSome || !l.acks.isEmpty || !l.nodeAcks.isEmpty || l.restoreAt.isSome || l.halted

/-- The step that issues: it has the tag of its context `x`, and its time and deadline (R19, R329). -/
def issuedStep (s : State) (p : Nat) (st : Step) (x : Ctx) : Step :=
  { st with
    tag := x.tag
    issueAt := s.qTime
    deadline := s.qTime + 500 * getF s (Reg.CMP_CTX_LIMIT_LIMIT_US p (ctxLocal st.ctx))
    ackWait := followerNodes s st
    candWait := candNodes s st }

/-- While the groves are busy the composed step waits. -/
theorem issueStep_busy (h : grovesBusy (lane s p) = true) : issueStep s p = s := by
  unfold issueStep
  dsimp only
  split
  · rfl
  · refine if_pos ?_
    simp only [grovesBusy, Bool.or_eq_true] at h ⊢
    tauto

/-- With the groves free it issues. -/
theorem issueStep_free {st : Step} {x : Ctx} (hn : (lane s p).nextStep = some st) (hb : grovesBusy (lane s p) = false)
    (hf : chipFaulted s = false) (hx : ctx? s st.ctx = some x) : lane (issueStep s p) p =
      { lane s p with
        nextStep := none, cur := some (issuedStep s p st x), lastHolder := ctxLocal st.ctx, power := st.power } := by
  simp only [grovesBusy, Bool.or_eq_false_iff] at hb
  obtain ⟨⟨⟨⟨hc, ha⟩, hna⟩, hr⟩, hh⟩ := hb
  unfold issueStep
  dsimp only
  split
  · next h => exact absurd (h.symm.trans hn) (Option.some_ne_none _).symm
  · next st0 h =>
    obtain rfl : st0 = st := Option.some.inj (h.symm.trans hn)
    rw [if_neg (by simp only [hc, ha, hna, hr, hf, hh]; decide)]
    split
    · next h => exact absurd (h.symm.trans hx) (Option.some_ne_none _).symm
    · next x0 h =>
      obtain rfl : x0 = x := Option.some.inj (h.symm.trans hx)
      rw [sendPlan_quiet.lane p, stepRecord_quiet.lane p, setPower, updatePred_quiet.lane p, lane_setLane_same,
        (bump_quiet plainLane).lane p, lane_setLane_same, setCtx_frame.lane p]
      rfl

end Sys2Proof.Machine
end

section
set_option Elab.async false
/-! ## A composition (R316, R320 to R322) -/
namespace Sys2Proof.Machine
variable {s : State} {p : Nat} {c : Composing}

/-- What the building of a plan found short is noted: pages, or slots of completion rings (R316, R335). -/
def stallsNoted (s : State) (p : Nat) (b : Build) : State :=
  let s1 := if b.pageSkip then raise s (Reg.CMP_STATUS_PAGE_STALL p) else s
  let s2 := if b.cqSkip then raise s1 (Reg.CMP_STATUS_CQ_STALL p) else s1
  setLane s2 p { lane s2 p with pageSkip := b.pageSkip }

/-- A trim is noted (R321, R545). -/
def trimNoted (s : State) (p : Nat) : State :=
  notePower (bumpSat (raise s (Reg.CMP_STATUS_TRIMMED p)) (Reg.CMP_LANE_CNT_TRIMMED p) 1) true

/-- What the allowance leaves of the plan of a composition (R320). -/
def planLeft (s : State) (c : Composing) : List PlanItem :=
  trimPlan s c (trimFuel (buildPlan s c).plan) (buildPlan s c).plan

/-- The state in which the plan is decided. -/
def planDecided (s : State) (p : Nat) (c : Composing) : State :=
  if planLeft s c = (buildPlan s c).plan then stallsNoted s p (buildPlan s c)
  else trimNoted (stallsNoted s p (buildPlan s c)) p

/-- With nothing to compose, the context is passed over until the next boundary. -/
def passOver (s : State) (p g : Nat) : State :=
  setLane (endCompose s p) p
    { lane (endCompose s p) p with stalled := g :: (lane (endCompose s p) p).stalled.filter (· != g) }

/-- With nothing left by the allowance, the lane waits for power (R322). -/
def waitPower (s : State) (p : Nat) (c : Composing) : State :=
  let a := bumpSat (raise s (Reg.CMP_STATUS_POWER_WAIT p)) (Reg.CMP_LANE_CNT_POWER_WAITS p) 1
  notePower (setLane a p { lane a p with composing := some c, powerWait := some a.qTime }) false

/-- The plan's pages are reserved and its step is the lane's next. -/
def stepComposed (s : State) (p : Nat) (c : Composing) (plan : List PlanItem) : State :=
  let a := endCompose (reservePlan s c plan) p
  setLane a p { lane a p with nextStep := some (mkStep a c plan) }

/-- The registers a composition writes before its step issues. -/
def composeReg (p k : Nat) : Bool := k == Reg.CMP_STATUS p || k == Reg.CMP_LANE_CNT p || trcReg k

theorem composeReg_pwr {k : Nat} (h : k / 0x100000 = 12) : composeReg p k = false := by
  simp only [composeReg, trcReg, Bool.or_eq_false_iff, beq_eq_false_iff_ne, Reg.CMP_STATUS, Reg.CMP_LANE_CNT]
  omega

theorem composeReg_limit {q n : Nat} : composeReg p (Reg.CMP_CTX_LIMIT q n) = false := by
  simp only [composeReg, trcReg, Bool.or_eq_false_iff, beq_eq_false_iff_ne, Reg.CMP_STATUS, Reg.CMP_LANE_CNT,
    Reg.CMP_CTX_LIMIT]
  omega

theorem composeReg_status {lo w : Nat} : composeReg p (Fld.mk (Reg.CMP_STATUS p) lo w).key = true := by
  simp [composeReg]
theorem composeReg_count {lo w : Nat} : composeReg p (Fld.mk (Reg.CMP_LANE_CNT p) lo w).key = true := by
  simp [composeReg]

theorem raise_status_frame {lo w : Nat} : Frame [.abn] s (raise s ⟨Reg.CMP_STATUS p, lo, w⟩) :=
  raise_area .abn areaOf_cmpStatus

theorem stallsNoted_frame {b : Build} : Frame [.abn, .lanes] s (stallsNoted s p b) := by
  unfold stallsNoted
  extract_lets s1 s2
  have h1 : Frame [.abn] s s1 := .ite raise_status_frame (.refl s)
  have h2 : Frame [.abn] s s2 := .ite (.after raise_status_frame h1) h1
  exact .after (Frame.up (qs := [.lanes]) (setLane_keeps rfl rfl)) h2.up

theorem stallsNoted_sameRegs {b : Build} : SameRegs s (stallsNoted s p b) (composeReg p) := by
  unfold stallsNoted
  extract_lets s1 s2
  have h1 : SameRegs s s1 (composeReg p) := .ite (.raise composeReg_status) (.refl s)
  have h2 : SameRegs s s2 (composeReg p) := .ite (.after (.raise composeReg_status) h1) h1
  exact fun k n => h2 k n

theorem stallsNoted_power {b : Build} : (stallsNoted s p b).power = s.power := by
  have flag (a : State) (f : Fld) (P : Prop) [Decidable P] : (if P then raise a f else a).power = a.power := by
    split
    · rw [raise_fields]
    · rfl
  exact (flag _ _ _).trans (flag _ _ _)

theorem stallsNoted_lane {b : Build} : lane (stallsNoted s p b) p = { lane s p with pageSkip := b.pageSkip } := by
  unfold stallsNoted
  extract_lets s1 s2
  have h1 : Frame [.abn] s s1 := .ite raise_status_frame (.refl s)
  have h2 : Frame [.abn] s s2 := .ite (.after raise_status_frame h1) h1
  rw [lane_setLane_same]
  exact congrArg (fun l : Lane => { l with pageSkip := b.pageSkip }) (h2.lane p)

/-- The stalls that are noted do not bear on the trimming. -/
theorem trimPlan_stallsNoted {b : Build} (fuel : Nat) (plan : List PlanItem) :
    trimPlan (stallsNoted s p b) c fuel plan = trimPlan s c fuel plan :=
  trimPlan_congr (planEnergy_congr stallsNoted_frame stallsNoted_power fun _ h => stallsNoted_sameRegs.getF (composeReg_pwr h))
    fuel plan

theorem trimNoted_frame : Frame [.abn] s (trimNoted s p) :=
  .after notePower_quiet.up (.after (bumpSat_quiet plainLane).up raise_status_frame)

theorem notePower_sameRegs {b : Bool} {f : Nat → Bool} : SameRegs s (notePower s b) f := fun _ _ => rfl
theorem setLane_sameRegs {l : Lane} {f : Nat → Bool} : SameRegs s (setLane s p l) f := fun _ _ => rfl

theorem trimNoted_sameRegs : SameRegs s (trimNoted s p) (composeReg p) :=
  .after notePower_sameRegs (.after (.setF composeReg_count) (.raise composeReg_status))

theorem planDecided_frame : Frame [.abn, .lanes] s (planDecided s p c) :=
  .ite stallsNoted_frame (.after trimNoted_frame.up stallsNoted_frame)

theorem planDecided_sameRegs : SameRegs s (planDecided s p c) (composeReg p) :=
  .ite stallsNoted_sameRegs (.after trimNoted_sameRegs stallsNoted_sameRegs)

theorem planDecided_lane : lane (planDecided s p c) p = { lane s p with pageSkip := (buildPlan s c).pageSkip } := by
  unfold planDecided
  split
  · exact stallsNoted_lane
  · rw [trimNoted_frame.lane p, stallsNoted_lane]

/-- A composition has three outcomes. -/
theorem composeNow_eq : composeNow s p c =
    if (buildPlan s c).plan.isEmpty then passOver (planDecided s p c) p c.ctx
    else if (planLeft s c).isEmpty then waitPower (planDecided s p c) p c
    else issueStep (stepComposed (planDecided s p c) p c (planLeft s c)) p := by
  unfold composeNow
  extract_lets g b s1 s2 l s3 plan s4
  have hplan : plan = planLeft s c := trimPlan_stallsNoted _ _
  have hs4 : s4 = planDecided s p c := by
    unfold s4
    rw [hplan]
    rfl
  clear_value plan s4
  subst hplan hs4
  rfl

/-! ### Its outcomes -/

theorem endCompose_lane : lane (endCompose s p) p = { lane s p with composing := none, powerWait := none } :=
  lane_setLane_same _ _ _

theorem passOver_lane {g : Nat} : lane (passOver s p g) p = { lane s p with
    composing := none, powerWait := none, stalled := g :: (lane s p).stalled.filter (· != g) } := by
  rw [passOver, lane_setLane_same, endCompose_lane]

theorem passOver_frame {g : Nat} : Frame [.lanes] s (passOver s p g) := .after (setLane_keeps rfl rfl) endCompose_frame

theorem waitPower_frame : Frame [.abn, .lanes] s (waitPower s p c) :=
  .after notePower_quiet.up (.after (Frame.up (qs := [.lanes]) (setLane_keeps rfl rfl))
    (.after (bumpSat_quiet plainLane).up raise_status_frame.up))

theorem waitPower_lane : lane (waitPower s p c) p = { lane s p with composing := some c, powerWait := some s.qTime } := by
  have flagged : Frame [.abn] s (bumpSat (raise s (Reg.CMP_STATUS_POWER_WAIT p)) (Reg.CMP_LANE_CNT_POWER_WAITS p) 1) :=
    .after (bumpSat_quiet plainLane).up raise_status_frame
  rw [waitPower, notePower_quiet.lane p, lane_setLane_same, flagged.lane p, flagged.qTime]

theorem waitPower_flag : isSet (waitPower s p c) (Reg.CMP_STATUS_POWER_WAIT p) = true := by
  have other : (Reg.CMP_STATUS_POWER_WAIT p).key ≠ (Reg.CMP_LANE_CNT_POWER_WAITS p).key := by
    show Reg.CMP_STATUS p ≠ Reg.CMP_LANE_CNT p
    unfold Reg.CMP_STATUS Reg.CMP_LANE_CNT
    omega
  have kept (a : State) (l : Lane) : SameRegs a (notePower (setLane a p l) false) fun _ => false :=
    notePower_sameRegs.after setLane_sameRegs
  rw [isSet, waitPower, (kept _ _).getF rfl, bumpSat, getF_setF_key _ _ other, getF_raise, getF_setF_same _ _ _ atMost]
  rfl

/-- The step that a plan makes once its pages are reserved. -/
def reservedStep (s : State) (p : Nat) (c : Composing) (plan : List PlanItem) : Step :=
  mkStep (endCompose (reservePlan s c plan) p) c plan

theorem stepComposed_lane {plan : List PlanItem} : lane (stepComposed s p c plan) p = { lane s p with
    composing := none, powerWait := none, nextStep := some (reservedStep s p c plan) } := by
  rw [stepComposed, lane_setLane_same, endCompose_lane, reservePlan_frame.lane p]
  rfl

theorem stepComposed_frame {plan : List PlanItem} : Frame [.dram, .lanes] s (stepComposed s p c plan) :=
  .after (Frame.up (qs := [.lanes]) (setLane_keeps rfl rfl)) (.after endCompose_frame.up reservePlan_frame.up)

theorem stepComposed_sameRegs {plan : List PlanItem} : SameRegs s (stepComposed s p c plan) (composeReg p) :=
  .after setLane_sameRegs (.after setLane_sameRegs (reservePlan_sameRegs.up fun k h => by simp [composeReg, h]))

theorem Frame.chipFaulted {ps : List Area} {u : State} (h : Frame ps s u) (n : Area.chip ∉ ps := by decide) :
    chipFaulted u = chipFaulted s := by
  unfold Machine.chipFaulted isSet
  rw [h.getF .chip rfl n]

theorem planLeft_of_nil (h : (buildPlan s c).plan = []) : planLeft s c = [] := by
  rw [planLeft, h, trimPlan_nil]

/-- A composed step issues at once with the groves free, and waits in ISSUE until then otherwise. -/
theorem issueComposed_spec {x : Ctx} {plan : List PlanItem} (hf : chipFaulted s = false) (hx : ctx? s c.ctx = some x) :
    let u := issueStep (stepComposed s p c plan) p
    (lane u p).composing = none ∧ (lane u p).powerWait = none ∧
    (grovesBusy (lane s p) = true → (lane u p).cur = (lane s p).cur ∧
      (lane u p).nextStep = some (reservedStep s p c plan)) ∧
    (grovesBusy (lane s p) = false → (lane u p).nextStep = none ∧
      (lane u p).cur = some (issuedStep (stepComposed s p c plan) p (reservedStep s p c plan) x)) := by
  intro u
  have hl := stepComposed_lane (s := s) (p := p) (c := c) (plan := plan)
  have hb : grovesBusy (lane (stepComposed s p c plan) p) = grovesBusy (lane s p) := by rw [hl]; rfl
  cases busy : grovesBusy (lane s p) with
  | true =>
    have hu : u = stepComposed s p c plan := issueStep_busy (hb.trans busy)
    rw [hu, hl]
    exact ⟨rfl, rfl, fun _ => ⟨rfl, rfl⟩, fun h => absurd h (by decide)⟩
  | false =>
    have hu : lane u p = _ := issueStep_free (st := reservedStep s p c plan) (x := x) (by rw [hl]) (hb.trans busy)
      (stepComposed_frame.chipFaulted.trans hf) ((stepComposed_frame.ctx c.ctx).trans hx)
    rw [hu, hl]
    exact ⟨rfl, rfl, fun h => absurd h (by decide), fun _ => ⟨rfl, rfl⟩⟩

/-- Of a composition for a context that is there, while no fault has stopped the chip. -/
theorem composeNow_composed {x : Ctx} (hf : chipFaulted s = false) (hx : ctx? s c.ctx = some x) :
    Composed s p c (composeNow s p c) := by
  have decided : Frame [.abn, .lanes] s (planDecided s p c) := planDecided_frame
  refine ⟨fun none => ?_, fun some left => ?_, fun left => ?_⟩
  · rw [composeNow_eq, if_pos (by rw [none]; rfl), passOver_lane, planDecided_lane]
    exact ⟨rfl, rfl, List.mem_cons_self .., (passOver_frame.up.after decided).mem⟩
  · have left : planLeft s c = [] := left
    rw [composeNow_eq, if_neg (by simpa using some), if_pos (by rw [left]; rfl), waitPower_lane, planDecided_lane,
      decided.qTime]
    exact ⟨rfl, rfl, waitPower_flag, (waitPower_frame.after decided).mem⟩
  · have left : planLeft s c ≠ [] := left
    have some : (buildPlan s c).plan ≠ [] := fun h => left (planLeft_of_nil h)
    obtain ⟨composing, powerWait, waits, issues⟩ := issueComposed_spec (s := planDecided s p c) (p := p)
      (plan := planLeft s c) (decided.chipFaulted.trans hf) ((decided.ctx c.ctx).trans hx)
    have busy : grovesBusy (lane (planDecided s p c) p) = grovesBusy (lane s p) := by rw [planDecided_lane]; rfl
    rw [composeNow_eq, if_neg (by simpa using some), if_neg (by simpa using left)]
    refine ⟨composing, powerWait, fun h => ?_, fun h => ?_⟩
    · obtain ⟨cur, next⟩ := waits (busy.trans h)
      exact ⟨cur.trans (by rw [planDecided_lane]), _, next, rfl, rfl, rfl, rfl⟩
    · obtain ⟨next, cur⟩ := issues (busy.trans h)
      have time : (stepComposed (planDecided s p c) p c (planLeft s c)).qTime = s.qTime :=
        stepComposed_frame.qTime.trans decided.qTime
      have limit : SameRegs s (stepComposed (planDecided s p c) p c (planLeft s c)) (composeReg p) :=
        stepComposed_sameRegs.after planDecided_sameRegs
      refine ⟨next, _, cur, ⟨rfl, rfl, rfl, rfl⟩, time, ?_, x, hx, rfl⟩
      have := limit.getF (r := Reg.CMP_CTX_LIMIT_LIMIT_US p (ctxLocal c.ctx)) composeReg_limit
      exact congrArg₂ (fun a b => a + 500 * b) time this

theorem not_chipFaulted (hs : serving s = true) : chipFaulted s = false := by
  simp only [serving, Bool.and_eq_true, Bool.not_eq_true'] at hs
  exact hs.2

/-- STEP_COMPOSE outside a power wait. -/
theorem execStepCompose_eq (hc : (lane s p).composing = some c) (hs : serving s = true) (hw : (lane s p).powerWait = none)
    (hx : (ctx? s c.ctx).isSome = true) : execStepCompose p s = .next (composeNow s p c) := by
  unfold execStepCompose
  simp only [hc]
  rw [if_neg (by simp [hs, hw]), if_pos hx]

/-- The power wait is over. -/
def powerWaitOver (s : State) (p : Nat) : State := setLane s p { lane s p with powerWait := none }

theorem retryCompose_eq (hc : (lane s p).composing = some c) : retryCompose s p =
    if mayCompose s c.ctx then composeNow (powerWaitOver s p) p (openCompose s p c.ctx)
    else endCompose (powerWaitOver s p) p := by
  unfold retryCompose
  split
  · next h => exact absurd (h.symm.trans hc) (Option.some_ne_none _).symm
  · next x h =>
    obtain rfl : x = c := Option.some.inj (h.symm.trans hc)
    rfl

/-- POWER_WAIT_RETRY once the wait has lasted 50 µs. -/
theorem execPowerWaitRetry_due {t : Nat} (hs : serving s = true) (hw : (lane s p).powerWait = some t)
    (due : t + 25000 ≤ s.qTime) : execPowerWaitRetry p s = .next (retryCompose s p) := by
  unfold execPowerWaitRetry
  simp only [hw]
  rw [if_neg (by simp [hs, due])]

/-- A context that may compose is there. -/
theorem ctx_of_mayCompose {g : Nat} (h : mayCompose s g = true) : ∃ x, ctx? s g = some x := by
  unfold mayCompose at h
  split at h
  · next x hx => exact ⟨x, hx⟩
  · cases h

end Sys2Proof.Machine

namespace Sys2Proof
open Machine

/-- Settles O9: `composeNow` has three outcomes, by the plan and by what the allowance leaves of it, and the retry of a power
wait is a composition in the state whose wait is over. -/
theorem composedPlanWaitsToIssue : Obligations.ComposedPlanWaitsToIssue := by
  refine fun s p c _ hc hs => ⟨fun hx hw => ?_, fun t hw due => ⟨fun may => ?_, fun may => ?_⟩⟩
  · obtain ⟨x, present⟩ := Option.isSome_iff_exists.mp hx
    exact ⟨_, execStepCompose_eq hc hs hw hx, composeNow_composed (not_chipFaulted hs) present⟩
  · obtain ⟨x, present⟩ := ctx_of_mayCompose may
    refine ⟨_, execPowerWaitRetry_due hs hw due, ?_⟩
    rw [retryCompose_eq hc, if_pos may]
    exact composeNow_composed (not_chipFaulted hs) present
  · refine ⟨endCompose (powerWaitOver s p) p, ?_, congrArg Lane.composing endCompose_lane,
      congrArg Lane.powerWait endCompose_lane⟩
    refine (execPowerWaitRetry_due hs hw due).trans ?_
    rw [retryCompose_eq hc, if_neg (by rw [may]; decide)]

end Sys2Proof
end

section
set_option Elab.async false
/-! ## Fault records across a partition reset (R446, R454, R457)

A partition reset zeroes memory and ends requests, steps and models; the collector's queue takes records and loses none. -/
namespace Sys2Proof.Machine

/-- The records that wait in `s` still stand first in the queue of `u`. -/
def RecordsStay (s u : State) : Prop := s.fltQueue <+: u.fltQueue

variable {s t u : State}

namespace RecordsStay

theorem refl (s : State) : RecordsStay s s := List.prefix_refl _

/-- The last operation first. -/
theorem after (g : RecordsStay t u) (h : RecordsStay s t) : RecordsStay s u := h.trans g

/-- An update of other fields than the queue. -/
theorem of_same (h : u.fltQueue = s.fltQueue := by rfl) : RecordsStay s u := by
  rw [RecordsStay, h]

theorem ite {P : Prop} [Decidable P] (h : RecordsStay s t) (g : RecordsStay s u) :
    RecordsStay s (if P then t else u) := by
  split
  · exact h
  · exact g

theorem foldl {α : Type} {f : State → α → State} (h : ∀ a x, RecordsStay a (f a x)) (l : List α) (s : State) :
    RecordsStay s (l.foldl f s) :=
  List.foldlRecOn (motive := RecordsStay s) _ _ (refl s) fun a ha x _ => (h a x).after ha

/-- A record that waits goes on waiting. -/
theorem recorded {r : State} {id : Nat} (h : RecordsStay s u) (k : Recorded r s id) : Recorded r u id := by
  obtain ⟨x, hx, hid, ht⟩ := k
  exact ⟨x, h.subset hx, hid, ht⟩

end RecordsStay

theorem PatrolFrame.recordsStay (h : PatrolFrame s u) : RecordsStay s u := h.queue

theorem setPart_recordsStay {p : Nat} {x : Part} : RecordsStay s (setPart s p x) := .of_same
theorem setCq_recordsStay {n c : Nat} {x : Cq} : RecordsStay s (setCq s n c x) := .of_same

theorem holdOpen_recordsStay {n : Nat} : RecordsStay s (holdOpen s n) := by
  unfold holdOpen
  split
  · exact .refl s
  · exact .after setF_patrol.recordsStay .of_same

theorem failOwed_recordsStay {p i : Nat} : RecordsStay s (failOwed p s i) := by
  unfold failOwed
  split
  · exact .refl s
  · extract_lets s1 q
    have h1 : RecordsStay s s1 := .after endReq_patrol.recordsStay setReq_patrol.recordsStay
    split
    · exact .after setPart_recordsStay (.after setCq_recordsStay h1)
    · exact h1

theorem endCopiesOf_recordsStay {f : Req → Bool} : RecordsStay s (endCopiesOf s f) :=
  .foldl (fun _ _ => .ite endCopies_patrol.recordsStay (.refl _)) _ _

theorem failLoad_patrol {n code : Nat} : PatrolFrame s (failLoad s n code) := .after raise_patrol setF_patrol

theorem evictAll_recordsStay {p : Nat} : RecordsStay s (evictAll s p) := by
  refine .foldl (fun a n => ?_) _ _
  extract_lets loading b
  have hb : RecordsStay a b := evictWhole_patrol.recordsStay
  exact .ite (.after failLoad_patrol.recordsStay hb) hb

theorem resetRegs_recordsStay {f : Nat → Bool} : RecordsStay s (resetRegs s f) := .of_same

theorem clearLane_recordsStay {p : Nat} : RecordsStay s (clearLane s p) :=
  .after (.foldl (fun _ _ => .ite wr_patrol.recordsStay (.refl _)) _ _)
    (.after setLane_patrol.recordsStay resetRegs_recordsStay)

theorem resetGrove_recordsStay {g : Nat} : RecordsStay s (resetGrove s g) :=
  .after setF_patrol.recordsStay resetRegs_recordsStay
theorem resetRegulators_recordsStay {p : Nat} {all : Bool} : RecordsStay s (resetRegulators s p all) := .of_same
theorem clearL2_recordsStay {f : Nat → Bool} : RecordsStay s (clearL2 s f) := .of_same
theorem clearClusters_recordsStay {f : Nat → Bool} : RecordsStay s (clearClusters s f) := .of_same
theorem zeroPart_recordsStay {p : Nat} : RecordsStay s (zeroPart s p) := .of_same
theorem stopTrace_recordsStay {p : Nat} : RecordsStay s (stopTrace s p) :=
  .after setF_patrol.recordsStay setTrace_patrol.recordsStay

theorem layoutPart_recordsStay {p n k : Nat} : RecordsStay s (layoutPart s p n k) := by
  unfold layoutPart
  extract_lets _ s1 s2 s3
  have h2 : RecordsStay s s2 := .after setF_patrol.recordsStay (.after setF_patrol.recordsStay
    (.after setF_patrol.recordsStay setPart_recordsStay))
  refine .after (.foldl (fun a x => ?_) _ _) (.after (t := s2) .of_same h2)
  split
  · exact .ite setPage_patrol.recordsStay (.ite setTrace_patrol.recordsStay (.refl a))
  · exact .refl a

theorem startPartReset_recordsStay {p : Nat} : RecordsStay s (startPartReset s p) := by
  unfold startPartReset
  split
  · exact .refl s
  · extract_lets _ s1 s2 s3 s4 s5 s6 s7 s8 s9
    have h2 : RecordsStay s s2 := .after setF_patrol.recordsStay (.after setF_patrol.recordsStay setPart_recordsStay)
    have h3 : RecordsStay s s3 := .after (.foldl (fun _ _ => holdOpen_recordsStay) _ _) h2
    have h4 : RecordsStay s s4 := .after dropSteps_patrol.recordsStay h3
    have h5 : RecordsStay s s5 := .after endCopiesOf_recordsStay (.after (.foldl (fun _ _ => failOwed_recordsStay) _ _) h4)
    have h6 : RecordsStay s s6 := .after clearLane_recordsStay (.after evictAll_recordsStay h5)
    have h7 : RecordsStay s s7 := .after (.foldl (fun _ _ => resetGrove_recordsStay) _ _) h6
    have h8 : RecordsStay s s8 := .after resetRegulators_recordsStay h7
    have h9 : RecordsStay s s9 := .after clearClusters_recordsStay (.after clearL2_recordsStay h8)
    exact .after layoutPart_recordsStay (.after stopTrace_recordsStay (.after zeroPart_recordsStay h9))

/-- An F3 fault is recorded with the collector's time, whatever the reset or the stop of the chip does. -/
theorem partFault_recorded {id p ctx detail : Nat} (room : s.fltQueue.length < 16) :
    Recorded s (partFault s id p ctx detail) id := by
  unfold partFault
  split
  · exact stopChip_patrol.recorded (recordFault_recorded (by decide) room)
  · extract_lets s1
    have h1 : Recorded s s1 id := setCause_patrol.recorded (recordFault_recorded (by decide) room)
    split
    · exact startPartReset_recordsStay.recorded h1
    · exact h1

end Sys2Proof.Machine
end

section
set_option Elab.async false
/-! ## Timeouts of a step (R189, R190, R342) and debug halts (R173, R176) -/
namespace Sys2Proof.Machine
variable {s : State} {p : Nat} {st : Step} {pr : Preempt}

/-! ### Timeouts -/

theorem execComposeTimeout_late (hs : serving s = true) (hl : composeLate s p = true) :
    execComposeTimeout p s = .next (partFault s 0x0F p nobody 0) :=
  if_pos (by rw [hs, hl]; rfl)

theorem execImodeStopTimeout_late {t cl : Nat} (hc : (lane s p).cur = some st) (hp : (lane s p).preempt = some pr)
    (ht : pr.saveAt = some t) (hm : pr.modeI = true) (hr : st.running.any (fun e => e.1 == cl) = true)
    (late : t + 5000 ≤ s.qTime) : execImodeStopTimeout p cl s =
      .next (partFault s 0x0A p (ctxLocal st.ctx) (groveDetail (cl / 80) (cl % 80))) := by
  unfold execImodeStopTimeout
  simp only [hc, hp, ht]
  rw [if_pos (by simp only [hm, hr, late, decide_true, Bool.and_self])]

theorem execSaveWriteTimeout_late {t : Nat} (hc : (lane s p).cur = some st) (hp : (lane s p).preempt = some pr)
    (ht : pr.saveAt = some t) (late : t + 50000 ≤ s.qTime) : execSaveWriteTimeout p s =
      .next (partFault s 0x0A p (ctxLocal st.ctx) (groveDetail (firstGrove s p) 0)) := by
  unfold execSaveWriteTimeout
  simp only [hc, hp, ht]
  rw [if_pos late]

theorem execTaskWatchdog_late {cl since : Nat} {t : Task} (hc : (lane s p).cur = some st) (hx : st.st = .execute)
    (hp : (lane s p).preempt = none) (hr : (lane s p).restoreAt = none)
    (running : st.running.find? (fun e => e.1 == cl) = some (cl, t, since)) (tiled : t.tiled = true)
    (late : since + tileTicks s t + 25000 ≤ s.cTime) :
    execTaskWatchdog p cl s = .next (contextFault s 0x03 st.ctx (groveDetail (cl / 80) (cl % 80)) false) := by
  unfold execTaskWatchdog
  simp only [hc, running]
  rw [if_neg (by simp [tiled, hx, hp, hr, late])]

/-! ### A halt -/

/-- The partition is halted: nothing else of its lane has changed yet. -/
def haltedLane (s : State) (p : Nat) : State := setLane s p { lane s p with halted := true }

theorem haltedLane_frame : Frame [.lanes] s (haltedLane s p) := setLane_keeps rfl rfl

theorem haltedLane_lane : lane (haltedLane s p) p = { lane s p with halted := true } := lane_setLane_same _ _ _

theorem haltedLane_halted : (lane (haltedLane s p) p).halted = true := congrArg Lane.halted haltedLane_lane

/-- The holder's preemption is the halt's from now on. -/
def haltPreempt (s : State) (p : Nat) (st : Step) (pr : Preempt) : State :=
  setLane s p { lane s p with cur := some { st with preBy := none }, preempt := some { pr with debug := true } }

theorem haltPreempt_lane : lane (haltPreempt s p st pr) p =
    { lane s p with cur := some { st with preBy := none }, preempt := some { pr with debug := true } } :=
  lane_setLane_same _ _ _

theorem toModeI_lane : lane (toModeI s p pr) p =
    { lane s p with preempt := some { pr with modeI := true, saveAt := some s.qTime } } := by
  rw [toModeI, setGroves_frame.lane p, lane_setLane_same]

theorem toModeI_frame : Frame [.lanes, .holders, .groves] s (toModeI s p pr) :=
  .after setGroves_frame.up setLane_frame.up

/-- What a halt makes of a preemption that stands: it becomes the halt's, in I mode unless its save is under way. -/
def haltOf (s : State) (p : Nat) (st : Step) (pr : Preempt) : State :=
  if pr.modeI || pr.saveAt.isSome then haltPreempt (haltedLane s p) p st pr
  else toModeI (haltPreempt (haltedLane s p) p st pr) p { pr with debug := true }

theorem haltOf_frame : Frame [.lanes, .holders, .groves] s (haltOf s p st pr) :=
  have h : Frame [.lanes, .holders, .groves] s (haltPreempt (haltedLane s p) p st pr) :=
    .after setLane_frame.up haltedLane_frame.up
  .ite h (.after toModeI_frame h)

theorem haltOf_lane (q : Preempt) : ∃ pr, ((lane (haltOf s p st q) p).halted, (lane (haltOf s p st q) p).preempt) =
    (true, some pr) ∧ pr.debug = true ∧ (q.modeI = false → q.saveAt = none → pr.modeI = true ∧ pr.saveAt = some s.qTime) := by
  unfold haltOf
  split
  · next h =>
    refine ⟨{ q with debug := true }, ?_, rfl, fun hm hs => ?_⟩
    · rw [haltPreempt_lane, haltedLane_halted]
    · rw [hm, hs] at h
      cases h
  · refine ⟨{ q with modeI := true, saveAt := some s.qTime, debug := true }, ?_, rfl, fun _ _ => ⟨rfl, rfl⟩⟩
    rw [toModeI_lane, haltPreempt_lane, haltedLane_halted]
    rfl

/-- A preemption that a halt raises is in I mode, and its save begins at once. -/
theorem raisePreempt_lane (hc : (lane s p).cur = some st) :
    ((lane (raisePreempt s p none true) p).halted, (lane (raisePreempt s p none true) p).preempt) = ((lane s p).halted,
      some { modeI := true, raisedAt := s.qTime, saveAt := some s.qTime, waitTicks := 0, debug := true }) := by
  unfold raisePreempt
  simp only [hc, Bool.true_or, if_true]
  rw [setGroves_frame.lane p, lane_setLane_same]
  rfl

theorem raisePreempt_frame {b : Option Nat} {m : Bool} : Frame [.lanes, .holders, .groves] s (raisePreempt s p b m) := by
  unfold raisePreempt
  split
  · exact .refl s
  · extract_lets empty start pr l s1
    exact .ite (.after setGroves_frame.up setLane_frame.up) setLane_frame.up

section
variable (ho : getF s Reg.MGT_STATUS_OWNER ≠ 1) (hv : partValid s p = true) (hs : serving s = true)
include ho hv hs

theorem debugHalt_guard : ¬(getF s Reg.MGT_STATUS_OWNER = 1 ∨ partValid s p = false ∨ serving s = false) := by
  simp [ho, hv, hs]

/-- Without a holder nothing is saved. -/
theorem execDebugHalt_free (hc : (lane s p).cur = none) : execDebugHalt p s = .next (haltedLane s p) := by
  unfold execDebugHalt
  rw [if_neg (debugHalt_guard ho hv hs)]
  extract_lets src s1 l
  have cur : l.cur = none := (congrArg Lane.cur haltedLane_lane).trans hc
  simp only [cur]
  rfl

/-- The holder without a preemption is saved in I mode, where it is in EXECUTE on its own and not being restored. -/
theorem execDebugHalt_holder (hc : (lane s p).cur = some st) (hp : (lane s p).preempt = none) :
    execDebugHalt p s = .next (if st.st = .execute ∧ (lane s p).restoreAt = none ∧ st.group = none
      then raisePreempt (haltedLane s p) p none true else haltedLane s p) := by
  unfold execDebugHalt
  rw [if_neg (debugHalt_guard ho hv hs)]
  extract_lets src s1 l
  have cur : l.cur = some st := (congrArg Lane.cur haltedLane_lane).trans hc
  have preempt : l.preempt = none := (congrArg Lane.preempt haltedLane_lane).trans hp
  have restoreAt : l.restoreAt = (lane s p).restoreAt := (congrArg Lane.restoreAt haltedLane_lane).trans rfl
  simp only [cur, preempt, restoreAt]
  split <;> rfl

/-- A preemption that stands becomes the halt's, in I mode unless its save is under way. -/
theorem execDebugHalt_preempted (hc : (lane s p).cur = some st) (hp : (lane s p).preempt = some pr) :
    execDebugHalt p s = .next (haltOf s p st pr) := by
  unfold execDebugHalt haltOf
  rw [if_neg (debugHalt_guard ho hv hs)]
  extract_lets src s1 l
  have cur : l.cur = some st := (congrArg Lane.cur haltedLane_lane).trans hc
  have preempt : l.preempt = some pr := (congrArg Lane.preempt haltedLane_lane).trans hp
  simp only [cur, preempt]
  split <;> rfl

/-- A halt leaves the lane halted and what holds the groves stopped in I mode, unless a save is under way. -/
theorem debugHalt_stops : Answers (.debugHalt p) s fun u => (lane u p).halted = true ∧ SameMem s u ∧
    (∀ st, (lane s p).cur = some st → st.st = .execute → (lane s p).preempt = none → (lane s p).restoreAt = none →
      st.group = none → ∃ pr, (lane u p).preempt = some pr ∧ pr.modeI = true ∧ pr.saveAt = some s.qTime ∧ pr.debug = true) ∧
    (∀ st q, (lane s p).cur = some st → (lane s p).preempt = some q → ∃ pr, (lane u p).preempt = some pr ∧ pr.debug = true ∧
      (q.modeI = false → q.saveAt = none → pr.modeI = true ∧ pr.saveAt = some s.qTime)) := by
  cases hc : (lane s p).cur with
  | none =>
    exact ⟨_, execDebugHalt_free ho hv hs hc, haltedLane_halted, haltedLane_frame.mem,
      fun _ h => absurd h (Option.some_ne_none _).symm, fun _ _ h => absurd h (Option.some_ne_none _).symm⟩
  | some st =>
    cases hp : (lane s p).preempt with
    | none =>
      refine ⟨_, execDebugHalt_holder ho hv hs hc hp, ?_⟩
      split
      · obtain ⟨halted, raised⟩ := Prod.mk.inj (raisePreempt_lane ((congrArg Lane.cur haltedLane_lane).trans hc))
        exact ⟨halted.trans haltedLane_halted, (raisePreempt_frame.after haltedLane_frame.up).mem,
          fun _ _ _ _ _ _ => ⟨_, raised, rfl, rfl, rfl⟩, fun _ _ _ h => absurd h (Option.some_ne_none _).symm⟩
      · next alone =>
        refine ⟨haltedLane_halted, haltedLane_frame.mem, fun x hx execute _ restore group => ?_,
          fun _ _ _ h => absurd h (Option.some_ne_none _).symm⟩
        obtain rfl : st = x := Option.some.inj hx
        exact absurd ⟨execute, restore, group⟩ alone
    | some q =>
      obtain ⟨pr, halt, debug, modeI⟩ := haltOf_lane (s := s) (p := p) (st := st) q
      exact ⟨_, execDebugHalt_preempted ho hv hs hc hp, congrArg Prod.fst halt, haltOf_frame.mem,
        fun _ _ _ h => absurd h (Option.some_ne_none _), fun _ y _ hy => by
        obtain rfl : q = y := Option.some.inj hy
        exact ⟨pr, congrArg Prod.snd halt, debug, modeI⟩⟩

end

/-! ### Its release -/

/-- The lane is halted no more. -/
def releasedLane (s : State) (p : Nat) : State := setLane s p { lane s p with halted := false }

theorem releasedLane_lane : lane (releasedLane s p) p = { lane s p with halted := false } := lane_setLane_same _ _ _

theorem dropNext_lane : lane (dropNext s p) p =
    { lane s p with nextStep := none, composing := none, powerWait := none } := by
  unfold dropNext
  extract_lets s1
  have h : lane s1 p = lane s p := by
    unfold s1
    split
    · exact discardStep_quiet.lane p
    · rfl
  rw [lane_setLane_same]
  exact congrArg (fun l : Lane => { l with nextStep := none, composing := none, powerWait := none }) h

theorem dropNext_qTime : (dropNext s p).qTime = s.qTime := by
  unfold dropNext
  split
  · exact discardStep_quiet.qTime
  · rfl

/-- Issue keeps a lane halted or not. -/
theorem issueStep_halted : (lane (issueStep s p) p).halted = (lane s p).halted := by
  unfold issueStep
  dsimp only
  split
  · rfl
  · split
    · rfl
    · split
      · rfl
      · rw [sendPlan_quiet.lane p, stepRecord_quiet.lane p, setPower, updatePred_quiet.lane p, lane_setLane_same,
          (bump_quiet plainLane).lane p, lane_setLane_same, setCtx_frame.lane p]

/-- The most recent preempted step, which a halt saved, is restored where the groves are free. -/
theorem execDebugHaltRelease_restores {z : Step} {rest : List Step} (hh : (lane s p).halted = true)
    (hz : (lane s p).pre = z :: rest) (hb : z.preBy = none) (hc : (lane s p).cur = none) (ha : (lane s p).acks = []) :
    execDebugHaltRelease p s = .next (startRestore (dropNext (releasedLane s p) p) p z rest) := by
  unfold execDebugHaltRelease
  extract_lets l s1
  have halted : l.halted = true := hh
  rw [if_neg (by simp [halted])]
  split
  · next x xs h =>
    obtain ⟨rfl, rfl⟩ := List.cons.inj (h.symm.trans hz)
    exact if_pos (by simp [l, hb, hc, ha])
  · next h => exact absurd (h.symm.trans hz) (List.cons_ne_nil _ _).symm

/-- Of the release of a lane that is halted: it is halted no more. -/
theorem execDebugHaltRelease_next (hh : (lane s p).halted = true) :
    ∃ u, execDebugHaltRelease p s = .next u ∧ (lane u p).halted = false := by
  have issued : (lane (issueStep (releasedLane s p) p) p).halted = false := by
    rw [issueStep_halted, releasedLane_lane]
  unfold execDebugHaltRelease
  extract_lets l s1
  rw [if_neg (by rw [show l.halted = true from hh]; decide)]
  split
  · split
    · exact ⟨_, rfl, by rw [startRestore_lane, dropNext_lane]; exact congrArg Lane.halted releasedLane_lane⟩
    · exact ⟨_, rfl, issued⟩
  · exact ⟨_, rfl, issued⟩

end Sys2Proof.Machine

namespace Sys2Proof
open Machine

/-- Settles O11: each timeout is one fault whose record stays whatever follows it; a halt is one of three outcomes by the
holder and its preemption. -/
theorem timeoutsAndHaltsOfSteps : Obligations.TimeoutsAndHaltsOfSteps := by
  refine ⟨fun s p cl room _ => ⟨fun hs late => ?_, fun st pr t hc hp ht => ⟨fun hm hr late => ?_, fun late => ?_⟩,
    fun st t since hc hx hp hr running tiled late => ?_⟩, fun s p _ => ⟨fun ho hv hs => ?_, fun hh => ?_⟩⟩
  · exact ⟨_, execComposeTimeout_late hs late, partFault_recorded room⟩
  · exact ⟨_, execImodeStopTimeout_late hc hp ht hm hr late, partFault_recorded room⟩
  · exact ⟨_, execSaveWriteTimeout_late hc hp ht late, partFault_recorded room⟩
  · exact ⟨_, execTaskWatchdog_late hc hx hp hr running tiled late, contextFault_recorded room⟩
  · exact debugHalt_stops ho hv hs
  · obtain ⟨u, hu, halted⟩ := execDebugHaltRelease_next hh
    refine ⟨u, hu, halted, fun z rest hz hb hc ha => ?_⟩
    obtain rfl : u = _ := Host.Outcome.next.inj (hu.symm.trans (execDebugHaltRelease_restores hh hz hb hc ha))
    rw [startRestore_lane, dropNext_lane, dropNext_qTime]
    exact ⟨rfl, rfl, rfl, rfl, rfl⟩

end Sys2Proof
end

section
set_option Elab.async false
/-! ## Parking (R217 to R220, R229, R335 to R337) -/
namespace Sys2Proof.Machine
variable {s : State} {p i : Nat} {r : Req}

/-! ### Pages that are freed -/

/-- A page that satisfies `f`, where an unlisted page does not, is found. -/
theorem mem_pagesWhere {f : PageUse → Bool} {pg : Nat} (hpg : pg < 2 ^ 20) (hfree : f .free = false)
    (hf : f (page s p pg).use = true) : pg ∈ pagesWhere s p f := by
  have listed : (2 ^ 20 * p + pg, page s p pg) ∈ s.pages := mem_of_spGet fun h => by
    have fresh : page s p pg = Page.fresh := h
    rw [fresh] at hf
    exact Bool.false_ne_true (hfree.symm.trans hf)
  refine List.mem_map.mpr ⟨(pg, page s p pg), List.mem_filter.mpr ⟨List.mem_map.mpr ⟨_, List.mem_filter.mpr
    ⟨listed, beq_iff_eq.mpr (by omega)⟩, ?_⟩, hf⟩, rfl⟩
  rw [show (2 ^ 20 * p + pg) % 2 ^ 20 = pg by omega]

theorem lt_of_mem_pagesWhere {f : PageUse → Bool} {pg : Nat} (h : pg ∈ pagesWhere s p f) : pg < 2 ^ 20 := by
  obtain ⟨e, he, rfl⟩ := List.mem_map.mp h
  obtain ⟨x, -, rfl⟩ := List.mem_map.mp (List.mem_of_mem_filter he)
  exact Nat.mod_lt _ (by decide)

theorem use_foldl_freed {l : List Nat} {pg : Nat} (hl : ∀ j ∈ l, j < 2 ^ 20) (hpg : pg < 2 ^ 20) :
    (page (l.foldl (fun a j => reusePage a p j .free) s) p pg).use = if pg ∈ l then .free else (page s p pg).use := by
  induction l generalizing s with
  | nil => rfl
  | cons j l ih =>
    have hj : j < 2 ^ 20 := hl j (List.mem_cons_self ..)
    rw [List.foldl_cons, ih fun k hk => hl k (List.mem_cons_of_mem _ hk), reusePage, page_setPage s p j p pg _ hj hpg]
    by_cases e : pg = j
    · simp [e]
    · simp [e]

/-- No page of the partition keeps a use that was to be freed. -/
theorem freeWhere_frees {f : PageUse → Bool} {pg : Nat} (hpg : pg < 2 ^ 20) (hfree : f .free = false) :
    f (page (freeWhere s p f) p pg).use = false := by
  have freed : (page (freeWhere s p f) p pg).use = if pg ∈ pagesWhere s p f then .free else (page s p pg).use :=
    use_foldl_freed (fun _ => lt_of_mem_pagesWhere) hpg
  rw [freed]
  split
  · exact hfree
  · next h => exact Bool.eq_false_iff.mpr fun hf => h (mem_pagesWhere hpg hfree hf)

/-- The page is on its way between memory and a slot of request `h`. -/
def copies (h : Nat) (u : PageUse) : Bool := isParking u && useReq u == some h

theorem copies_eq_false {h : Nat} {u : PageUse} : copies h u = false ↔ (isParking u = true → useReq u ≠ some h) := by
  simp [copies]

/-! ### Slots -/

/-- No slot that is picked was in use. -/
theorem pickSlots_free {used : List Nat} {fuel k n x : Nat} (h : x ∈ pickSlots used fuel k n) : x ∉ used := by
  induction fuel generalizing k n with
  | zero => cases h
  | succ fuel ih =>
    unfold pickSlots at h
    split at h
    · cases h
    · split at h
      · exact ih h
      · next hk =>
        rcases List.mem_cons.mp h with rfl | h
        · simpa using hk
        · exact ih h

/-- Where the numbers looked at are more than those used from there on, all slots are found. -/
theorem length_pickSlots {used : List Nat} {fuel k n : Nat} (h : (used.filter (k ≤ ·)).length + n ≤ fuel) :
    (pickSlots used fuel k n).length = n := by
  induction fuel generalizing k n with
  | zero => simp only [pickSlots, List.length_nil]; omega
  | succ fuel ih =>
    have fewer : (used.filter (k + 1 ≤ ·)).length ≤ (used.filter (k ≤ ·)).length :=
      (List.monotone_filter_right used fun x hx => by simp at *; omega).length_le
    unfold pickSlots
    split
    · next hn => rw [hn]; rfl
    · split
      · next hk =>
        refine ih ?_
        have : (used.filter (k + 1 ≤ ·)).length < (used.filter (k ≤ ·)).length := by
          have e : used.filter (k + 1 ≤ ·) = (used.filter (k ≤ ·)).filter (k + 1 ≤ ·) := by
            rw [List.filter_filter]
            refine List.filter_congr fun x _ => ?_
            simp; omega
          rw [e, List.length_filter_lt_length_iff_exists]
          exact ⟨k, by simpa using hk, by simp⟩
        omega
      · rw [List.length_cons, ih (by omega)]
        omega

/-! ### PARK_START -/

/-- Each sequence of `l`, whose tenant has too few slots, is counted. -/
def noSlotCounted (s : State) (l : List (Int × Nat × Nat)) : State :=
  l.foldl (fun a e => match req? a e.2.2 with
    | some r => bumpSat a (Reg.MEM_PARK_CNT_PARK_NO_SLOT r.tenant) 1
    | none => a) s

theorem noSlotCounted_quiet {l : List (Int × Nat × Nat)} : Frame [] s (noSlotCounted s l) := by
  refine .foldl (fun a e => ?_) _ _
  split
  · exact bumpSat_quiet plain1
  · exact .refl _

theorem noSlotCounted_sameRegs {l : List (Int × Nat × Nat)} :
    SameRegs s (noSlotCounted s l) fun k => k / 0x100000 == 10 := by
  refine .foldl (fun a e => ?_) _ _
  split
  · refine .setF ?_
    show (Reg.MEM_PARK_CNT _ / 0x100000 == 10) = true
    unfold Reg.MEM_PARK_CNT
    simp only [beq_iff_eq]
    omega
  · exact .refl a

/-- The pages of a sequence depend on contexts, models and the DRAFT flags. -/
theorem seqPages_congr {u : State} {h : Nat} (f : Frame [] s u)
    (draft : ∀ p n, getF u (Reg.CMP_CTX_CFG_DRAFT p n) = getF s (Reg.CMP_CTX_CFG_DRAFT p n)) :
    seqPages u h r = seqPages s h r := by
  have slot (g : Nat) : slotOf u g = slotOf s g := by
    unfold slotOf slot?
    rw [f.ctx g, f.slots]
  have pair (g : Nat) : draftOf u g = draftOf s g := by
    unfold draftOf isSet
    rw [f.ctx g, draft]
  have slots : slotOf u = slotOf s := funext slot
  unfold seqPages
  rw [slots, pair]

theorem reusePage_quiet {pg : Nat} {x : PageUse} : Frame [] s (reusePage s p pg x) := setPage_quiet

theorem parkPage_frame {h : Nat} {e : PageUse × Nat} : Frame [.dram, .held] s (parkPage p i h s e) := by
  unfold parkPage
  dsimp only
  split
  · exact .after chargeHeld_frame (.after chargeHeld_frame reusePage_quiet.up)
  · exact .refl _

theorem parkPage_calm {h : Nat} {e : PageUse × Nat} : Calm p s (parkPage p i h s e) := by
  unfold parkPage
  dsimp only
  split
  · exact (chargeHeld_calm (by decide) rfl).after ((chargeHeld_calm (by decide) rfl).after (reusePage_quiet.calm p))
  · exact .refl _

/-- The slots that a sequence to be parked takes, one for each of its pages. -/
def slotsTaken (s : State) (i : Nat) (r : Req) : List Nat :=
  let used := slotsInUse s r.tenant
  let n := (seqPages s (hnat i r) r).length
  pickSlots used (used.length + n) 0 n

theorem length_slotsTaken : (slotsTaken s i r).length = (seqPages s (hnat i r) r).length :=
  length_pickSlots (by rw [List.filter_eq_self.mpr (by simp)])

theorem slotsTaken_free {n : Nat} (h : n ∈ slotsTaken s i r) : n ∉ slotsInUse s r.tenant :=
  pickSlots_free h

theorem req_parkSeq : req? (parkSeq s p i r) i =
    some { r with st := .parked, slots := slotsTaken s i r, parking := true } := by
  have pages (l : List (PageUse × Nat)) (a : State) : Frame [.dram, .held] a (l.foldl (parkPage p i (hnat i r)) a) :=
    .foldl (fun _ _ => parkPage_frame) _ _
  rw [parkSeq, (pages _ _).req i, req_setReq_same]
  rfl

theorem parkSeq_calm : Calm p s (parkSeq s p i r) :=
  .after (.foldl (fun _ _ => parkPage_calm) _ _) (setReq_frame.calm p)

/-- PARK_START where the lane may park and some sequence finds its slots. -/
theorem execParkStart_eq {e : Int × Nat × Nat} (hs : serving s = true) (hr : partResetting s p = false)
    (hen : isSet s (Reg.CMP_LANE_CTL_PARK_EN p) = true) (hu : reqsIn s p (·.unparking) = [])
    (hp : (reqsIn s p (·.parking)).length < 4)
    (short : freePages s p < getF s (Reg.CMP_PARK_LOW_PARK_LOW p) ∨ (lane s p).pageSkip = true)
    (first : (parkOrder s p).find? (fun e => slotsFor s e.2.2 e.2.1) = some e) (hi : req? s e.2.2 = some r) :
    execParkStart p s = .next (parkSeq (noSlotCounted s ((parkOrder s p).takeWhile fun e => !slotsFor s e.2.2 e.2.1))
      p e.2.2 r) := by
  have counted := (noSlotCounted_quiet (s := s) (l := (parkOrder s p).takeWhile fun e => !slotsFor s e.2.2 e.2.1)).req e.2.2
  unfold execParkStart
  extract_lets parks unparks low order skipped s1
  have hlow : low = true := by simpa [low] using short
  rw [if_neg (by simp [hs, hr, hen, unparks, hu, parks, hp, hlow])]
  simp only [order, first]
  rw [show req? s1 e.2.2 = some r from counted.trans hi]
  rfl

/-! ### UNPARK_START -/

/-- UNPARK_START with enough FREE pages: the first parked sequence is being copied in, and keeps its slots. -/
theorem execUnparkStart_unparks {e : Int × Nat × Nat × Nat} {rest : List (Int × Nat × Nat × Nat)}
    (first : unparkOrder s p = e :: rest) (hi : req? s e.2.2.2 = some r) (hs : serving s = true)
    (hr : partResetting s p = false) (hp : reqsIn s p (·.parking) = []) (hu : (reqsIn s p (·.unparking)).length < 4)
    (room : getF s (Reg.CMP_PARK_HIGH_PARK_HIGH p) + r.slots.length ≤ freePages s p) :
    ∃ u, execUnparkStart p s = .next u ∧ req? u e.2.2.2 = some { r with unparking := true } := by
  obtain ⟨slack, cls, arrival, i⟩ := e
  unfold execUnparkStart
  extract_lets parks unparks
  simp only [first, hi]
  rw [if_neg (by simp [hs, hr, parks, hp, unparks, hu, room])]
  refine ⟨_, rfl, ?_⟩
  rw [chargeHeld_frame.req i, chargeHeld_frame.req i, req_setReq_same]

/-! ### The copies end -/

/-- The copies of request `r` of entry `i` are over: its pages and slots go back (Table 06.4). -/
def copiesOver (s : State) (i : Nat) (r : Req) : State :=
  credit (setReq (freeWhere s (r.ctx / 32) (copies (hnat i r))) i
    (some { r with parking := false, unparking := false, slots := [], maskPage := none })) r.tenant r.slots.length

/-- Its entry is kept while a record of it is owed, and freed otherwise. -/
theorem endCopies_cases (hi : req? s i = some r) : endCopies s i = copiesOver s i r ∨
    endCopies s i = freeEntryOf (copiesOver s i r) i r.gen := by
  unfold endCopies
  split
  · next h => exact absurd (h.symm.trans hi) (Option.some_ne_none r).symm
  · next x h =>
    obtain rfl : x = r := Option.some.inj (h.symm.trans hi)
    extract_lets s1 s2 due owed
    by_cases h : (due || owed) = true
    · exact .inl (if_pos h)
    · exact .inr (if_neg h)

theorem pages_credit {t n : Nat} : (credit s t n).pages = s.pages := rfl
theorem pages_freeEntryOf {g : Nat} : (freeEntryOf s i g).pages = s.pages := rfl

theorem pages_endCopies (hi : req? s i = some r) :
    (endCopies s i).pages = (freeWhere s (r.ctx / 32) (copies (hnat i r))).pages := by
  have ended : (copiesOver s i r).pages = (freeWhere s (r.ctx / 32) (copies (hnat i r))).pages := pages_credit
  rcases endCopies_cases hi with h | h
  · rw [h, ended]
  · rw [h, pages_freeEntryOf, ended]

theorem req_endCopies {r' : Req} (hi : req? s i = some r) (h : req? (endCopies s i) i = some r') :
    r'.parking = false ∧ r'.unparking = false ∧ r'.slots = [] := by
  rcases endCopies_cases hi with e | e <;> rw [e] at h
  · rw [copiesOver, credit_quiet.req i, req_setReq_same] at h
    cases h
    exact ⟨rfl, rfl, rfl⟩
  · have gone : req? (freeEntryOf (copiesOver s i r) i r.gen) i = none :=
      req_setReq_same (dropEntry (copiesOver s i r) i) i none
    rw [gone] at h
    cases h

/-- A copy that fails is recorded, whatever the end of its request does. -/
theorem failCopies_recorded (room : s.fltQueue.length < 16) : Recorded s (failCopies s i r) 0x1D := by
  unfold failCopies
  extract_lets s1 s2
  have h1 : Recorded s s1 0x1D := (recordFault_recorded (by decide) (by exact room)).of_aTime rfl
  have h2 : PatrolFrame s1 s2 := .ite endReq_patrol (.refl _)
  exact (endCopies_patrol.after h2).recorded h1

/-- Only a request that drafts no more gives slots back, and keeps its state. -/
theorem req_trimSlots (hi : req? s i = some r) : ∃ l, req? (trimSlots s i) i = some { r with slots := l } ∧
    (r.paired = true → l = r.slots) := by
  unfold trimSlots freeDraftSlots
  rw [hi]
  dsimp only
  by_cases hp : r.paired = true
  · exact ⟨r.slots, by rw [if_pos hp, hi], fun _ => rfl⟩
  · exact ⟨_, by rw [if_neg hp, credit_quiet.req i, req_setReq_same], fun h => absurd h hp⟩

theorem page_trimSlots (pg : Nat) : page (trimSlots s i) p pg = page s p pg := by
  unfold trimSlots freeDraftSlots
  split
  · split
    · rfl
    · split <;> rfl
  · rfl

theorem trimSlots_sameRegs : SameRegs s (trimSlots s i) fun k => k / 0x100000 == 5 := by
  unfold trimSlots freeDraftSlots
  split
  · refine .ite (.refl s) ?_
    split
    · refine .after (.setF ?_) fun _ _ => rfl
      show (Reg.ADM_TEN_KVUSE _ / 0x100000 == 5) = true
      unfold Reg.ADM_TEN_KVUSE
      simp only [beq_iff_eq]
      omega
    · exact .refl s
  · exact .refl s

theorem page_bump {f : Fld} {n pg : Nat} : page (bump s f n) p pg = page s p pg := rfl
theorem page_bumpSat {f : Fld} {n pg : Nat} : page (bumpSat s f n) p pg = page s p pg := rfl

theorem freeWhere_sameRegs {f : PageUse → Bool} : SameRegs s (freeWhere s p f) fun _ => false :=
  .foldl (op := fun a j => reusePage a p j .free) (fun _ _ _ _ => rfl) _ _

/-! ### PARK_COMPLETE -/

/-- The last copy of a park of a live sequence is acknowledged: its pages are free. -/
def parkEnded (s : State) (p i : Nat) (r : Req) : State :=
  trimSlots (freeWhere (setReq s i (some { r with parking := false })) p (copies (hnat i r))) i

theorem req_parkEnded : ∃ l, req? (parkEnded s p i r) i = some { r with parking := false, slots := l } ∧
    (r.paired = true → l = r.slots) :=
  req_trimSlots (r := { r with parking := false }) (by rw [freeWhere_quiet.req i, req_setReq_same])

/-- The completed park is counted for its tenant (Table 20.1). -/
theorem parks_counted : getF (bump (bumpSat (parkEnded s p i r) (Reg.CMP_LANE_PARKS_PARKS p) 1)
    (Reg.TRC_TEN_COUNT r.tenant 11) 1) (Reg.TRC_TEN_COUNT r.tenant 11) =
      (getF s (Reg.TRC_TEN_COUNT r.tenant 11) + 1) % 2 ^ 64 := by
  have other : (Reg.TRC_TEN_COUNT r.tenant 11).key ≠ (Reg.CMP_LANE_PARKS_PARKS p).key := by
    show Reg.TRC_TEN _ _ ≠ Reg.CMP_LANE_PARKS _
    unfold Reg.TRC_TEN Reg.CMP_LANE_PARKS
    omega
  have tenant : ((Reg.TRC_TEN_COUNT r.tenant 11).key / 0x100000 == 5) = false := by
    show (Reg.TRC_TEN _ _ / 0x100000 == 5) = false
    unfold Reg.TRC_TEN
    simp only [beq_eq_false_iff_ne]
    omega
  rw [bump, getF_setF_same _ _ _ atMost, bumpSat, getF_setF_key _ _ other, parkEnded, trimSlots_sameRegs.getF tenant,
    freeWhere_sameRegs.getF rfl]
  rfl

section
variable (hi : req? s i = some r)
include hi

theorem execParkComplete_failed (hk : r.parking = true) (hp : r.ctx / 32 = p) :
    execParkComplete p i false s = .next (failCopies s i r) := by
  unfold execParkComplete
  simp only [hi]
  rw [if_neg (by simp [hk, hp])]
  rfl

theorem execParkComplete_ended (hk : r.parking = true) (hp : r.ctx / 32 = p) (hw : waitsFor s p (forReq i) = false)
    (hl : isLive r.st = false) : execParkComplete p i true s = .next (endCopies s i) := by
  unfold execParkComplete
  simp only [hi]
  rw [if_neg (by simp [hk, hp]), if_neg (by simp), if_neg (by simp [hw]), if_pos (by simp [hl])]

theorem execParkComplete_live (hk : r.parking = true) (hp : r.ctx / 32 = p) (hw : waitsFor s p (forReq i) = false)
    (hl : isLive r.st = true) : execParkComplete p i true s =
      .next (bump (bumpSat (parkEnded s p i r) (Reg.CMP_LANE_PARKS_PARKS p) 1) (Reg.TRC_TEN_COUNT r.tenant 11) 1) := by
  unfold execParkComplete
  simp only [hi]
  rw [if_neg (by simp [hk, hp]), if_neg (by simp), if_neg (by simp [hw]), if_neg (by simp [hl])]
  rfl

/-! ### UNPARK_COMPLETE -/

theorem execUnparkComplete_failed {data : List (List Byte)} (hk : r.unparking = true) (hp : r.ctx / 32 = p) :
    execUnparkComplete p i false data s = .next (failCopies s i r) := by
  unfold execUnparkComplete
  simp only [hi]
  rw [if_neg (by simp [hk, hp])]
  rfl

theorem execUnparkComplete_ended {data : List (List Byte)} (hk : r.unparking = true) (hp : r.ctx / 32 = p)
    (hw : waitsFor s p (forReq i) = false) (hl : isLive r.st = false) :
    execUnparkComplete p i true data s = .next (endCopies s i) := by
  unfold execUnparkComplete
  simp only [hi]
  rw [if_neg (by simp [hk, hp]), if_neg (by simp), if_neg (by simp [hw]), if_pos (by simp [hl])]

/-- A live sequence whose copies have arrived decodes, without slots. -/
theorem execUnparkComplete_live {data : List (List Byte)} (hk : r.unparking = true) (hp : r.ctx / 32 = p)
    (hw : waitsFor s p (forReq i) = false) (hl : isLive r.st = true) :
    ∃ u, execUnparkComplete p i true data s = .next u ∧
      req? u i = some { r with unparking := false, slots := [], st := .decode } := by
  unfold execUnparkComplete
  simp only [hi]
  rw [if_neg (by simp [hk, hp]), if_neg (by simp), if_neg (by simp [hw]), if_neg (by simp [hl])]
  exact ⟨_, rfl, by rw [(bumpSat_quiet plainLane).req i, req_setReq_same]⟩

end

end Sys2Proof.Machine

namespace Sys2Proof
open Machine

/-- Settles O16: a park takes slots that are in use by no request of the tenant, and the end of its copies frees every page
that satisfies `copies`. -/
theorem parkingMovesTheSequenceOut : Obligations.ParkingMovesTheSequenceOut := by
  refine ⟨fun s p i r e _ hs hr hen hu hp short first he hi => ?_, fun s p i r _ hi hk hp => ⟨fun hw => ?_, fun room => ?_⟩,
    fun s p i r e rest _ first he hi hs hr hp hu room => ?_, fun s p i data r _ hi hk hp => ⟨fun hw => ?_, fun room => ?_⟩⟩
  · subst he
    have counted : Frame [] s (noSlotCounted s ((parkOrder s p).takeWhile fun e => !slotsFor s e.2.2 e.2.1)) :=
      noSlotCounted_quiet
    refine ⟨_, execParkStart_eq hs hr hen hu hp short first hi, fun quiet => fun a => ?_, _, req_parkSeq, rfl, rfl, ?_,
      fun n hn => ?_⟩
    · unfold loadByte
      rw [(parkSeq_calm.after (counted.calm p) quiet).2]
    · rw [length_slotsTaken, seqPages_congr counted fun q n => noSlotCounted_sameRegs.getF (by
        show (Reg.CMP_CTX_CFG q n / 0x100000 == 10) = false
        unfold Reg.CMP_CTX_CFG
        simp only [beq_eq_false_iff_ne]
        omega)]
    · have := slotsTaken_free hn
      unfold slotsInUse at this ⊢
      rwa [counted.reqs] at this
  · cases hl : isLive r.st with
    | true =>
      obtain ⟨l, hreq, paired⟩ := req_parkEnded (s := s) (p := p) (i := i) (r := r)
      refine ⟨_, execParkComplete_live hi hk hp hw hl, fun pg hpg => copies_eq_false.mp ?_,
        fun _ => ⟨⟨{ r with parking := false, slots := l }, ?_, rfl, rfl, paired⟩, ?_⟩, fun h => absurd h (by simp)⟩
      · rw [page_bump, page_bumpSat, parkEnded, page_trimSlots]
        exact freeWhere_frees hpg rfl
      · rw [(bump_quiet plain2).req i, (bumpSat_quiet plainLane).req i, hreq]
      · exact parks_counted
    | false =>
      refine ⟨_, execParkComplete_ended hi hk hp hw hl, fun pg hpg => copies_eq_false.mp ?_, fun h => absurd h (by simp),
        fun _ r' h => ?_⟩
      · unfold page
        rw [pages_endCopies hi, hp]
        exact freeWhere_frees hpg rfl
      · obtain ⟨parking, -, slots⟩ := req_endCopies hi h
        exact ⟨parking, slots⟩
  · exact ⟨_, execParkComplete_failed hi hk hp, failCopies_recorded room⟩
  · subst he
    obtain ⟨u, hu, hreq⟩ := execUnparkStart_unparks first hi hs hr hp hu room
    exact ⟨u, hu, _, hreq, rfl, rfl, rfl⟩
  · cases hl : isLive r.st with
    | true =>
      obtain ⟨u, hu, hreq⟩ := execUnparkComplete_live (data := data) hi hk hp hw hl
      exact ⟨u, hu, fun _ => ⟨_, hreq, rfl, rfl, rfl⟩, fun h => absurd h (by simp)⟩
    | false =>
      refine ⟨_, execUnparkComplete_ended hi hk hp hw hl, fun h => absurd h (by simp), fun _ r' h => ?_⟩
      obtain ⟨-, unparking, slots⟩ := req_endCopies hi h
      exact ⟨unparking, slots⟩
  · exact ⟨_, execUnparkComplete_failed hi hk hp, failCopies_recorded room⟩

end Sys2Proof
end

section
set_option Elab.async false
/-! ## A mailbox command that ends with a response (R107, R110) -/
namespace Sys2Proof.Machine
variable {s t u : State} {c : MbxCmd} {code : Nat} {resp : List Byte}

/-- A register of block MGT, where the mailbox lies. -/
def mgtReg (k : Nat) : Bool := k / 0x100000 == 1

theorem mgtReg_past {k : Nat} (h : 0x200000 ≤ k) : mgtReg k = false := by
  simp only [mgtReg, beq_eq_false_iff_ne]
  omega

/-- A register of the mailbox leaves every area but that of the chip alone. -/
theorem setF_mgt {f : Fld} {x : Nat} (h : mgtReg f.key = true) : Frame [.chip] s (setF s f x) := by
  have hk : f.key / 0x100000 = 1 := of_decide_eq_true h
  refine setF_frame .chip ?_
  unfold areaOf
  rw [if_neg (by omega), if_neg (by omega), if_neg (by omega), if_neg (by omega), if_pos (.inl hk)]

/-- Byte `i` of a response payload in the mailbox area. -/
def respFld (i : Nat) : Fld := ⟨Reg.MGT_MBX_AREA (16 + i / 4), 8 * (i % 4), 8⟩

theorem mgtReg_area (i : Nat) : mgtReg (Reg.MGT_MBX_AREA i) = true := by
  simp only [mgtReg, beq_iff_eq, Reg.MGT_MBX_AREA]
  omega

/-- A response payload lies in the mailbox area from byte 64 on. -/
def payloadWritten (s : State) (resp : List Byte) : State :=
  (numbered 0 resp).foldl (fun a e => setF a (respFld e.1) e.2.toNat) s

/-- PF0's command has left the mailbox, with RESULT, the length of its payload and the payload in the area. -/
def resultWritten (s : State) (code : Nat) (resp : List Byte) : State :=
  payloadWritten (setF (setF { s with mbx := [] } (Reg.MGT_MBX_AREA_WORD 2) code) (Reg.MGT_MBX_AREA_WORD 3) resp.length) resp

theorem numbered_lt {l : List Byte} {i : Nat} {e : Nat × Byte} (h : e ∈ numbered i l) : e.1 < i + l.length := by
  induction l generalizing i with
  | nil => cases h
  | cons b bs ih =>
    rw [numbered, List.mem_cons] at h
    rw [List.length_cons]
    obtain rfl | h := h
    · show i < _
      omega
    · have := ih h
      omega

/-- The registers before the payload read as before it. -/
theorem rd_payloadWritten {k : Nat} (hk : k < 0x101040) (hl : resp.length ≤ 4032) : rd (payloadWritten s resp) k = rd s k := by
  refine List.foldlRecOn (motive := fun u => rd u k = rd s k) _ _ rfl fun a ha e he => (rd_setF_other a _ ?_).trans ha
  have := numbered_lt he
  show k ≠ Reg.MGT_MBX_AREA (16 + e.1 / 4)
  unfold Reg.MGT_MBX_AREA
  omega

theorem payloadWritten_mbx : (payloadWritten s resp).mbx = s.mbx :=
  List.foldlRecOn (motive := fun u : State => u.mbx = s.mbx) _ _ rfl fun _ h _ _ => h

/-- The answer to PF0's only command. -/
theorem answer_only (hm : s.mbx = [c]) (hp : c.smbus = false) : answer s c code resp =
    raise (setF (resultWritten s code resp) Reg.MGT_MBX_STATUS_BUSY 0) Reg.MGT_MBX_STATUS_DONE := by
  unfold answer
  simp only [hm, hp, List.erase_cons_head, Bool.false_eq_true, if_false]
  rfl

section
variable (hm : s.mbx = [c]) (hp : c.smbus = false)
include hm hp

theorem answer_only_mbx : (answer s c code resp).mbx = [] := by
  rw [answer_only hm hp, raise_fields]
  exact payloadWritten_mbx

theorem respond_only : respond s c code resp = fallReady (answer s c code resp) :=
  congrArg fallReady (settleFor_empty 2 (answer_only_mbx hm hp))

/-- PF0's only command completes with a payload that fits the area. -/
theorem respond_done (hc : code < 2 ^ 32) (hl : resp.length ≤ 4032) : Ended (respond s c code resp) code := by
  rw [respond_only hm hp]
  refine fallReady_ended ⟨answer_only_mbx hm hp, ?_, ?_, ?_⟩
  · have area : getF (resultWritten s code resp) (Reg.MGT_MBX_AREA_WORD 2) = code := by
      unfold getF
      rw [resultWritten, rd_payloadWritten (by decide) hl, ← getF, getF_setF_key _ _ (by decide),
        getF_setF_same _ _ _ (by decide)]
      exact Nat.mod_eq_of_lt hc
    rw [answer_only hm hp, getF_raise, getF_setF_key _ _ (by decide), getF_setF_key _ _ (by decide), area]
  · rw [answer_only hm hp, getF_raise, getF_setF_bits _ _ (by decide), getF_setF_same _ _ _ (by decide)]
    rfl
  · rw [answer_only hm hp, getF_raise, getF_setF_same _ _ _ (by decide)]
    rfl

/-- It writes the mailbox's registers only. -/
theorem respond_regs : SameRegs s (respond s c code resp) mgtReg := by
  have payload (a : State) : SameRegs a (payloadWritten a resp) mgtReg := .foldl (fun _ _ => .setF (mgtReg_area _)) _ _
  have emptied : SameRegs s { s with mbx := [] } mgtReg := fun _ _ => rfl
  rw [respond_only hm hp, answer_only hm hp]
  exact .after (.ite (.setF (by decide)) (.refl _)) (.after (.raise (by decide)) (.after (.setF (by decide))
    (.after (payload _) (.after (.setF (mgtReg_area _)) (.after (.setF (mgtReg_area _)) emptied)))))

/-- It leaves every area but that of the chip alone. -/
theorem respond_frame : Frame [.chip] s (respond s c code resp) := by
  have payload (a : State) : Frame [.chip] a (payloadWritten a resp) := .foldl (fun _ _ => setF_mgt (mgtReg_area _)) _ _
  have emptied : Frame [.chip] s { s with mbx := [] } := .of_core rfl
  rw [respond_only hm hp, answer_only hm hp]
  exact .after (.ite (setF_mgt (by decide)) (.refl _)) (.after (raise_area .chip (by decide)) (.after (setF_mgt (by decide))
    (.after (payload _) (.after (setF_mgt (mgtReg_area _)) (.after (setF_mgt (mgtReg_area _)) emptied)))))

theorem slot_respond (n : Nat) : slot? (respond s c code resp) n = slot? s n := by
  unfold slot?
  rw [(respond_frame hm hp).slots]

/-- A register past block MGT reads as before. -/
theorem getF_respond {f : Fld} (hf : 0x200000 ≤ f.key) : getF (respond s c code resp) f = getF s f :=
  (respond_regs hm hp).getF (mgtReg_past hf)

theorem isSet_respond {f : Fld} (hf : 0x200000 ≤ f.key) : isSet (respond s c code resp) f = isSet s f :=
  congrArg (· == 1) (getF_respond hm hp hf)

end

/-- The command that is alone in the mailbox is run by the arm of its opcode whose payload it has. -/
theorem runCmd_takes {op : Nat} {ok : List Byte → Bool} {f : MbxCmd → State} (ha : Alone s c) (ho : c.opcode = op)
    (hk : ok c.payload = true) : runCmd s op ok f = .next (f c) := by
  obtain ⟨-, hr, -⟩ := ha
  simp [runCmd, takeCmd, hr, ho, hk]

end Sys2Proof.Machine
end

section
set_option Elab.async false
/-! ## What the end of a request leaves as it is for an eviction (R393, R396, R397)

A forced eviction ends the requests of its model's contexts and then looks whether a step or a peer transfer holds it back.
The lemmas of this part say once for each operation of a request's end that it gives an eviction no new reason to wait, and
that the mailbox command under which it runs stays. -/
namespace Sys2Proof.Machine
variable {s t u : State}

/-- A register of block CMP or CZL: the contexts' and the groups' registers. -/
def evictReg (k : Nat) : Bool := k / 0x100000 == 6 || k / 0x100000 == 11

theorem evictReg_false {k : Nat} (h : k / 0x100000 ≠ 6 ∧ k / 0x100000 ≠ 11) : evictReg k = false := by
  simp [evictReg, h]

/-- What an eviction looks at beyond those registers, with the mailbox. -/
abbrev evictView (s : State) : List MbxCmd × List (Nat × Option Ctx) × List (Nat × Lane) × List (Nat × Option Slot) ×
    List (Nat × Held) × List (Nat × Port) × List (Nat × Option Group) :=
  (s.mbx, s.ctxs, s.lanes, s.slots, s.held, s.ports, s.groups)

/-- From `s` to `u` the mailbox and the models' contexts stay, and no model has a step, a peer transfer or a group that it
had not. -/
structure Eases (s u : State) : Prop where
  mbx : u.mbx = s.mbx
  contexts : ∀ n, slotCtxs u n = slotCtxs s n
  target : ∀ g, targetOf u g = targetOf s g
  busy : ∀ g, ctxBusy s g = false → ctxBusy u g = false
  source : ∀ n, peerSource s n = false → peerSource u n = false
  formed : ∀ n, groupFormed u n = groupFormed s n
  group : ∀ n, group? s n = none → group? u n = none

/-- A context has no step and is not being composed. -/
theorem ctxBusy_eq_false {g : Nat} : ctxBusy s g = false ↔
    (∀ st ∈ stepsOf s (ctxPart g), st.ctx ≠ g) ∧ ∀ c ∈ (lane s (ctxPart g)).composing, c.ctx ≠ g := by
  unfold ctxBusy
  rw [Bool.or_eq_false_iff, List.any_eq_false]
  refine and_congr (by simp) ?_
  cases (lane s (ctxPart g)).composing <;> simp

namespace Eases

theorem refl (s : State) : Eases s s := ⟨rfl, fun _ => rfl, fun _ => rfl, fun _ => id, fun _ => id, fun _ => rfl, fun _ => id⟩

/-- The last operation first. -/
theorem after (g : Eases t u) (h : Eases s t) : Eases s u where
  mbx := g.mbx.trans h.mbx
  contexts n := (g.contexts n).trans (h.contexts n)
  target x := (g.target x).trans (h.target x)
  busy x e := g.busy x (h.busy x e)
  source n e := g.source n (h.source n e)
  formed n := (g.formed n).trans (h.formed n)
  group n e := g.group n (h.group n e)

theorem ite {P : Prop} [Decidable P] (h : Eases s t) (g : Eases s u) : Eases s (if P then t else u) := by
  split
  · exact h
  · exact g

theorem foldl {α : Type} {f : State → α → State} (h : ∀ a x, Eases a (f a x)) (l : List α) (s : State) : Eases s (l.foldl f s) :=
  List.foldlRecOn (motive := Eases s) _ _ (refl s) fun _ ha x _ => (h _ x).after ha

theorem regs_key {f : Fld} (h : ∀ k, evictReg k = true → rd u k = rd s k) (hf : evictReg f.key = true) : getF u f = getF s f := by
  unfold getF
  rw [h _ hf]

theorem evictReg_cfg (p n : Nat) : evictReg (Reg.CMP_CTX_CFG p n) = true := by
  have : Reg.CMP_CTX_CFG p n / 0x100000 = 6 := by unfold Reg.CMP_CTX_CFG; omega
  simp [evictReg, this]

theorem evictReg_group (n : Nat) : evictReg (Reg.CZL_GROUP n) = true := by
  have : Reg.CZL_GROUP n / 0x100000 = 11 := by unfold Reg.CZL_GROUP; omega
  simp [evictReg, this]

/-- An update of what an eviction does not look at. -/
theorem of_view (hv : evictView u = evictView s) (hr : ∀ k, evictReg k = true → rd u k = rd s k) : Eases s u := by
  simp only [evictView, Prod.mk.injEq] at hv
  obtain ⟨mbx, ctxs, lanes, slots, held, ports, groups⟩ := hv
  have draft (g : Nat) : isDraft u g = isDraft s g :=
    congrArg (· == 1) (regs_key (f := Reg.CMP_CTX_CFG_DRAFT _ _) hr (evictReg_cfg _ _))
  refine ⟨mbx, fun n => ?_, fun g => ?_, fun g h => ?_, fun n h => ?_, fun n => ?_, fun n h => ?_⟩
  · rw [slotCtxs, ctxs, slotCtxs]
  · rw [targetOf, ctx?, ctxs, draft, targetOf, ctx?]
  · rwa [ctxBusy, stepsOf, lane, lanes]
  · rwa [peerSource, slot?, slots, held, ports]
  · exact congrArg (· == 2) (regs_key (f := Reg.CZL_GROUP_STATE n) hr (evictReg_group n))
  · rwa [group?, groups]

theorem of_core (h : (evictView u, u.regs) = (evictView s, s.regs) := by rfl) : Eases s u := by
  obtain ⟨hv, hr⟩ := Prod.mk.inj h
  exact of_view hv fun k _ => by unfold rd; rw [hr]

theorem wr {k : Nat} {v : BitVec 64} (h : evictReg k = false) : Eases s (wr s k v) :=
  of_view rfl fun j hj => rd_wr_other s v fun e => by rw [e, h] at hj; cases hj

theorem setF {f : Fld} {x : Nat} (h : evictReg f.key = false) : Eases s (setF s f x) := wr h

/-- A lane whose steps are of contexts that had steps there, with the composition it had or none. -/
theorem setLane {p : Nat} {l : Lane} (hc : ∀ c ∈ l.composing, c ∈ (lane s p).composing)
    (hl : ∀ st ∈ l.cur.toList ++ l.nextStep.toList ++ l.pre, ∃ st0 ∈ stepsOf s p, st.ctx = st0.ctx) :
    Eases s (setLane s p l) where
  mbx := rfl
  contexts _ := rfl
  target _ := rfl
  source _ := id
  formed _ := rfl
  group _ := id
  busy g h := by
    rw [ctxBusy_eq_false] at h ⊢
    obtain ⟨steps, composing⟩ := h
    unfold stepsOf at steps ⊢
    rw [lane_setLane]
    split
    · next e =>
      subst e
      refine ⟨fun st hst => ?_, fun c h => composing c (hc c h)⟩
      obtain ⟨st0, h0, e0⟩ := hl st hst
      rw [e0]
      exact steps st0 h0
    · exact ⟨steps, composing⟩

/-- Waiting traffic that is dropped. -/
theorem dropWaits {f : HeldFor → Bool} : Eases s (dropWaits s f) where
  mbx := rfl
  contexts _ := rfl
  target _ := rfl
  busy _ := id
  formed _ := rfl
  group _ := id
  source n h := by
    unfold peerSource at h ⊢
    change (match slot? s n with | some x => _ | none => _) = _
    cases hx : slot? s n with
    | none => rfl
    | some x =>
      simp only [hx, Bool.or_eq_false_iff] at h
      obtain ⟨held, ports⟩ := h
      refine Bool.or_eq_false_iff.mpr ⟨?_, ports⟩
      simp only [List.any_eq_false] at held ⊢
      intro e he
      simp only [Machine.dropWaits, List.mem_filter, List.mem_map] at he
      obtain ⟨⟨e0, h0, rfl⟩, -⟩ := he
      have := held e0 h0
      simp only [List.any_eq_true, not_exists, not_and] at this ⊢
      exact fun w hw => this w (List.mem_of_mem_filter hw)

/-- A group that a model has, changed. -/
theorem setGroup {n : Nat} {x y : Group} (h : group? s n = some x) : Eases s (setGroup s n (some y)) where
  mbx := rfl
  contexts _ := rfl
  target _ := rfl
  busy _ := id
  source _ := id
  formed _ := rfl
  group m hm := by
    unfold group? Machine.setGroup at *
    rw [spGet_spPut]
    split
    · next e =>
      rw [e, h] at hm
      cases hm
    · exact hm

end Eases

/-- The registers from `a` to `b` lie in one block that is neither CMP nor CZL. -/
def offEvict (a b : Nat) : Bool := a / 0x100000 == b / 0x100000 && a / 0x100000 != 6 && a / 0x100000 != 11

theorem evictReg_range {a b k : Nat} (h : offEvict a b = true) (ha : a ≤ k) (hb : k ≤ b) : evictReg k = false := by
  simp only [offEvict, Bool.and_eq_true, beq_iff_eq, bne_iff_ne] at h
  exact evictReg_false (by omega)

theorem evictReg_row {a i m c : Nat} (h : offEvict a (a + (m - 1) * c) = true := by decide) (hm : 0 < m := by decide) :
    evictReg (a + i % m * c) = false :=
  evictReg_range h (by omega) (by have := Nat.mul_le_mul_right c (Nat.le_sub_one_of_lt (Nat.mod_lt i hm)); omega)

theorem evictReg_rows {a i m c j n d : Nat} (h : offEvict a (a + (m - 1) * c + (n - 1) * d) = true := by decide)
    (hm : 0 < m := by decide) (hn : 0 < n := by decide) : evictReg (a + i % m * c + j % n * d) = false :=
  evictReg_range h (by omega) (by
    have := Nat.mul_le_mul_right c (Nat.le_sub_one_of_lt (Nat.mod_lt i hm))
    have := Nat.mul_le_mul_right d (Nat.le_sub_one_of_lt (Nat.mod_lt j hn))
    omega)

/-! ### The end of a request -/

theorem setReq_eases {i : Nat} {x : Option Req} : Eases s (setReq s i x) := .of_core
theorem setCohort_eases {i : Nat} {x : Option Cohort} : Eases s (setCohort s i x) := .of_core
theorem setAdmQueue_eases {n c : Nat} {x : List Nat} : Eases s (setAdmQueue s n c x) := .of_core
theorem noteDue_eases {n m : Nat} : Eases s (noteDue s n m) := .of_core
theorem queueRec_eases {n c : Nat} {r : Rec} : Eases s (queueRec s n c r) := .of_core
theorem dropEntry_eases {i : Nat} : Eases s (dropEntry s i) := .of_core

/-- An operation that counts in TRC only. -/
theorem Eases.of_trc (hv : evictView u = evictView s) (hr : SameRegs s u trcReg) : Eases s u :=
  .of_view hv fun k hk => hr k <| by
    simp only [evictReg, Bool.or_eq_true, beq_iff_eq] at hk
    simp only [trcReg, beq_eq_false_iff_ne]
    omega

theorem moveEntry_eases {w : Bool} {i : Nat} : Eases s (moveEntry s w i) := by
  refine .of_trc ?_ moveEntry_sameRegs
  obtain ⟨f, r, l, h⟩ := touch_fields s .sys w (reserveAddr (reserveTable.1 + 256 * i)) 256
  rw [moveEntry, h]

theorem spillEntry_eases : Eases s (spillEntry s) := by
  unfold spillEntry
  split
  · exact .refl s
  · split
    · exact .after (.setF evictReg_row) (.after moveEntry_eases dropEntry_eases)
    · exact .refl s

theorem useEntry_eases {i : Nat} : Eases s (useEntry s i) := by
  unfold useEntry
  extract_lets s1 s2
  have h2 : Eases s s2 := .ite (.after (.setF evictReg_row) (.after moveEntry_eases spillEntry_eases)) spillEntry_eases
  exact .ite .of_core (.after (t := s2) .of_core h2)

theorem freeWhere_eases {p : Nat} {f : PageUse → Bool} : Eases s (freeWhere s p f) := .foldl (fun _ _ => .of_core) _ _

theorem leaveNext_eases {p h : Nat} : Eases s (leaveNext s p h) := by
  unfold leaveNext
  extract_lets l cut s1
  have lanes (f : PageUse → Bool) : lane (freeWhere s p f) p = l := freeWhere_quiet.lane p
  split
  · exact .refl s
  · next st hst =>
    refine .ite (.refl s) ?_
    extract_lets plan
    have h1 : Eases s s1 := freeWhere_eases
    have same : stepsOf s1 p = l.cur.toList ++ l.nextStep.toList ++ l.pre := by unfold stepsOf; rw [lanes]
    have composing : ∀ c ∈ l.composing, c ∈ (lane s1 p).composing := by rw [lanes]; exact fun _ => id
    refine .ite (.after (.setLane composing fun x hx => ⟨x, ?_, rfl⟩) h1) (.after (.setLane composing fun x hx => ?_) h1)
    · rw [same]
      simp only [Option.toList_none, List.append_nil, List.mem_append] at hx ⊢
      tauto
    · rw [same, hst]
      simp only [Option.toList_some, List.mem_append, List.mem_singleton] at hx ⊢
      obtain (hx | rfl) | hx := hx
      · exact ⟨x, .inl (.inl hx), rfl⟩
      · exact ⟨st, .inl (.inr rfl), rfl⟩
      · exact ⟨x, .inr hx, rfl⟩

theorem releaseShares_eases {r : Req} : Eases s (releaseShares s r) := by
  unfold releaseShares
  split
  · exact .ite (.after (.setF evictReg_row) (.after setCohort_eases (.setF evictReg_row))) (.refl s)
  · exact .refl s

theorem countEnd_eases {r : Req} : Eases s (countEnd s r) := by
  unfold countEnd
  extract_lets s1 copying s2
  have h1 : Eases s s1 := .ite (.setF evictReg_row) (.refl s)
  exact .after (.setF evictReg_row) (.ite (.after (.setF evictReg_row) (.after (.setF evictReg_row) h1)) h1)

theorem releaseReq_eases {i : Nat} {r : Req} : Eases s (releaseReq s i r) := by
  unfold releaseReq
  extract_lets p mine n s1 s2
  have h1 : Eases s s1 := .after (.setF evictReg_row) freeWhere_eases
  have h2 : Eases s s2 := .after (.setF evictReg_row) h1
  refine .ite h1 ?_
  split
  · exact .after setReq_eases h2
  · exact h2

theorem showHold_eases {n c : Nat} : Eases s (showHold s n c) := .setF (f := holdFld n c) (evictReg_row (i := n))

theorem dropMember_eases {i : Nat} {r : Req} : Eases s (dropMember s i r) := by
  unfold dropMember
  split
  · exact .refl s
  · exact .ite (.after showHold_eases (.after setAdmQueue_eases setCohort_eases)) setCohort_eases

theorem noteEnded_eases {i : Nat} {r : Req} : Eases s (noteEnded s i r) := by
  unfold noteEnded
  split
  · next x hx => exact .setGroup (x := x) hx
  · exact .refl s

theorem leaveCohort_eases {a : State} {i code : Nat} {r : Req} {st : ReqState} {counted : Bool} :
    Eases a (leaveCohort s a i r st code counted) := by
  unfold leaveCohort
  extract_lets s3 s4 s5
  have h3 : Eases a s3 := .after noteEnded_eases dropMember_eases
  have h4 : Eases a s4 := by
    unfold s4
    split
    · exact .ite (.after (.setF evictReg_rows) h3) h3
    · exact h3
  exact .after noteDue_eases (.ite (.after (.setF evictReg_rows) h4) h4)

theorem leaveLive_eases {i code : Nat} {r : Req} {st : ReqState} {counted : Bool} :
    Eases s (leaveLive s i r st code counted) := by
  have given : Eases s (giveShares s i r) :=
    .after countEnd_eases (.after releaseShares_eases (.after leaveNext_eases .dropWaits))
  rw [leaveLive_eq]
  extract_lets u
  have hu : Eases s u := .after leaveCohort_eases (.after releaseReq_eases given)
  split
  · exact .after setReq_eases hu
  · exact hu

theorem endReq_eases {i code : Nat} {st : ReqState} {silent : Bool} : Eases s (endReq s i st code silent) := by
  unfold endReq
  split
  · exact .refl s
  · extract_lets s6
    have h6 : Eases s s6 := .after leaveLive_eases useEntry_eases
    exact .ite (.refl s) (.ite (.ite h6 (.after (t := s6) .of_core h6)) (.after queueRec_eases h6))

end Sys2Proof.Machine
end

section
set_option Elab.async false
/-! ## The eviction of a model without a step (R396 to R398, Table 09.5) -/
namespace Sys2Proof.Machine
variable {s t u : State} {n g : Nat}

/-! ### Contexts that are barred -/

/-- A listed value replaced by one of which a scan of the list takes the same. -/
theorem filterMap_spIns {α β : Type} (d : Nat → α) (f : Nat × α → Option β) {k : Nat} {v w : α} {l : List (Nat × α)}
    (h : spGet d l k = v) (hd : v ≠ d k) (hf : f (k, w) = f (k, v)) : (spIns k w l).filterMap f = l.filterMap f := by
  induction l with
  | nil => exact absurd h.symm hd
  | cons e rest ih =>
    obtain ⟨k', v'⟩ := e
    simp only [spGet] at h
    simp only [spIns]
    by_cases hk : k = k'
    · subst hk
      rw [if_pos rfl] at h
      rw [if_neg (lt_irrefl k), if_pos rfl, h, List.filterMap_cons, List.filterMap_cons, hf]
    · rw [if_neg hk] at h
      by_cases hlt : k < k'
      · rw [if_pos hlt] at h
        exact absurd h.symm hd
      · rw [if_neg hlt] at h
        rw [if_neg hlt, if_neg hk, List.filterMap_cons, List.filterMap_cons, ih h]

/-- A context changed that keeps its slot and its pair. -/
theorem setCtx_eases {c d : Ctx} (h : ctx? s g = some c) (hs : d.slot = c.slot) (hp : d.pair = c.pair) :
    Eases s (setCtx s g (some d)) where
  mbx := rfl
  contexts n := by
    unfold slotCtxs setCtx spPut
    rw [if_neg (by simp)]
    exact filterMap_spIns (fun _ => none) _ h (by simp) (by simp only [hs])
  target x := by
    unfold targetOf
    rw [ctx_setCtx]
    by_cases e : x = g
    · subst e
      simp only [if_pos, h, hp]
      rfl
    · rw [if_neg e]
      rfl
  busy _ := id
  source _ := id
  formed _ := rfl
  group _ := id

theorem barSlot_eases : Eases s (barSlot s n) := by
  refine .foldl (fun a g => ?_) _ _
  split
  · next c h => exact setCtx_eases h rfl rfl
  · exact .refl a

/-! ### Contexts without a step -/

theorem discardStep_eases {p : Nat} {st : Step} : Eases s (discardStep s p st) := by
  have returned (a : State) : Eases a (returnPeerPages a st) := by
    unfold returnPeerPages mapPeers
    split
    · split
      · next h => exact .setGroup h
      · exact .refl a
    · exact .refl a
  exact .after (returned _) freeWhere_eases

theorem discards_eases (p : Nat) (l : List Step) : Eases s (l.foldl (fun a st => discardStep a p st) s) :=
  .foldl (fun _ _ => discardStep_eases) _ _

theorem discardPre_eases : Eases s (discardPre s g) := by
  unfold discardPre
  extract_lets p l s1 l1
  have h1 : Eases s s1 := discards_eases _ _
  have same : l = l1 := ((discards_quiet _ _).lane p).symm
  refine .after (.setLane (fun _ => id) fun st hst => ⟨st, ?_, rfl⟩) h1
  show st ∈ l1.cur.toList ++ l1.nextStep.toList ++ l1.pre
  rw [same] at hst
  simp only [List.mem_append, List.mem_filter] at hst ⊢
  tauto

theorem discardFor_eases : Eases s (discardFor s n) := by
  refine .foldl (fun a g => ?_) _ _
  split
  · exact .after discardPre_eases discardPre_eases
  · exact discardPre_eases

/-- The steps of a context without a step are dropped: none held the groves. -/
theorem dropSteps_idle (h : ctxBusy s g = false) : Eases s (dropSteps s (ctxPart g) (· == g)) := by
  obtain ⟨steps, -⟩ := ctxBusy_eq_false.mp h
  unfold dropSteps
  extract_lets l gone s1 held l0 l1 s2 s3
  have h1 : Eases s s1 := discards_eases _ _
  have same : l0 = l := (discards_quiet _ _).lane _
  have free : held = false := by
    unfold held
    cases e : l.cur with
    | none => rfl
    | some st => exact beq_false_of_ne (steps st (by simp [stepsOf, l, ← e]))
  rw [free, if_neg Bool.false_ne_true]
  refine .after (.setLane (fun c hc => ?_) fun st hst => ⟨st, ?_, rfl⟩) h1
  · show c ∈ l0.composing
    rw [same]
    exact (Option.mem_filter_iff.mp hc).1
  · show st ∈ l0.cur.toList ++ l0.nextStep.toList ++ l0.pre
    simp only [l1, same, List.mem_append, Option.mem_toList, Option.filter_eq_some_iff, List.mem_filter] at hst ⊢
    tauto

theorem stopCtx_idle {code : Nat} (h : ctxBusy s g = false) : Eases s (stopCtx s g code) :=
  .after (.foldl (fun _ _ => endReq_eases) _ _) (dropSteps_idle h)

/-- No context of the model has a step, and none of the targets of its drafts has. -/
theorem slotIdle_iff : slotIdle s n = true ↔ ∀ g ∈ slotCtxs s n, ctxBusy s g = false ∧
    ∀ t, targetOf s g = some t → ctxBusy s t = false := by
  unfold slotIdle
  simp only [List.all_eq_true, Bool.and_eq_true, Bool.not_eq_true']
  refine forall₂_congr fun g _ => and_congr_right fun _ => ?_
  cases targetOf s g <;> simp

theorem Eases.idle (h : Eases s u) (hi : slotIdle s n = true) : slotIdle u n = true :=
  slotIdle_iff.mpr fun g hg => by
    rw [h.contexts] at hg
    obtain ⟨own, tgt⟩ := slotIdle_iff.mp hi g hg
    exact ⟨h.busy g own, fun t ht => h.busy t (tgt t (h.target g ▸ ht))⟩

/-- The model's contexts are barred and their preempted steps discarded; its eviction is forced. -/
def evictionBegun (s : State) (n : Nat) : State := discardFor (barSlot (setF s (Reg.MDL_SLOT_STATE n) 5) n) n

theorem evictionBegun_eases : Eases s (evictionBegun s n) :=
  .after discardFor_eases (.after barSlot_eases (.setF evictReg_row))

theorem evictionBegun_frame : Frame [.ctxs, .lanes, .holders] s (evictionBegun s n) := by
  have discarded (a : State) (g : Nat) : Frame [.ctxs, .lanes, .holders] a (discardPre a g) :=
    .after setLane_frame.up (discards_quiet _ _).up
  refine .after (.foldl (fun a g => ?_) _ _) (.after (.foldl (fun a g => ?_) _ _) (setF_quiet plain1).up)
  · split
    · exact .after (discarded _ _) (discarded _ _)
    · exact discarded _ _
  · split
    · exact setCtx_frame.up
    · exact .refl a

/-- A model whose eviction is forced from now on. -/
theorem setForce_eases {x : Slot} {b : Bool} (h : slot? s n = some x) : Eases s (setSlot s n (some { x with force := b })) where
  mbx := rfl
  contexts _ := rfl
  target _ := rfl
  busy _ := id
  formed _ := rfl
  group _ := id
  source m hm := by
    unfold peerSource at hm ⊢
    rw [slot_setSlot]
    by_cases e : m = n
    · subst e
      rw [h] at hm
      rw [if_pos rfl]
      exact hm
    · rwa [if_neg e]

/-- Nothing holds the eviction of a model back: its requests end, and it goes. -/
theorem forceEvict_ready (hi : slotIdle s n = true) (hp : peerSource s n = false) (hf : groupFormed s n = false)
    (hg : group? s n = none) : ∃ v, Eases s v ∧ Frame leaveAreas s v ∧ forceEvict s n = evictModel v n := by
  have stopped : Eases s ((slotCtxs s n).foldl (fun a g => if ctxBusy a g then a else stopCtx a g 0x0701) s) := by
    refine List.foldlRecOn (motive := Eases s) _ _ (.refl s) fun a ha g hg => ?_
    have own : ctxBusy a g = false := ha.busy g (slotIdle_iff.mp hi g hg).1
    rw [own, if_neg Bool.false_ne_true]
    exact .after (stopCtx_idle own) ha
  refine ⟨_, stopped, .foldl (fun a g => .ite (.refl a) (lasting_frame.stopCtx a g _)) _ _, ?_⟩
  unfold forceEvict
  rw [if_pos (by simp [stopped.idle hi, stopped.source n hp]), evictWhole, stopped.formed, hf, stopped.group n hg]
  rfl

/-- An eviction that nothing holds back. -/
theorem startEvict_ready {x : Slot} (hx : slot? s n = some x) (hi : slotIdle s n = true) (hp : peerSource s n = false)
    (hf : groupFormed s n = false) (hg : group? s n = none) :
    ∃ v, Eases s v ∧ Frame leaveAreas s v ∧ startEvict s n = evictModel v n := by
  have begun : Eases s (evictionBegun s n) := evictionBegun_eases
  have still : slot? (evictionBegun s n) n = some x := by
    unfold slot?
    rwa [evictionBegun_frame.slots]
  have forced := Eases.after (setForce_eases (b := true) still) begun
  obtain ⟨v, eases, frame, e⟩ := forceEvict_ready (forced.idle hi) (forced.source n hp) ((forced.formed n).trans hf)
    (forced.group n hg)
  refine ⟨v, .after eases forced, .after frame (.after setSlot_frame.up evictionBegun_frame.up), ?_⟩
  rw [← e]
  show (match slot? (evictionBegun s n) n with | some x => _ | none => _) = _
  rw [still]
  rfl

end Sys2Proof.Machine
end

section
set_option Elab.async false
/-! ## The command under which a model is evicted (R114, R398)

What an eviction does to steps, pairs and cohorts, and the messages that it sends, leave the mailbox as it stands. -/
namespace Sys2Proof.Machine

/-- The commands in the mailbox stay. -/
def MbxStays (s u : State) : Prop := u.mbx = s.mbx

variable {s t u : State} {n g : Nat}

namespace MbxStays

theorem refl (s : State) : MbxStays s s := rfl

/-- The last operation first. -/
theorem after (g : MbxStays t u) (h : MbxStays s t) : MbxStays s u := Eq.trans g h

theorem ite {P : Prop} [Decidable P] (h : MbxStays s t) (g : MbxStays s u) : MbxStays s (if P then t else u) := by
  split
  · exact h
  · exact g

theorem foldl {α : Type} {f : State → α → State} (h : ∀ a x, MbxStays a (f a x)) (l : List α) (s : State) :
    MbxStays s (l.foldl f s) :=
  List.foldlRecOn (motive := MbxStays s) _ _ (refl s) fun _ ha x _ => (h _ x).after ha

end MbxStays

theorem setF_mbxStays {f : Fld} {x : Nat} : MbxStays s (setF s f x) := rfl
theorem resetReg_mbxStays {k : Nat} : MbxStays s (resetReg s k) := rfl
theorem setLane_mbxStays {p : Nat} {x : Lane} : MbxStays s (setLane s p x) := rfl
theorem setReq_mbxStays {i : Nat} {x : Option Req} : MbxStays s (setReq s i x) := rfl
theorem setCtx_mbxStays {x : Option Ctx} : MbxStays s (setCtx s g x) := rfl
theorem setPage_mbxStays {p i : Nat} {x : Page} : MbxStays s (setPage s p i x) := rfl
theorem setPort_mbxStays {x : Port} : MbxStays s (setPort s n x) := rfl
theorem emit_mbxStays {x : Tx} : MbxStays s (emit s x) := rfl

theorem raise_mbxStays {f : Fld} : MbxStays s (raise s f) := by
  rw [raise_fields]
  rfl

theorem freeWhere_mbxStays {p : Nat} {f : PageUse → Bool} : MbxStays s (freeWhere s p f) := freeWhere_eases.mbx

/-! ### Messages -/

theorem traceRec_mbxStays {p k time : Nat} {bs : List Byte} : MbxStays s (traceRec s p k time bs) := by
  have lossTold (a : State) : MbxStays a (lossRecord a p) := .ite rfl (.refl a)
  have lost (a : State) : MbxStays a (loseTrace a p time) := .after raise_mbxStays rfl
  exact .ite (.refl s) (.ite (.after (t := lossRecord s p) rfl (lossTold s)) (.after (lost _) (lossTold s)))

theorem sendFlit_mbxStays (h : sendFlit s n = some u) : MbxStays s u := by
  have left (a : State) (k c : Nat) : MbxStays a (leaveBuffer a k c) := .ite rfl (.refl a)
  unfold sendFlit at h
  dsimp only at h
  split at h
  · cases h
  · split at h
    · cases h
    · split at h
      · cases h
      · cases h
        exact .after (left _ _ _) (.after setF_mbxStays (.after emit_mbxStays setPort_mbxStays))

theorem pump_mbxStays {fuel : Nat} : ∀ {s : State}, MbxStays s (pump n fuel s) := by
  induction fuel with
  | zero => exact .refl _
  | succ k ih =>
    intro s
    unfold pump
    split
    · next h => exact .after ih (sendFlit_mbxStays h)
    · exact .refl s

theorem sendFlits_mbxStays {fs : List Flit} : MbxStays s (sendFlits s n fs).1 := by
  unfold sendFlits
  dsimp only
  split
  · exact .refl s
  · split
    · exact .after pump_mbxStays (.after setPort_mbxStays setPort_mbxStays)
    · exact .after raise_mbxStays setF_mbxStays

theorem launch_mbxStays {p tag no : Nat} {m : LinkMsg} : MbxStays s (launch s p g tag n no m).1 := by
  unfold launch
  dsimp only
  split
  · exact sendFlits_mbxStays
  · exact .after emit_mbxStays (.ite (.after traceRec_mbxStays sendFlits_mbxStays) sendFlits_mbxStays)

theorem sendMsg_mbxStays {p tag : Nat} {m : LinkMsg} : MbxStays s (sendMsg s p g tag n m) := by
  have charged (a : State) (k b : Nat) : MbxStays a (chargeOnly a p k b) := .ite rfl (.refl a)
  unfold sendMsg
  extract_lets ft e
  have h : MbxStays s e.1 := launch_mbxStays (s := { s with msgNo := (s.msgNo + 1) % 65536 })
  exact .ite (.after (charged _ _ _) h) h

/-! ### Steps, pairs and cohorts -/

theorem abandonGroup_mbxStays {p : Nat} {st : Step} : MbxStays s (abandonGroup s p st) := by
  unfold abandonGroup
  split
  · exact .refl s
  · exact .ite (.refl s) (.after setLane_mbxStays (.foldl (fun _ _ => sendMsg_mbxStays) _ _))

theorem raiseAbandon_mbxStays {p : Nat} : MbxStays s (raiseAbandon s p g) := by
  have groves (a : State) (x : Nat) : MbxStays a (setGroves a p x) := .foldl (fun _ _ => setF_mbxStays) _ _
  exact .after setLane_mbxStays (.after (groves _ _) (t := killClusters s p fun _ => true) rfl)

theorem clearCur_mbxStays {p : Nat} : MbxStays s (clearCur s p) := rfl

theorem dropSteps_mbxStays {p : Nat} {f : Nat → Bool} : MbxStays s (dropSteps s p f) := by
  unfold dropSteps
  extract_lets l gone s1 held _ l1 s2 s3
  have h2 : MbxStays s s2 := .after setLane_mbxStays (discards_eases p gone).mbx
  have h3 : MbxStays s s3 := by
    unfold s3
    split
    · exact .after abandonGroup_mbxStays h2
    · exact h2
  exact .ite (.after clearCur_mbxStays (.after raiseAbandon_mbxStays h3)) h2

theorem freeDraftPages_mbxStays {p i : Nat} {r : Req} : MbxStays s (freeDraftPages s p i r) := by
  have slots (a : State) : MbxStays a (freeDraftSlots a i) := by
    unfold freeDraftSlots
    split
    · rfl
    · rfl
  unfold freeDraftPages
  extract_lets mine s1
  have h1 : MbxStays s s1 := .after setF_mbxStays freeWhere_mbxStays
  exact .ite h1 (.after (slots _) h1)

theorem endPair_mbxStays : MbxStays s (endPair s g) := by
  unfold endPair
  split
  · extract_lets p m s1 s2
    have h1 : MbxStays s s1 := by
      refine .foldl (fun a e => .ite ?_ (.refl a)) _ _
      extract_lets a1
      split
      · exact .after setReq_mbxStays freeDraftPages_mbxStays
      · exact freeDraftPages_mbxStays
    have h2 : MbxStays s s2 := .after setF_mbxStays (.after setCtx_mbxStays h1)
    clear_value s2
    split
    · exact h2
    · exact .after setF_mbxStays (.after setF_mbxStays (.after setF_mbxStays (.after setF_mbxStays (.after setF_mbxStays
        (.after setCtx_mbxStays h2)))))
  · exact .refl s

theorem noteRejected_mbxStays {p c code : Nat} : MbxStays s (noteRejected s p c code) := by
  have flag (P : Prop) [Decidable P] (f : Fld) (a : State) : MbxStays a (if P then raise a f else a) :=
    .ite raise_mbxStays (.refl a)
  exact .after (flag _ _ _) (.after (flag _ _ _) (.after (flag _ _ _) (.after setF_mbxStays setF_mbxStays)))

theorem rejectCohort_mbxStays {co code : Nat} : MbxStays s (rejectCohort s co code) := by
  cases h : cohort? s co with
  | none =>
    unfold rejectCohort
    rw [h]
    exact .refl s
  | some c =>
    rw [rejectCohort_eq h]
    exact .after noteRejected_mbxStays (.after setAdmQueue_eases.mbx (.after setCohort_eases.mbx
      (.foldl (fun _ _ => endReq_eases.mbx) _ _)))

theorem rejectCopying_mbxStays : MbxStays s (rejectCopying s n) := by
  refine .foldl (fun a e => ?_) _ _
  split
  · exact .ite rejectCohort_mbxStays (.refl a)
  · exact .refl a

/-! ### The eviction of one model -/

theorem clearCtxRegs_mbxStays : MbxStays s (clearCtxRegs s g) := .foldl (fun _ _ => resetReg_mbxStays) _ _

theorem evictSlot_mbxStays : MbxStays s (evictSlot s n) := by
  have forgotten (a : State) (g : Nat) : MbxStays a (forgetOwner a g) := .foldl (fun a _ => .ite setPage_mbxStays (.refl a)) _ _
  unfold evictSlot
  extract_lets p gs s1 s2 s3 s4 code s5
  have h1 : MbxStays s s1 := by
    refine .foldl (fun a g => ?_) _ _
    split
    · exact endPair_mbxStays
    · exact endPair_mbxStays
  have h2 : MbxStays s s2 := .after (t := rejectCopying s1 n) rfl (.after rejectCopying_mbxStays h1)
  have h3 : MbxStays s s3 :=
    .after (.foldl (fun _ _ => .after clearCtxRegs_mbxStays (.after setCtx_mbxStays dropSteps_mbxStays)) _ _) h2
  have h4 : MbxStays s s4 := .after (.foldl (fun _ _ => forgotten _ _) _ _) (.after freeWhere_mbxStays h3)
  exact .after setF_mbxStays (.after (.foldl (fun _ _ => resetReg_mbxStays) _ _) (.after (t := s4) rfl h4))

theorem clearGroup_mbxStays : MbxStays s (clearGroup s n) :=
  .after (.foldl (fun _ _ => resetReg_mbxStays) _ _) (t := setGroup s n none) rfl

theorem evictModel_mbxStays : MbxStays s (evictModel s n) :=
  .after raise_mbxStays (.after clearGroup_mbxStays evictSlot_mbxStays)

/-- An evicted model's slot is empty. -/
theorem slot_evictSlot : slot? (evictSlot s n) n = none := by
  unfold evictSlot
  extract_lets p gs s1 s2 s3 s4 code s5
  have h5 : Frame [] (setSlot s4 n none) s5 := clearSlotRegs_quiet n
  have slots : (setF s5 (Reg.MDL_SLOT_LOAD_LOAD_CODE n) code).slots = (setSlot s4 n none).slots := h5.slots
  rw [slot?, slots]
  exact slot_setSlot_same s4 n none

theorem slot_of_frame {ps : List Area} (h : Frame ps s u) (k : Area.slots ∉ ps := by decide) : slot? u n = slot? s n := by
  unfold slot?
  rw [h.slots k]

theorem evictModel_gone : slot? (evictModel s n) n = none ∧ isSet (evictModel s n) Reg.MDL_STATUS_EVICTED = true :=
  ⟨(slot_of_frame (.after (raise_quiet plain0) clearGroup_quiet (ps := []))).trans slot_evictSlot, isSet_raise (by decide) rfl⟩

end Sys2Proof.Machine
end

section
set_option Elab.async false
/-! ## EVICT_MODEL and MODEL_DRAIN_EVICT (R396, R397) -/
namespace Sys2Proof.Machine
variable {s v : State} {c : MbxCmd} {n h : Nat} {x : Slot}

theorem slot_of_slotByHandle (hh : slotByHandle s h = some (n, x)) : slot? s n = some x := by
  unfold slotByHandle at hh
  split at hh
  · next y hy =>
    split at hh
    · cases hh
      exact hy
    · cases hh
  · cases hh

theorem slotQuiet_source (hq : slotQuiet s n = true) : peerSource s n = false := by
  simp only [slotQuiet, Bool.and_eq_true, Bool.not_eq_true'] at hq
  obtain ⟨⟨-, hp⟩, -⟩ := hq
  exact hp

/-- EVICT_MODEL with FORCE 0 of a model that is not protected and not LOADING. -/
theorem execEvictModel_eq (ha : Alone s c) (ho : c.opcode = 0x0512)
    (hh : slotByHandle s (leAt c.payload 0 2) = some (n, x)) (hb : (leAt c.payload 2 1).testBit 0 = false)
    (hr : evictRefusal s n false = none) (hl : getF s (Reg.MDL_SLOT_STATE n) ≠ 1) :
    execEvictModel s = .next (if slotQuiet s n then respond (startEvict s n) c 0 []
      else respond (setF s (Reg.MDL_SLOT_STATE n) 4) c 0x050A []) := by
  rw [execEvictModel, runCmd_takes ha ho (by simp only [hb, Bool.not_false])]
  simp only [hh, hr, if_neg hl]

theorem execEvictModelForce_eq (ha : Alone s c) (ho : c.opcode = 0x0512)
    (hh : slotByHandle s (leAt c.payload 0 2) = some (n, x)) (hb : (leAt c.payload 2 1).testBit 0 = true)
    (hr : evictRefusal s n true = none) (hl : getF s (Reg.MDL_SLOT_STATE n) ≠ 1) :
    execEvictModelForce s = .next (respond (startEvict s n) c 0 []) := by
  rw [execEvictModelForce, runCmd_takes ha ho hb]
  simp only [hh, hr, if_neg hl]

/-- The command under which an idle model is evicted ends. -/
theorem evictModel_ended (ha : Alone s c) (he : Eases s v) : slot? (respond (evictModel v n) c 0 []) n = none ∧
    isSet (respond (evictModel v n) c 0 []) Reg.MDL_STATUS_EVICTED = true ∧ Ended (respond (evictModel v n) c 0 []) 0 := by
  obtain ⟨hm, -, hp⟩ := ha
  have still : (evictModel v n).mbx = [c] := (evictModel_mbxStays.after he.mbx).trans hm
  obtain ⟨gone, flag⟩ := evictModel_gone (s := v) (n := n)
  exact ⟨(slot_respond still hp n).trans gone, (isSet_respond still hp (by decide)).trans flag,
    respond_done still hp (by decide) (by decide)⟩

theorem evictModel_mem (hv : Frame leaveAreas s v) : SameMem s (evictModel v n) :=
  (hv.trans (lasting_frame.evictModel v n)).mem

/-- A model that is busy drains. -/
theorem drain_ended (ha : Alone s c) (hx : slot? s n = some x) (code : Nat) (hc : code < 2 ^ 32) :
    slot? (respond (setF s (Reg.MDL_SLOT_STATE n) 4) c code []) n = some x ∧
      getF (respond (setF s (Reg.MDL_SLOT_STATE n) 4) c code []) (Reg.MDL_SLOT_STATE n) = 4 ∧
      Ended (respond (setF s (Reg.MDL_SLOT_STATE n) 4) c code []) code := by
  obtain ⟨hm, -, hp⟩ := ha
  have still : (setF s (Reg.MDL_SLOT_STATE n) 4).mbx = [c] := hm
  refine ⟨(slot_respond still hp n).trans hx, ?_, respond_done still hp hc (by decide)⟩
  rw [getF_respond still hp (by show 0x200000 ≤ Reg.MDL_SLOT n; unfold Reg.MDL_SLOT; omega)]
  exact getF_setF_same _ _ _ (show 16 + 3 ≤ 64 by decide)

end Sys2Proof.Machine

namespace Sys2Proof
open Machine

/-- Settles O21: an idle model's eviction is begun, and nothing that comes before `evictModel` gives it a reason to wait. -/
theorem evictionsReleaseTheSlot : Obligations.EvictionsReleaseTheSlot := by
  refine ⟨fun s c n x ha ho hh hf hg => ⟨fun hb hr hl => ⟨fun hq hi => ?_, fun hq => ?_⟩, fun hb hr hl hi hp => ?_⟩,
    fun s n _ hs hx hl hq hi hf hg => ?_⟩
  · obtain ⟨v, eases, frame, e⟩ := startEvict_ready (slot_of_slotByHandle hh) hi (slotQuiet_source hq) hf hg
    have run : execEvictModel s = .next (respond (evictModel v n) c 0 []) := by
      rw [execEvictModel_eq ha ho hh hb hr hl, if_pos hq, e]
    obtain ⟨gone, flag, ended⟩ := evictModel_ended (n := n) ha eases
    obtain ⟨hm, -, hp⟩ := ha
    have answered : SameMem (evictModel v n) (respond (evictModel v n) c 0 []) :=
      (respond_frame ((evictModel_mbxStays.after eases.mbx).trans hm) hp).mem
    exact ⟨_, run, gone, flag, ended, answered.after (evictModel_mem frame)⟩
  · exact ⟨_, (execEvictModel_eq ha ho hh hb hr hl).trans (by rw [if_neg (by simp [hq])]),
      drain_ended ha (slot_of_slotByHandle hh) 0x050A (by decide)⟩
  · obtain ⟨v, eases, -, e⟩ := startEvict_ready (slot_of_slotByHandle hh) hi hp hf hg
    exact ⟨_, (execEvictModelForce_eq ha ho hh hb hr hl).trans (by rw [e]), evictModel_ended ha eases⟩
  · obtain ⟨x, hx⟩ := Option.isSome_iff_exists.mp hx
    obtain ⟨v, -, -, e⟩ := startEvict_ready hx hi (slotQuiet_source hq) hf hg
    have run : execModelDrainEvict n s = .next (evictModel v n) := by
      unfold execModelDrainEvict
      simp only [hs, hl, hq, e, Bool.not_true, Bool.false_eq_true, if_false, and_self, if_true]
    exact ⟨_, run, evictModel_gone⟩

end Sys2Proof
end

section
set_option Elab.async false
/-! ## The end of a transfer (R384, R390, R401, R405) -/
namespace Sys2Proof.Machine
variable {s : State} {n : Nat} {x : Slot}

/-! ### A context comes to be -/

/-- A context as its creation leaves it (R184). -/
def newCtx (slotN : Nat) (first : Bool) (saveBase units : Nat) : Ctx :=
  { slot := slotN, first := first, saveBase := saveBase, saveUnits := units, tag := 0, lastAbandoned := false,
    barred := false, pair := none, unpair := false }

theorem ctx_createCtx (s : State) (g slotN : Nat) (first : Bool) (q : CtxParams) (mask saveBase units : Nat) :
    ctx? (createCtx s g slotN first q mask saveBase units) g = some (newCtx slotN first saveBase units) := by
  unfold createCtx resetEst bump
  simp only [ctx?, setF_ctxs]
  exact ctx_setCtx_same (clearCtxRegs s g) g _

/-! ### The load fails -/

/-- A fault record writes the collector's registers and its queue. -/
theorem recordFault_frame {id cls p ctx d : Nat} {lasting promoted : Bool} :
    Frame [.chip, .faults] s (recordFault s id cls lasting promoted p ctx d) := by
  have reg {k : Nat} (hk : k / 0x100000 = 14) : areaOf k = some .chip := by
    unfold areaOf
    rw [if_neg (by omega), if_neg (by omega), if_neg (by omega), if_neg (by omega), if_pos (.inr hk)]
  have word (a : State) (k : Nat) (v : BitVec 64) : Frame [.chip, .faults] a (wr a (Reg.FLT_LAST k) v) := by
    have h := wr_frame a (Reg.FLT_LAST k) v
    rw [reg (by unfold Reg.FLT_LAST; omega)] at h
    exact h.up
  have queued (a : State) (r : FaultRec) : Frame [.chip, .faults] a (queueFault a r) := by
    have joined : Frame [.chip, .faults] a { a with fltQueue := a.fltQueue ++ [r] } := by
      intro q hq
      cases q with
      | faults => simp at hq
      | _ => rfl
    exact .ite (raise_faultStatus _ _ _).up (.after (setF_frame .chip (reg rfl)).up (.after (.foldl (fun _ _ => word _ _ _) _ _) joined))
  have counted : Frame [.chip, .faults] s (if cls ≤ 4 then bump s (Reg.FLT_CNT_COUNT cls) 1 else s) :=
    .ite (setF_frame .chip (reg (by show Reg.FLT_CNT cls / 0x100000 = 14; unfold Reg.FLT_CNT; omega))).up (.refl s)
  exact .ite counted (.after (queued _ _) (.after flagClass_frame.up counted))

/-- A load that ends gives its slot back, with the code that says why, and the fault is recorded (R405). -/
theorem endLoad_fails {code : Nat} (hc : code < 2 ^ 16) (room : s.fltQueue.length < 16) :
    slot? (endLoad s n code) n = none ∧ getF (endLoad s n code) (Reg.MDL_SLOT_LOAD_LOAD_CODE n) = code ∧
      isSet (endLoad s n code) Reg.MDL_STATUS_LOAD_FAILED = true ∧ Recorded s (endLoad s n code) 0x1E := by
  have gone : Frame leaveAreas s (clearGroup (evictSlot s n) n) := .after clearGroup_quiet.up (lasting_frame.evictSlot s n)
  have failed (a : State) : Frame [] a (failLoad a n code) := .after (raise_quiet plain0) (setF_quiet plain1)
  refine ⟨?_, ?_, isSet_raise (by decide) rfl, failLoad_patrol.recorded ?_⟩
  · have empty : slot? (clearGroup (evictSlot s n) n) n = none := (slot_of_frame clearGroup_quiet).trans slot_evictSlot
    exact ((slot_of_frame (failed _)).trans (slot_of_frame recordFault_frame)).trans empty
  · unfold endLoad failLoad
    rw [getF_raise, getF_setF_key _ _ (by show Reg.MDL_SLOT_LOAD n ≠ Reg.MDL_STATUS; unfold Reg.MDL_SLOT_LOAD Reg.MDL_STATUS; omega),
      getF_setF_same _ _ _ (show 0 + 16 ≤ 64 by decide)]
    exact Nat.mod_eq_of_lt hc
  · exact (recordFault_recorded (by decide) (by rwa [gone.faults])).of_aTime gone.aTime

/-! ### The transfer is done -/

/-- Slot `n` of model `x`, whose bytes have arrived in `a`: its first context exists. -/
def arrived (a : State) (n p units : Nat) (x : Slot) : State :=
  setF (createCtx a (32 * p + x.ctxNo) n true (headerParams x.pkg) 15 x.saveBase units) (Reg.MDL_SLOT_LOAD_LOAD_CODE n) 0

theorem ctx_arrived (a : State) (p units : Nat) :
    ctx? (arrived a n p units x) (32 * p + x.ctxNo) = some (newCtx n true x.saveBase units) := by
  unfold arrived ctx?
  rw [setF_ctxs]
  exact ctx_createCtx ..

section
variable {crc : W32} {bytes : List (Nat × Byte)} (hl : getF s (Reg.MDL_SLOT_STATE n) = 1)
  (hs : serving s = true) (hd : x.fromPeer.isSome = true ∨ canDma s 0 = true)
  (hw : waitsFor s (getF s (Reg.MDL_SLOT_PARTITION n)) (· == .load n) = false) (hx : slot? s n = some x)
include hl hs hd hw

/-- Nothing holds the end of the transfer back. -/
theorem modelTransferDone_due : ¬(getF s (Reg.MDL_SLOT_STATE n) ≠ 1 ∨ (!serving s) = true ∨
    (x.fromPeer.isNone = true ∧ (!canDma s 0) = true) ∨
    waitsFor s (getF s (Reg.MDL_SLOT_PARTITION n)) (· == .load n) = true) := by
  rw [← Option.not_isSome]
  simp only [hl, hs, hw]
  grind

include hx

theorem execModelTransferDone_fails (hc : crc.toNat ≠ x.pkg.bodyCrc) :
    execModelTransferDone n crc bytes s = .next (endLoad s n 0x050C) := by
  unfold execModelTransferDone
  simp only [hx]
  rw [if_neg (modelTransferDone_due hl hs hd hw), if_pos hc]

theorem execModelTransferDone_arrives (hc : crc.toNat = x.pkg.bodyCrc) : ∃ v,
    (∃ k, ctx? v (32 * getF s (Reg.MDL_SLOT_PARTITION n) + x.ctxNo) = some k ∧ k.slot = n ∧ k.first = true) ∧
      execModelTransferDone n crc bytes s = if x.pkg.groupPart ∧ x.pkg.deviceIndex = 0 then
        .next (setF (setF v (Reg.MDL_SLOT_STATE n) 2) (Reg.MDL_SLOT_LAST_LAST_STEP n) v.qTime)
      else .next (enterReady v n) := by
  unfold execModelTransferDone
  simp only [hx]
  rw [if_neg (modelTransferDone_due hl hs hd hw), if_neg (not_not_intro hc)]
  exact ⟨_, ⟨_, ctx_arrived .., rfl, rfl⟩, rfl⟩

end

/-- A slot enters a state at a time. -/
theorem state_entered (v : State) {k at_ : Nat} (hk : k < 8) :
    getF (setF (setF v (Reg.MDL_SLOT_STATE n) k) (Reg.MDL_SLOT_LAST_LAST_STEP n) at_) (Reg.MDL_SLOT_STATE n) = k := by
  rw [getF_setF_key _ _ (by show Reg.MDL_SLOT n ≠ Reg.MDL_SLOT_LAST n; unfold Reg.MDL_SLOT Reg.MDL_SLOT_LAST; omega),
    getF_setF_same _ _ _ (show 16 + 3 ≤ 64 by decide)]
  exact Nat.mod_eq_of_lt hk

theorem enterReady_ready (v : State) : getF (enterReady v n) (Reg.MDL_SLOT_STATE n) = 3 ∧
    isSet (enterReady v n) Reg.MDL_STATUS_LOAD_DONE = true := by
  refine ⟨?_, isSet_raise (by decide) rfl⟩
  rw [enterReady, getF_raise, getF_setF_key _ _ (by show Reg.MDL_SLOT n ≠ Reg.MDL_STATUS; unfold Reg.MDL_SLOT Reg.MDL_STATUS; omega),
    state_entered v (by decide)]

end Sys2Proof.Machine

namespace Sys2Proof
open Machine

/-- Settles O20: a transfer that is due ends in `arrived`, then READY or GROUP_WAIT, or in `endLoad`. -/
theorem transfersEndInReadyOrGo : Obligations.TransfersEndInReadyOrGo := by
  refine fun s n x crc bytes _ hx hl => ⟨fun hs hd hw hc => ?_, fun hs hd hw hc room => ?_, fun room => ?_⟩
  · obtain ⟨v, ⟨k, first, ofModel⟩, run⟩ := execModelTransferDone_arrives (bytes := bytes) hl hs hd hw hx hc
    by_cases leads : x.pkg.groupPart = true ∧ x.pkg.deviceIndex = 0
    · rw [if_pos leads] at run
      exact ⟨_, run, ⟨k, first, ofModel⟩, (state_entered v (by decide)).trans (if_pos leads).symm, fun h => absurd leads h⟩
    · rw [if_neg leads] at run
      obtain ⟨state, done⟩ := enterReady_ready (n := n) v
      have kept : Frame [] v (enterReady v n) := .after (raise_quiet plain0) (.after (setF_quiet plain1) (setF_quiet plain1))
      exact ⟨_, run, ⟨k, (kept.ctx _).trans first, ofModel⟩, state.trans (if_neg leads).symm, fun _ => done⟩
  · exact ⟨_, execModelTransferDone_fails hl hs hd hw hx hc, endLoad_fails (by decide) room⟩
  · have run : execModelTransferFailed n s = .next (endLoad s n 0x050B) := by
      unfold execModelTransferFailed
      rw [if_pos ⟨by rw [hx]; rfl, hl⟩]
    exact ⟨_, run, endLoad_fails (by decide) room⟩

end Sys2Proof
end

section
set_option Elab.async false
/-! ## ADD_CONTEXT, PIN_MODEL and PAIR_DRAFT (R394, R395, R399, R400) -/
namespace Sys2Proof.Machine
variable {s : State} {c : MbxCmd} {n g d h : Nat} {x : Slot}

/-! ### A context is added -/

theorem takePages_mbxStays {p : Nat} {us : List PageUse} {o : PageOwner} : MbxStays s ((takePages s p us o).getD s) := by
  have assigned (a : State) (i : Nat) (k : PageUse) : MbxStays a (assignPage a p i k o) :=
    .after setPage_mbxStays (.ite (.refl a) rfl)
  unfold takePages
  split
  · exact .foldl (fun _ _ => assigned _ _ _) _ _
  · exact .refl s

theorem createCtx_mbxStays {slotN mask base units : Nat} {first : Bool} {q : CtxParams} :
    MbxStays s (createCtx s g slotN first q mask base units) := by
  have written (a : State) (f : Fld) (v : Nat) (h : MbxStays s a) : MbxStays s (setF a f v) := .after setF_mbxStays h
  unfold createCtx
  extract_lets p n s1 s2 s3 s4 s5
  have h1 : MbxStays s s1 := .after setCtx_mbxStays clearCtxRegs_mbxStays
  have h2 : MbxStays s s2 := written _ _ _ (written _ _ _ (written _ _ _ h1))
  have h4 : MbxStays s s4 := written _ _ _ (written _ _ _ (written _ _ _ (written _ _ _ h2)))
  have h5 : MbxStays s s5 := written _ _ _ (written _ _ _ h4)
  exact written _ _ _ (written _ _ _ (written _ _ _ h5))

/-- The estimates of a new context and the count of its model leave its service mask. -/
theorem svcMask_counted {slotN : Nat} : getF (bump (resetEst s g) (Reg.MDL_SLOT_LOAD_CONTEXTS slotN) 1) (Reg.MDL_CTX_SVC_SVC_MASK g) =
    getF s (Reg.MDL_CTX_SVC_SVC_MASK g) := by
  unfold bump resetEst
  rw [getF_setF_key, getF_setF_key, getF_setF_key]
  · show Reg.MDL_CTX_SVC g ≠ Reg.ADM_CTX g
    unfold Reg.MDL_CTX_SVC Reg.ADM_CTX
    omega
  · show Reg.MDL_CTX_SVC g ≠ Reg.CMP_CTX_TEST (ctxPart g) (ctxLocal g)
    unfold Reg.MDL_CTX_SVC Reg.CMP_CTX_TEST
    omega
  · show Reg.MDL_CTX_SVC g ≠ Reg.MDL_SLOT_LOAD slotN
    unfold Reg.MDL_CTX_SVC Reg.MDL_SLOT_LOAD
    omega

/-- A context comes to be with the service mask that is asked for. -/
theorem svcMask_createCtx {slotN mask base units : Nat} {first : Bool} {q : CtxParams} :
    getF (createCtx s g slotN first q mask base units) (Reg.MDL_CTX_SVC_SVC_MASK g) = mask % 16 := by
  unfold createCtx
  extract_lets p n s1 s2 s3 s4 s5
  rw [svcMask_counted]
  exact getF_setF_same _ _ _ (show 0 + 4 ≤ 64 by decide)

/-- The parameters that an ADD_CONTEXT gives. -/
def addedParams (b : List Byte) : CtxParams := ⟨leAt b 3 1, leAt b 4 4, leAt b 8 2, leAt b 10 2, leAt b 12 1⟩

/-- The pages and the classes of the new context are the model's no more. -/
def roomMade (s : State) (n l : Nat) (x : Slot) (mask : Nat) : State :=
  let p := getF s (Reg.MDL_SLOT_PARTITION n)
  takeClasses (bump ((takePages s p (List.replicate (aPages x.pkg) (.model n)) (.ctx (32 * p + l))).getD s)
    (Reg.MDL_SLOT_PAGES_MODEL_PAGES n) (aPages x.pkg)) n mask

theorem roomMade_mbxStays {l mask : Nat} : MbxStays s (roomMade s n l x mask) :=
  .after (.foldl (fun _ _ => setF_mbxStays) _ _) (.after setF_mbxStays takePages_mbxStays)

/-- ADD_CONTEXT of a model that has all it needs for another context. -/
theorem execAddContext_eq (ha : Alone s c) (ho : c.opcode = 0x0511)
    (hh : slotByHandle s (leAt c.payload 0 2) = some (n, x)) {l save : Nat} (hr : getF s (Reg.MDL_SLOT_STATE n) = 3)
    (hg : isSet s (Reg.MDL_SLOT_GROUP n) = false) (hd : isSet s (Reg.MDL_SLOT_DRAFT n) = false)
    (hq : ctxParamsBad s n (leAt c.payload 2 1 % 16) (addedParams c.payload) = false)
    (hl : freeLocal s (getF s (Reg.MDL_SLOT_PARTITION n)) = some l)
    (hp : aPages x.pkg ≤ freePages s (getF s (Reg.MDL_SLOT_PARTITION n)))
    (hs : findSave s (getF s (Reg.MDL_SLOT_PARTITION n))
      (saveArea (grovesOf s (getF s (Reg.MDL_SLOT_PARTITION n))) x.prog.liveSram) = some save) :
    execAddContext s = .next (respond (createCtx (roomMade s n l x (leAt c.payload 2 1 % 16))
      (32 * getF s (Reg.MDL_SLOT_PARTITION n) + l) n false (addedParams c.payload) (leAt c.payload 2 1 % 16) save
      (saveArea (grovesOf s (getF s (Reg.MDL_SLOT_PARTITION n))) x.prog.liveSram)) c 0 (leBytes 1 l)) := by
  unfold addedParams at hq
  rw [execAddContext, runCmd_takes ha ho rfl]
  simp only [hh, hl, hs]
  rw [if_neg (not_not_intro hr), if_neg (by simp [hg]), if_neg (by simp [hd]), if_neg (by simp [hq]), if_neg (by omega)]
  rfl

/-! ### A model is pinned -/

theorem setPin_ends (ha : Alone s c) (hh : slotByHandle s (leAt c.payload 0 2) = some (n, x)) (hf : isFollower s n = false)
    (hl : getF s (Reg.MDL_SLOT_STATE n) < 4) (pin : Bool) :
    isSet (setPin s c pin) (Reg.MDL_SLOT_PINNED n) = pin ∧ Ended (setPin s c pin) 0 := by
  obtain ⟨hm, -, hp⟩ := ha
  have still : (setF s (Reg.MDL_SLOT_PINNED n) (if pin then 1 else 0)).mbx = [c] := hm
  have run : setPin s c pin = respond (setF s (Reg.MDL_SLOT_PINNED n) (if pin then 1 else 0)) c 0 [] := by
    unfold setPin
    simp only [hh]
    rw [if_neg (by simp [hf]), if_neg (by omega)]
  rw [run]
  refine ⟨?_, respond_done still hp (by decide) (by decide)⟩
  rw [isSet_respond still hp (by show 0x200000 ≤ Reg.MDL_SLOT n; unfold Reg.MDL_SLOT; omega), isSet,
    getF_setF_same _ _ _ (show 19 + 1 ≤ 64 by decide)]
  cases pin <;> rfl

/-! ### A pair is made -/

/-- Both contexts name each other, and the draft is marked. -/
theorem makePair_pairs {tc dc : Ctx} (hg : ctx? s g = some tc) (hd : ctx? s d = some dc) :
    (∃ k, ctx? (makePair s g d) g = some k ∧ k.pair = some (ctxLocal d)) ∧
      (∃ k, ctx? (makePair s g d) d = some k ∧ k.pair = some (ctxLocal g)) ∧
      isSet (makePair s g d) (Reg.CMP_CTX_CFG_DRAFT (ctxPart g) (ctxLocal d)) = true ∧ MbxStays s (makePair s g d) := by
  unfold makePair
  simp only [hg, hd]
  refine ⟨?_, ?_, ?_, ?_⟩
  · simp only [ctx?, setF_ctxs]
    show ∃ k, ctx? (setCtx _ d _) g = some k ∧ _
    rw [ctx_setCtx]
    split
    · next e => exact ⟨_, rfl, by rw [e]⟩
    · exact ⟨_, ctx_setCtx_same _ _ _, rfl⟩
  · simp only [ctx?, setF_ctxs]
    exact ⟨_, ctx_setCtx_same _ d _, rfl⟩
  · have block : Reg.CMP_CTX_CFG (ctxPart g) (ctxLocal d) < 0x700000 := by unfold Reg.CMP_CTX_CFG; omega
    rw [isSet, getF_setF_key, getF_setF_bits, getF_setF_key, getF_setF_same]
    · rfl
    · show 3 + 1 ≤ 64
      decide
    · show Reg.CMP_CTX_CFG (ctxPart g) (ctxLocal d) ≠ Reg.MDL_CTX_SVC d
      unfold Reg.MDL_CTX_SVC
      omega
    · show 3 + 1 ≤ 1 ∨ 1 + 2 ≤ 3
      decide
    · show Reg.CMP_CTX_CFG (ctxPart g) (ctxLocal d) ≠ Reg.MDL_SLOT dc.slot
      unfold Reg.MDL_SLOT
      omega
  · exact .after setF_mbxStays (.after setF_mbxStays (.after setF_mbxStays (.after setF_mbxStays (.after setF_mbxStays
      (.after setF_mbxStays (.after setCtx_mbxStays setCtx_mbxStays))))))

end Sys2Proof.Machine
end

section
set_option Elab.async false
/-! ## The commands on contexts and pairs end (R394, R395, R399, R400) -/
namespace Sys2Proof.Machine
variable {s u : State} {c : MbxCmd} {n g d : Nat} {x : Slot}

/-- A context's entry after the response is the one that stood before it. -/
theorem ctx_respond {code : Nat} {resp : List Byte} (hm : s.mbx = [c]) (hp : c.smbus = false) :
    ctx? (respond s c code resp) g = ctx? s g := by
  unfold ctx?
  rw [(respond_frame hm hp).ctxs]

theorem addContext_ends {l save mask units : Nat} {q : CtxParams} (ha : Alone s c) (hu : MbxStays s u) :
    let v := respond (createCtx u g n false q (mask % 16) save units) c 0 (leBytes 1 l)
    (∃ k, ctx? v g = some k ∧ k.slot = n ∧ k.first = false ∧ k.saveBase = save) ∧
      getF v (Reg.MDL_CTX_SVC_SVC_MASK g) = mask % 16 ∧ Ended v 0 := by
  intro v
  obtain ⟨hm, -, hp⟩ := ha
  have still : (createCtx u g n false q (mask % 16) save units).mbx = [c] := (createCtx_mbxStays.after hu).trans hm
  have entry : ctx? v g = some (newCtx n false save units) := (ctx_respond still hp).trans (ctx_createCtx ..)
  refine ⟨⟨_, entry, rfl, rfl, rfl⟩, ?_, respond_done still hp (by decide) (show 1 ≤ 4032 by decide)⟩
  have kept : getF v (Reg.MDL_CTX_SVC_SVC_MASK g) = mask % 16 % 16 :=
    (getF_respond still hp (by show 0x200000 ≤ Reg.MDL_CTX_SVC g; unfold Reg.MDL_CTX_SVC; omega)).trans svcMask_createCtx
  rw [kept, Nat.mod_mod]

/-! ### PAIR_DRAFT -/

theorem ctx_of_pairTarget {b : List Byte} {tc : Ctx} (ht : pairTarget s b n = some (g, tc)) : ctx? s g = some tc := by
  unfold pairTarget at ht
  dsimp only at ht
  split at ht
  · cases ht
  · split at ht
    · next k hk =>
      split at ht
      · cases ht
        exact hk
      · cases ht
    · cases ht

/-- The draft model of a pair that may be made has one context. -/
theorem ctx_of_pairOk {dn : Nat} {dx : Slot} {tc : Ctx} {rest : List Nat} (ho : pairOk s n x tc g dn dx = true)
    (hd : slotCtxs s dn = d :: rest) : ∃ dc, ctx? s d = some dc := by
  rw [pairOk, Bool.and_eq_true] at ho
  obtain ⟨-, one⟩ := ho
  rw [hd] at one
  cases rest with
  | nil =>
    cases hc : ctx? s d with
    | none => simp [hc] at one
    | some dc => exact ⟨dc, rfl⟩
  | cons => cases one

theorem execPairDraft_eq {dn : Nat} {dx : Slot} {tc : Ctx} {rest : List Nat} (ha : Alone s c) (ho : c.opcode = 0x0514)
    (hz : leAt c.payload 4 2 ≠ 0) (hh : slotByHandle s (leAt c.payload 0 2) = some (n, x))
    (hh' : slotByHandle s (leAt c.payload 4 2) = some (dn, dx)) (ht : pairTarget s c.payload n = some (g, tc))
    (hd : slotCtxs s dn = d :: rest) (hk : pairOk s n x tc g dn dx = true) :
    execPairDraft s = .next (respond (makePair s g d) c 0 []) := by
  rw [execPairDraft, runCmd_takes ha ho (by simp [hz])]
  simp only [hh, hh', ht, hd, hk, if_true]

theorem pairDraft_ends {tc dc : Ctx} (ha : Alone s c) (hg : ctx? s g = some tc) (hd : ctx? s d = some dc) :
    let v := respond (makePair s g d) c 0 []
    (∃ k, ctx? v g = some k ∧ k.pair = some (ctxLocal d)) ∧ (∃ k, ctx? v d = some k ∧ k.pair = some (ctxLocal g)) ∧
      isSet v (Reg.CMP_CTX_CFG_DRAFT (ctxPart g) (ctxLocal d)) = true ∧ Ended v 0 := by
  intro v
  obtain ⟨hm, -, hp⟩ := ha
  obtain ⟨target, draft, marked, stays⟩ := makePair_pairs hg hd
  have still : (makePair s g d).mbx = [c] := stays.trans hm
  have entries (k : Nat) : ctx? v k = ctx? (makePair s g d) k := ctx_respond still hp
  have flag : isSet v (Reg.CMP_CTX_CFG_DRAFT (ctxPart g) (ctxLocal d)) = _ := isSet_respond still hp (by
    show 0x200000 ≤ Reg.CMP_CTX_CFG (ctxPart g) (ctxLocal d)
    unfold Reg.CMP_CTX_CFG
    omega)
  rw [entries, entries, flag]
  exact ⟨target, draft, marked, respond_done still hp (by decide) (by decide)⟩

/-! ### The pair ends -/

/-- Neither context of a pair that ended names the other. -/
theorem endPair_parts {tc : Ctx} (hg : ctx? s g = some tc) (hp : tc.pair ≠ none) (hd : isDraft s g = false) :
    ∃ k, ctx? (endPair s g) g = some k ∧ k.pair = none := by
  obtain ⟨m, hm⟩ := Option.ne_none_iff_exists'.mp hp
  have draft : draftOf s g = some (32 * (g / 32) + m) := by
    have plain : isSet s (Reg.CMP_CTX_CFG_DRAFT (g / 32) (g % 32)) = false := hd
    unfold draftOf
    simp only [hg, plain, hm, Option.map_some, Bool.false_eq_true, if_false]
  unfold endPair
  simp only [hg, draft]
  split
  · simp only [ctx?, setF_ctxs]
    exact ⟨_, ctx_setCtx_same _ g _, rfl⟩
  · simp only [ctx?, setF_ctxs]
    show ∃ k, ctx? (setCtx _ _ _) g = some k ∧ _
    rw [ctx_setCtx]
    split
    · exact ⟨_, rfl, rfl⟩
    · simp only [ctx?, setF_ctxs]
      exact ⟨_, ctx_setCtx_same _ g _, rfl⟩

theorem execUnpairDraft_eq {tc : Ctx} (ha : Alone s c) (ho : c.opcode = 0x0514) (hz : leAt c.payload 4 2 = 0)
    (hh : slotByHandle s (leAt c.payload 0 2) = some (n, x)) (ht : pairTarget s c.payload n = some (g, tc))
    (hp : tc.pair ≠ none) (hd : isDraft s g = false) (hw : ctxPreempted s g = false) (hb : ctxBusy s g = false) :
    execUnpairDraft s = .next (respond (endPair s g) c 0 []) := by
  have named : tc.pair.isNone = false := Option.isNone_eq_false_iff.mpr (Option.isSome_iff_ne_none.mpr hp)
  rw [execUnpairDraft, runCmd_takes ha ho (by simp [hz])]
  simp only [hh, ht, named, hd, unpairCtx, hw, hb, Bool.or_self, Bool.false_eq_true, if_false]

theorem unpairDraft_ends {tc : Ctx} (ha : Alone s c) (hg : ctx? s g = some tc) (hp : tc.pair ≠ none)
    (hd : isDraft s g = false) : let v := respond (endPair s g) c 0 []
    (∃ k, ctx? v g = some k ∧ k.pair = none) ∧ Ended v 0 := by
  intro v
  obtain ⟨hm, -, host⟩ := ha
  have still : (endPair s g).mbx = [c] := endPair_mbxStays.trans hm
  have entry : ctx? v g = ctx? (endPair s g) g := ctx_respond still host
  exact ⟨entry ▸ endPair_parts hg hp hd, respond_done still host (by decide) (by decide)⟩

end Sys2Proof.Machine

namespace Sys2Proof
open Machine

/-- Settles O22: each command runs by its equation, and its answer leaves the contexts and the fields it made. -/
theorem contextsPinsAndPairs : Obligations.ContextsPinsAndPairs := by
  refine fun s c n x ha hh => ⟨fun l save ho hr hg hd hq hl hp hs => ?_, fun ho hf hl => ⟨fun hb => ?_, fun hb => ?_⟩,
    fun dn dx g tc d rest ho hz hh' ht hd hk => ?_, fun g tc ho hz ht hp hd hw hb => ?_⟩
  · exact ⟨_, execAddContext_eq ha ho hh hr hg hd hq hl hp hs, addContext_ends ha roomMade_mbxStays⟩
  · exact ⟨_, runCmd_takes ha ho hb, setPin_ends ha hh hf hl true⟩
  · exact ⟨_, runCmd_takes ha ho (by simp only [hb, Bool.not_false]), setPin_ends ha hh hf hl false⟩
  · obtain ⟨dc, hdc⟩ := ctx_of_pairOk hk hd
    exact ⟨_, execPairDraft_eq ha ho hz hh hh' ht hd hk, pairDraft_ends ha (ctx_of_pairTarget ht) hdc⟩
  · exact ⟨_, execUnpairDraft_eq ha ho hz hh ht hp hd hw hb, unpairDraft_ends ha (ctx_of_pairTarget ht) hp hd⟩

end Sys2Proof
end

section
set_option Elab.async false
/-! ## LOAD_MODEL begins a transfer (R379, R382, R384, R386)

The transfer's bytes are offered as held traffic, which may issue what already waits; neither touches the slots' registers nor
the mailbox. -/
namespace Sys2Proof.Machine
variable {s a : State} {c : MbxCmd} {n p l save : Nat} {k : Pkg} {g : ProgInfo} {fit : Nat × Nat × Bool} {pl : List Byte}

/-! ### Held traffic is offered -/

theorem touchPart_mbxStays {q : Nat} {who : Agent} {w : Bool} {x m : Nat} : MbxStays s (touchPart s q who w x m) := by
  obtain ⟨f, r, l2, e⟩ := touchPart_fields s q who w x m
  rw [e]
  rfl

theorem writePart_mbxStays {q x : Nat} {who : Agent} {bs : List Byte} : MbxStays s (writePart s q who x bs).1 := by
  obtain ⟨f, r, m, l2, ecc, e, -⟩ := writePart_fields s q who x bs
  rw [e]
  rfl

theorem sendPage_mbxStays {i pg at_ : Nat} : MbxStays s (sendPage s p i pg at_) := by
  unfold sendPage
  split
  · exact .refl s
  · extract_lets x bytes host s1
    have h1 : MbxStays s s1 := .after emit_mbxStays touchPart_mbxStays
    exact .ite (.after emit_mbxStays h1) h1

theorem waitIssued_mbxStays {e : HeldFor × Nat} : MbxStays s (waitIssued p s e) := by
  unfold waitIssued
  split
  · exact sendPage_mbxStays
  · exact .foldl (fun _ _ => writePart_mbxStays) _ _
  · exact .refl s

theorem setHeld_mbxStays {q : Nat} {x : Held} : MbxStays s (setHeld s p q x) := rfl

theorem issueHeld_mbxStays {q : Nat} : MbxStays s (issueHeld s p q) :=
  .after setHeld_mbxStays (.after (.foldl (fun _ _ => waitIssued_mbxStays) _ _) setF_mbxStays)

theorem chargeHeld_mbxStays {q m : Nat} {f : HeldFor} : MbxStays s (chargeHeld s p q f m) := by
  unfold chargeHeld
  split
  · exact .after issueHeld_mbxStays setHeld_mbxStays
  · exact waitIssued_mbxStays

/-- A register of block PRT, the levels of the regulators among them, or of block TRC. -/
def heldReg (r : Nat) : Bool := trcReg r || r / 0x100000 == 9

theorem heldReg_of_trcReg (r : Nat) (h : trcReg r = true) : heldReg r = true := by rw [heldReg, h, Bool.true_or]

theorem heldReg_level {q : Nat} : heldReg (Reg.PRT_REG_LEVEL_LEVEL p q).key = true := by
  have block : Reg.PRT_REG_LEVEL p q / 0x100000 = 9 := by unfold Reg.PRT_REG_LEVEL; omega
  show (_ || Reg.PRT_REG_LEVEL p q / 0x100000 == 9) = true
  rw [block]
  exact Bool.or_true _

theorem touchPart_sameRegs {q : Nat} {who : Agent} {w : Bool} {x m : Nat} : SameRegs s (touchPart s q who w x m) heldReg :=
  .foldl (fun b e => by
    cases translate b q (128 * e.1) with
    | some y => exact touchLine_sameRegs.up heldReg_of_trcReg
    | none => exact .refl b) _ _

theorem writePart_sameRegs {q x : Nat} {who : Agent} {bs : List Byte} : SameRegs s (writePart s q who x bs).1 heldReg := by
  have stored : SameRegs s (storePart s q x bs).1 heldReg := by
    obtain ⟨m, e, h⟩ := storePart_fields q bs s x
    rw [h]
    exact fun _ _ => rfl
  exact touchPart_sameRegs.after stored

theorem emit_sameRegs {x : Tx} : SameRegs s (emit s x) heldReg := fun _ _ => rfl

theorem sendPage_sameRegs {i pg at_ : Nat} : SameRegs s (sendPage s p i pg at_) heldReg := by
  unfold sendPage
  split
  · exact .refl s
  · extract_lets x bytes host s1
    have h1 : SameRegs s s1 heldReg := .after emit_sameRegs touchPart_sameRegs
    exact .ite (.after emit_sameRegs h1) h1

theorem waitIssued_sameRegs {e : HeldFor × Nat} : SameRegs s (waitIssued p s e) heldReg := by
  unfold waitIssued
  split
  · exact sendPage_sameRegs
  · exact .foldl (fun _ _ => writePart_sameRegs) _ _
  · exact .refl s

theorem setHeld_sameRegs {q : Nat} {x : Held} : SameRegs s (setHeld s p q x) heldReg := fun _ _ => rfl

theorem issueHeld_sameRegs {q : Nat} : SameRegs s (issueHeld s p q) heldReg :=
  .after setHeld_sameRegs (.after (.foldl (fun _ _ => waitIssued_sameRegs) _ _) (.setF heldReg_level))

theorem chargeHeld_sameRegs {q m : Nat} {f : HeldFor} : SameRegs s (chargeHeld s p q f m) heldReg := by
  unfold chargeHeld
  split
  · exact .after issueHeld_sameRegs setHeld_sameRegs
  · exact waitIssued_sameRegs

theorem heldReg_slot : heldReg (Reg.MDL_SLOT n) = false := by
  have block : Reg.MDL_SLOT n / 0x100000 = 8 := by unfold Reg.MDL_SLOT; omega
  simp [heldReg, trcReg, block]

/-! ### The slot of a model that loads -/

/-- What the slot of a model that loads holds. -/
def loadingSlot (l save : Nat) (k : Pkg) (g : ProgInfo) (pl : List Byte) : Slot :=
  let peer := (leAt pl 1 1).testBit 3
  { pkg := k, prog := g, fromPeer := if peer then some (leAt pl 10 1, leAt pl 8 2) else none,
    hostAddr := if peer then 0 else leAt pl 8 8, pinOnLoad := (leAt pl 1 1).testBit 1, saveBase := save, ctxNo := l,
    force := false, peerReads := [] }

/-- A slot has a generation. -/
def slotRegenerated (a : State) (n gen : Nat) : State := { a with slotGens := spPut (fun _ => 0) n gen a.slotGens }

/-- The pages are taken, and the slot has a new generation and its model. -/
def slotTaken (s : State) (n p l save : Nat) (k : Pkg) (g : ProgInfo) (pl : List Byte) : State :=
  setSlot (slotRegenerated ((takePages s p (List.replicate (wPages k + aPages k) (.model n)) (.ctx (32 * p + l))).getD s) n
    (nextGen n (spGet (fun _ => 0) s.slotGens n))) n (some (loadingSlot l save k g pl))

/-- The slot's register names the handle, LOADING and the partition. -/
def slotNamed (a : State) (n h p : Nat) : State :=
  setF (setF (setF a (Reg.MDL_SLOT_HANDLE n) h) (Reg.MDL_SLOT_STATE n) 1) (Reg.MDL_SLOT_PARTITION n) p

/-- The other fields of the slot: its flags, its pages, and what the fit rule granted. -/
def slotDetailed (a : State) (n : Nat) (k : Pkg) (fit : Nat × Nat × Bool) (pl : List Byte) : State :=
  let s4 := setF (setF a (Reg.MDL_SLOT_PINNED n) (leAt pl 1 1 / 2 % 2)) (Reg.MDL_SLOT_GROUP n) (if k.groupPart then 1 else 0)
  let s5 := setF (setF (setF s4 (Reg.MDL_SLOT_PAGES_MODEL_PAGES n) (wPages k + aPages k)) (Reg.MDL_SLOT_KV_RSV_KV_RSV n) fit.1)
    (Reg.MDL_SLOT_CONC_CONC_CAP n) fit.2.1
  if fit.2.2 then raise (setF s5 (Reg.MDL_SLOT_TIGHT n) 1) Reg.MDL_STATUS_TIGHT else s5

/-- The body's bytes are offered, those that cross the host link too. -/
def bodyOffered (a : State) (n p : Nat) (k : Pkg) (pl : List Byte) : State :=
  let body := k.weightBytes - k.programLen
  chargeHeld (if (leAt pl 1 1).testBit 3 then a else chargeHeld a p 1 (.load n) body) p 0 (.load n) body

/-- The handle of a load in slot `n`: its new generation, and the slot. -/
def loadHandle (s : State) (n : Nat) : Nat := nextGen n (spGet (fun _ => 0) s.slotGens n) * 32 + n

theorem beginLoad_eq : beginLoad s n p l save k g fit pl =
    bodyOffered (slotDetailed (slotNamed (slotTaken s n p l save k g pl) n (loadHandle s n) p) n k fit pl) n p k pl := rfl

theorem slot_slotRegenerated {gen m : Nat} : slot? (slotRegenerated a n gen) m = slot? a m := rfl
theorem slotRegenerated_mbxStays {gen : Nat} : MbxStays a (slotRegenerated a n gen) := rfl
theorem setSlot_mbxStays {x : Option Slot} : MbxStays a (setSlot a n x) := rfl

theorem slot_slotTaken {m : Nat} : slot? (slotTaken s n p l save k g pl) m =
    if m = n then some (loadingSlot l save k g pl) else slot? s m := by
  have pages (us : List PageUse) (o : PageOwner) : slot? ((takePages s p us o).getD s) m = slot? s m := by
    cases h : takePages s p us o with
    | none => rfl
    | some u => exact slot_of_frame (takePages_frame h)
  unfold slotTaken
  rw [slot_setSlot, slot_slotRegenerated, pages]

theorem slotTaken_mbxStays : MbxStays s (slotTaken s n p l save k g pl) :=
  .after setSlot_mbxStays (.after slotRegenerated_mbxStays takePages_mbxStays)

theorem slotNamed_quiet {h : Nat} : Frame [] a (slotNamed a n h p) :=
  .after (setF_quiet plain1) (.after (setF_quiet plain1) (setF_quiet plain1))

theorem slotNamed_mbxStays {h : Nat} : MbxStays a (slotNamed a n h p) := rfl

theorem slotNamed_state {h : Nat} : getF (slotNamed a n h p) (Reg.MDL_SLOT_STATE n) = 1 := by
  unfold slotNamed
  rw [getF_setF_bits _ _ (.inl (show 16 + 3 ≤ 20 by decide)), getF_setF_same _ _ _ (show 16 + 3 ≤ 64 by decide)]
  rfl

theorem slotNamed_partition {h : Nat} (hp : p < 16) : getF (slotNamed a n h p) (Reg.MDL_SLOT_PARTITION n) = p :=
  (getF_setF_same _ _ _ (show 20 + 4 ≤ 64 by decide)).trans (Nat.mod_eq_of_lt hp)

theorem slotDetailed_quiet : Frame [] a (slotDetailed a n k fit pl) := by
  unfold slotDetailed
  extract_lets s4 s5
  have h4 : Frame [] a s4 := .after (setF_quiet plain1) (setF_quiet plain1)
  have h5 : Frame [] a s5 := .after (setF_quiet plain1) (.after (setF_quiet plain1) (.after (setF_quiet plain1) h4))
  exact .ite (.after (raise_quiet plain0) (.after (setF_quiet plain1) h5)) h5

theorem slotDetailed_mbxStays : MbxStays a (slotDetailed a n k fit pl) := by
  unfold slotDetailed
  extract_lets s4 s5
  have h5 : MbxStays a s5 := .after setF_mbxStays (.after setF_mbxStays (.after setF_mbxStays
    (.after setF_mbxStays setF_mbxStays)))
  exact .ite (.after raise_mbxStays (.after setF_mbxStays h5)) h5

/-- The state and the partition are not among the other fields. -/
theorem getF_slotDetailed {f : Fld} (hk : f.key = Reg.MDL_SLOT n) (hb : f.lo + f.w ≤ 19 ∨ 20 ≤ f.lo ∧ f.lo + f.w ≤ 24) :
    getF (slotDetailed a n k fit pl) f = getF a f := by
  have pages : f.key ≠ Reg.MDL_SLOT_PAGES n := by rw [hk]; unfold Reg.MDL_SLOT Reg.MDL_SLOT_PAGES; omega
  have kv : f.key ≠ Reg.MDL_SLOT_KV_RSV n := by rw [hk]; unfold Reg.MDL_SLOT Reg.MDL_SLOT_KV_RSV; omega
  have conc : f.key ≠ Reg.MDL_SLOT_CONC n := by rw [hk]; unfold Reg.MDL_SLOT Reg.MDL_SLOT_CONC; omega
  have status : f.key ≠ Reg.MDL_STATUS := by rw [hk]; unfold Reg.MDL_SLOT Reg.MDL_STATUS; omega
  have pinned : f.lo + f.w ≤ 19 ∨ 19 + 1 ≤ f.lo := by omega
  have group : f.lo + f.w ≤ 26 ∨ 26 + 1 ≤ f.lo := by omega
  have tight : f.lo + f.w ≤ 24 ∨ 24 + 1 ≤ f.lo := by omega
  unfold slotDetailed
  extract_lets s4 s5
  have h5 : getF s5 f = getF a f := by
    unfold s5 s4
    rw [getF_setF_key _ _ conc, getF_setF_key _ _ kv, getF_setF_key _ _ pages, getF_setF_bits _ _ group,
      getF_setF_bits _ _ pinned]
  split
  · rw [getF_raise, getF_setF_key _ _ status, getF_setF_bits _ _ tight, h5]
  · exact h5

theorem bodyOffered_frame : Frame [.dram, .held] a (bodyOffered a n p k pl) :=
  .after chargeHeld_frame (.ite (.refl a) chargeHeld_frame)

theorem bodyOffered_mbxStays : MbxStays a (bodyOffered a n p k pl) :=
  .after chargeHeld_mbxStays (.ite (.refl a) chargeHeld_mbxStays)

theorem bodyOffered_sameRegs : SameRegs a (bodyOffered a n p k pl) heldReg :=
  .after chargeHeld_sameRegs (.ite (.refl a) chargeHeld_sameRegs)

/-! ### What the begin of a load leaves -/

theorem slot_beginLoad {m : Nat} : slot? (beginLoad s n p l save k g fit pl) m =
    if m = n then some (loadingSlot l save k g pl) else slot? s m := by
  rw [beginLoad_eq, slot_of_frame bodyOffered_frame, slot_of_frame slotDetailed_quiet, slot_of_frame slotNamed_quiet, slot_slotTaken]

theorem beginLoad_mbxStays : MbxStays s (beginLoad s n p l save k g fit pl) := by
  rw [beginLoad_eq]
  exact .after bodyOffered_mbxStays (.after slotDetailed_mbxStays (.after slotNamed_mbxStays slotTaken_mbxStays))

theorem beginLoad_state : getF (beginLoad s n p l save k g fit pl) (Reg.MDL_SLOT_STATE n) = 1 := by
  rw [beginLoad_eq, bodyOffered_sameRegs.getF heldReg_slot, getF_slotDetailed rfl (.inl (show 16 + 3 ≤ 19 by decide)), slotNamed_state]

theorem beginLoad_partition (hp : p < 16) : getF (beginLoad s n p l save k g fit pl) (Reg.MDL_SLOT_PARTITION n) = p := by
  rw [beginLoad_eq, bodyOffered_sameRegs.getF heldReg_slot,
    getF_slotDetailed rfl (.inr (show 20 ≤ 20 ∧ 20 + 4 ≤ 24 by decide)), slotNamed_partition hp]

/-! ### The command -/

/-- A load of slot `n` that begins and evicts no model, and its response. -/
def loadBegun (s : State) (c : MbxCmd) (p n l save : Nat) (k : Pkg) (g : ProgInfo) (fit : Nat × Nat × Bool) : State :=
  let s1 := beginLoad s n p l save k g fit c.payload
  respond s1 c (if fit.2.2 then 0x0502 else 0) (loadResponse (getF s1 (Reg.MDL_SLOT_HANDLE n)) (wPages k + aPages k) fit.1 fit.2.1 [])

theorem placeLoad_begins (hl : freeLocal s p = some l) (he : (leAt c.payload 1 1).testBit 0 = false)
    (hf : fitRule k ((leAt c.payload 1 1).testBit 2) (freePages s p) = some fit)
    (hs : findSave s p (saveArea (grovesOf s p) g.liveSram) = some save) :
    placeLoad s c p n k g [] = loadBegun s c p n l save k g fit := by
  have none_leave : (if (leAt c.payload 1 1).testBit 0 = true then makeRoom s p k ((leAt c.payload 1 1).testBit 2) else (s, [])) =
      (s, []) := if_neg (by simp [he])
  unfold placeLoad loadBegun
  -- The matches are on variables before they are resolved: the kernel would evaluate the fit rule and the search.
  simp only [none_leave]
  generalize freeLocal s p = number at hl ⊢
  generalize fitRule k ((leAt c.payload 1 1).testBit 2) (freePages s p) = granted at hf ⊢
  generalize findSave s p (saveArea (grovesOf s p) g.liveSram) = area at hs ⊢
  subst hl hf hs
  rfl

/-- A LOAD_MODEL from host memory that passes every step up to the choice of its slot. -/
theorem execLoadModel_places {hdr : List Byte} (ha : Alone s c) (ho : c.opcode = 0x0510) (hp : leAt c.payload 0 1 = p)
    (h16 : p < 16) (hv : partValid s p = true) (hd : partState s p ≠ 2) (hr : partState s p ≠ 4)
    (hh : (leAt c.payload 1 1).testBit 3 = false) (hal : leAt c.payload 8 8 % 4096 = 0)
    (hin : leAt c.payload 8 8 + leAt c.payload 16 8 ≤ 2 ^ 57) (hk : headerOk hdr (leAt c.payload 16 8) = true)
    (hg : programOk (pkgOfHeader hdr) g (grovesOf s p) = true)
    (hgrp : (pkgOfHeader hdr).groupPart = false ∨ slotsOf s p = [])
    (hno : (slotsOf s p).any (fun m => isSet s (Reg.MDL_SLOT_GROUP m)) = false)
    (hn : (List.range 32).find? (fun m => (slot? s m).isNone) = some n) :
    execLoadModel (some (hdr, g)) s = .next (placeLoad s c p n (pkgOfHeader hdr) g []) := by
  have alone : ((pkgOfHeader hdr).groupPart && !(slotsOf s p).isEmpty) = false := by
    rcases hgrp with h | h
    · rw [h, Bool.false_and]
    · rw [h, List.isEmpty_nil, Bool.not_true, Bool.and_false]
  rw [execLoadModel, runCmd_takes ha ho rfl]
  simp only [hp, hh]
  rw [if_neg (not_or.mpr ⟨by omega, by simp [hv]⟩), if_neg (by simp [hd, hr]), if_neg (by omega), if_neg (by simp)]
  simp only [Bool.false_eq_true, if_false, hk, hg, alone, hno, Bool.not_true, Bool.or_self, hn]

end Sys2Proof.Machine

namespace Sys2Proof
open Machine

/-- Settles O19: the command places its load, and slot and fields stay as the begin of the load wrote them. -/
theorem acceptedLoadsBegin : Obligations.AcceptedLoadsBegin := by
  intro s c hdr g n l save fit _ ha ho p h16 hv hd hr hh he hal hin hk hg hgrp hno hn hl hf hs
  have run : execLoadModel (some (hdr, g)) s = .next (loadBegun s c p n l save (pkgOfHeader hdr) g fit) := by
    rw [execLoadModel_places ha ho rfl h16 hv hd hr hh hal hin hk hg hgrp hno hn, placeLoad_begins hl he hf hs]
  obtain ⟨hm, -, host⟩ := ha
  have still : (beginLoad s n p l save (pkgOfHeader hdr) g fit c.payload).mbx = [c] := beginLoad_mbxStays.trans hm
  have key : 0x200000 ≤ Reg.MDL_SLOT n := by unfold Reg.MDL_SLOT; omega
  refine ⟨_, run, ?_, ?_, ⟨loadingSlot l save (pkgOfHeader hdr) g c.payload, ?_, rfl, rfl, rfl, rfl⟩, fun m other => ?_,
    respond_done still host ?_ ?_⟩
  · exact (getF_respond still host key).trans beginLoad_state
  · exact (getF_respond still host key).trans (beginLoad_partition h16)
  · exact (slot_respond still host n).trans (slot_beginLoad.trans (if_pos rfl))
  · exact (slot_respond still host m).trans (slot_beginLoad.trans (if_neg other))
  · split <;> decide
  · simp only [loadResponse, List.length_append, length_leBytes, List.flatMap_nil, List.length_nil]
    decide

end Sys2Proof
end
